-- ==== Sys2Proof/Word.lean ====
section
/-!
DEFINITION. The word types of the model: bytes and 64-bit words, and the little-endian order of
every multi-byte field (spec 00 R4).
-/

namespace Sys2Proof

/-- One byte. -/
abbrev Byte := BitVec 8

/-- A 64-bit word: a register of a control core, a setup register, a global address. -/
abbrev Word := BitVec 64

end Sys2Proof
end

