-- ==== Sys2Proof/Types.lean ====
section
/-!
DEFINITION. The data a command carries: unit numbers, packets (spec 07), training sequences and link
frames (spec 08), what the host answered to a read, what a sensor, a stack or the environment showed.
-/

namespace Sys2Proof

/-- Physical tile: 72 × partition + physical index x (spec 01 R10, 05 The armature). -/
abbrev TileNo := Fin 864
/-- Partition, and the stack of the same number (spec 01 R10). -/
abbrev PartNo := Fin 12
/-- Zaldarad link port (spec 01 R12). -/
abbrev PortNo := Fin 32
/-- Tenant, 0 the system owner (spec 06 R157). -/
abbrev TenantNo := Fin 65
/-- Ring number (spec 06, RNG_BASE_r). -/
abbrev RingNo := Fin 8192
/-- Doorbell line (spec 06 R165). -/
abbrev LineNo := Fin 1024
/-- A 5-bit register specifier (spec 02 Registers and windows). -/
abbrev Reg := BitVec 5

/-- A descriptor: its ring and its free-running index (spec 06 R162, R174). -/
structure DescKey where
  ring  : RingNo
  index : BitVec 32
deriving DecidableEq, Repr

/-- What a read of host memory came back with (spec 06 R164, R172, HIF_ERR). -/
inductive HostRead where
  | ok (bytes : List Byte)
  | translation          -- the ATS translation failed
  | error                -- an error completion or poisoned data
deriving DecidableEq, Repr

/-- The tail check of a packet as received (spec 07 R192, R201). -/
inductive Tail where
  | good
  | bad
  | stomped
deriving DecidableEq, Repr

/-- One 16-byte extension header: KIND, NEXT, the two reserved bits, bytes 1 to 15 (spec 07 R196). -/
structure Ext where
  kind : BitVec 3
  next : BitVec 3
  rsvd : BitVec 2
  body : BitVec 120
deriving DecidableEq, Repr

/-- A Zaldarad packet: base header, extensions, payload, tail (spec 07 R192, R193). -/
structure Packet where
  addr    : Word
  ver     : BitVec 2
  typ     : BitVec 4
  phase   : BitVec 2
  nonmin  : Bool
  ext     : BitVec 3
  plen    : BitVec 13
  tenant  : BitVec 7
  srcChip : BitVec 16
  rid     : BitVec 16
  exts    : List Ext
  payload : List Byte
  tail    : Tail
deriving DecidableEq, Repr

/-- Where a packet entered the package router (spec 07 R193, R205). -/
inductive PktSource where
  | port (p : PortNo)
  | part (n : PartNo)
  | spine
deriving DecidableEq, Repr

/-- What a stack read met in the line's codeword (spec 04 R117, R118). -/
inductive LineErr where
  | clean
  | correctable
  | uncorrectable
  | unseen               -- three or more symbols, miscorrected or unseen
  | retrainFailed        -- a command parity or data error, and the channel's interface failed to retrain (R124)
deriving DecidableEq, Repr

/-- Symbols 1 to 15 of a training sequence (spec 08 R244). -/
structure TrainSeq where
  typ   : Byte
  lane  : Byte
  ver   : Byte
  rate  : Byte
  good  : Byte
  chip  : BitVec 16
  port  : Byte
  flags : Byte
  ack   : BitVec 16
  zero  : BitVec 24
  check : Byte
deriving DecidableEq, Repr

/-- One flit of a link frame: its channel nibble, its 64 bytes, whether its link CRC is good (spec 08 R237, R238). -/
structure LinkFlit where
  vc    : BitVec 4
  bytes : List Byte
  crcOk : Bool
deriving DecidableEq, Repr

/-- A link frame as its 208 bytes say it: three flits and the trailer (spec 08 R237). -/
structure LinkFrame where
  flits  : List LinkFlit
  seq    : BitVec 11
  ack    : BitVec 11
  nak    : Bool
  cred   : List Nat
  rdy    : Bool
  tcrcOk : Bool
deriving DecidableEq, Repr

/-- What a receive lane has brought in Align (spec 08 R233, R245): the bit positions of the commas of its last sequences, and the
10-bit characters, each with the first bit on the wire as bit 9. -/
structure LaneRx where
  pos   : List Nat
  chars : List (BitVec 10)
deriving DecidableEq, Repr

/-- An ordered set as the lanes of a port read it: a block for each lane by rank (spec 08 R257). -/
structure OsRead where
  port   : PortNo
  blocks : List (List Byte)
deriving DecidableEq, Repr

/-- The last 64 headers of a receive lane: the invalid ones, by bit (spec 08 R235). -/
structure LaneHeads where
  lane    : Fin 8
  invalid : BitVec 64
deriving DecidableEq, Repr

/-- What the auxiliary sampler showed with one CTLE code (spec 08 R249): whether its decisions disagreed at offsets 1, 2, … steps
above and below the threshold. -/
structure Sweep where
  up   : List Bool
  down : List Bool
deriving DecidableEq, Repr

/-- What a receive lane brought up to a compensation round (spec 08 R235, R250, R257): which of its last 64 sync headers were
valid, when the block arrived in ps, and the block's bytes. -/
structure CmpLane where
  valid : BitVec 64
  time  : Nat
  bytes : List Byte
deriving DecidableEq, Repr

/-- Rows of the table of features of the host port (spec 06 R156). -/
inductive HostFeature where
  | flitMode | lowerRates | l0p | aspmL0s | aspmL1 | l1Substates | tags10 | tags14 | relaxedOrdering | sriov | ari | flr | ats
  | pasid | pasidExecute | pasidPrivileged | pri | aer | ltr | msix | msi | intx | atomicOps | ptm | resizableBar | ide | doe | vpd
  | cxlIo | cxlCache | cxl68 | cxlMem | backInvalidate | multiLogical | cxlSwitching
deriving DecidableEq, Repr

/-- What a configuration request asks of a function (spec 06 R156, R166; 16 R436). -/
inductive CfgReq where
  | plain
  | advertised (f : HostFeature)              -- whether the configuration space advertises a feature
  | uses (f : HostFeature)                    -- the host uses a feature
  | cxlCache (on flit256 : Bool)              -- the host enables CXL.cache, in the flit mode the port runs, or disables it
  | translate (lo hi : Nat) (ok : Bool)       -- an ATS invalidation: host addresses lo to hi − 1 translate from now on, or not
deriving DecidableEq, Repr

/-- A configuration request and the function it is sent to. -/
structure CfgAccess where
  fn  : TenantNo
  req : CfgReq
deriving DecidableEq, Repr

/-- Where a register is read or written: a BAR of a function (spec 06 R157), the setup space, the tenant view of a VF or an MSI-X
table; or the Cleat register block, from a control core or from the Hukirvo controller (spec 14). -/
inductive Bar where
  | setup
  | cleat (byHukirvo : Bool)
  | view (ten : Fin 64)
  | msix (fn : TenantNo)
deriving DecidableEq, Repr

/-- A place in one of those spaces. -/
structure BarAddr where
  bar : Bar
  off : Nat
deriving DecidableEq, Repr

/-- The agent whose request a Retry answered: a tile port, or a unit of the spine (spec 07 R203). -/
inductive RetryAgent where
  | tile (t : TileNo)
  | spine (unit : BitVec 10)
deriving DecidableEq, Repr

/-- An instruction word that the core of a tile meets (spec 02 R41). -/
structure CoreWord where
  tile : TileNo
  word : BitVec 32
deriving DecidableEq, Repr

/-- Where a drain marker comes from, a tile port or with none the partition port, and its channel (spec 05 R151). -/
structure MarkerSrc where
  src  : Option TileNo
  chan : Fin 4
deriving DecidableEq, Repr

/-- The two management paths (spec 15 R402). -/
inductive MgmtPath where
  | tray
  | host
deriving DecidableEq, Repr

/-- How a transfer of the control complex's DMA engines ended (spec 06 R176, R172). -/
inductive HostDmaEnd where
  | moved (src : List Byte)
  | hostFault (ats : Bool) (src : List Byte)      -- status 0x09: a failed translation, or an error completion
  | fabricError (src : List Byte)                 -- status 0x0A
  | dataError (host : Bool) (src : List Byte)     -- status 0x0B; poisoned host data, or a poisoned global line
deriving DecidableEq, Repr

/-- The verdict of the security engine on a signed or sealed object (spec 11 R330, R331, R338). -/
structure Verdicts where
  keyHashOk   : Bool
  signatureOk : Bool
deriving DecidableEq, Repr

/-- One defect, in the units of the shutdown record (spec 16 R445, R447). -/
structure Defect where
  unit : Byte
  die  : Byte
  row  : Byte
  col  : Byte
  addr : BitVec 32
  bit  : Byte
  test : Byte
  op   : Byte
deriving DecidableEq, Repr

/-- What one start step showed (spec 16 R433 to R448). -/
structure StepReport where
  fail        : Option Byte            -- a cause of R448 other than the step limit
  detail      : BitVec 32              -- DETAIL of the report that goes with the cause
  stagedBad   : BitVec 3               -- step 1: class of a Staged bank that fails to verify, 0 none (15 R427)
  sealOk      : Bool                   -- step 6 of a resume: the key store verifies (R327)
  retainOk    : Bool                   -- a resume's retention memory passes its check (R432)
  stackFail   : List PartNo            -- step 7: stacks that did not train
  tileFail    : List TileNo            -- step 9: tiles failing the test or the CRC twice
  stopFail    : List Bool              -- step 9: die (false west, true east) with a failing stop
  seamFail    : List (Bool × Fin 24)   -- step 9: seam ports failing
  portFail    : List PartNo            -- step 9: partition ports failing
  slacks      : List (PartNo × List (BitVec 6)) -- step 9: lowest slack at each OP (R376)
deriving DecidableEq, Repr

/-- A telemetry reading of one regulator (spec 15 R417). -/
structure RegTelemetry where
  vinMv   : Nat
  voutMv  : Nat
  ioutA   : Nat
  tempC   : Nat
  status  : BitVec 16
  faulted : Bool                       -- STATUS_WORD names a VOUT, IOUT or temperature fault
deriving DecidableEq, Repr

/-- Activity the energy model counted in one µs, already weighed by the package's own coefficients
(spec 12 R364): energies in µJ by rail part and power over the µs in W. -/
structure EnergyUs where
  coreUj   : List Nat                  -- partition n, VCORE part
  phyUj    : List Nat                  -- partition n, VPHY part
  spineUj  : Nat                       -- VSPINE part
  linkUj   : Nat                       -- spine VPHY part
  busy     : List (TileNo × Nat)       -- tensor-busy tc of each tile in the µs
deriving DecidableEq, Repr

/-- A die sensor read: its value in 0.25 °C, or a failed read (spec 13 R367, R368). -/
abbrev SensorRead := Option Int

/-- A JTAG instruction of class internal scan or boundary drive arrives as its own command; an access
of 32 or 64 bits to the setup space has this width (spec 00 R5; any other width is an access fault). -/
inductive Width where
  | w32
  | w64
  | other (bytes : Nat)
deriving DecidableEq, Repr

end Sys2Proof
end

