-- ==== Sys2Proof/Syntax.lean ====
section
/-!
DEFINITION. The commands of the block: one constructor per row of spec/opcode_table.json, in the table's
order, each with the rule the table names for it. A command is one step of one of the package's agents
(spec 95); its operands are what the spec gives that step from outside.
-/

namespace Sys2Proof

/-- One command. -/
inductive Instr where
  /-- ADD (R43) -/
  | add (t : TileNo) (rd rs1 rs2 : Reg)
  /-- SUB (R43) -/
  | sub (t : TileNo) (rd rs1 rs2 : Reg)
  /-- AND (R43) -/
  | and (t : TileNo) (rd rs1 rs2 : Reg)
  /-- OR (R43) -/
  | or (t : TileNo) (rd rs1 rs2 : Reg)
  /-- XOR (R43) -/
  | xor (t : TileNo) (rd rs1 rs2 : Reg)
  /-- SHL (R43) -/
  | shl (t : TileNo) (rd rs1 rs2 : Reg)
  /-- SHR (R43) -/
  | shr (t : TileNo) (rd rs1 rs2 : Reg)
  /-- SAR (R43) -/
  | sar (t : TileNo) (rd rs1 rs2 : Reg)
  /-- CMPEQ (R43) -/
  | cmpeq (t : TileNo) (rd rs1 rs2 : Reg)
  /-- CMPLT (R43) -/
  | cmplt (t : TileNo) (rd rs1 rs2 : Reg)
  /-- CMPLTU (R43) -/
  | cmpltu (t : TileNo) (rd rs1 rs2 : Reg)
  /-- MUL (R43) -/
  | mul (t : TileNo) (rd rs1 rs2 : Reg)
  /-- MULH (R43) -/
  | mulh (t : TileNo) (rd rs1 rs2 : Reg)
  /-- MULHU (R43) -/
  | mulhu (t : TileNo) (rd rs1 rs2 : Reg)
  /-- DIV (R43) -/
  | div (t : TileNo) (rd rs1 rs2 : Reg)
  /-- DIVU (R43) -/
  | divu (t : TileNo) (rd rs1 rs2 : Reg)
  /-- REM (R43) -/
  | rem (t : TileNo) (rd rs1 rs2 : Reg)
  /-- REMU (R43) -/
  | remu (t : TileNo) (rd rs1 rs2 : Reg)
  /-- POPC (R43) -/
  | popc (t : TileNo) (rd rs1 : Reg)
  /-- CLZ (R43) -/
  | clz (t : TileNo) (rd rs1 : Reg)
  /-- CTZ (R43) -/
  | ctz (t : TileNo) (rd rs1 : Reg)
  /-- ADDI (R41) -/
  | addi (t : TileNo) (rd rs1 : Reg) (imm : BitVec 16)
  /-- ANDI (R41) -/
  | andi (t : TileNo) (rd rs1 : Reg) (imm : BitVec 16)
  /-- ORI (R41) -/
  | ori (t : TileNo) (rd rs1 : Reg) (imm : BitVec 16)
  /-- XORI (R41) -/
  | xori (t : TileNo) (rd rs1 : Reg) (imm : BitVec 16)
  /-- SHI (R41) -/
  | shi (t : TileNo) (rd rs1 : Reg) (imm : BitVec 16)
  /-- LUI (R41) -/
  | lui (t : TileNo) (rd : Reg) (imm : BitVec 16)
  /-- LDD (R41) -/
  | ldd (t : TileNo) (rd rs1 : Reg) (imm : BitVec 16)
  /-- LDW (R41) -/
  | ldw (t : TileNo) (rd rs1 : Reg) (imm : BitVec 16)
  /-- LDH (R41) -/
  | ldh (t : TileNo) (rd rs1 : Reg) (imm : BitVec 16)
  /-- LDB (R41) -/
  | ldb (t : TileNo) (rd rs1 : Reg) (imm : BitVec 16)
  /-- STD (R41) -/
  | std (t : TileNo) (rd rs1 : Reg) (imm : BitVec 16)
  /-- STW (R41) -/
  | stw (t : TileNo) (rd rs1 : Reg) (imm : BitVec 16)
  /-- STH (R41) -/
  | sth (t : TileNo) (rd rs1 : Reg) (imm : BitVec 16)
  /-- STB (R41) -/
  | stb (t : TileNo) (rd rs1 : Reg) (imm : BitVec 16)
  /-- BR (R41) -/
  | br (t : TileNo) (cond rs1 : Reg) (imm : BitVec 16)
  /-- CALL (R32) -/
  | call (t : TileNo) (disp : BitVec 26)
  /-- CALLR (R32) -/
  | callr (t : TileNo) (rs1 : Reg)
  /-- RET (R32) -/
  | ret (t : TileNo)
  /-- JMPL (R41) -/
  | jmpl (t : TileNo) (rd rs1 : Reg) (imm : BitVec 16)
  /-- XRET (R37) -/
  | xret (t : TileNo)
  /-- CRR (R34) -/
  | crr (t : TileNo) (rd : Reg) (idx : BitVec 4)
  /-- CRW (R34) -/
  | crw (t : TileNo) (rs1 : Reg) (idx : BitVec 4)
  /-- TRAPI (R42) -/
  | trapi (t : TileNo) (num : Byte)
  /-- PHASE_RELEASE_ARM (R310) -/
  | phaseReleaseArm (t : TileNo)
  /-- BRK (R36): the instruction word fetched, that of BRK or one that no instruction of 02 R41 claims -/
  | brk (w : CoreWord)
  /-- DONE (R61) -/
  | done (t : TileNo)
  /-- HALT (R61) -/
  | halt (t : TileNo)
  /-- SPILL (R33) -/
  | spill (t : TileNo)
  /-- FILL (R33) -/
  | fill (t : TileNo)
  /-- ATOM_SWAP (R54) -/
  | atomSwap (t : TileNo) (a b c d : Reg)
  /-- ATOM_ADD (R54) -/
  | atomAdd (t : TileNo) (a b c d : Reg)
  /-- ATOM_CAS (R54) -/
  | atomCas (t : TileNo) (a b c d : Reg)
  /-- ATOM_MAX (R54) -/
  | atomMax (t : TileNo) (a b c d : Reg)
  /-- ATOM_MIN (R54) -/
  | atomMin (t : TileNo) (a b c d : Reg)
  /-- GLD (R53) -/
  | gld (t : TileNo) (rd rs1 : Reg)
  /-- GST (R53) -/
  | gst (t : TileNo) (rs1 rs2 : Reg)
  /-- DMA_GO (R55) -/
  | dmaGo (t : TileNo) (a b : Reg)
  /-- DMA_WAIT (R55) -/
  | dmaWait (t : TileNo) (a b : Reg)
  /-- DMA_TEST (R55) -/
  | dmaTest (t : TileNo) (a b : Reg)
  /-- FENCE (R53) -/
  | fence (t : TileNo)
  /-- WAITV_EQ (R58) -/
  | waitvEq (t : TileNo) (a b c : Reg)
  /-- WAITV_GE (R58) -/
  | waitvGe (t : TileNo) (a b c : Reg)
  /-- BAR (R59) -/
  | bar (t : TileNo)
  /-- TWAIT (R51) -/
  | twait (t : TileNo) (a : Reg)
  /-- VWAIT (R51) -/
  | vwait (t : TileNo) (a : Reg)
  /-- LAYR (R60) -/
  | layr (t : TileNo) (a : Reg)
  /-- LAYW (R60) -/
  | layw (t : TileNo) (a b : Reg)
  /-- WAITV_WAKE (R58) -/
  | waitvWake (t : TileNo)
  /-- WAITV_TIMEOUT (R58) -/
  | waitvTimeout (t : TileNo)
  /-- BAR_RELEASE (R59) -/
  | barRelease (key : DescKey)
  /-- LAYW_WAKE (R60) -/
  | laywWake (t : TileNo)
  /-- TILE_FAULT_JOB_END (R38) -/
  | tileFaultJobEnd (key : DescKey)
  /-- SCRATCHPAD_SCRUB (R48) -/
  | scratchpadScrub (t : TileNo) (upsets : List (BitVec 20 × Bool))
  /-- DMA_COMPLETE (R56): partition, physical index of the tile, handle -/
  | dmaComplete (n : PartNo) (x : Fin 72) (h : Fin 8)
  /-- RETRY_RESEND (R203) -/
  | retryResend (a : RetryAgent) (tag : BitVec 6) (write : Bool)
  /-- TILE_PORT_INBOUND (R63) -/
  | tilePortInbound (t : TileNo) (pkt : Packet)
  /-- TMM (R77) -/
  | tmm (t : TileNo) (a : Reg)
  /-- TMM_AG (R77) -/
  | tmmAg (t : TileNo) (a b : Reg)
  /-- TANC (R77) -/
  | tanc (t : TileNo) (a b : Reg)
  /-- CHARGE_REQUEST (R359) -/
  | chargeRequest (t : TileNo)
  /-- TENSOR_START (R360) -/
  | tensorStart (t : TileNo)
  /-- HALF_RATE_START (R360) -/
  | halfRateStart (t : TileNo)
  /-- TENSOR_FINISH (R80) -/
  | tensorFinish (t : TileNo)
  /-- VADD (R97) -/
  | vadd (t : TileNo) (sub : BitVec 2) (a b c d : Reg)
  /-- VSUB (R97) -/
  | vsub (t : TileNo) (sub : BitVec 2) (a b c d : Reg)
  /-- VMUL (R97) -/
  | vmul (t : TileNo) (sub : BitVec 2) (a b c d : Reg)
  /-- VFMA (R97) -/
  | vfma (t : TileNo) (sub : BitVec 2) (a b c d : Reg)
  /-- VMAX (R97) -/
  | vmax (t : TileNo) (sub : BitVec 2) (a b c d : Reg)
  /-- VMIN (R97) -/
  | vmin (t : TileNo) (sub : BitVec 2) (a b c d : Reg)
  /-- VSCL (R97) -/
  | vscl (t : TileNo) (sub : BitVec 2) (a b c d : Reg)
  /-- VEXP (R100) -/
  | vexp (t : TileNo) (sub : BitVec 2) (a b d : Reg)
  /-- VRCP (R100) -/
  | vrcp (t : TileNo) (sub : BitVec 2) (a b d : Reg)
  /-- VRSQ (R100) -/
  | vrsq (t : TileNo) (sub : BitVec 2) (a b d : Reg)
  /-- VRSUM (R98) -/
  | vrsum (t : TileNo) (sub : BitVec 2) (a b d : Reg)
  /-- VRMAX (R98) -/
  | vrmax (t : TileNo) (sub : BitVec 2) (a b d : Reg)
  /-- VSMAX (R99) -/
  | vsmax (t : TileNo) (a b d : Reg)
  /-- VRMSN (R97) -/
  | vrmsn (t : TileNo) (a b c d : Reg)
  /-- VCVT (R101) -/
  | vcvt (t : TileNo) (sub : BitVec 6) (a b d : Reg)
  /-- VBSE (R72) -/
  | vbse (t : TileNo) (sub : BitVec 6) (a b c d : Reg)
  /-- VBSD (R97) -/
  | vbsd (t : TileNo) (sub : BitVec 6) (a b c d : Reg)
  /-- VWSANC (R90) -/
  | vwsanc (t : TileNo) (a b d : Reg)
  /-- VWSENC (R91) -/
  | vwsenc (t : TileNo) (a b c d : Reg)
  /-- VWSALN (R92) -/
  | vwsaln (t : TileNo) (a b d : Reg)
  /-- VWSADD (R92) -/
  | vwsadd (t : TileNo) (a b d : Reg)
  /-- VWSRND (R93) -/
  | vwsrnd (t : TileNo) (bf16 : Bool) (a b d : Reg)
  /-- VWSAMX (R97) -/
  | vwsamx (t : TileNo) (a b d : Reg)
  /-- VECTOR_FINISH (R104) -/
  | vectorFinish (t : TileNo)
  /-- TMMX_RS (R278) -/
  | tmmxRs (t : TileNo) (sub : BitVec 6) (a b c d : Reg)
  /-- TMMX_AR (R278) -/
  | tmmxAr (t : TileNo) (sub : BitVec 6) (a b c d : Reg)
  /-- TMMX_AG (R279) -/
  | tmmxAg (t : TileNo) (sub : BitVec 6) (a b c d : Reg)
  /-- TMMX_A2A (R280) -/
  | tmmxA2a (t : TileNo) (sub : BitVec 6) (a b c d : Reg)
  /-- FUSED_FINISH (R281) -/
  | fusedFinish (t : TileNo)
  /-- FUSED_TIMEOUT (R292) -/
  | fusedTimeout (t : TileNo)
  /-- SLOT_REQ (R287) -/
  | slotReq (pkt : Packet)
  /-- GRANT (R287) -/
  | grant (k : Nat)
  /-- CHUNK (R288) -/
  | chunk (pkt : Packet)
  /-- CHECKED (R288) -/
  | checked (pkt : Packet)
  /-- RESEND (R288) -/
  | resend (pkt : Packet)
  /-- ABORT (R291) -/
  | abort (pkt : Packet)
  /-- SLOT_TIMEOUT (R289) -/
  | slotTimeout (slot : Fin 384)
  /-- STACK_REQUEST (R111) -/
  | stackRequest (n : PartNo) (pkt : Packet)
  /-- STACK_ACCESS (R118) -/
  | stackAccess (n : PartNo) (errs : List LineErr)
  /-- ROW_REMAP (R121) -/
  | rowRemap (n : PartNo) (e : Fin 1024) (bad : List Nat)
  /-- PATROL_SCRUB (R119) -/
  | patrolScrub (n : PartNo) (err : LineErr)
  /-- REFRESH (R126) -/
  | refresh (n : PartNo) (bank : Fin 2048)
  /-- STACK_TEMP_READ (R126) -/
  | stackTempRead (n : PartNo) (r : SensorRead)
  /-- SELF_REFRESH_EXIT (R127) -/
  | selfRefreshExit (n : PartNo)
  /-- SELF_REFRESH_ENTRY (R127) -/
  | selfRefreshEntry (n : PartNo)
  /-- EXPAND (R132) -/
  | expand (n : PartNo) (sid : Nat) (errs : List LineErr)
  /-- LOAD (R133) -/
  | load (n : PartNo) (sid : Nat) (errs : List LineErr)
  /-- STREAM_END (R134) -/
  | streamEnd (n : PartNo) (sid : Nat)
  /-- SEAM_RESEND (R143) -/
  | seamResend (east : Bool) (q : Fin 24) (failed : Bool)
  /-- ROTATION (R150) -/
  | rotation (n : PartNo)
  /-- DRAIN_MARKER (R151) -/
  | drainMarker (t : TileNo) (m : MarkerSrc)
  /-- ROTATION_COPY_DONE (R150) -/
  | rotationCopyDone (n : PartNo)
  /-- ROTATION_RELEASE (R150) -/
  | rotationRelease (n : PartNo)
  /-- ROTATION_ABANDON (R152) -/
  | rotationAbandon (n : PartNo) (cause : BitVec 3)
  /-- FIRMWARE_BROADCAST (R154) -/
  | firmwareBroadcast (mask : BitVec 12) (image : List Byte)
  /-- FIRMWARE_CRC_CHECK (R155): partition, physical index of the tile -/
  | firmwareCrcCheck (n : PartNo) (x : Fin 72)
  /-- SETUP_WRITE (R507) -/
  | setupWrite (a : BarAddr) (w : Width) (v : Word)
  /-- VF_WRITE (R158) -/
  | vfWrite (ten : Fin 64) (off : Nat) (v : Word)
  /-- SETUP_LOCK (R159) -/
  | setupLock (v : Word)
  /-- FETCH_EN (R159) -/
  | fetchEn (v : Word)
  /-- RING_ENABLE (R163) -/
  | ringEnable (r : RingNo) (v : Word) (slot : HostRead)
  /-- RING_DISABLE (R163) -/
  | ringDisable (r : RingNo) (v : Word)
  /-- DOORBELL_LINE_ENABLE (R165) -/
  | doorbellLineEnable (l : LineNo) (v : Word)
  /-- WINDOW_ENABLE (R323) -/
  | windowEnable (ten : Fin 64) (w : Fin 16) (v : Word)
  /-- PF_FLR (R159) -/
  | pfFlr
  /-- VF_FLR (R159) -/
  | vfFlr (ten : Fin 64)
  /-- SNOOP_INVALIDATION (R166) -/
  | snoopInvalidation (l : LineNo)
  /-- DOORBELL_READ (R168) -/
  | doorbellRead (l : LineNo) (rd : HostRead)
  /-- DOORBELL_POLL (R167) -/
  | doorbellPoll
  /-- DESCRIPTOR_FETCH (R171) -/
  | descriptorFetch (r : RingNo) (rd : HostRead)
  /-- JOB_LAUNCH (R175) -/
  | jobLaunch (key : DescKey)
  /-- DMA (R176) -/
  | dma (key : DescKey)
  /-- HOST_DMA_COMPLETE (R176) -/
  | hostDmaComplete (key : DescKey) (r : HostDmaEnd)
  /-- TEAM_FORM (R271) -/
  | teamForm (key : DescKey) (gmask tlist : HostRead)
  /-- TEAM_DISSOLVE (R272) -/
  | teamDissolve (key : DescKey)
  /-- CIRCUIT_SET_UP (R228) -/
  | circuitSetUp (key : DescKey)
  /-- CIRCUIT_TEAR_DOWN (R228) -/
  | circuitTearDown (key : DescKey)
  /-- LAY_SCHEDULED_EVENT (R177) -/
  | layScheduledEvent (key : DescKey)
  /-- HINT_WINDOW (R358) -/
  | hintWindow (key : DescKey)
  /-- HINT_HOST_LIMIT (R358) -/
  | hintHostLimit (key : DescKey)
  /-- HINT_SLEEP (R347) -/
  | hintSleep (key : DescKey)
  /-- PARK (R349) -/
  | park (key : DescKey)
  /-- UNPARK (R349) -/
  | unpark (key : DescKey)
  /-- UNPARK_STEP (R349) -/
  | unparkStep (key : DescKey)
  /-- DIAG_ECHO (R178) -/
  | diagEcho (key : DescKey)
  /-- DIAG_ERRLOG (R178) -/
  | diagErrlog (key : DescKey)
  /-- DIAG_PROGRESS (R470) -/
  | diagProgress (key : DescKey)
  /-- DIAG_PRTSTATE (R178) -/
  | diagPrtstate (key : DescKey)
  /-- MODERATION_TIMER (R184) -/
  | moderationTimer (r : RingNo)
  /-- TOPOLOGY_ACCEPT (R190) -/
  | topologyAccept (rec : List Byte)
  /-- TOPOLOGY_ACTIVATION (R191) -/
  | topologyActivation
  /-- PACKET_ROUTE (R200) -/
  | packetRoute (src : PktSource) (pkt : Packet)
  /-- TAIL_CHECK (R201) -/
  | tailCheck (src : PktSource) (pkt : Packet) (forwarded : Bool)
  /-- RD (R194) -/
  | rd (pkt : Packet)
  /-- WR (R194) -/
  | wr (pkt : Packet)
  /-- WRP (R194) -/
  | wrp (pkt : Packet)
  /-- ATM (R194) -/
  | atm (pkt : Packet)
  /-- PUSH (R194) -/
  | push (pkt : Packet)
  /-- FWR (R194) -/
  | fwr (pkt : Packet)
  /-- RDR (R202) -/
  | rdr (pkt : Packet)
  /-- ACK (R202) -/
  | ack (pkt : Packet)
  /-- CKT (R221) -/
  | ckt (src : PktSource) (pkt : Packet)
  /-- CSU (R223) -/
  | csu (src : PktSource) (pkt : Packet)
  /-- CRL (R224) -/
  | crl (src : PktSource) (pkt : Packet)
  /-- CIRCUIT_END (R225) -/
  | circuitEnd (src : PktSource) (pkt : Packet)
  /-- CIRCUIT_BROKEN_NOTICE (R226) -/
  | circuitBrokenNotice (chip : BitVec 16) (cid : BitVec 12)
  /-- PORT_LEAVE_SERVICE (R211) -/
  | portLeaveService (p : PortNo)
  /-- LINK_RELEASE (R245) -/
  | linkRelease (p : PortNo)
  /-- TSA (R246) -/
  | tsa (p : PortNo) (ts : TrainSeq)
  /-- TSB (R246) -/
  | tsb (p : PortNo) (ts : TrainSeq)
  /-- RATE (R248) -/
  | rate (p : PortNo) (ts : TrainSeq)
  /-- LB (R264) -/
  | lb (p : PortNo) (ts : TrainSeq)
  /-- ALIGN_DONE (R245): the running disparity before the characters of each lane, and the lanes -/
  | alignDone (p : PortNo) (plus : BitVec 8) (lanes : List LaneRx)
  /-- ADAPT_SWEEP_DONE (R249) -/
  | adaptSweepDone (p : PortNo) (lane : Fin 8) (codes : List Sweep)
  /-- TRAINING_TIMEOUT (R248) -/
  | trainingTimeout (p : PortNo)
  /-- FAILED_RESTART (R243) -/
  | failedRestart (p : PortNo)
  /-- CMP (R250) -/
  | cmp (p : PortNo) (lanes : List CmpLane)
  /-- LINK_FRAME (R239) -/
  | linkFrame (p : PortNo) (raw : List Byte)
  /-- NAK_TIMEOUT (R240) -/
  | nakTimeout (p : PortNo)
  /-- ACK_STALL_TIMEOUT (R251) -/
  | ackStallTimeout (p : PortNo)
  /-- RETRAIN (R251) -/
  | retrain (o : OsRead)
  /-- RETRAIN_TIMEOUT (R253) -/
  | retrainTimeout (p : PortNo)
  /-- PAUSE (R258) -/
  | pause (p : PortNo) (blocks : List (List Byte))
  /-- PAUSE_EXPIRY (R258) -/
  | pauseExpiry (p : PortNo)
  /-- LINK_WINDOW (R259) -/
  | linkWindow (p : PortNo)
  /-- WINDOW_QUIET (R259) -/
  | windowQuiet (p : PortNo)
  /-- WINDOW_END (R259) -/
  | windowEnd (p : PortNo)
  /-- ECHO (R261) -/
  | echo (p : PortNo) (t1 : Word)
  /-- ECHO_REPLY (R261) -/
  | echoReply (p : PortNo) (t1 t2 t3 : Word)
  /-- ECHO_TIMER (R261) -/
  | echoTimer (p : PortNo)
  /-- LANE_QUERY (R261) -/
  | laneQuery (p : PortNo)
  /-- LANE_REPORT (R261) -/
  | laneReport (p : PortNo) (payload : List Byte)
  /-- OFFLINE (R246) -/
  | offline (p : PortNo) (v : Bool)
  /-- LNK_CTL_RETRAIN (R251) -/
  | lnkCtlRetrain (p : PortNo) (v : Word)
  /-- NEAR_BIGHT_LOOPBACK (R264) -/
  | nearBightLoopback (p : PortNo) (v : Word)
  /-- FAR_BIGHT_LOOPBACK (R264) -/
  | farBightLoopback (p : PortNo) (v : Word)
  /-- PRBS_TEST (R264): the write of LNK_CTL_p, how many bits each lane sends, what each lane receives -/
  | prbsTest (p : PortNo) (v : Word) (n : Nat) (rx : List (List Bool))
  /-- INJ_SINGLE (R263) -/
  | injSingle (p : PortNo) (v : Word)
  /-- INJ_BURST (R263) -/
  | injBurst (p : PortNo) (v : Word)
  /-- ERR_CLR (R502) -/
  | errClr (p : PortNo) (v : Word)
  /-- SEND (R258) -/
  | send (p : PortNo) (v : Word)
  /-- LAY_TICK (R297) -/
  | layTick
  /-- SYNC_TIMER (R301) -/
  | syncTimer
  /-- SYNC_REQ (R301) -/
  | syncReq (p : PortNo) (t1 : Word)
  /-- SYNC_RESP (R304) -/
  | syncResp (p : PortNo) (st : BitVec 2) (pps : Bool) (master : BitVec 16) (hops : BitVec 6) (t1 t2 t3 : Word)
  /-- PPS_EDGE (R300) -/
  | ppsEdge
  /-- PPS_TIMEOUT (R300) -/
  | ppsTimeout
  /-- PARENT_TIMEOUT (R303) -/
  | parentTimeout
  /-- CALENDAR_FIRE (R311) -/
  | calendarFire
  /-- PHASE_RELEASE (R310) -/
  | phaseRelease (n : PartNo)
  /-- TEN_ASSIGN (R317) -/
  | tenAssign (v : Word)
  /-- TENANT_CHANGE_DONE (R318) -/
  | tenantChangeDone
  /-- GENERATE (R325) -/
  | generate (v : Word)
  /-- ERASE (R326) -/
  | erase (v : Word)
  /-- IMPORT (R330) -/
  | importKey (v : Word) (blob : HostRead) (gcmOk : Bool)
  /-- ERASE_FABRIC (R325) -/
  | eraseFabric (v : Word)
  /-- FID_CHAL (R337) -/
  | fidChal (path : Option MgmtPath)
  /-- FID_LOAD (R338) -/
  | fidLoad (path : Option MgmtPath) (token : List Byte) (ok : Verdicts)
  /-- BOUNDARY_DRIVE (R336) -/
  | boundaryDrive
  /-- INTERNAL_SCAN (R336) -/
  | internalScan (scope : BitVec 3)
  /-- GET_VERSION (R334) -/
  | getVersion (path : MgmtPath)
  /-- GET_CAPABILITIES (R334) -/
  | getCapabilities (path : MgmtPath)
  /-- NEGOTIATE_ALGORITHMS (R334) -/
  | negotiateAlgorithms (path : MgmtPath) (supported : Bool)
  /-- GET_DIGESTS (R334) -/
  | getDigests (path : MgmtPath)
  /-- GET_CERTIFICATE (R334) -/
  | getCertificate (path : MgmtPath) (slot : Byte)
  /-- CHALLENGE (R334) -/
  | challenge (path : MgmtPath) (slot : Byte) (nonce : List Byte)
  /-- GET_MEASUREMENTS (R333) -/
  | getMeasurements (path : MgmtPath) (idx : Byte) (nonce : List Byte)
  /-- KEY_EXCHANGE (R334) -/
  | keyExchange (path : MgmtPath)
  /-- FINISH (R334) -/
  | finish (path : MgmtPath) (session : BitVec 32) (ok : Bool)
  /-- END_SESSION (R334) -/
  | endSession (path : MgmtPath) (session : BitVec 32)
  /-- HEARTBEAT (R334) -/
  | heartbeat (path : MgmtPath) (session : BitVec 32)
  /-- KEY_UPDATE (R334) -/
  | keyUpdate (path : MgmtPath) (session : BitVec 32)
  /-- DUTY_EVALUATION (R352) -/
  | dutyEvaluation
  /-- OP_EVALUATION (R352) -/
  | opEvaluation
  /-- OP_STEP (R345) -/
  | opStep (n : PartNo)
  /-- RAMP_STEP (R355) -/
  | rampStep
  /-- RAMP_ADMISSION (R356) -/
  | rampAdmission (key : DescKey) (n : PartNo)
  /-- LIMIT_NOTICE_WINDOW (R357) -/
  | limitNoticeWindow
  /-- DROOP_TRIP (R361) -/
  | droopTrip (n : PartNo)
  /-- DROOP_RECOVERY (R361) -/
  | droopRecovery (n : PartNo)
  /-- VRALERT (R362) -/
  | vralert (reg : Fin 6)
  /-- VRALERT_RELEASE (R363) -/
  | vralertRelease
  /-- ENERGY_MODEL (R365) -/
  | energyModel (e : EnergyUs)
  /-- THERMAL_SENSOR_READ (R368) -/
  | thermalSensorRead (reads : List SensorRead)
  /-- STEADY_WINDOW (R370) -/
  | steadyWindow (pw inlet die stack : List Nat) (tripped alerted changed : Bool)
  /-- THERMAL_CAP (R371) -/
  | thermalCap
  /-- HOT_CLEAR (R372) -/
  | hotClear
  /-- INLET_AGE (R369) -/
  | inletAge
  /-- THERMAL_TRIP (R373) -/
  | thermalTrip (sensor : Fin 76) (temp : Nat)
  /-- AGEING_MEASUREMENT (R376) -/
  | ageingMeasurement (n : PartNo) (slack : BitVec 6) (disturbed : Bool)
  /-- SOURCE_EDGE (R386) -/
  | sourceEdge (src : Fin 2048)
  /-- CLAIM (R388) -/
  | claim (tgt : Fin 5)
  /-- COMPLETE (R389) -/
  | complete (tgt : Fin 5) (src : BitVec 11)
  /-- SET (R387) -/
  | set (src : Fin 2048) (byHukirvo : Bool)
  /-- PEND_CLEAR (R387) -/
  | pendClear (src : Fin 2048)
  /-- SOURCE_ENABLE (R390) -/
  | sourceEnable (src : Fin 2048) (v : Word)
  /-- BELAY_LATCH (R395) -/
  | belayLatch (src : Fin 2048)
  /-- BELAY_WAKE (R396) -/
  | belayWake
  /-- SET_ENDPOINT_ID (R401) -/
  | setEndpointId (path : MgmtPath) (eid : Byte)
  /-- SETDASA (R401) -/
  | setdasa (addr : BitVec 7)
  /-- RSTDAA (R401) -/
  | rstdaa
  /-- MCTP_DROP (R401) -/
  | mctpDrop (path : MgmtPath) (typ : Byte) (len : Nat)
  /-- GETTID (R403) -/
  | gettid (path : MgmtPath)
  /-- GETPLDMVERSION (R403) -/
  | getpldmversion (path : MgmtPath) (typ : Byte)
  /-- GETPLDMTYPES (R403) -/
  | getpldmtypes (path : MgmtPath)
  /-- GETPLDMCOMMANDS (R403) -/
  | getpldmcommands (path : MgmtPath) (typ : Byte)
  /-- GETPDRREPOSITORYINFO (R403) -/
  | getpdrrepositoryinfo (path : MgmtPath)
  /-- GETPDR (R403) -/
  | getpdr (path : MgmtPath) (handle : BitVec 32)
  /-- GETSENSORREADING (R404) -/
  | getsensorreading (path : MgmtPath) (sid : BitVec 16)
  /-- GETSTATESENSORREADINGS (R404) -/
  | getstatesensorreadings (path : MgmtPath) (sid : BitVec 16)
  /-- GETNUMERICEFFECTERVALUE (R403) -/
  | getnumericeffectervalue (path : MgmtPath) (eid : BitVec 16)
  /-- GETSTATEEFFECTERSTATES (R403) -/
  | getstateeffecterstates (path : MgmtPath) (eid : BitVec 16)
  /-- SETEVENTRECEIVER (R407) -/
  | seteventreceiver (path : MgmtPath) (eid : Byte)
  /-- POLLFORPLATFORMEVENTMESSAGE (R407) -/
  | pollforplatformeventmessage (path : MgmtPath)
  /-- EFFECTER_RACK_LIMIT (R405) -/
  | effecterRackLimit (path : MgmtPath) (watts : BitVec 16)
  /-- EFFECTER_INLET (R369) -/
  | effecterInlet (path : MgmtPath) (temp : BitVec 10)
  /-- EFFECTER_RACK_VERDICT (R406) -/
  | effecterRackVerdict (path : MgmtPath) (n : PartNo) (v : Byte)
  /-- EFFECTER_CURRENT_LIMIT (R417) -/
  | effecterCurrentLimit (path : MgmtPath) (reg : Fin 6) (amps : BitVec 32)
  /-- READ_PSW (R410) -/
  | readPsw (path : MgmtPath) (part : Byte)
  /-- READ_RECORD (R410) -/
  | readRecord (path : MgmtPath) (rec : Byte) (off : BitVec 32)
  /-- READ_ERRLOG (R526) -/
  | readErrlog (path : MgmtPath) (idx : BitVec 32)
  /-- READ_SAMPLE (R415) -/
  | readSample (path : MgmtPath) (buf : Byte)
  /-- ON (R413) -/
  | on (path : MgmtPath)
  /-- OFF (R442) -/
  | off (path : MgmtPath)
  /-- SLEEP (R347) -/
  | sleep (path : MgmtPath)
  /-- WAKE (R413) -/
  | wake (path : MgmtPath)
  /-- RACK_LIMIT (R414) -/
  | rackLimit (path : MgmtPath) (watts : BitVec 16) (lt : Word)
  /-- TRIP_RELEASE (R374) -/
  | tripRelease (path : MgmtPath)
  /-- TOPOLOGY_WRITE (R410) -/
  | topologyWrite (path : MgmtPath) (off : BitVec 16) (last : Byte) (bytes : List Byte)
  /-- TOPOLOGY_PART_TIMEOUT (R430) -/
  | topologyPartTimeout
  /-- LAY_ROLE (R299) -/
  | layRole (path : MgmtPath) (role : Byte)
  /-- LAY_SECOND (R300) -/
  | laySecond (path : MgmtPath) (sec : Word)
  /-- STEP_SLOT (R314) -/
  | stepSlot (path : MgmtPath) (period offset : BitVec 32)
  /-- WINDOW_ARM (R315) -/
  | windowArm (path : MgmtPath) (mask : BitVec 32) (ltStart ltEnd : Word)
  /-- SAMPLE_ARM (R415) -/
  | sampleArm (path : MgmtPath) (buf : Byte) (lt : Word)
  /-- SVN_COMMIT (R332) -/
  | svnCommit (path : MgmtPath)
  /-- REGULATOR_POLL (R417) -/
  | regulatorPoll (reg : Fin 6) (r : Option RegTelemetry)
  /-- FLASH_WRITE (R421) -/
  | flashWrite (ok : Bool)
  /-- QUERYDEVICEIDENTIFIERS (R426) -/
  | querydeviceidentifiers (path : MgmtPath)
  /-- GETFIRMWAREPARAMETERS (R426) -/
  | getfirmwareparameters (path : MgmtPath)
  /-- REQUESTUPDATE (R426) -/
  | requestupdate (path : MgmtPath)
  /-- PASSCOMPONENTTABLE (R426) -/
  | passcomponenttable (path : MgmtPath) (comps : List (BitVec 16))
  /-- UPDATECOMPONENT (R426) -/
  | updatecomponent (path : MgmtPath) (comp : BitVec 16) (size : Nat)
  /-- REQUESTFIRMWAREDATA (R426) -/
  | requestfirmwaredata (path : MgmtPath) (off : Nat) (bytes : List Byte)
  /-- TRANSFERCOMPLETE (R426) -/
  | transfercomplete (path : MgmtPath) (ok : Bool)
  /-- VERIFYCOMPLETE (R426) -/
  | verifycomplete (path : MgmtPath) (ok : Verdicts)
  /-- APPLYCOMPLETE (R426) -/
  | applycomplete (path : MgmtPath) (ok : Bool)
  /-- ACTIVATEFIRMWARE (R426) -/
  | activatefirmware (path : MgmtPath) (selfContained copyOk : Bool)
  /-- GETSTATUS (R426) -/
  | getstatus (path : MgmtPath)
  /-- CANCELUPDATECOMPONENT (R426) -/
  | cancelupdatecomponent (path : MgmtPath)
  /-- CANCELUPDATE (R428) -/
  | cancelupdate (path : MgmtPath)
  /-- UPDATE_IDLE_TIMEOUT (R428) -/
  | updateIdleTimeout
  /-- BMC_PRESENCE_TIMEOUT (R429) -/
  | bmcPresenceTimeout
  /-- STANDBY_POWER_ON (R399) -/
  | standbyPowerOn (romOk : Bool) (stagedBad : BitVec 3)
  /-- STANDBY_LOSS (R515) -/
  | standbyLoss
  /-- PLINTH_OVERHEAT (R484) -/
  | plinthOverheat
  /-- FLASH_RETRY_AFTER_COOL (R484) -/
  | flashRetryAfterCool
  /-- START_STEP (R433) -/
  | startStep (rep : StepReport)
  /-- START_STEP_TIMEOUT (R434) -/
  | startStepTimeout (stks : List PartNo)
  /-- MEMORY_TEST_DONE (R440) -/
  | memoryTestDone (n : PartNo) (rows : List (Fin 64 × Fin 32 × Fin 24576))
  /-- SHUTDOWN_SELFTEST_DONE (R443) -/
  | shutdownSelftestDone (defects : List Defect) (untested : BitVec 16) (ms : BitVec 32)
  /-- TILE_RESET (R457) -/
  | tileReset (t : TileNo) (fromDriver crcOk : Bool)
  /-- CLUSTER_RESET (R458) -/
  | clusterReset (v : Word) (crcOk : Bool)
  /-- PARTITION_RESET (R459) -/
  | partitionReset (v : Word)
  /-- PACKAGE_RESET (R469) -/
  | packageReset (v : Word)
  /-- PKG_RST_N (R469) -/
  | pkgRstN
  /-- HARD_TRIP (R454) -/
  | hardTrip (n : PartNo) (holds : Bool)
  /-- DRAIN_LIMIT (R457) -/
  | drainLimit (t : TileNo)
  /-- RESET_STEP (R459) -/
  | resetStep (n : PartNo) (crcBad : List TileNo) (channelBad : Bool) (seamsOk : List (Fin 24))
  /-- PARTITION_RESET_DONE (R459) -/
  | partitionResetDone (n : PartNo)
  /-- LATE_REPLY (R465) -/
  | lateReply (t : TileNo) (pkt : Packet)
  /-- FREE (R468) -/
  | free (v : Word)
  /-- CLEAR (R502) -/
  | clear (v : Word)
  /-- PRT_RECON (R480) -/
  | prtRecon (v : Word)
  /-- TEARDOWN_ACK_TIMEOUT (R488) -/
  | teardownAckTimeout (chip : BitVec 16) (cid : BitVec 12)
  /-- PCIE_PERST_N (R518) -/
  | pciePerstN (level : Bool)
  /-- RAIL_RANGE_TIMEOUT (R513) -/
  | railRangeTimeout (rail : Nat)
  /-- STACK_RAIL_FAULT (R511) -/
  | stackRailFault (pp : Bool)
  /-- BLOCK_LOCK_LOSS (R235) -/
  | blockLockLoss (p : PortNo) (heads : LaneHeads)
  /-- MSIX_VECTOR_UNMASK (R184) -/
  | msixVectorUnmask (fn : TenantNo) (vec : BitVec 6)
  /-- SETUP_READ (R501) -/
  | setupRead (a : BarAddr) (w : Width)
  /-- CONFIGURATION_REQUEST (R436) -/
  | configurationRequest (c : CfgAccess)
  /-- CXL_CACHE_ERROR (R166) -/
  | cxlCacheError
  /-- AUTO_REMAP (R121) -/
  | autoRemap (v : Word) (bad : List Nat)
  /-- TEST_LOGIC_RESET_EXIT (R385) -/
  | testLogicResetExit
  /-- BOUNDARY_DRIVE_EXIT (R336) -/
  | boundaryDriveExit
  /-- IN_BAND_INTERRUPT (R385) -/
  | inBandInterrupt
  /-- PLINTH_TEMPERATURE_115 (R399) -/
  | plinthTemperature115
  /-- FAR_BIGHT_LOOPBACK_END (R264) -/
  | farBightLoopbackEnd (p : PortNo)
  /-- OUTPUT_BELOW_SETTING (R418) -/
  | outputBelowSetting (reg : Fin 6)
deriving DecidableEq, Repr

end Sys2Proof
end

