-- ==== Sys2Proof/Decode.lean ====
section
/-!
DEFINITION. The command that a word spells by the table's bits, and which 32-bit words the instructions of the tile core claim.
spec/opcode_table.json gives no row any bits (every row's field list is empty: the rows are events of the block), so no word
spells a command.
-/

namespace Sys2Proof

/-- No row of the table gives bits. [DEDUCED: log 20] -/
def decodeTableWord (_nbits _w : Nat) : Option Instr := none

/-- Bits [lo+len−1:lo] of an instruction word. -/
def wordField (w : BitVec 32) (lo len : Nat) : Nat := w.toNat / 2 ^ lo % 2 ^ len

/-- Major 0x01 (02 R43): two sources, or one with RS2 zero. -/
def claimsScalar (rs2 fn : Nat) : Bool :=
  fn ≤ 0x00A || (0x010 ≤ fn && fn ≤ 0x012) || (0x018 ≤ fn && fn ≤ 0x01B) || (0x020 ≤ fn && fn ≤ 0x022 && rs2 == 0)

/-- Major 0x13 (02 R41): where CRR and CRW hold their 4-bit index is not said, so every word with their FN is theirs. TRAPI's
call number lies in RS2 and FN[10:8]. [DESIGN CHOICE: log 185] -/
def claimsControl (rd rs1 rs2 fn : Nat) : Bool :=
  match fn with
  | 0x000 => rd == 0 && rs2 == 0
  | 0x003 | 0x004 => true
  | 0x001 | 0x002 | 0x006 | 0x007 | 0x008 | 0x009 | 0x00A => rd == 0 && rs1 == 0 && rs2 == 0
  | _ => fn % 256 == 5 && rd == 0 && rs1 == 0

/-- Majors 0x28 to 0x2E (03 R97), by SUB, with C zero where the instruction does not use it. -/
def claimsVector (major sub c : Nat) : Bool :=
  match major with
  | 0x28 => sub / 16 ≤ 2 && sub % 16 ≤ 6
  | 0x29 => sub / 16 ≤ 1 && sub % 16 ≤ 2 && c == 0
  | 0x2A => sub / 16 ≤ 2 && sub % 16 ≤ 1 && c == 0
  | 0x2B => (sub == 0 && c == 0) || sub == 1
  | 0x2C => sub ≤ 9 && c == 0
  | 0x2D => (1 ≤ sub && sub ≤ 7) || (0x21 ≤ sub && sub ≤ 0x27)
  | 0x2E => sub == 1 || (sub ≤ 6 && c == 0)
  | _ => false

/-- The X-format majors other than the vector ones (02 R41, 03 R80, 09 R274), with the fields an instruction leaves unused
zero. -/
def claimsX (major sub a b c d : Nat) : Bool :=
  match major with
  | 0x14 => (sub == 2 || d == 0) && sub ≤ 4
  | 0x18 => sub ≤ 2 && c == 0 && d == 0
  | 0x19 =>
    match sub with
    | 0 | 3 => a == 0 && b == 0 && c == 0 && d == 0
    | 1 | 2 => d == 0
    | 4 | 5 => b == 0 && c == 0 && d == 0
    | _ => false
  | 0x1A => (sub == 1 || (sub == 0 && b == 0)) && c == 0 && d == 0
  | 0x20 => ((sub == 0 && b == 0) || sub == 1) && c == 0 && d == 0
  | 0x21 => sub == 0 && c == 0 && d == 0
  | 0x30 | 0x31 | 0x32 | 0x33 => sub == 0
  | _ => claimsVector major sub c

/-- Whether an instruction claims a word (02 R41): its major is assigned, its FN, SUB or COND is assigned, and every field that
it leaves unused is zero. The words 0x0000_0000 and 0xFFFF_FFFF are claimed by none. [DESIGN CHOICE: log 185] -/
def claimed (w : BitVec 32) : Bool :=
  let major := wordField w 26 6
  let rd := wordField w 21 5
  let rs1 := wordField w 16 5
  let rs2 := wordField w 11 5
  let fn := wordField w 0 11
  match major with
  | 0x01 => claimsScalar rs2 fn
  | 0x06 => wordField w 8 8 == 0 && wordField w 6 2 != 3
  | 0x02 | 0x03 | 0x04 | 0x05 | 0x08 | 0x09 | 0x0A | 0x0B | 0x0C | 0x0D | 0x0E | 0x0F | 0x11 | 0x12 => true
  | 0x07 => rs1 == 0
  | 0x10 => rd ≤ 5 || (rd == 6 && rs1 == 0)
  | 0x13 => claimsControl rd rs1 rs2 fn
  | 0x15 => rs2 == 0 && fn == 0
  | 0x16 => rd == 0 && fn == 0
  | _ => claimsX major (wordField w 20 6) (wordField w 15 5) (wordField w 10 5) (wordField w 5 5) (wordField w 0 5)

/-- BRK's word: major 0x13, FN 0x006, every other field zero (02 R41). -/
def brkWord : BitVec 32 := 0x4C000006#32

end Sys2Proof
end

