-- ==== Sys2Proof/Config.lean ====
section
/-!
DEFINITION. What the spec leaves open and the model leaves free: constants with no body, so that no proof can
see a value of them. Each is applied to the operands it depends on, or to the plain counter `State.free`.
-/

namespace Sys2Proof.Config

/-- A free byte for each draw: data decrypted under another key (04 R115), miscorrected data (R117),
contents the spec calls unspecified (02 R56, R57, 03 R527, 09 R291), zero-fill after line initialisation (16 R441).
[DESIGN CHOICE: log 17] -/
opaque freeByte : Nat → Byte

/-- A free word for each draw: nonces and identities drawn by the security engine (11 R337).
[DESIGN CHOICE: log 17, DEDUCED: log 133] -/
opaque freeWord : Nat → Word

/-- Byte `i` of a line read under another key than it was written under (04 R114, R115), or never written since the core rails came
up (16 R441): AES-XTS makes of one stored line, one key and one tweak one value. The line's number, what it holds (bytes, key;
the start that left it unwritten), the reading key, `i`. [DESIGN CHOICE: log 17, DESIGN CHOICE: log 18] -/
opaque xtsOther : Nat → List Byte → Nat → Nat → Nat → Byte

/-- A free choice for each draw: the old or the new word of a racing read (02 R49). [DESIGN CHOICE: log 17] -/
opaque freeBool : Nat → Bool

/-- Which of the results inside the bound of 03 R100 the approximation gives: operation (0 VEXP, 1 VRCP,
2 VRSQ), whether the result is BF16, operand bits. [DESIGN CHOICE: log 17, DESIGN CHOICE: log 39] -/
opaque approxPick : Nat → Bool → BitVec 32 → Nat

/-- The modelled Active power of a partition at an operating point and temperature, in W (12 R356): the
coefficients are the package's own and are not published (R364). [DESIGN CHOICE: log 17, DEDUCED: log 134] -/
opaque activePower : Nat → Nat → Nat → Nat

/-- Whether VRSUM of `n` elements that are all −0 gives −0 (03 R98): the result depends only on the values and on n.
[DESIGN CHOICE: log 17, DEDUCED: log 43] -/
opaque zeroSum : Nat → Bool

/-- The random draw of a candidate intermediate group (07 R209): the register's successive states.
[DESIGN CHOICE: log 17, DEDUCED: log 83] -/
opaque lfsr : Nat → BitVec 16

/-- The AES-256-CMAC tag of 11 R328, under the key of a draw: no key's bits are in the model.
[DESIGN CHOICE: log 17, DESIGN CHOICE: log 18] -/
opaque cmac : Nat → List Byte → BitVec 64

/-- Byte `i` of a measurement register after a series of extensions (11 R333): M = SHA-384(M ‖ digest), and no image's digest is in
the model. [DESIGN CHOICE: log 17, DESIGN CHOICE: log 18] -/
opaque measured : List Nat → Nat → Byte

/-- How many fc 32 cycles of a control core of the control complex last (14 R391): the spec gives those cores no clock.
[DESIGN CHOICE: log 17, DEDUCED: log 140] -/
opaque maskWindow : Nat

end Sys2Proof.Config
end

