-- ==== Sys2Proof/Machine/State.lean ====
section
/-!
DEFINITION. The state of the package, as plain data: every register, queue, buffer, counter, mode and land the
spec names, and the queue of waiting commands. Sparse families (tiles, rings, sources, ...) are lists of
(key, value) pairs; a key that is not listed stands at its family's reset value.
-/

namespace Sys2Proof.Machine

/-- A family of units by number; an unlisted number is at the reset value its accessor names. -/
abbrev SMap (α : Type) := List (Nat × α)

/-- Byte memory in the canonical form of Machine/Map.lean: rising addresses, no zero byte listed. -/
abbrev Memory := List Host.Cell

/-! ### What leaves the package -/

/-- What a broadcast of the control complex carries (05 R154): the tile firmware, an armature record, a hold or its release for
logical ids. -/
inductive Cast where
  | firmware (image : List Byte)
  | record (part : Nat) (bytes : List Byte)
  | hold (ids : List Nat)
  | release (ids : List Nat)
deriving DecidableEq, Repr

/-- The requester of a host access: its function, and the PASID attached to it (06 R157, R165). -/
structure Requester where
  fn    : Nat
  pasid : Option (BitVec 20)
deriving DecidableEq, Repr

/-- What the package sends out, in order of sending. -/
inductive Output where
  | hostWrite (who : Requester) (addr : Nat) (bytes : List Byte)   -- 06 R180, R182, R176
  | hostRead (who : Requester) (addr : Nat) (len : Nat)     -- 06 R168, R171, R176
  | rdShared (who : Requester) (addr : Nat)                 -- 06 R166, a doorbell line into the device cache
  | snoopAnswer (addr : Nat)                                -- 06 R166
  | msix (fn : Nat) (vec : Nat) (addr : Word) (data : BitVec 32)   -- 06 R184
  | packet (p : Packet)                                     -- into the mesh or the spine
  | linkOut (port : Nat) (vc : Nat) (p : Packet)            -- 07 R206, on a link port
  | linkSet (port : Nat) (kind : Nat) (arg : Nat)           -- 08 R262 to R264, what a test does to the lanes
  | linkTs (port : Nat) (lanes : List TrainSeq)             -- 08 R244, sent again and again until the port sends another
  | linkFrame (port : Nat) (bytes : List Byte)              -- 08 R237, the 208 bytes before they are scrambled
  | linkRound (port : Nat) (blocks : List (Nat × BitVec 130))   -- 08 R234, R236, by transmit lane; bit 0 first on the wire
  | linkBits (port : Nat) (lane : Nat) (bits : List Bool)   -- 08 R262, raw PRBS
  | toRouter (port : Nat) (p : Packet)                      -- 08 R239, a packet released to the package router
  | setupData (v : Word)                                    -- 19 R500, the value a BAR0 read returns
  | claim (tgt : Nat) (v : BitVec 11)                       -- 14 R388, what a claim read returns
  | configStatus (retry : Bool)                             -- 16 R436
  | advertises (fn : Nat) (f : HostFeature) (yes : Bool)    -- 06 R156
  | unsupported (fn : Nat)                                  -- 06 R156
  | response (path : MgmtPath) (code : Nat) (detail : Nat) (data : List Byte)  -- 15 R403, R409
  | report (code : Nat) (detail : Nat) (lt : Word)          -- 15 R407, sent to the named receiver
  | jtag (data : List Byte)                                 -- 11 R336
  | land (name : String) (level : Bool)                     -- 20 R517
  | broadcast (mask : Nat) (ten : BitVec 7) (ports : List (Bool × Nat)) (what : Cast) -- 05 R154, by its seam ports
deriving DecidableEq, Repr

/-! ### Tile (02, 03, 09) -/

/-- CST and XCST (02 R34). -/
structure Cst where
  frm : BitVec 3
  dep : BitVec 3
  pl  : Bool
  ei  : Bool
deriving DecidableEq, Repr

/-- Why a control core is not executing (02 R50 to R61). -/
inductive Wait where
  | none
  | waitv (ge : Bool) (off : Nat) (val : Word) (rd : Reg) (dueTc : Option Nat) (met : Bool)
  | bar
  | layw (val : Word) (rd : Reg)
  | twait (n : Word)
  | vwait (n : Word)
  | fence
  | dmaWait (rd : Reg) (h : Nat)
  | reply (rd : Reg) (tag : Nat)
  | done
deriving DecidableEq, Repr

/-- The seven operations of the tensor queue (03 R77, 09 R274). -/
inductive TOp where
  | tmm | tmmAg | tanc | rs | ar | ag | a2a
deriving DecidableEq, Repr

/-- A tensor or fused instruction that has started: rate, anchor, the bytes it will write back, the sticky bits
it will set, and the fused bookkeeping of 09 R277 to R281. -/
structure TRun where
  half    : Bool
  anchor  : Int
  writes  : List (Nat × Byte)
  sticky  : BitVec 8
  opened  : Bool
  team    : Nat
  step    : Nat
  rank    : Nat
  n       : Nat
  tdesc   : List Byte            -- the tensor descriptor and the fused descriptor read at the start
  fdesc   : List Byte
  phase   : Nat                  -- 0 gathering, 1 anchor pass, 2 data pass, 3 own share written
  agree   : List Nat             -- agreed anchor bytes of the own shard, as far as they are known
  rgot    : Nat                  -- bytes counted in the result area and in GADDR
  ggot    : Nat
  sends   : List (Nat × Nat × Bool)        -- destination, SEQ, RETRY: chunks not yet asked for
  asked   : List (Nat × Nat × Bool × Nat)  -- with the tag of the outstanding SLOT_REQ
  flying  : List (Nat × Nat)     -- sent and not yet CHECKED
  landed  : List (Nat × Nat)     -- (source rank, SEQ) received
  waiting : List (Nat × Nat × List Byte) -- data in RBUF that waits for phase 5: half, first group, payload
  due     : Option Nat
deriving DecidableEq, Repr

/-- A tensor queue entry: register values read at issue (03 R77), the charge request (12 R359). -/
structure TEntry where
  op  : TOp
  pc  : Word
  a   : Word
  b   : Word
  c   : Word
  d   : Word
  late : List (Nat × List Byte) -- words a later core store wrote while it ran, with their old bytes (02 R49)
  req : Option (Nat × Nat)   -- cost in cu and the tc of the request
  run : Option TRun
deriving DecidableEq, Repr

/-- The operations of the vector queue (03 R97), with their type or sub-operation code. -/
inductive VOp where
  | add (t : BitVec 2) | sub (t : BitVec 2) | mul (t : BitVec 2) | fma (t : BitVec 2)
  | max (t : BitVec 2) | min (t : BitVec 2) | scl (t : BitVec 2)
  | exp (t : BitVec 2) | rcp (t : BitVec 2) | rsq (t : BitVec 2)
  | rsum (t : BitVec 2) | rmax (t : BitVec 2)
  | smax | rmsn | cvt (s : BitVec 6) | bse (s : BitVec 6) | bsd (s : BitVec 6)
  | wsanc | wsenc | wsaln | wsadd | wsrnd (bf16 : Bool) | wsamx
deriving DecidableEq, Repr

/-- A vector queue entry. -/
structure VEntry where
  op : VOp
  pc : Word
  a  : Word
  b  : Word
  c  : Word
  d  : Word
  late : List (Nat × List Byte)
deriving DecidableEq, Repr

/-- A running DMA transfer (02 R55, R56): its descriptor, the next piece to ask for and the next to write, what has come of
the pieces between them (piece, 0 or the status of its failure, bytes), and the failure that ended it. -/
structure Xfer where
  src     : Word
  dst     : Word
  len     : Nat
  rows    : Nat
  sstride : Nat
  dstride : Nat
  post    : Bool
  pe      : Bool
  tenantLevel : Bool
  asked   : Nat
  written : Nat
  got     : List (Nat × Byte × List Byte)
  failed  : Option Byte
deriving DecidableEq, Repr

/-- A DMA handle (02 R55): free, running a transfer, or completed with a status. -/
inductive Handle where
  | free
  | running (x : Xfer)
  | completed (status : Byte)
deriving DecidableEq, Repr

/-- An entry of the outstanding table (17 R465): one reply space in use; for a DMA request its handle and its piece. -/
structure Outst where
  addr  : Word
  gen   : BitVec 8
  old   : Bool
  pc    : Word
  kind  : BitVec 4
  retry : Bool
  pkt   : Packet
  due   : Nat                    -- when it is sent again, 256 fc after the Retry (07 R203)
  dma   : Option (Nat × Nat)
deriving DecidableEq, Repr

/-- One physical tile. -/
structure Tile where
  common   : Vector Word 16
  groups   : Vector Word 64
  pc       : Word
  cst      : Cst
  xcst     : Cst
  xpc      : Word
  xcause   : Word
  xval     : Word
  xbase    : Word
  spp      : Nat
  wto      : Word
  tenant   : BitVec 7
  job      : BitVec 32
  ring     : BitVec 13
  cycle0   : Nat
  astat    : Word
  event    : BitVec 3               -- EVENT bits that have set; [2] also follows the handles
  evSeen   : BitVec 3               -- EVENT as the event trap under way found it
  running  : Bool
  halted   : Bool
  marked   : Bool
  wait     : Wait
  bars     : Nat
  jobs     : List DescKey
  scratch  : Memory
  upsets   : SMap Bool
  scrubPos : Nat
  tq       : List TEntry
  vq       : List VEntry
  tfault   : Option (Byte × Word × Nat × Bool)  -- pending imprecise: code, address, discarded, fused
  vfault   : Option (Byte × Word × Nat)
  lateErr  : Option (Word × Word)   -- a GST's error reply not yet taken: the global address, the GST's own
  tAst     : List (BitVec 8 × Option (BitVec 10) × Option (BitVec 8)) -- updates not yet seen (03 R104)
  vAst     : List (BitVec 8 × Option (BitVec 8))
  drain    : Option (Bool × Bool)  -- a tile reset at step 3 of R457: driver's order, firmware CRC good
  handles  : Vector Handle 8
  reads    : SMap Outst
  writes   : SMap Outst
  retired  : Nat
  fwCrc    : BitVec 32
  fwTry    : Nat                 -- failed firmware checks (05 R155)
  lastFc   : Nat                 -- when the core, a unit or the DMA engine last finished something (17 R470)
deriving DecidableEq, Repr

/-! ### Partition (01, 05, 10, 12, 13, 17) -/

/-- STATE of the partition state word (01 R16). -/
inductive PState where
  | off | idle | active | parked | fenced | resetting
deriving DecidableEq, Repr

/-- VERDICT (01 R15). -/
inductive Verdict where
  | unknown | inService | outOfService
deriving DecidableEq, Repr

/-- The partition state word (01 R15). -/
structure Psw where
  state      : PState
  fencePend  : Bool
  conflict   : Bool
  gen        : BitVec 8
  tenant     : BitVec 7
  verdict    : Verdict
  fenceCause : BitVec 8
  seq        : BitVec 16
deriving DecidableEq, Repr

/-- The armature record in force (05 R144), as the control complex holds it. -/
structure Armature where
  lmap   : List Nat
  spares : List (Nat × Bool)
  epoch  : BitVec 16
deriving DecidableEq, Repr

/-- A rotation in progress (05 R150): the moves (logical index, from, to), the markers still to come (moving tile, its sender, none
for the partition port, channel), the step, and the writes held at the partition port. -/
structure RotState where
  moves   : List (Nat × Nat × Nat)
  markers : List (Nat × Option Nat × Nat)
  step    : Nat
  held    : List Packet
  started : Nat
deriving DecidableEq, Repr

/-- A partition calendar entry (10 R308, R309). -/
inductive PCal where
  | opRaise
  | unparkStep (key : DescKey)
  | ageing
  | phase (job : DescKey) (off : Nat) (val : Word)
deriving DecidableEq, Repr

/-- A partition reset in progress (17 R459). -/
structure ResetRun where
  step     : Nat
  cause    : BitVec 8
  entered  : BitVec 8          -- FENCE_CAUSE it entered with, 0 none
  recorded : List (BitVec 8)   -- causes recorded under 18 R496
  standing : List (BitVec 8)   -- causes of 17 R460, R461 that the reset did not repair
  jobs     : List DescKey
  driver   : Bool
  sample   : Option Nat
  retired  : Nat
  holds    : Bool              -- the hard-trip condition still holds (17 R454)
  overfull : List Nat          -- tiles whose drain left more than 32 old entries (17 R461)
deriving DecidableEq, Repr

/-- The stretching of a tile clock (12 R361). -/
inductive Stretch where
  | none | half | threeQuarter
deriving DecidableEq, Repr

/-- One partition. -/
structure Part where
  psw        : Psw
  jobs       : List DescKey
  waiting    : List DescKey       -- jobs whose set holds it and which the ramp has not admitted
  arm        : Option Armature
  epoch      : BitVec 16
  retired    : List Nat
  heat       : SMap Nat
  rot        : Option RotState
  rotLast    : Nat
  rotations  : Nat
  lastAbort  : BitVec 8
  becameIdle : Bool               -- STATE has last changed from Active to Idle (05 R148)
  portUsed   : SMap Nat           -- channels that the partition port has used toward a tile, by physical index (05 R151)
  idleSince  : Nat
  cal        : List (Word × Nat × Bool × PCal)  -- Lay time, arming order, late, kind
  opPt       : Nat
  floor      : Nat
  ceil       : Nat
  newWindow  : Option (Nat × Nat) -- recorded during an alert (12 R358)
  duty       : Nat
  dutyLow    : Bool               -- DUTY was below 16 in the ms
  dutyWhy    : List Nat           -- reasons for which DUTY is low
  stretch    : Stretch
  stretched  : Nat                -- fc of stretching in the present ms
  stretchEnd : Nat                -- tc count at which three quarters of the frequency ends
  alertOp    : Option Nat         -- pre-alert OP, while an alert holds or the return runs
  target     : Option Nat
  stepDue    : Option Bool        -- a one-step change in progress: true a raise
  raiseArmed : Bool
  charge     : Nat
  tcAcc      : Nat                -- tile clock count in 1/640 tc
  halfStarts : Nat
  volt       : Int                -- core voltage applied, in mV (12 R343, R345)
  rampWait   : Bool               -- an admission or unpark of it waits for the ramp (12 R356)
  usW        : List Nat           -- its modelled power in the last 1,000 µs, newest first
  tcMark     : Nat                -- tcAcc at the last evaluation of the energy model
  energyUj   : Nat
  ageOffset  : Vector Nat 16
  slack      : Vector (List (BitVec 6)) 16
  ageCeil    : Nat
  ageHeld    : Bool
  ageCount   : Nat
  ageLastLt  : Word
  ageDue     : Bool
  ageMeas    : Nat
  ageSkipped : Nat
  ageDrops   : Nat
  reset      : Option ResetRun
  resets     : Nat
  lastCause  : BitVec 8
  lateDrops  : Nat
  absorbed   : Nat
  retiredIns : Nat
  admitted   : Nat
  rackVerdict : Option Bool
  sensorDead : Bool
  regDown    : Bool               -- its regulator does not answer (15 R418)
  fencesHeld : List (BitVec 8)    -- fencing orders that wait for a rotation's release (05 R152) or a tenant change (11 R319)
  resetsHeld : List (BitVec 8 × Bool × Bool) -- reset orders that wait so: cause, by the driver, hard trip holds
deriving DecidableEq, Repr

/-! ### Stack and pointing engine (04) -/

/-- A queued access (04 R111, R112): the packet, the draw of the key its tag selected, whether its acknowledgement has already
been sent, and the placement in force when it entered (R110). -/
structure StackReq where
  pkt   : Packet
  key   : Nat
  acked : Bool
  ilv   : Nat
deriving DecidableEq, Repr

/-- A codebook bank (04 R133, R134): 0 Empty, 1 Loading, 2 Ready. -/
structure Bank where
  state : Nat
  code  : Nat
  tag   : BitVec 16
  owner : BitVec 7
  data  : List Byte
deriving DecidableEq, Repr

/-- A pointing-engine stream (04 R128 to R136). -/
structure Stream where
  sid    : Nat
  tile   : Nat
  handle : Nat
  load   : Bool
  code   : Nat
  bank   : Nat
  cbTag  : BitVec 16
  owner  : BitVec 7
  iaddr  : Word
  first  : Nat
  count  : Nat
  len    : Nat
  rows   : Nat
  active : Bool
  order  : Nat
  since  : Nat                   -- when it reached the engine
deriving DecidableEq, Repr

/-- One stack and its controller. -/
structure Stack where
  queue     : List StackReq
  mem       : Memory
  keyOf     : SMap Nat           -- line number to the key it was written under
  poison    : List Nat
  badRows   : SMap (BitVec 32)
  watch     : List (Nat × Nat)   -- physical row, corrected count; oldest first
  uncRows   : List (Nat × Nat × Nat) -- pseudo-channel, row, time of an uncorrectable error
  retrains  : List (Nat × Nat)
  corrected : Nat
  uncorr    : Nat
  spareExh  : Bool
  exhRows   : List Nat           -- rows that qualified while no spare was free (R123)
  refused   : Nat
  tempC     : Nat
  sensFails : Nat
  hot       : Bool
  scrubPos  : Nat
  refreshed : SMap Nat
  selfRef   : Bool
  lastUse   : Nat
  banks     : Vector Bank 2
  streams   : List Stream
  lastErr   : BitVec 8
  nextOrder : Nat
  suspects  : List Nat
deriving DecidableEq, Repr

/-! ### Rings, descriptors, jobs (06) -/

/-- The package's side of a ring (06 R162 to R164, R184, 17 R470). -/
structure Ring where
  pkgIndex : BitVec 32
  lead     : Nat                 -- new descriptors seen and not fetched
  asked    : Nat                 -- of them, those whose read has been sent
  hostIdx  : BitVec 32           -- consumer index last read from the slot
  err      : BitVec 8
  stopped  : Bool
  inflight : Nat
  reserved : Nat                 -- slots of a completion ring reserved (R173)
  started  : BitVec 32
  completed : BitVec 32
  unsent   : Nat                 -- entries since the last message
  timer    : Option Nat
  dropped  : Nat                 -- notices dropped of an event ring (R182)
deriving DecidableEq, Repr

/-- A doorbell line (06 R165 to R168). -/
structure Line where
  seen   : List (BitVec 32)
  cached : Bool
  busy   : Bool
  again  : Bool
deriving DecidableEq, Repr

/-- A started descriptor (06 R169, R173). -/
structure Desc where
  bytes  : List Byte
  tenant : BitVec 7
  pasid  : Option (BitVec 20)    -- its ring's (R165)
  cq     : Nat
  ready  : Bool                  -- START_LT reached
  late   : Bool
  busy   : Bool                  -- its class's own work has begun
  gone   : Bool                  -- its ring was reset (R159): no entry is written
  wiped  : Bool                  -- and its ring's counts were reset with it (PF)
  aux    : Nat                   -- what the class counts: bytes moved, CID, unpark position
deriving DecidableEq, Repr

/-- A job (06 R174, R175). -/
structure Job where
  tenant   : BitVec 7
  pset     : BitVec 12
  entry    : BitVec 32
  args     : List (BitVec 32)
  admitted : List Nat            -- partitions admitted
  finished : List Nat            -- tiles that executed DONE
  tiles    : List Nat            -- tiles that run it
  energyPj : Nat                 -- energy charged to it, in pJ (12 R365)
  since    : SMap Nat            -- partition to its tile clock count at the admission
  fault    : Option Nat          -- first faulting logical tile
  resets   : List Nat            -- tiles whose reset the control complex waits for
  aborted  : Option Nat          -- partition whose reset ended it
  barriers : Nat
deriving DecidableEq, Repr

/-! ### Fabric (07) -/

/-- A multicast table entry (07 R215). -/
structure McEntry where
  groups : List Byte
  tenant : BitVec 7
  team   : Nat
deriving DecidableEq, Repr

/-- A circuit table entry (07 R219). -/
structure Ckt where
  owner  : BitVec 16
  cid    : BitVec 12
  inPort : Option Nat            -- none: this package
  out    : Option Nat            -- none: local delivery
  chan   : Nat
  phase  : Nat                   -- of its hop onward (R207, R213, R214)
  share  : Nat
  tenant : BitVec 7
  broken : Bool
  bind   : Bool
  dst    : BitVec 16
  refs   : Nat
  up     : Bool                  -- the owner has the ACK
  closing : Bool
  key    : Option DescKey        -- the descriptor that waits for it
  why    : Option (Nat × Nat)    -- refusal code and refusing chip of a set-up that is being undone
  due    : Option Nat            -- when the tear-down of a tenant change gives up (18 R488)
  again  : Option Nat            -- when a request answered with Retry is sent again (R203)
deriving DecidableEq, Repr

/-- The topology record's fields in force (07 R187). -/
structure Topo where
  bytes : List Byte
  actLt : Word
deriving DecidableEq, Repr

/-- A receive buffer's packet in the router's hands: port, channel, flits, and the number the port gave it (07 R205). -/
structure Org where
  port  : Nat
  vc    : Nat
  flits : Nat
  id    : Nat
deriving DecidableEq, Repr

/-- The package router. -/
structure Router where
  topo      : Option Topo
  nextTopos : List Topo          -- accepted records that wait for their ACT_LT (R191)
  reject    : BitVec 8
  miswired  : BitVec 32
  ckts      : List Ckt
  mc        : SMap McEntry
  framing   : Nat
  malformed : Nat
  stomped   : Nat
  misroute  : Nat
  address   : Nat
  unreach   : Nat
  refused   : Nat
  circuit   : Nat
  late      : Nat
  mcDrop    : Nat
  cktRefus  : Nat
  cktBroken : Nat
  seamWest  : BitVec 24
  seamEast  : BitVec 24
  seamRetry : Nat
  seamFails : SMap Nat           -- failed resends of one flit, by port (24 west, then 24 east)
  hand      : Option Org         -- the receive buffer of the packet that is being routed
deriving DecidableEq, Repr

/-! ### Links (08) -/

/-- Port state (08 R243). -/
inductive LState where
  | down | align | exchange | hold | adapt | lock | up | spliced | retrain | window | loopback | test | failed
deriving DecidableEq, Repr

/-- A packet queued for a port, with the receive buffer that still holds it. -/
structure Queued where
  org : Option Org
  pkt : Packet
deriving DecidableEq, Repr

/-- A packet that has been started: its channel, the flits sent and those to send (07 R205, 08 R258). -/
structure Started where
  vc   : Nat
  sent : List (List Byte)
  todo : List (List Byte)
  pkt  : Packet
deriving DecidableEq, Repr

/-- A flit sent and not yet acknowledged (08 R240): its number, channel, bytes, the packet it completes, and, on the first
non-null flit of its frame, the credits that frame returned (R242). -/
structure Sent where
  seq   : BitVec 11
  vc    : Nat
  bytes : List Byte
  done  : Option Packet
  cred  : Option (List Nat)
deriving DecidableEq, Repr

/-- A PRBS checker (08 R262): its register, bits taken since it began to load, consecutive bits predicted, in sync, wrong bits of
the last 1,024 by their number. -/
structure PrbsChk where
  reg    : BitVec 31
  loaded : Nat
  run    : Nat
  sync   : Bool
  wrong  : List Nat
deriving DecidableEq, Repr

/-- A link port. -/
structure Port where
  state     : LState
  inService : Bool
  under     : LState             -- the training stage reached while STATE reads Retrain
  holdCause : BitVec 4
  rxGood    : BitVec 8
  txGood    : BitVec 8
  usable    : BitVec 8
  laneMap   : BitVec 32
  maqUsed   : Bool
  peerChip  : BitVec 16
  peerPort  : BitVec 5
  peerVer   : BitVec 4
  peerRate  : BitVec 3
  peerHold  : Bool
  peerMaq   : Bool
  seenPeer  : Option (BitVec 16 × Byte) -- CHIP and PORT that the lanes name in Align (R245)
  rate      : Nat                -- the rate code the lanes run at (R232)
  tsbAt     : Option Nat         -- when TSB began to be sent
  tsaCount  : Vector Nat 8       -- identical TSA in a row, by transmit lane
  tsbGot    : Vector Nat 8
  lastTs    : Option TrainSeq    -- the peer's capability set, LANE and CHECK as zero
  rateGot   : Vector Nat 8
  rateStep  : Nat
  adaptSub  : Nat                -- 0 RATE sequences, 1 sweep, 2 the second exchange at code 1
  attempts  : Nat                -- failed attempts at the step to code 1
  attempts2 : Nat                -- and to code 2
  lockPasses : Nat
  eq        : Vector (BitVec 5) 8
  eq1       : Vector (BitVec 5) 8
  eq2       : Vector (BitVec 5) 8
  emm       : Vector Byte 8
  stored    : Bool               -- the training checks stored codes before it sweeps
  checked   : BitVec 8           -- receive lanes whose check of the stored code fell short
  swept     : BitVec 8           -- receive lanes whose sweep or check has ended
  badLanes  : BitVec 8           -- receive lanes marked bad that this training does not try again
  spliceBad : BitVec 8           -- those of them that were bad when the receive direction was spliced (R256)
  goodTrail : Nat
  aligned   : Bool
  sinceTrain : Nat               -- when the present stage began
  retrainStart : Nat             -- when the retrain in progress began
  anew      : Bool               -- sequence numbers and credits start afresh
  txSeq     : BitVec 11
  rxSeq     : BitVec 11
  replay    : List Sent
  outq      : List Started
  rewind    : Bool
  nakSent   : Option (BitVec 11 × Nat)  -- ACK value and repeats
  nakAt     : Nat                -- when the last NAK was sent
  waitResend : Bool
  ackAt     : Nat
  credits   : Vector Nat 12
  rxUsed    : Vector Nat 12
  txq       : Vector (List Queued) 12
  rxPart    : Vector (List Byte) 12     -- flits of a packet that is still arriving
  rxq       : List (Nat × Nat × Packet) -- packets released to the router: number, channel
  rxNo      : Nat
  credRet   : Vector Nat 12             -- credits still to be returned (R242)
  credSeen  : List (BitVec 11)          -- frames ahead of the next flit whose credits have been counted
  nakDue    : Bool                      -- the next frame sets NAK
  txBuf     : List Byte                 -- bytes of frames that do not fill a round yet (R236)
  txRounds  : Nat                       -- data rounds since the last CMP
  txScr     : Vector (BitVec 31) 8      -- scramblers by transmit lane (R234)
  rxScr     : Vector (BitVec 31) 8
  rxPos     : Nat                       -- bytes taken of the current data round
  blockLock : BitVec 8                  -- receive lanes with block lock (R235)
  winOpen   : Bool                      -- in a window, null frames still leave (R259 step 3)
  slotCnt   : Nat                       -- flits of the present 64 of the circuits' shares (07 R206, R220)
  cktSent   : Vector Nat 2              -- of them, each circuit channel's
  inject    : Option (Nat × Nat × Nat)  -- lane, bits to skip, bits to invert (R263)
  prbsGen   : Vector (BitVec 31) 8
  prbsChk   : Vector PrbsChk 8
  pauseEnd  : Option (Option Word)      -- held; none inside: until release
  retrainAt : List Nat
  window    : Option (Word × Word)
  quiet     : Bool
  rtt       : Nat
  crcErr    : Nat
  replays   : Nat
  retrains  : Nat
  lockLoss  : Nat
  ctlDrop   : Nat
  prbsSync  : BitVec 8
  prbsErr   : Vector Nat 8
  syncBest  : List (Int × Nat)          -- smallest round trips of the last 1 s, with their times
  syncLast  : Option (Nat × BitVec 2 × Bool × BitVec 16 × Nat)  -- last valid sample
  maq       : Option (List Byte)
  held      : Bool                       -- not released by bring-up (16 R447)
  echoAt    : Nat                        -- when ECHO was last sent
  loopPeer  : Bool                       -- loops for the peer (R264)
  leaving   : Bool                       -- has left service; queued packets and circuits are still to be dealt with (07 R211)
  rr        : Nat                        -- channel last served (07 R206)
deriving DecidableEq, Repr

/-! ### Collectives (09) -/

/-- A team table entry (09 R271). -/
structure Team where
  tenant : BitVec 7
  num    : BitVec 8
  relay  : Bool
  chips  : List Nat
  tlist  : List Nat
  n      : Nat
  mcIdx  : Nat
  lmask  : BitVec 16
  ckts   : List Nat              -- destination chips whose circuit it references
  aborted : Option (BitVec 16)
deriving DecidableEq, Repr

/-- A staging slot granted to a chunk (09 R287, R288). -/
structure Slot where
  tenant  : BitVec 7
  team    : BitVec 8
  step    : BitVec 16
  srcRank : Nat
  dst     : Nat
  seq     : Nat
  kind    : Nat
  srcChip : BitVec 16
  tiles   : List Nat
  image   : List (Nat × List Byte)
  granted : Nat
  first   : Option Nat
  need    : Nat
deriving DecidableEq, Repr

/-- A queued slot request (09 R287). -/
structure SlotReq where
  pkt     : Packet
  tenant  : BitVec 7
  team    : BitVec 8
  step    : BitVec 16
  srcRank : Nat
  dst     : Nat
  seq     : Nat
  kind    : Nat
deriving DecidableEq, Repr

/-- A team formation in progress (09 R271): the chips whose circuit is still to be set up, those it holds a reference to, and
the refusal met. -/
structure Forming where
  key    : DescKey
  tenant : BitVec 7
  num    : BitVec 8
  relay  : Bool
  chips  : List Nat
  tlist  : List Nat
  n      : Nat
  mcIdx  : Nat
  lmask  : BitVec 16
  groups : List Byte
  share  : Nat
  todo   : List Nat
  taken  : List Nat
  fail   : Option (Nat × Nat)    -- refusal code and chip
deriving DecidableEq, Repr

/-- The staging controller. -/
structure Staging where
  slots     : SMap Slot
  withheld  : List Nat
  reqs      : List SlotReq
  teams     : List Team
  forming   : List Forming
  failed    : List (Nat × Nat × Nat × Nat)  -- tile, step, source rank, SEQ with one failed check
  lastTile  : Nat
  checkFail : Nat
  resends   : Nat
  aborts    : Nat
  stray     : Nat
deriving DecidableEq, Repr

/-! ### Lay time (10) -/

/-- What a package calendar entry does (10 R309). -/
inductive Cal where
  | linkWindow (mask : BitVec 32) (ltEnd : Word)
  | topology
  | sample (buf : Nat)
  | desc (key : DescKey)
deriving DecidableEq, Repr

/-- A package calendar entry: its Lay time, its arming order, the late flag, its event, and the entry's number 0 to 255
(10 R308, R311; 14 R385). -/
structure CalEntry where
  lt   : Word
  no   : Nat
  late : Bool
  ev   : Cal
  slot : Nat
deriving DecidableEq, Repr

/-- Lay time. -/
structure Lay where
  time      : Word
  frac      : BitVec 32
  state     : Nat
  role      : Bool
  pps       : Bool
  parent    : Option Nat
  hops      : Nat
  master    : BitVec 16
  offset    : Int
  freq      : Int
  slew      : Int                -- lt still to be spread
  slewLeft  : Nat                -- fc left of the 16 µs
  holdLeft  : Nat                -- lt still to hold still (first lock)
  firstDone : Bool
  everLocked : Bool              -- has been Locked since the core rails came up
  smallRun  : Nat
  bigRun    : Nat
  second    : Option Word
  lastEdge  : Nat
  cal       : List CalEntry
  armNo     : Nat
  lateCnt   : Nat
  fullCnt   : Nat
  period    : BitVec 32
  slotOff   : BitVec 32
  ppsIgn    : Nat
  discarded : Nat
  roleConf  : Nat
  stepRef   : Nat
  ppsOut    : Bool
  syncDue   : Nat
deriving DecidableEq, Repr

/-! ### Tenants and security (11) -/

/-- Debug state (11 R336). -/
inductive Debug where
  | locked | unlocked | manufacturing
deriving DecidableEq, Repr

/-- A tenant change in progress (11 R318). -/
structure TenChange where
  part   : Nat
  tenant : BitVec 7
  closing : List (BitVec 12)     -- circuits whose tear-down is awaited
deriving DecidableEq, Repr

/-- Fuses (11 R324, 16, 12). -/
structure Fuses where
  grade    : Nat                 -- 0 L12, 1 L10, 2 A7
  prod     : Bool
  deviceId : Word
  svn      : Vector Nat 6
  calId    : BitVec 16
  trimMv   : Vector Int 12
deriving DecidableEq, Repr

/-- A fabric key of a tenant: its id, the number of its draw, its slot (11 R325). -/
structure FabKey where
  id   : BitVec 16
  draw : Nat
  slot : Nat
deriving DecidableEq, Repr

/-- Keys, tenants and the debug state. A key is known by the number of its draw; its bits are nowhere in the model. -/
structure Sec where
  debug     : Debug
  scope     : BitVec 3
  keys      : SMap Nat           -- memory key slots, 0 the system key
  fabKeys   : SMap (List FabKey)  -- tenant's fabric keys, newest first
  keyStore  : Option (SMap Nat × SMap (List FabKey))
  storeBad  : Bool
  zeroPend  : Bool
  zeroEnd   : Option Nat         -- when the zeroization that began last is over (11 R339)
  resetDue  : Bool               -- a package reset follows (11 R336, R338)
  zeroCount : Nat
  unlockFail : Nat
  nonce     : Option (List Byte × Nat)
  nextKey   : Nat
  keyStatus : BitVec 4
  winErr    : SMap (BitVec 2)
  tenChange : Option TenChange
  tenStatus : BitVec 4
  sessions  : List (BitVec 32 × Bool)
  nextSess  : BitVec 32
  measures  : List (Nat × Nat)   -- measurement index and what it was extended with, in order
  boundary  : Bool               -- a boundary-drive instruction holds the core domain in reset
  running   : Vector Nat 6       -- SVN of the running images
deriving DecidableEq, Repr

/-! ### Power (12) and thermal (13) -/

/-- Package power state, where the core rails are off (12 R346). -/
inductive Sleep where
  | on | ps3 | ps5
deriving DecidableEq, Repr

/-- Power, limits, energy. -/
structure Pwr where
  rails     : Sleep
  hostW     : Nat
  newHostW  : Option Nat
  rackW     : Nat
  rackPend  : Option (Nat × Word)
  thermW    : Nat
  rampW     : Nat
  rampPeak  : Nat
  rampFirst : Bool
  rampAt    : Nat                -- the multiple of 500,000,000 lt at which the current ramp step began
  usW       : List Nat           -- modelled package power in the last 1,000 µs, newest first
  railW     : List (List Nat)    -- modelled power of rails 0 to 5 in the last 10 µs
  energyUj  : Nat
  spineUj   : Nat
  thrTime   : Vector Nat 9
  alerts    : BitVec 6           -- VRALERT_N lands that are low
  alerting  : Bool               -- the alert of R362 holds
  noticeEnd : Option Nat
  noticed   : Option (Nat × Nat)
  lastLimit : Nat × Nat          -- limit and reason last seen
  modelErr  : BitVec 16
  railSet   : Vector Nat 6       -- setting of each rail in mV
  regLimit  : Vector Nat 6       -- current limit in A, 0 the rating
  regData   : SMap RegTelemetry
  regMiss   : Vector Nat 6
  pwrOk     : Bool
  unparkLast : Nat
  admitLast : Nat                -- when RAMP_ADMISSION last admitted a partition
deriving DecidableEq, Repr

/-- Sensors, cap, trip. -/
structure Thm where
  temps     : SMap Nat           -- die sensors 0 to 53, 0.25 °C
  fails     : SMap Nat           -- failed reads in a row
  failed    : List Nat
  stackT    : SMap Nat           -- stack readings, 0.25 °C
  inlet     : Nat
  inletAt   : Option Nat
  inletSrc  : Nat
  thetaDie  : Nat
  thetaStk  : Nat
  windows   : Nat
  hot       : Bool
  coolSince : Option Nat
  tripValid : Bool
  tripId    : Nat
  tripTemp  : Nat
  tripUp    : Nat
  tripCount : Nat
  tripAt    : Nat
  tripLow   : Bool               -- THERMTRIP_N is low
deriving DecidableEq, Repr

/-! ### Cleat (14) -/

/-- A Cleat source (14, CLT_SRC_s). -/
structure Source where
  target : BitVec 3
  en     : Bool
  pend   : Bool
  insvc  : Bool
deriving DecidableEq, Repr

/-- The Cleat and the Belay. -/
structure Cleat where
  src      : SMap Source
  morfort  : BitVec 5
  badCompl : Nat
  wasHigh  : BitVec 5            -- the target's line has been high since its last claim
  lastMask : SMap (Nat × Nat)    -- per target: source masked and the time (Morfort mode)
  belay    : SMap (BitVec 11 × Bool)
  latched  : BitVec 64
  rackWake : Bool
  watching : Bool
  wakeSrc  : BitVec 11
  wakeOk   : Bool
  wakeCnt  : Nat
deriving DecidableEq, Repr

/-! ### Plinth: management, flash, boot (15, 16) -/

/-- A flash slot of a record (15 R420 to R422). -/
structure FSlot where
  seq   : Nat
  valid : Bool
  data  : List Byte
deriving DecidableEq, Repr

/-- Bank header STATE (15 R424). -/
inductive BankState where
  | empty | staging | staged | active | retired | failed
deriving DecidableEq, Repr

/-- A firmware bank: header, and the component slots as (id, SVN, bytes). -/
structure FwBank where
  state : BankState
  seq   : BitVec 32
  comps : SMap (Nat × List Byte)
deriving DecidableEq, Repr

/-- A firmware update in progress (15 R426). -/
structure FwUpdate where
  table   : List (BitVec 16)
  comp    : Option (Nat × Nat)   -- component and size
  got     : List Byte
  done    : List Nat
  state   : Nat                  -- PLDM firmware device state
  lastCmd : Nat
deriving DecidableEq, Repr

/-- The plinth's management side. -/
structure Mgmt where
  standby   : Bool
  since     : Nat                -- when standby power came up
  bmcAt     : Option Nat
  bmc       : Bool
  i3c       : Bool
  i3cAddr   : BitVec 7           -- the dynamic address of SETDASA, 0 with none
  eidTray   : BitVec 8           -- endpoint ids of the SMBus and the I3C binding
  eidI3c    : BitVec 8
  eidHost   : BitVec 8
  receiver  : Option (BitVec 8)
  queue     : List (Nat × Nat × Word)
  lostNew   : Nat
  lost      : Nat
  dropped   : Nat
  jfail     : Nat
  slots     : SMap (FSlot × FSlot)  -- record id to its slots in bank 0 and bank 1
  writes    : List (Nat × List Byte)
  aborted   : List (Nat × List Byte) -- writes that an overheat cut off, with their newest content
  overheat  : Bool
  fw0       : FwBank
  fw1       : FwBank
  activeB1  : Bool
  fallback  : Bool
  update    : Option FwUpdate
  topoPart  : Option (List Byte × Nat)
  romRecov  : Bool
  samples   : SMap (List Byte)
  settingsRole : Bool
  rowCopy   : SMap (SMap (BitVec 32)) -- the plinth's copy of the stacks' bad-row lists (04 R125)
deriving DecidableEq, Repr

/-- Start sequence (16). -/
structure Boot where
  step     : Nat
  kind     : Nat
  ready    : Bool
  cause    : BitVec 8
  failStep : Nat
  starts   : Nat
  lastS    : Nat
  startAt  : Nat
  defects  : List Defect
  slice    : Nat
  untested : BitVec 16
  shutdown : Bool                -- an orderly shutdown is running
  shutLt   : Word                -- Lay time at the start of the shutdown self-test, 0 in Free
  read     : Bool                -- step 1 has read record 0x06 (16 R435)
  testLeft : List Nat            -- stacks whose memory test has not ended
  bad      : List (Nat × BitVec 8)  -- fencing causes found at this start
  retain   : Option (SMap Armature × SMap (BitVec 7) × SMap Word)
  perst    : Bool                -- PCIE_PERST_N is high
deriving DecidableEq, Repr

/-! ### Resets and the error log (17) -/

/-- An error record (17 R473), less the SEQ its place gives. -/
structure ErrRec where
  seq    : BitVec 32
  kind   : BitVec 8
  cause  : BitVec 8
  part   : BitVec 8
  lt     : Word
  tenant : BitVec 8
  gen    : BitVec 8
  ring   : BitVec 16
  job    : BitVec 32
  ltid   : BitVec 16
  die    : BitVec 8
  row    : BitVec 8
  col    : BitVec 8
  data   : List Byte
deriving DecidableEq, Repr

/-- Driver-ordered resets, samples, the log. -/
structure Rst where
  busy     : Bool
  status   : BitVec 4
  waiting  : List Nat            -- partitions of the driver's order still resetting
  tiles    : List Nat            -- tiles whose drain the order awaits
  samples  : SMap (List Byte × Nat)
  overwr   : Nat
  sampleNo : Nat
  log      : List ErrRec
  nextSeq  : BitVec 32
  overLog  : Nat
  recon    : BitVec 4
deriving DecidableEq, Repr

/-! ### The meshes (05 R137 to R141) -/

/-- A port of the meshes and the spine: a tile port, a memory port of a stack at a cluster column (04 R106), a seam port of a
die, a partition port, the spine's own agents and the links. -/
inductive MPort where
  | tile (t : Nat)
  | mem (n col : Nat)
  | seam (east : Bool) (q : Nat)
  | part (n : Nat)
  | spine
deriving DecidableEq, Repr

/-- A packet on its way between two ports on one channel: 0 request, 1 forwarded, 2 circuit, 3 reply (05 R138, R139). -/
structure Flight where
  src  : MPort
  dst  : MPort
  chan : Nat
  pkt  : Packet
deriving DecidableEq, Repr

/-- A request of the control complex's engines, by its RID; when it is sent again after a Retry (07 R203). -/
structure CcReq where
  rid   : BitVec 16
  pkt   : Packet
  again : Option Nat
deriving DecidableEq, Repr

/-! ### The whole -/

/-- The package. -/
structure State where
  pending : List Instr
  free    : Nat
  now     : Nat                  -- wall clock in fc (0.625 ns)
  fuses   : Fuses
  setup   : SMap Word            -- writable bits of setup registers that differ from their reset value
  shadow  : Option (Nat × BitVec 32)
  hifErr  : BitVec 5
  cxlOn   : Bool                 -- the host has enabled CXL.cache (06 R156, R166)
  cxlDown : Bool                 -- coherent mode has fallen back to polling (06 R166)
  pollAt  : Nat                  -- when the present sweep of the doorbell lines began (06 R166, R167)
  pollNext : Nat                 -- the lowest line it has not come to
  launchLast : Nat               -- the ring whose job was admitted last (06 R175)
  ccReqs  : List CcReq           -- requests of the control complex's engines not yet answered (07 R203)
  ccWait  : List Packet          -- and those that wait for a place among them
  lastOff : BitVec 24
  lines   : SMap Line
  rings   : SMap Ring
  descs   : List (DescKey × Desc)
  jobs    : List (DescKey × Job)
  msix    : SMap (Bool × Bool)   -- vector: masked, pending
  msixTab : SMap (Word × BitVec 32) -- vector: message address and data
  msixAt  : SMap Nat             -- vector: the fc of its last message (06 R185)
  hostBad : List (Nat × Nat)     -- host address ranges that do not translate
  ccSram  : Memory
  fwImage : List Byte            -- the tile firmware last broadcast (05 R154)
  tilCorr : Nat                  -- TIL_ERR_COUNT (02)
  tilUnc  : Nat
  tilDtrap : Nat
  tiles   : SMap Tile
  parts   : SMap Part
  stks    : SMap Stack
  router  : Router
  mesh    : List Flight          -- packets on their way in the meshes, oldest first
  ports   : SMap Port
  staging : Staging
  lay     : Lay
  sec     : Sec
  pwr     : Pwr
  thm     : Thm
  cleat   : Cleat
  mgmt    : Mgmt
  boot    : Boot
  rst     : Rst
  out     : List Output
deriving DecidableEq, Repr

/-! ### Outcomes other than a next state -/

/-- Why a step can stop with a fault. -/
inductive Fault where
  /-- Raised by a command that carries a report (a list of readings, a test result) whose length is not the one
  the spec gives that report. Safe: the spec's environment never sends such a report. -/
  | illFormed
deriving DecidableEq, Repr

/-- Why a step can be refused. -/
inductive Refusal where
  /-- Raised by the arm of a command that has no meaning yet, by its mnemonic. Safe: no claim is made. -/
  | notModelled (mnemonic : String)
deriving DecidableEq, Repr

/-! ### Reset -/

/-- Core state with every field zero. -/
def Cst.zero : Cst := ⟨0, 0, false, false⟩

/-- A tile after a start, before any launch (02 R35, 17 R457): every register zero, the core stopped.
[DESIGN CHOICE: log 6, DESIGN CHOICE: log 14] -/
def Tile.fresh : Tile :=
  { common := .replicate 16 0, groups := .replicate 64 0, pc := 0, cst := .zero, xcst := .zero, xpc := 0,
    xcause := 0, xval := 0, xbase := 0, spp := 0, wto := 0, tenant := 0, job := 0, ring := 0, cycle0 := 0,
    astat := 0, event := 0, evSeen := 0, running := false, halted := false, marked := false, wait := .none, bars := 0,
    jobs := [], scratch := [], upsets := [], scrubPos := 0, tq := [], vq := [], tfault := none, vfault := none,
    lateErr := none, tAst := [], vAst := [], drain := none, handles := .replicate 8 .free, reads := [], writes := [], retired := 0,
    fwCrc := 0, fwTry := 0, lastFc := 0 }

def Psw.fresh : Psw :=
  { state := .off, fencePend := false, conflict := false, gen := 0, tenant := 0, verdict := .unknown,
    fenceCause := 0, seq := 0 }

/-- A partition at package reset; the ceiling is the grade's (12, PWR_PART_n). [DESIGN CHOICE: log 14] -/
def Part.fresh (ceil : Nat) : Part :=
  { psw := .fresh, jobs := [], waiting := [], arm := none, epoch := 0, retired := [], heat := [], rot := none,
    rotLast := 0, rotations := 0, lastAbort := 0, becameIdle := false, portUsed := [], idleSince := 0, cal := [], opPt := 0,
    floor := 0, ceil := ceil, newWindow := none, duty := 16, dutyLow := false, dutyWhy := [], stretch := .none,
    stretched := 0, stretchEnd := 0, alertOp := none, target := none, stepDue := none, raiseArmed := false, charge := 0, tcAcc := 0,
    halfStarts := 0, volt := 0, rampWait := false, usW := [], tcMark := 0, energyUj := 0, ageOffset := .replicate 16 0, slack := .replicate 16 [],
    ageCeil := 15, ageHeld := false, ageCount := 0, ageLastLt := 0, ageDue := false, ageMeas := 0,
    ageSkipped := 0, ageDrops := 0, reset := none, resets := 0, lastCause := 0, lateDrops := 0, absorbed := 0,
    retiredIns := 0, admitted := 0, rackVerdict := none, sensorDead := false, regDown := false, fencesHeld := [], resetsHeld := [] }

def Bank.empty : Bank := ⟨0, 0, 0, 0, []⟩

/-- [DESIGN CHOICE: log 14] -/
def Stack.fresh : Stack :=
  { queue := [], mem := [], keyOf := [], poison := [], badRows := [], watch := [], uncRows := [],
    retrains := [], corrected := 0, uncorr := 0, spareExh := false, exhRows := [], refused := 0, tempC := 0, sensFails := 0,
    hot := false, scrubPos := 0, refreshed := [], selfRef := false, lastUse := 0, banks := .replicate 2 .empty,
    streams := [], lastErr := 0, nextOrder := 0, suspects := [] }

/-- [DESIGN CHOICE: log 14] -/
def Ring.fresh : Ring :=
  { pkgIndex := 0, lead := 0, asked := 0, hostIdx := 0, err := 0, stopped := false, inflight := 0, reserved := 0, started := 0,
    completed := 0, unsent := 0, timer := none, dropped := 0 }

def Line.fresh : Line := ⟨[], false, false, false⟩

/-- [DESIGN CHOICE: log 14] -/
def Router.fresh : Router :=
  { topo := none, nextTopos := [], reject := 0, miswired := 0, ckts := [], mc := [], framing := 0, malformed := 0,
    stomped := 0, misroute := 0, address := 0, unreach := 0, refused := 0, circuit := 0, late := 0, mcDrop := 0,
    cktRefus := 0, cktBroken := 0, seamWest := 0, seamEast := 0, seamRetry := 0, seamFails := [], hand := none }

/-- [DESIGN CHOICE: log 14] -/
def Port.fresh : Port :=
  { state := .down, inService := false, under := .down, holdCause := 0, rxGood := 0, txGood := 0, usable := 0,
    laneMap := 0, maqUsed := false, peerChip := 0, peerPort := 0, peerVer := 0, peerRate := 0, peerHold := false,
    peerMaq := false, seenPeer := none, rate := 0, tsbAt := none, tsaCount := .replicate 8 0, tsbGot := .replicate 8 0, lastTs := none, rateGot := .replicate 8 0, rateStep := 0,
    adaptSub := 0, attempts := 0, attempts2 := 0, lockPasses := 0, eq := .replicate 8 0, eq1 := .replicate 8 0,
    eq2 := .replicate 8 0, emm := .replicate 8 0, stored := false, checked := 0, swept := 0, badLanes := 0, spliceBad := 0,
    goodTrail := 0, aligned := false, sinceTrain := 0, retrainStart := 0, anew := true, txSeq := 0, rxSeq := 0, replay := [], outq := [],
    rewind := false, nakSent := none, nakAt := 0, waitResend := false, ackAt := 0, credits := .replicate 12 0,
    rxUsed := .replicate 12 0, txq := .replicate 12 [], rxPart := .replicate 12 [], rxq := [], rxNo := 0, credRet := .replicate 12 0, credSeen := [],
    nakDue := false, txBuf := [], txRounds := 0, txScr := .replicate 8 0, rxScr := .replicate 8 0, rxPos := 0, blockLock := 0,
    winOpen := false, slotCnt := 0, cktSent := .replicate 2 0, inject := none, prbsGen := .replicate 8 0,
    prbsChk := .replicate 8 ⟨0, 0, 0, false, []⟩, pauseEnd := none, retrainAt := [], window := none,
    quiet := false, rtt := 0, crcErr := 0, replays := 0, retrains := 0, lockLoss := 0, ctlDrop := 0, prbsSync := 0,
    prbsErr := .replicate 8 0, syncBest := [], syncLast := none, maq := none, held := false,
    echoAt := 0, loopPeer := false, leaving := false, rr := 0 }

/-- [DESIGN CHOICE: log 14] -/
def Staging.fresh : Staging :=
  { slots := [], withheld := [], reqs := [], teams := [], forming := [], failed := [], lastTile := 0, checkFail := 0,
    resends := 0, aborts := 0, stray := 0 }

/-- [DESIGN CHOICE: log 14] -/
def Lay.fresh : Lay :=
  { time := 0, frac := 0, state := 0, role := false, pps := false, parent := none, hops := 0, master := 0, offset := 0,
    freq := 0, slew := 0, slewLeft := 0, holdLeft := 0, firstDone := false, everLocked := false, smallRun := 0, bigRun := 0,
    second := none, lastEdge := 0, cal := [], armNo := 0, lateCnt := 0,
    fullCnt := 0, period := 0, slotOff := 0, ppsIgn := 0, discarded := 0, roleConf := 0, stepRef := 0,
    ppsOut := false, syncDue := 0 }

/-- [DESIGN CHOICE: log 9] -/
def Fuses.fresh : Fuses := ⟨0, true, 0, .replicate 6 0, 0, .replicate 12 0⟩

/-- [DESIGN CHOICE: log 14] -/
def Sec.fresh : Sec :=
  { debug := .locked, scope := 0, keys := [], fabKeys := [], keyStore := none, storeBad := false, zeroPend := false,
    zeroEnd := none, resetDue := false, zeroCount := 0, unlockFail := 0, nonce := none, nextKey := 1, keyStatus := 0,
    winErr := [], tenChange := none, tenStatus := 0, sessions := [], nextSess := 1, measures := [(1, 1), (2, 1), (7, 4)],
    boundary := false, running := .replicate 6 0 }

/-- [DESIGN CHOICE: log 14] -/
def Pwr.fresh : Pwr :=
  { rails := .ps5, hostW := 0, newHostW := none, rackW := 0, rackPend := none, thermW := 0,
    rampW := 0, rampPeak := 0, rampFirst := true, rampAt := 0, usW := [], railW := [], energyUj := 0, spineUj := 0,
    thrTime := .replicate 9 0, alerts := 0, alerting := false, noticeEnd := none, noticed := none, lastLimit := (0, 0),
    modelErr := 0, railSet := .replicate 6 0, regLimit := .replicate 6 0, regData := [],
    regMiss := .replicate 6 0, pwrOk := false, unparkLast := 0, admitLast := 0 }

/-- [DESIGN CHOICE: log 14] -/
def Thm.fresh : Thm :=
  { temps := [], fails := [], failed := [], stackT := [], inlet := 0, inletAt := none, inletSrc := 0, thetaDie := 0,
    thetaStk := 0, windows := 0, hot := false, coolSince := none, tripValid := false, tripId := 0, tripTemp := 0,
    tripUp := 0, tripCount := 0, tripAt := 0, tripLow := false }

def Source.fresh : Source := ⟨0, false, false, false⟩

/-- [DESIGN CHOICE: log 14] -/
def Cleat.fresh : Cleat :=
  { src := [], morfort := 0, badCompl := 0, wasHigh := 0, lastMask := [], belay := [], latched := 0, rackWake := false,
    watching := false, wakeSrc := 0, wakeOk := false, wakeCnt := 0 }

/-- [DESIGN CHOICE: log 10, DESIGN CHOICE: log 14] -/
def Mgmt.fresh : Mgmt :=
  { standby := true, since := 0, bmcAt := none, bmc := false, i3c := false, i3cAddr := 0, eidTray := 0, eidI3c := 0, eidHost := 0,
    receiver := none, queue := [], lostNew := 0, lost := 0, dropped := 0, jfail := 0, slots := [], writes := [],
    aborted := [], overheat := false, fw0 := ⟨.active, 1, []⟩, fw1 := ⟨.empty, 0, []⟩,
    activeB1 := false, fallback := false, update := none, topoPart := none, romRecov := false,
    samples := [], settingsRole := false, rowCopy := [] }

/-- [DESIGN CHOICE: log 14] -/
def Boot.fresh : Boot :=
  { step := 0, kind := 0, ready := false, cause := 0, failStep := 0, starts := 0, lastS := 0, startAt := 0,
    defects := [], slice := 0, untested := 0, shutdown := false, shutLt := 0, read := false, testLeft := [], bad := [],
    retain := none, perst := false }

/-- [DESIGN CHOICE: log 14] -/
def Rst.fresh : Rst :=
  { busy := false, status := 0, waiting := [], tiles := [], samples := [], overwr := 0, sampleNo := 0, log := [],
    nextSeq := 0, overLog := 0, recon := 0 }

/-- The package right after standby power-on (15 R399, 19 R506): power state PS5, core rails off, every register
at its reset value, no command waiting. [DESIGN CHOICE: log 1, DESIGN CHOICE: log 8] -/
def State.reset : State :=
  { pending := [], free := 0, now := 0, fuses := .fresh, setup := [], shadow := none, hifErr := 0, cxlOn := false, cxlDown := false,
    pollAt := 0, pollNext := 0, launchLast := 0, ccReqs := [], ccWait := [], lastOff := 0,
    lines := [], rings := [], descs := [], jobs := [], msix := [], msixTab := [], msixAt := [], hostBad := [], ccSram := [], fwImage := [], tilCorr := 0, tilUnc := 0, tilDtrap := 0, tiles := [],
    parts := [], stks := [], router := .fresh, mesh := [], ports := [], staging := .fresh, lay := .fresh, sec := .fresh,
    pwr := .fresh, thm := .fresh, cleat := .fresh, mgmt := .fresh, boot := .fresh, rst := .fresh, out := [] }

end Sys2Proof.Machine
end

