-- ==== Sys2Proof/Machine/Map.lean ====
section
/-!
DEFINITION. Operations on the sparse data of the state: families of units by number (SMap), byte memory in its
canonical form (Memory), little-endian fields (spec 00 R4), bit fields and saturating counters.
-/

namespace Sys2Proof.Machine

/-! ### Families by number -/

/-- The entry listed under `k`, if any. -/
def SMap.find? {α : Type} (m : SMap α) (k : Nat) : Option α :=
  match m with
  | [] => none
  | (j, v) :: r => if j = k then some v else SMap.find? r k

/-- The entry of `k`, or the family's reset value `d`. -/
def SMap.get {α : Type} (d : α) (m : SMap α) (k : Nat) : α :=
  match SMap.find? m k with
  | some v => v
  | none => d

/-- Sets the entry of `k`, keeping rising order. -/
def SMap.set {α : Type} (m : SMap α) (k : Nat) (v : α) : SMap α :=
  match m with
  | [] => [(k, v)]
  | (j, w) :: r => if j = k then (k, v) :: r else if k < j then (k, v) :: (j, w) :: r else (j, w) :: SMap.set r k v

/-- Removes the entry of `k`. -/
def SMap.del {α : Type} (m : SMap α) (k : Nat) : SMap α :=
  m.filter (fun e => e.1 != k)

/-- Sets or removes. -/
def SMap.put {α : Type} (m : SMap α) (k : Nat) (v : Option α) : SMap α :=
  match v with
  | some x => SMap.set m k x
  | none => SMap.del m k

/-! ### Byte memory -/

/-- What an unlisted address reads as. [DESIGN CHOICE: log 11] -/
def Memory.blank : Byte := 0

/-- The byte at `a`. [DESIGN CHOICE: log 11] -/
def Memory.read (m : Memory) (a : Nat) : Byte := SMap.get Memory.blank m a

/-- Writes one byte; writing the blank byte removes the entry. -/
def Memory.write (m : Memory) (a : Nat) (b : Byte) : Memory :=
  if b = Memory.blank then SMap.del m a else SMap.set m a b

/-- The canonical form: addresses strictly rising, no blank byte listed. -/
def Memory.wf : Memory → Bool
  | [] => true
  | [(_, b)] => b != Memory.blank
  | (a, b) :: (a', b') :: r => b != Memory.blank && decide (a < a') && Memory.wf ((a', b') :: r)

/-- The `n` bytes from `a` on. -/
def Memory.readN (m : Memory) (a : Nat) : Nat → List Byte
  | 0 => []
  | n + 1 => Memory.read m a :: Memory.readN m (a + 1) n

/-- Writes bytes from `a` on. -/
def Memory.writeN (m : Memory) (a : Nat) : List Byte → Memory
  | [] => m
  | b :: r => Memory.writeN (Memory.write m a b) (a + 1) r

/-- Writes bytes at listed addresses, in order. -/
def Memory.writeCells (m : Memory) : List (Nat × Byte) → Memory
  | [] => m
  | (a, b) :: r => Memory.writeCells (Memory.write m a b) r

/-- Every byte from `a` up to but not including `b` becomes blank. -/
def Memory.clear (m : Memory) (a b : Nat) : Memory :=
  m.filter (fun c => decide (c.1 < a ∨ b ≤ c.1))

/-! ### Little-endian fields (00 R4) -/

/-- The number whose byte 0 is the first of the list. -/
def leNat : List Byte → Nat
  | [] => 0
  | b :: r => b.toNat + 256 * leNat r

/-- `n` bytes of a number, byte 0 first. -/
def leBytes (n v : Nat) : List Byte :=
  match n with
  | 0 => []
  | n + 1 => BitVec.ofNat 8 v :: leBytes n (v / 256)

/-- Bytes `off` to `off + n - 1` of a layout, as a number; bytes past the end read zero. -/
def fieldLE (l : List Byte) (off n : Nat) : Nat := leNat ((l.drop off).take n)

/-! ### Bit fields and counters -/

/-- Bits `[hi:lo]` of a word, as a number. -/
def bits (w : Nat) (hi lo : Nat) : Nat := (w / 2 ^ lo) % 2 ^ (hi + 1 - lo)

/-- Bit `i`. -/
def bitAt (w : Nat) (i : Nat) : Bool := Nat.testBit w i

/-- Places a value at bit `lo` of a view, cut to `n` bits. -/
def fieldAt (v lo n : Nat) : Nat := (v % 2 ^ n) * 2 ^ lo

/-- 1 or 0. -/
def b2n (b : Bool) : Nat := if b then 1 else 0

/-- Adds to a counter that saturates at `max`. -/
def satAdd (c n max : Nat) : Nat := if c + n ≤ max then c + n else max

/-- Sign-extends the low `n` bits of a number. -/
def sext (n v : Nat) : Int :=
  let w := v % 2 ^ n
  if w < 2 ^ (n - 1) then (w : Int) else (w : Int) - (2 ^ n : Nat)

/-- An integer as a word, wrapping. -/
def wrap64 (i : Int) : Word := BitVec.ofInt 64 i

/-- Keeps the elements of a list at positions whose bit is set. -/
def maskList (mask n : Nat) : List Nat := (List.range n).filter (fun i => Nat.testBit mask i)

/-- A mask with the listed bits set. -/
def listMask (l : List Nat) : Nat := (List.range 64).foldl (fun a i => if l.contains i then a + 2 ^ i else a) 0

/-- One byte into a reflected CRC-32C register. -/
def crcStep (c : BitVec 32) (b : Byte) : BitVec 32 :=
  (List.range 8).foldl (fun c _ => if c.getLsbD 0 then (c >>> 1) ^^^ 0x82F63B78 else c >>> 1) (c ^^^ b.setWidth 32)

/-- CRC-32C of bytes. -/
def crc32c (l : List Byte) : BitVec 32 := (l.foldl crcStep 0xFFFFFFFF) ^^^ 0xFFFFFFFF

end Sys2Proof.Machine
end

