-- ==== Sys2Proof/Machine/Ops.lean ====
section
/-!
DEFINITION. Operations every family shares: units by number, what leaves the package, the setup registers in force,
the Cleat's edges (14 R386), management reports (15 R407), the error log (17 R472), MSI-X, event notices and
completion entries (06 R179 to R184), and the partition state word's arbiter (01 R15 to R22, 18 R477, R478).
-/

namespace Sys2Proof.Machine

/-! ### Time -/

/-- fc in one µs: one fc is 0.625 ns (00 R3). -/
def fcPerUs : Nat := 1600
/-- fc in one ms. -/
def fcPerMs : Nat := 1600000
/-- fc in one s. -/
def fcPerS : Nat := 1600000000

/-! ### Units -/

/-- Highest operating point of the package's grade: L12 15, L10 13, A7 9 (12, PWR_PART_n). -/
def State.gradeCeil (s : State) : Nat :=
  match s.fuses.grade with
  | 0 => 15
  | 1 => 13
  | _ => 9

def State.tile (s : State) (n : Nat) : Tile := SMap.get .fresh s.tiles n
def State.setTile (s : State) (n : Nat) (t : Tile) : State := { s with tiles := SMap.set s.tiles n t }
def State.part (s : State) (n : Nat) : Part := SMap.get (.fresh s.gradeCeil) s.parts n
def State.setPart (s : State) (n : Nat) (p : Part) : State := { s with parts := SMap.set s.parts n p }
def State.stack (s : State) (n : Nat) : Stack := SMap.get .fresh s.stks n
def State.setStack (s : State) (n : Nat) (k : Stack) : State := { s with stks := SMap.set s.stks n k }
def State.ring (s : State) (n : Nat) : Ring := SMap.get .fresh s.rings n
def State.setRing (s : State) (n : Nat) (r : Ring) : State := { s with rings := SMap.set s.rings n r }
def State.line (s : State) (n : Nat) : Line := SMap.get .fresh s.lines n
def State.setLine (s : State) (n : Nat) (l : Line) : State := { s with lines := SMap.set s.lines n l }
def State.port (s : State) (n : Nat) : Port := SMap.get .fresh s.ports n
def State.setPort (s : State) (n : Nat) (p : Port) : State := { s with ports := SMap.set s.ports n p }
def State.psw (s : State) (n : Nat) : Psw := (s.part n).psw

/-- The core rails are up. -/
def State.railsOn (s : State) : Bool := decide (s.pwr.rails = .on)

/-- A zeroization is in progress (11 R339). [DEDUCED: log 118] -/
def State.zeroizing (s : State) : Bool := match s.sec.zeroEnd with
  | some t => decide (s.now < t)
  | none => false

/-- Something leaves the package. -/
def State.emit (s : State) (o : Output) : State := { s with out := s.out ++ [o] }

/-- An access to BAR0 reaches the package: it discards the shadow of an upper half (19 R501). -/
def State.barAccess (s : State) : State := { s with shadow := none }

/-- The next value of the free-value counter is used. [DESIGN CHOICE: log 17] -/
def State.draw (s : State) : State := { s with free := s.free + 1 }

/-- `n` free bytes for the present draw. [DESIGN CHOICE: log 17] -/
def freeBytes (d n : Nat) : List Byte := (List.range n).map (fun i => Config.freeByte (d * 65536 + i))

/-! ### Descriptors and jobs by key -/

def State.desc? (s : State) (k : DescKey) : Option Desc := (s.descs.find? (fun e => e.1 == k)).map (·.2)
def State.job? (s : State) (k : DescKey) : Option Job := (s.jobs.find? (fun e => e.1 == k)).map (·.2)
def State.setDesc (s : State) (k : DescKey) (d : Desc) : State :=
  { s with descs := s.descs.map (fun e => if e.1 == k then (k, d) else e) }
def State.setJob (s : State) (k : DescKey) (j : Job) : State :=
  { s with jobs := s.jobs.map (fun e => if e.1 == k then (k, j) else e) }
def State.dropDesc (s : State) (k : DescKey) : State := { s with descs := s.descs.filter (fun e => !(e.1 == k)) }
def State.dropJob (s : State) (k : DescKey) : State := { s with jobs := s.jobs.filter (fun e => !(e.1 == k)) }

/-! ### Setup registers in force (19) -/

/-- The writable bits of the register at `off`, whose reset value is `rst`. [DESIGN CHOICE: log 13] -/
def State.reg (s : State) (off rst : Nat) : Nat := (SMap.get (BitVec.ofNat 64 rst) s.setup off).toNat

/-- Writes the writable bits; the reset value is not kept. [DESIGN CHOICE: log 13] -/
def State.setReg (s : State) (off rst v : Nat) : State :=
  { s with setup := if v % 2 ^ 64 = rst then SMap.del s.setup off else SMap.set s.setup off (BitVec.ofNat 64 v) }

def HIF_CTL : Nat := 0x8
def State.hifCtl (s : State) : Nat := s.reg HIF_CTL 0x640
def State.fetchEn (s : State) : Bool := bitAt s.hifCtl 14
def State.setupLocked (s : State) : Bool := bitAt s.hifCtl 0

def offRngBase (r : Nat) : Nat := 0x100000 + 0x20 * r
def offRngCfg (r : Nat) : Nat := 0x100008 + 0x20 * r
def rngCfgReset : Nat := 0x0101000000000030
def State.rngCfg (s : State) (r : Nat) : Nat := s.reg (offRngCfg r) rngCfgReset
def State.rngBase (s : State) (r : Nat) : Nat := s.reg (offRngBase r) 0
def offDblAddr (n : Nat) : Nat := 0x10000 + 0x10 * n
def offDblCtl (n : Nat) : Nat := 0x10008 + 0x10 * n
def State.dblCtl (s : State) (n : Nat) : Nat := s.reg (offDblCtl n) 0
def State.dblAddr (s : State) (n : Nat) : Nat := s.reg (offDblAddr n) 0

/-! Fields of RNG_CFG_r (06). -/
def cfgEn (c : Nat) : Bool := bitAt c 0
def cfgKind (c : Nat) : Nat := bits c 2 1
def cfgLog2 (c : Nat) : Nat := bits c 7 3
def cfgTenant (c : Nat) : Nat := bits c 14 8
def cfgIrqEn (c : Nat) : Bool := bitAt c 15
def cfgCq (c : Nat) : Nat := bits c 28 16
def cfgVector (c : Nat) : Nat := bits c 34 29
def cfgDbl (c : Nat) : Nat := bits c 44 35
def cfgSlot (c : Nat) : Nat := bits c 47 45
/-- MOD_COUNT, 0 acting as 1. -/
def cfgModCount (c : Nat) : Nat := max 1 (bits c 55 48)
/-- MOD_TIME in µs, 0 acting as 1. -/
def cfgModTime (c : Nat) : Nat := max 1 (bits c 63 56)

/-! ### The Cleat's edges (14 R385, R386, R395) -/

/-- Sources 1,529 to 1,536 are held in the plinth (14 R393). -/
def plinthSource (n : Nat) : Bool := decide (1529 ≤ n ∧ n ≤ 1536)

def Cleat.source (c : Cleat) (n : Nat) : Source := SMap.get .fresh c.src n
def Cleat.setSource (c : Cleat) (n : Nat) (v : Source) : Cleat := { c with src := SMap.set c.src n v }

/-- A register's value from its fields: value, lowest bit, width. -/
def pack (l : List (Nat × Nat × Nat)) : Nat := l.foldl (fun a f => a + fieldAt f.1 f.2.1 f.2.2) 0

/-- Deliverable to target `t` (14 R386). -/
def Source.deliverable (v : Source) (t : Nat) : Bool := v.en && v.pend && !v.insvc && decide (v.target.toNat = t)

/-- The highest source deliverable to `t` (14 R388). -/
def Cleat.best (c : Cleat) (t : Nat) : Option Nat :=
  (c.src.filter (fun e => e.2.deliverable t)).foldl
    (fun m e => match m with | none => some e.1 | some k => some (max k e.1)) none

/-- The request lines, one bit for each of the five targets. -/
def Cleat.req (c : Cleat) : BitVec 5 :=
  BitVec.ofNat 5 (listMask ((List.range 5).filter (fun t => (c.best t).isSome)))

/-- Records that the request lines now high have been high (14 R388). -/
def Cleat.settle (c : Cleat) : Cleat := { c with wasHigh := c.wasHigh ||| c.req }

/-- The entries of the Belay that name `n` and are enabled. -/
def Cleat.belayHits (c : Cleat) (n : Nat) : List Nat :=
  (List.range 64).filter (fun i => match SMap.find? c.belay i with
    | some (src, en) => en && decide (src.toNat = n)
    | none => false)

/-- The Belay latches a rising source while it watches (14 R395). -/
def Cleat.latch (c : Cleat) (n : Nat) : Cleat :=
  if !c.watching then c else
  { c with latched := (c.belayHits n).foldl (fun m i => m ||| (1 <<< i)) c.latched,
           rackWake := c.rackWake || decide (n = 1530) }

/-- A rising edge of a source (14 R386): PEND sets; a source on the core rails cannot rise while they are off
(14 R393, R395). -/
def State.raise (s : State) (n : Nat) : State :=
  if n = 0 ∨ 2047 ≤ n then s else
  let c := s.cleat
  let c := if s.railsOn || plinthSource n then c.setSource n { c.source n with pend := true } else c
  { s with cleat := (c.latch n).settle }

/-- Partition event `k` of partition `n` (14 R385). -/
def State.partEvent (s : State) (n k : Nat) : State := s.raise (1025 + 8 * n + k)

/-! ### Management reports (15 R407) -/

/-- The Lay time of an event, 0 while the core rails are off. -/
def State.eventLt (s : State) : Word := if s.railsOn then s.lay.time else 0

/-- A report: sent to the named receiver, else queued; the queue holds 64, and a full queue drops its oldest.
[DEDUCED: log 149] -/
def State.report (s : State) (code detail : Nat) : State :=
  let lt := s.eventLt
  match s.mgmt.receiver with
  | some _ =>
    if s.mgmt.lostNew = 0 then s.emit (.report code detail lt)
    else (({ s with mgmt := { s.mgmt with lostNew := 0 } }).emit (.report 0x14 s.mgmt.lostNew lt)).emit
      (.report code detail lt)
  | none =>
    if s.mgmt.queue.length < 64 then { s with mgmt := { s.mgmt with queue := s.mgmt.queue ++ [(code, detail, lt)] } }
    else { s with mgmt := { s.mgmt with queue := s.mgmt.queue.drop 1 ++ [(code, detail, lt)],
                                        lostNew := s.mgmt.lostNew + 1, lost := satAdd s.mgmt.lost 1 0xFFFF } }

/-! ### The error log (17 R472, R473) -/

/-- A record with every field at its value for "none"; SEQ is set when it is written. -/
def ErrRec.blank (kind cause : Nat) (lt : Word) : ErrRec :=
  { seq := 0, kind := BitVec.ofNat 8 kind, cause := BitVec.ofNat 8 cause, part := 0xFF, lt := lt, tenant := 0xFF,
    gen := 0, ring := 0xFFFF, job := 0, ltid := 0xFFFF, die := 0xFF, row := 0xFF, col := 0xFF, data := [] }

/-- The record takes the next SEQ; a full log overwrites its oldest record and counts the loss. -/
def State.logErr (s : State) (r : ErrRec) : State :=
  if !s.railsOn then s else
  let r := { r with seq := s.rst.nextSeq }
  if s.rst.log.length < 4096 then
    { s with rst := { s.rst with log := s.rst.log ++ [r], nextSeq := s.rst.nextSeq + 1 } }
  else
    { s with rst := { s.rst with log := s.rst.log.drop 1 ++ [r], nextSeq := s.rst.nextSeq + 1,
                                 overLog := satAdd s.rst.overLog 1 0xFFFF } }

/-- Places bytes in a 32-byte DATA field. -/
def placeBytes (l : List Byte) (off : Nat) (b : List Byte) : List Byte :=
  (List.range (max l.length (off + b.length))).map (fun i =>
    if off ≤ i ∧ i < off + b.length then b.getD (i - off) 0 else l.getD i 0)

/-- A kind 0x03 record: an order from a party that may not give it (01 R14, 17 R474). -/
def State.refusedOrder (s : State) (row party : Nat) : State :=
  s.logErr { ErrRec.blank 3 row s.lay.time with data := [BitVec.ofNat 8 party] }

/-! ### Physical places (01 R10, 05 R144) -/

/-- Die of a physical tile: 0 west, 1 east. -/
def dieOf (t : Nat) : Nat := (t / 72) / 6
/-- Tile row of a physical tile: physical index 12 × row + column within the partition. -/
def rowOf (t : Nat) : Nat := (if 3 ≤ (t / 72) % 6 then 6 else 0) + (t % 72) / 12
/-- Tile column of a physical tile. -/
def colOf (t : Nat) : Nat := 12 * (((t / 72) % 6) % 3) + (t % 72) % 12

/-- The physical tile that the armature gives a logical tile id. -/
def State.physOf (s : State) (ltid : Nat) : Option Nat :=
  if 840 ≤ ltid then none else
  match (s.part (ltid / 70)).arm with
  | some a => (a.lmap[ltid % 70]?).map (fun x => 72 * (ltid / 70) + x)
  | none => none

/-- The logical tile id of a physical tile; a spare or retired tile has none. [DEDUCED: log 60] -/
def State.ltidOf (s : State) (t : Nat) : Option Nat :=
  match (s.part (t / 72)).arm with
  | some a =>
    let i := a.lmap.findIdx (fun x => x == t % 72)
    if i < a.lmap.length then some (70 * (t / 72) + i) else none
  | none => none

/-! ### MSI-X (06 R184, R185) -/

/-- A message on a vector of a function, with the address and data of its table entry: a masked vector sets its pending bit; a
second message of one vector in the same fc is the same message. [PRESUMED: log 12, DEDUCED: log 66] -/
def State.sendMsix (s : State) (fn vec : Nat) : State :=
  let k := fn * 64 + vec
  let (masked, _) := SMap.get (true, false) s.msix k
  if masked then { s with msix := SMap.set s.msix k (true, true) }
  else if SMap.find? s.msixAt k = some s.now then s
  else
    let (a, d) := SMap.get (0, 0) s.msixTab k
    ({ s with msixAt := SMap.set s.msixAt k s.now }).emit (.msix fn vec a d)

/-! ### Host memory and the rings' entries -/

/-- HIF_ERR bit `b` sets (06 HIF_ERR, 14 sources 1,480 to 1,484). -/
def State.hifSet (s : State) (b : Nat) : State :=
  if bitAt s.hifErr.toNat b then s else ({ s with hifErr := s.hifErr ||| (1 <<< b) }).raise (1480 + b)

/-- Who reads a doorbell line: its tenant's function, with the PASID of HIF_DBL_CTL_n where PASID_EN is 1 (06 R157, R165). -/
def State.lineWho (s : State) (l : Nat) : Requester :=
  let c := s.dblCtl l
  ⟨bits c 7 1, if bitAt c 28 then some (BitVec.ofNat 20 (bits c 27 8)) else none⟩

/-- Who accesses the host memory of a ring: its tenant's function, with its doorbell line's PASID. -/
def State.ringWho (s : State) (r : Nat) : Requester :=
  let c := s.rngCfg r
  ⟨cfgTenant c, (s.lineWho (cfgDbl c)).pasid⟩

/-- A host range meets a range that does not translate. [DESIGN CHOICE: log 69] -/
def State.hostFails (s : State) (a n : Nat) : Bool :=
  s.hostBad.any (fun e => decide (a < e.2 ∧ e.1 < a + n))

/-- The lead of the package's index over the host's (06 R162). -/
def Ring.lead' (r : Ring) : Nat := (r.pkgIndex - r.hostIdx).toNat

/-- An entry has been written: count, timer and message (06 R184). [DEDUCED: log 61] -/
def State.ringEntry (s : State) (r : Nat) (now : Bool) : State :=
  let c := s.rngCfg r
  let g := s.ring r
  if !cfgIrqEn c then s else
  let n := g.unsent + 1
  if now ∨ cfgModCount c ≤ n then
    (s.setRing r { g with unsent := 0, timer := none }).sendMsix (cfgTenant c) (cfgVector c)
  else
    s.setRing r { g with unsent := n, timer := match g.timer with
      | some d => some d
      | none => some (s.now + cfgModTime c * fcPerUs) }

/-- Writes one entry of `n` bytes at the package's index; none when the write fails translation, which stops the ring
with ERR 0x05 (06 R164). -/
def State.putEntry (s : State) (r : Nat) (bytes : List Byte) (now : Bool) : State × Bool :=
  let c := s.rngCfg r
  let g := s.ring r
  let n := bytes.length
  let a := s.rngBase r + (g.pkgIndex.toNat % 2 ^ cfgLog2 c) * n
  if s.hostFails a n then
    ((s.setRing r { g with err := 5, stopped := true }).hifSet 3 |>.raise 1485, false)
  else
    (((s.setRing r { g with pkgIndex := g.pkgIndex + 1 }).emit (.hostWrite (s.ringWho r) a bytes)).ringEntry r now, true)

/-- PHASE of the entry at an index (06 R162). -/
def phaseBit (c : Nat) (idx : BitVec 32) : Nat := b2n (decide ((idx.toNat / 2 ^ cfgLog2 c) % 2 = 0))

/-- The 32 bytes of a notice (06 R182). -/
def noticeBytes (code part detail : Nat) (lt : Word) (data : Nat) (phase : Nat) : List Byte :=
  leBytes 2 code ++ [BitVec.ofNat 8 phase, BitVec.ofNat 8 part] ++ leBytes 4 detail ++ leBytes 8 lt.toNat ++
    leBytes 16 data

/-- The enabled event ring of a tenant. -/
def State.eventRing (s : State) (t : Nat) : Option Nat :=
  (List.find? (fun e => let c := s.rngCfg e.1
    cfgEn c && decide (cfgKind c = 2) && decide (cfgTenant c = t)) s.rings).map (·.1)

/-- A notice into one tenant's event ring. The last free slot is kept for an overflow notice; a notice that finds
the ring otherwise full, or that comes while an overflow notice is owed, is dropped and counted. -/
def State.noticeTo (s : State) (t code part detail data : Nat) : State × Bool :=
  match s.eventRing t with
  | none => (s, true)
  | some r =>
    let c := s.rngCfg r
    let g := s.ring r
    if g.stopped then (s, true)
    else if g.dropped = 0 ∧ g.lead' + 2 < 2 ^ cfgLog2 c then
      s.putEntry r (noticeBytes code part detail s.lay.time data (phaseBit c g.pkgIndex))
        (decide (code = 1 ∨ code = 3))
    else (s.setRing r { g with dropped := satAdd g.dropped 1 0xFFFFFFFF }, true)

/-- A notice to one tenant; a write fault sends tenant 0 the ring-stopped notice of that event ring. -/
def State.noticeOne (s : State) (t code part detail data : Nat) : State :=
  match s.eventRing t with
  | none => s
  | some r =>
    let (s', ok) := s.noticeTo t code part detail data
    if ok ∨ t = 0 then s' else (s'.noticeTo 0 4 0xFF r 5).1

/-- A notice that concerns no partition goes to tenant 0 alone (06 R182). -/
def State.notice0 (s : State) (code detail data : Nat) : State := s.noticeOne 0 code 0xFF detail data

/-- A notice that concerns a partition goes to the partition's tenant and to tenant 0. -/
def State.noticePart (s : State) (n code detail data : Nat) : State :=
  let t := (s.psw n).tenant.toNat
  let s := s.noticeOne t code n detail data
  if t = 0 then s else s.noticeOne 0 code n detail data

/-- An overflow notice that is owed is written once the host's consumer index has moved (06 R182); where its write fails
translation, the ring-stopped notice goes to tenant 0 (R164). [DEDUCED: log 64] -/
def State.overflowNotice (s : State) (r : Nat) : State :=
  let c := s.rngCfg r
  let g := s.ring r
  if g.dropped = 0 ∨ g.stopped ∨ ¬ g.lead' + 1 < 2 ^ cfgLog2 c then s
  else
    match s.putEntry r (noticeBytes 5 0xFF g.dropped s.lay.time 0 (phaseBit c g.pkgIndex)) false with
    | (s', true) => s'.setRing r { s'.ring r with dropped := 0 }
    | (s', false) => if cfgTenant c = 0 then s' else (s'.noticeTo 0 4 0xFF r 5).1

/-- The ring stops (06 R164): STOPPED, ERR, the Cleat's source 1,485 and the ring-stopped notice to the ring's tenant,
and to tenant 0, since any notice that names no partition goes to tenant 0. [DEDUCED: log 63] -/
def State.stopRing (s : State) (r err : Nat) : State :=
  let t := cfgTenant (s.rngCfg r)
  let s := (s.setRing r { s.ring r with err := BitVec.ofNat 8 err, stopped := true }).raise 1485
  let s := s.noticeOne t 4 0xFF r err
  if t = 0 then s else s.noticeOne 0 4 0xFF r err

/-! ### Completions (06 R173, R179, R180) -/

/-- The 16 bytes of a completion entry. -/
def completionBytes (tag head sq phase status cls info : Nat) (late : Bool) (value : Nat) : List Byte :=
  leBytes 4 tag ++ leBytes 2 head ++ leBytes 2 (sq % 0x2000 + phase * 0x8000) ++
    [BitVec.ofNat 8 status, BitVec.ofNat 8 cls] ++ leBytes 2 (info % 0x8000 + b2n late * 0x8000) ++ leBytes 4 value

/-- A started descriptor completes: the reservation and INFLIGHT are released, COMPLETED counts, and the entry is
written unless NOCMPL is set and the status is OK, the ring was reset (R159), or the completion ring is stopped.
[DEDUCED: log 67] -/
def State.complete (s : State) (k : DescKey) (status info value : Nat) : State :=
  match s.desc? k with
  | none => s
  | some d =>
    let flags := fieldLE d.bytes 2 1
    let s := s.dropDesc k
    if d.wiped then s else
    let g := s.ring k.ring.val
    let s := s.setRing k.ring.val { g with inflight := g.inflight - 1, completed := g.completed + 1 }
    let q := s.ring d.cq
    let s := s.setRing d.cq { q with reserved := q.reserved - 1 }
    if d.gone ∨ (bitAt flags 2 ∧ status = 0) ∨ q.stopped then s else
    let c := s.rngCfg d.cq
    let b := completionBytes (fieldLE d.bytes 4 4) (s.ring k.ring.val).pkgIndex.toNat k.ring.val
      (phaseBit c q.pkgIndex) status (fieldLE d.bytes 1 1) info d.late value
    match s.putEntry d.cq b (bitAt flags 0) with
    | (s', true) => s'
    | (s', false) => s'.stopRing d.cq 5

/-! ### The partition state word (01 R15 to R22, R524; 18 R477, R478) -/

def PState.code : PState → Nat
  | .off => 0 | .idle => 1 | .active => 2 | .parked => 3 | .fenced => 4 | .resetting => 5

def Verdict.code : Verdict → Nat
  | .unknown => 0 | .inService => 1 | .outOfService => 2

/-- The word as PRT_STATE_n and READ_PSW show it. -/
def Psw.word (p : Psw) : Nat :=
  p.state.code + fieldAt (b2n p.fencePend) 3 1 + fieldAt (b2n p.conflict) 4 1 + fieldAt p.gen.toNat 8 8 +
    fieldAt p.tenant.toNat 16 7 + fieldAt p.verdict.code 24 2 + fieldAt p.fenceCause.toNat 32 8 +
    fieldAt p.seq.toNat 48 16

/-- First case of R19: Out of service while Idle, Active or Parked. -/
def Psw.disagree1 (p : Psw) : Bool :=
  decide (p.verdict = .outOfService) && (p.state == .idle || p.state == .active || p.state == .parked)

/-- Second case of R19: In service while Fenced with a hardware cause. -/
def Psw.disagree2 (p : Psw) : Bool :=
  decide (p.verdict = .inService) && p.state == .fenced &&
    (p.fenceCause == 1 || p.fenceCause == 3 || p.fenceCause == 4)

/-- R18: in service. -/
def Psw.inService (p : Psw) : Bool :=
  (p.state == .idle || p.state == .active) && !p.fencePend && p.verdict == .inService && !p.conflict

/-- R524: the rank of a fencing cause, the highest 4; 0 for none. -/
def fenceRank (c : BitVec 8) : Nat :=
  if c = 1 then 4 else if c = 3 then 3 else if c = 4 then 2 else if c = 2 then 1 else 0

/-- The highest-ranking cause of a list. -/
def topCause (l : List (BitVec 8)) : BitVec 8 := l.foldl (fun a c => if fenceRank a < fenceRank c then c else a) 0

/-- One change of the word by the arbiter: CONFLICT follows R19 in the same change, and SEQ advances once if any
other field changed (R15, R477). -/
def Psw.change (p : Psw) (f : Psw → Psw) : Psw :=
  let q := f p
  let q := { q with conflict := q.disagree1 || q.disagree2, seq := p.seq }
  if q = p then p else { q with seq := p.seq + 1 }

/-- The change with its notices: 0x0001, the kind 0x07 record and partition event 2 when CONFLICT sets (18 R478);
partition event 2 when STATE changes; 0x0002 on entry to or exit from Fenced or Resetting (06 R183). -/
def State.pswWrite (s : State) (n : Nat) (f : Psw → Psw) : State :=
  let p := s.psw n
  let q := p.change f
  let s := s.setPart n { s.part n with psw := q }
  let s := if q.state ≠ p.state then s.partEvent n 2 else s
  let s := if q.state ≠ p.state ∧ (q.state = .fenced ∨ q.state = .resetting ∨ p.state = .fenced ∨ p.state = .resetting)
    then s.noticePart n 2 p.state.code q.word else s
  if q.conflict ∧ ¬ p.conflict then
    let s := s.noticePart n 1 0 q.word
    let s := s.logErr { ErrRec.blank 7 0 s.lay.time with
      part := BitVec.ofNat 8 n, tenant := q.tenant.setWidth 8, gen := q.gen, data := leBytes 8 q.word }
    s.partEvent n 2
  else s

/-- A fencing order carried out on the word (R22, R524, 18 R496). A Parked partition's stack stays in self-refresh (04 R127).
[DESIGN CHOICE: log 201] -/
def State.fenceNow (s : State) (n : Nat) (cause : BitVec 8) : State :=
  let p := s.psw n
  match p.state with
  | .off => s
  | .resetting =>
    match (s.part n).reset with
    | some r => s.setPart n { s.part n with reset := some { r with recorded := r.recorded ++ [cause] } }
    | none => s
  | .idle | .parked => s.pswWrite n (fun q => { q with state := .fenced, fenceCause := cause })
  | .active =>
    if p.fencePend then
      if fenceRank p.fenceCause < fenceRank cause then s.pswWrite n (fun q => { q with fenceCause := cause }) else s
    else s.pswWrite n (fun q => { q with fencePend := true, fenceCause := cause })
  | .fenced =>
    if fenceRank p.fenceCause < fenceRank cause then s.pswWrite n (fun q => { q with fenceCause := cause }) else s

/-- A broadcast of the control complex (05 R154): tag 0, one copy to seam port 4 × c_row for each cluster row of each die. -/
def State.cast (s : State) (mask : Nat) (what : Cast) : State :=
  s.emit (.broadcast mask 0 ([false, true].flatMap (fun e => (List.range 6).map (fun r => (e, 4 * r)))) what)

/-- An order for the partition abandons its rotation (05 R152): the old record stays in force and the release is broadcast; the posted
writes held for a partition that is fenced or reset are dropped and counted (17 R463). [DEDUCED: log 59] -/
def State.dropRotation (s : State) (n : Nat) : State :=
  let p := s.part n
  match p.rot with
  | none => s
  | some r => ((s.setPart n { p with rot := none, lastAbort := 4, absorbed := satAdd p.absorbed r.held.length 0xFFFF }).partEvent n 4).cast
      0xFFF (.release (r.moves.map (fun m => 70 * n + m.1)))

/-- A tenant change of the partition runs (11 R318). -/
def State.changing (s : State) (n : Nat) : Bool :=
  match s.sec.tenChange with
  | some c => c.part == n
  | none => false

/-- A fencing order: it waits for the end of a tenant change (11 R319); it abandons a rotation, or waits for its release
once the new record is being broadcast (05 R152). [DEDUCED: log 171] -/
def State.fence (s : State) (n : Nat) (cause : BitVec 8) : State :=
  if s.changing n then s.setPart n { s.part n with fencesHeld := (s.part n).fencesHeld ++ [cause] } else
  match (s.part n).rot with
  | some r =>
    if r.step < 5 then (s.dropRotation n).fenceNow n cause
    else s.setPart n { s.part n with fencesHeld := (s.part n).fencesHeld ++ [cause] }
  | none => s.fenceNow n cause

/-- A change of the word and the fencing that a disagreement of the first case orders (18 R478). -/
def State.pswChange (s : State) (n : Nat) (f : Psw → Psw) : State :=
  let was := (s.psw n).conflict
  let s := s.pswWrite n f
  let p := s.psw n
  if p.conflict ∧ ¬ was ∧ p.disagree1 then s.fence n 2 else s

/-! ### Findings and the verdict (15 R406) -/

/-- A finding holds: all four die sensors failed, or the ageing ceiling held at OP8. -/
def Part.finding (p : Part) : Bool := p.sensorDead || p.ageHeld

/-- The verdict that R406 gives. -/
def Part.verdictRule (p : Part) : Verdict :=
  if p.finding ∨ p.rackVerdict = some false then .outOfService
  else if p.rackVerdict = some true then .inService else .unknown

/-- The Hukirvo controller writes VERDICT again from its inputs (R406); the word lives on the core rails. -/
def State.writeVerdict (s : State) (n : Nat) (byFinding : Bool) : State :=
  let v := (s.part n).verdictRule
  let changed := decide (v ≠ (s.psw n).verdict)
  let s := if s.railsOn then s.pswChange n (fun q => { q with verdict := v }) else s
  if changed && byFinding && s.railsOn then s.report 0x16 n else s

/-! ### Packets the package answers with -/

/-- Folds a state change over a list. -/
def State.each {α : Type} (s : State) (l : List α) (f : State → α → State) : State := l.foldl f s

end Sys2Proof.Machine
end

