-- ==== Sys2Proof/Machine/Flags.lean ====
section
/-!
DEFINITION. Arithmetic status (03 R103, R104): the sticky bits, the anchor and the fault codes of ASTAT, and the
relations of the scalar compares and branches (02 R41, R43).
-/

namespace Sys2Proof.Machine

/-! Sticky bits of ASTAT. -/
def flagINX : BitVec 8 := 1
def flagOVF : BitVec 8 := 2
def flagUFL : BitVec 8 := 4
def flagNAN : BitVec 8 := 8
def flagSAT : BitVec 8 := 16
def flagTRUNC : BitVec 8 := 32
def flagWSOVF : BitVec 8 := 64
def flagDIVZ : BitVec 8 := 128

/-- The bits of ASTAT that can be written: [7:0], [25:16], [47:32]. -/
def astatMask : Word := 0x0000FFFF03FF00FF

/-- One update by a unit: the sticky bits join, the anchor and the fault code of its queue are overwritten. -/
def astatUpdate (a : Word) (sticky : BitVec 8) (anchor : Option (BitVec 10)) (tf vf : Option (BitVec 8)) : Word :=
  let a := a ||| sticky.setWidth 64
  let a := match anchor with
    | some x => (a &&& 0xFFFFFFFFFC00FFFF) ||| (x.setWidth 64 <<< 16)
    | none => a
  let a := match tf with
    | some x => (a &&& 0xFFFFFF00FFFFFFFF) ||| (x.setWidth 64 <<< 32)
    | none => a
  match vf with
  | some x => (a &&& 0xFFFF00FFFFFFFFFF) ||| (x.setWidth 64 <<< 40)
  | none => a

/-- The core sees the tensor queue's updates (after TWAIT or the imprecise trap, R104), also those of instructions that finished before
a CRW to ASTAT. [DESIGN CHOICE: log 200] -/
def Tile.seeT (t : Tile) : Tile :=
  { t with astat := t.tAst.foldl (fun a u => astatUpdate a u.1 u.2.1 u.2.2 none) t.astat, tAst := [] }

/-- The core sees the vector queue's updates (after VWAIT or the imprecise trap), in the same way. [DESIGN CHOICE: log 200] -/
def Tile.seeV (t : Tile) : Tile :=
  { t with astat := t.vAst.foldl (fun a u => astatUpdate a u.1 none none u.2) t.astat, vAst := [] }

/-- A relation as a register value (R43). -/
def flagWord (b : Bool) : Word := if b then 1 else 0

/-- The condition of BR on a signed value (R41); codes 7 to 31 are unassigned. -/
def branchTaken (cond : Nat) (v : Int) : Option Bool :=
  match cond with
  | 0 => some (decide (v = 0))
  | 1 => some (decide (v ≠ 0))
  | 2 => some (decide (v < 0))
  | 3 => some (decide (0 ≤ v))
  | 4 => some (decide (0 < v))
  | 5 => some (decide (v ≤ 0))
  | 6 => some true
  | _ => none

end Sys2Proof.Machine
end

