-- ==== Sys2Proof/Machine/Operands.lean ====
section
/-!
DEFINITION. Operand forms of a control core: the windowed register file (02 R31), immediates (R41), control registers
(R34), scratchpad regions and accesses (R45, R47), and global addresses (01 R23 to R27).
-/

namespace Sys2Proof.Machine

/-! ### The windowed register file (R31) -/

/-- The group of the current window's entry half. -/
def Tile.entryGroup (t : Tile) : Nat :=
  if t.cst.frm.toNat < 7 then t.cst.frm.toNat else (t.xcst.frm.toNat + 1) % 7

/-- The group of the current window's onward half. -/
def Tile.onwardGroup (t : Tile) : Nat :=
  if t.cst.frm.toNat < 7 then (t.cst.frm.toNat + 1) % 7 else 7

/-- Register `i` of group `g`. -/
def Tile.groupReg (t : Tile) (g i : Nat) : Word := t.groups.toList.getD (8 * g + i) 0

def Tile.setGroupReg (t : Tile) (g i : Nat) (v : Word) : Tile :=
  { t with groups := t.groups.setIfInBounds (8 * g + i) v }

/-- A register by its specifier; c0 reads zero. -/
def Tile.reg (t : Tile) (r : Reg) : Word :=
  if r = 0 then 0
  else if r.toNat < 16 then t.common.toList.getD r.toNat 0
  else if r.toNat < 24 then t.groupReg t.entryGroup (r.toNat - 16)
  else t.groupReg t.onwardGroup (r.toNat - 24)

/-- Writes a register by its specifier; a write of c0 is discarded. -/
def Tile.setReg (t : Tile) (r : Reg) (v : Word) : Tile :=
  if r = 0 then t
  else if r.toNat < 16 then { t with common := t.common.setIfInBounds r.toNat v }
  else if r.toNat < 24 then t.setGroupReg t.entryGroup (r.toNat - 16) v
  else t.setGroupReg t.onwardGroup (r.toNat - 24) v

/-! ### Immediates (R41) -/

def simm (i : BitVec 16) : Word := i.signExtend 64
def zimm (i : BitVec 16) : Word := i.setWidth 64

/-- PC + 4 × a signed displacement. -/
def dispTarget (pc : Word) {n : Nat} (d : BitVec n) : Word := pc + (d.signExtend 64 <<< 2)

/-! ### Core state words (R34) -/

def Cst.word (c : Cst) : Word :=
  c.frm.setWidth 64 ||| (c.dep.setWidth 64 <<< 3) ||| (flagWord c.pl <<< 6) ||| (flagWord c.ei <<< 7)

def Cst.ofWord (w : Word) : Cst :=
  { frm := w.extractLsb' 0 3, dep := w.extractLsb' 3 3, pl := w.getLsbD 6, ei := w.getLsbD 7 }

/-! ### Tile clock -/

/-- tc that partition `n` has counted: the count is kept in 1/640 tc. -/
def Part.tc (p : Part) : Nat := p.tcAcc / 640
def State.tcOf (s : State) (tile : Nat) : Nat := (s.part (tile / 72)).tc

/-! ### Scratchpad (R45, R47) -/

def spadEnd : Nat := 0xC0000
def spillBase : Nat := 0xBF000
def progBase : Nat := 0x8000

/-- An access of `n` bytes lies where its level may reach: firmware level reaches the whole scratchpad, tenant level
the program region. -/
def spadReach (fw : Bool) (off n : Nat) : Bool :=
  if fw then decide (off + n ≤ spadEnd) else decide (progBase ≤ off ∧ off + n ≤ spillBase)

/-- The range lies in the program region. -/
def inProg (off n : Nat) : Bool := decide (progBase ≤ off ∧ off + n ≤ spillBase)

/-- 64-bit words that a range touches. -/
def wordsOf (off n : Nat) : List Nat := (List.range ((off + n + 7) / 8 - off / 8)).map (fun i => off / 8 + i)

/-- The words of a range that hold a double-bit error. [DEDUCED: log 31] -/
def Tile.badWords (t : Tile) (off n : Nat) : List Nat :=
  (t.upsets.filter (fun e => e.2 && decide (off / 8 ≤ e.1 ∧ 8 * e.1 < off + n))).map (·.1)

/-- Words of a range that hold a single-bit error. -/
def Tile.softWords (t : Tile) (off n : Nat) : Nat :=
  (t.upsets.filter (fun e => !e.2 && decide (off / 8 ≤ e.1 ∧ 8 * e.1 < off + n))).length

/-- A read corrects the single-bit errors it meets and writes them back (R47). -/
def Tile.correct (t : Tile) (off n : Nat) : Tile :=
  { t with upsets := t.upsets.filter (fun e => e.2 || decide (¬ (off / 8 ≤ e.1 ∧ 8 * e.1 < off + n))) }

/-- The condition of a WAITV on the present scratchpad. -/
def Tile.waitMet (t : Tile) : Wait → Bool
  | .waitv ge off val _ _ _ =>
    let w := BitVec.ofNat 64 (leNat (t.scratch.readN off 8))
    if ge then BitVec.sle val w else w == val
  | _ => false

/-- The tile port evaluates a WAITV's condition again after a write to the word's line (R58). -/
def Tile.recheck (t : Tile) (off n : Nat) : Tile :=
  match t.wait with
  | .waitv ge o v rd due met =>
    if o / 64 ≤ (off + n - 1) / 64 ∧ off / 64 ≤ o / 64 ∧ 0 < n then
      { t with wait := .waitv ge o v rd due (met || t.waitMet (.waitv ge o v rd due met)) }
    else t
  | _ => t

/-- Stores bytes: words written whole become correct; a word written in part keeps a double-bit error (R47). -/
def Tile.store (t : Tile) (off : Nat) (b : List Byte) : Tile :=
  let n := b.length
  { t with scratch := t.scratch.writeN off b,
           upsets := t.upsets.filter (fun e =>
             if off ≤ 8 * e.1 ∧ 8 * e.1 + 8 ≤ off + n then false
             else if off / 8 ≤ e.1 ∧ 8 * e.1 < off + n then e.2
             else true) } |>.recheck off n

/-- Words of a range that a store writes only in part and that hold an error: (single-bit, double-bit). -/
def Tile.partErrs (t : Tile) (off n : Nat) : Nat × Nat :=
  let l := t.upsets.filter (fun e => decide (off / 8 ≤ e.1 ∧ 8 * e.1 < off + n ∧ ¬ (off ≤ 8 * e.1 ∧ 8 * e.1 + 8 ≤ off + n)))
  ((l.filter (fun e => !e.2)).length, (l.filter (fun e => e.2)).length)

/-- TIL_ERR_COUNT.CORRECTED and UNCORRECTABLE count (R47). -/
def State.countSp (s : State) (corr unc : Nat) : State :=
  { s with tilCorr := satAdd s.tilCorr corr 0xFFFFFFFF, tilUnc := satAdd s.tilUnc unc 0xFFFF }

/-- A scratchpad read by a core, a unit or a port: the bytes, or the first word that is uncorrectable; either way every
error met is counted and the single-bit ones corrected. -/
def State.spRead (s : State) (n off len : Nat) : State × Except Nat (List Byte) :=
  let t := s.tile n
  let soft := t.softWords off len
  match t.badWords off len with
  | w :: l => ((s.setTile n (t.correct off len)).countSp soft (l.length + 1), .error w)
  | [] => ((s.setTile n (t.correct off len)).countSp soft 0, .ok (t.scratch.readN off len))

/-- A scratchpad write by a core, a unit or a port. -/
def State.spWrite (s : State) (n off : Nat) (b : List Byte) : State :=
  let t := s.tile n
  let (c, u) := t.partErrs off b.length
  (s.setTile n (t.store off b)).countSp c u

/-! ### Global addresses (01 R23 to R27) -/

def gaReserved (a : Word) : Bool := a.extractLsb' 62 2 != 0
def gaPst (a : Word) : Bool := a.getLsbD 61
def gaRlx (a : Word) : Bool := a.getLsbD 60
def gaChip (a : Word) : BitVec 16 := a.extractLsb' 44 16
def gaRegion (a : Word) : Nat := (a.extractLsb' 40 4).toNat
def gaOffset (a : Word) : Nat := (a.extractLsb' 0 40).toNat
def gaLtid (a : Word) : Nat := gaOffset a / 2 ^ 20
def gaByte (a : Word) : Nat := gaOffset a % 2 ^ 20

/-- The offset is valid in its region (R25). -/
def regionOk (a : Word) : Bool :=
  match gaRegion a with
  | 0 => decide (gaOffset a ≤ 0x8FFFFFFFFF)
  | 1 => decide (gaLtid a < 840 ∧ gaByte a < spadEnd)
  | 2 => decide (gaOffset a < 0x1000000)
  | _ => false

/-- R26 at issue and at a router; `pstBad` where PST must be zero. Bit 59 is reserved too (R24). -/
def gaFault (a : Word) (pstBad : Bool) : Bool :=
  gaReserved a || a.getLsbD 59 || !regionOk a || (pstBad && gaPst a)

/-- The range of `n` bytes from an address stays inside its region (every byte's address is valid). -/
def gaRangeFault (a : Word) (n : Nat) : Bool :=
  gaFault a false || (decide (0 < n) && gaFault (a + BitVec.ofNat 64 (n - 1)) false) ||
    decide (gaRegion a = 1 ∧ gaLtid a ≠ gaLtid (a + BitVec.ofNat 64 (n - 1))) 

/-- The package's own chip number: 0 with no topology record (R27, R28). -/
def State.ownChip (s : State) : BitVec 16 :=
  match s.router.topo with
  | some r => BitVec.ofNat 16 (fieldLE r.bytes 2 2)
  | none => 0

end Sys2Proof.Machine
end

