-- ==== Sys2Proof/Machine/Jobs.lean ====
section
/-!
DEFINITION. Jobs on tiles and partitions: the tile state at launch (02 R35), a tile's part ending (02 R61), a job
ending (06 R175, R179, R181; 02 R38), and what a tile fault starts (02 R38, R61, R65; 17 R474).
-/

namespace Sys2Proof.Machine

/-- The job a tile runs. -/
def Tile.key (t : Tile) : DescKey := ⟨Fin.ofNat 8192 t.ring.toNat, t.job⟩

/-- The logical tiles of a partition, as physical tiles. -/
def State.tilesOf (s : State) (n : Nat) : List Nat :=
  match (s.part n).arm with
  | some a => a.lmap.map (fun x => 72 * n + x)
  | none => []

/-- Partitions of a set. -/
def psetList (m : BitVec 12) : List Nat := maskList m.toNat 12

/-- The tile's state before its first instruction (R35); ASTAT is zero (03 R103). [DESIGN CHOICE: log 6] -/
def Tile.launch (t : Tile) (k : DescKey) (j : Job) : Tile :=
  { t with
    common := Vector.ofFn (fun i : Fin 16 =>
      if 1 ≤ i.val ∧ i.val ≤ 7 then (j.args.getD (i.val - 1) 0).setWidth 64 else 0),
    groups := .replicate 64 0, pc := j.entry.setWidth 64, cst := ⟨0, 1, false, true⟩, xcst := .zero, xpc := 0,
    xcause := 0, xval := 0, xbase := 0, spp := spillBase, wto := 0, tenant := j.tenant, job := k.index,
    ring := BitVec.ofNat 13 k.ring.val, astat := 0, event := 0, evSeen := 0, running := true, halted := false, wait := .none,
    bars := 0, tfault := none, vfault := none, lateErr := none, tAst := [], vAst := [] }

/-- Launches a job on a tile, or queues it behind the jobs the tile already has. [DEDUCED: log 4] -/
def State.launchTile (s : State) (k : DescKey) (n : Nat) : State :=
  match s.job? k with
  | none => s
  | some j =>
    let t := s.tile n
    if t.running || t.halted then s.setTile n { t with jobs := t.jobs ++ [k] }
    else s.setTile n { t.launch k j with lastFc := s.now }

/-- The next job waiting at a tile, if any, launches. [DEDUCED: log 4] -/
def State.nextOnTile (s : State) (n : Nat) : State :=
  let t := s.tile n
  match t.jobs with
  | [] => s
  | k :: r => (s.setTile n { t with jobs := r }).launchTile k n

/-- The energy of a job in whole mJ, saturating (06 R181). [DEDUCED: log 129] -/
def Job.mJ (j : Job) : Nat := min (j.energyPj / 1000000000) 0xFFFFFFFF

/-- A partition loses a job; with none left it leaves Active: Fenced where a fence was pending, else Idle (01 R22). -/
def State.partJobEnd (s : State) (k : DescKey) (n : Nat) : State :=
  let p := s.part n
  let jobs := p.jobs.filter (fun x => !(x == k))
  let s := s.setPart n { p with jobs := jobs, waiting := p.waiting.filter (fun x => !(x == k)) }
  if !jobs.isEmpty ∨ p.psw.state ≠ .active then s
  else if p.psw.fencePend then s.pswChange n (fun q => { q with state := .fenced, fencePend := false })
  else
    let s := s.pswChange n (fun q => { q with state := .idle })
    s.setPart n { s.part n with becameIdle := true, idleSince := s.now }

/-- A job ends: its partitions lose it and its completion entry is written. -/
def State.jobEnd (s : State) (k : DescKey) (status info : Nat) : State :=
  match s.job? k with
  | none => s
  | some j =>
    let s := (psetList j.pset).foldl (fun s n => s.partJobEnd k n) s
    (s.dropJob k).complete k status info j.mJ

/-- Every tile of the job, in every partition of its set, has executed DONE. -/
def Job.allDone (j : Job) : Bool :=
  (psetList j.pset).all (fun n => j.admitted.contains n) && j.tiles.all (fun t => j.finished.contains t)

/-- The tiles of the job on one partition have all executed DONE. -/
def Job.partDone (j : Job) (n : Nat) : Bool :=
  (j.tiles.filter (fun t => t / 72 == n)).all (fun t => j.finished.contains t)

/-- Partition control reports the tile finished; the job completes when every tile has (R61, 06 R175). -/
def State.tileFinished (s : State) (n : Nat) : State :=
  let t := s.tile n
  let k := t.key
  let s := s.setTile n { t with running := false, wait := .none, handles := .replicate 8 .free }
  match s.job? k with
  | none => s.nextOnTile n
  | some j =>
    let j := { j with finished := j.finished ++ [n] }
    let s := s.setJob k j
    let s := if j.partDone (n / 72) then s.partEvent (n / 72) 0 else s
    let s := if j.allDone ∧ j.fault = none ∧ j.aborted = none then s.jobEnd k 0 0 else s
    s.nextOnTile n

/-- A tile error record (17 R473, R474). -/
def State.tileRecord (s : State) (n cause : Nat) (data : List Byte) : State :=
  let t := s.tile n
  s.logErr { ErrRec.blank 1 cause s.lay.time with
    part := BitVec.ofNat 8 (n / 72), tenant := t.tenant.setWidth 8, gen := (s.psw (n / 72)).gen,
    ring := t.ring.setWidth 16, job := t.job, ltid := BitVec.ofNat 16 ((s.ltidOf n).getD 0xFFFF),
    die := BitVec.ofNat 8 (dieOf n), row := BitVec.ofNat 8 (rowOf n), col := BitVec.ofNat 8 (colOf n), data := data }

/-- A tile fault (R38, R61): the record, notice 0x0003, partition event 1, and the resets of every tile of the job, in every
partition of its set, that the control complex orders, after which it can launch nowhere; the completion follows those resets (TILE_FAULT_JOB_END). [DEDUCED: log 38] -/
def State.tileFault (s : State) (n cause : Nat) (data : List Byte) : State :=
  let t := s.tile n
  let k := t.key
  let s := s.tileRecord n cause data
  let s := s.partEvent (n / 72) 1
  let s := s.noticePart (n / 72) 3 ((s.ltidOf n).getD 0xFFFF) (t.job.toNat + t.ring.toNat * 2 ^ 32)
  match s.job? k with
  | none => s
  | some j =>
    if j.fault.isSome then s
    else
      let l := (psetList j.pset).flatMap s.tilesOf
      let s := (psetList j.pset).foldl (fun s m => s.setPart m { s.part m with waiting := (s.part m).waiting.filter (fun x => !(x == k)) }) s
      let s := l.foldl (fun s m => s.setTile m { s.tile m with jobs := (s.tile m).jobs.filter (fun x => !(x == k)) }) s
      s.setJob k { j with fault := some ((s.ltidOf n).getD 0xFFFF), resets := l ++ (if l.contains n then [] else [n]) }

end Sys2Proof.Machine
end

