-- ==== Sys2Proof/Machine/TileRun.lean ====
section
/-!
DEFINITION. How a control core runs one instruction: taking a trap (02 R36 to R40), the pending imprecise and
asynchronous traps at an instruction boundary (R40, R52), retiring, and the waits that end when a unit or the tile port
is done (R51, R53, R55, R61).
-/

namespace Sys2Proof.Machine

/-! Trap vectors (R36). -/
def vecOverflow : Nat := 0x01
def vecUnderflow : Nat := 0x02
def vecIllegal : Nat := 0x03
def vecPrivileged : Nat := 0x04
def vecMisaligned : Nat := 0x05
def vecAddress : Nat := 0x06
def vecScratchpad : Nat := 0x07
def vecTensor : Nat := 0x08
def vecVector : Nat := 0x09
def vecDma : Nat := 0x0A
def vecRemote : Nat := 0x0B
def vecDivide : Nat := 0x0C
def vecBreak : Nat := 0x0D
def vecFirmware : Nat := 0x0E
def vecFused : Nat := 0x0F
def vecEvent : Nat := 0x10

/-- EVENT (R34): the bits that have set, and [2] also while a completed handle that is not retired holds a nonzero
status. [DESIGN CHOICE: log 7] -/
def Tile.eventBits (t : Tile) : BitVec 3 :=
  let d := t.handles.toList.any (fun h => match h with | .completed st => st != 0 && st != 6 | _ => false)
  (if d then 4 else 0) ||| t.event

/-- The core may issue its next instruction. [DESIGN CHOICE: log 2, DESIGN CHOICE: log 3] -/
def Tile.ready (t : Tile) : Bool := t.running && !t.halted && t.drain.isNone && t.wait == .none

/-- The tile's own view of trap entry (R37), outside window 7. Vectors 0x01 and 0x02 enter window 7; every other vector
advances into the next program window without writing p7. -/
def Tile.enter (t : Tile) (vec detail : Nat) (xval xpc : Word) : Tile :=
  let c := t.cst
  { t with
    xcst := c, xpc := xpc, xcause := BitVec.ofNat 64 (vec + 256 * detail), xval := xval,
    cst := if vec = vecOverflow ∨ vec = vecUnderflow then { c with frm := 7, pl := true, ei := false }
           else { frm := BitVec.ofNat 3 ((c.frm.toNat + 1) % 7), dep := c.dep + 1, pl := true, ei := false },
    pc := t.xbase + BitVec.ofNat 64 (32 * vec) }

/-- A double trap (R38): the tile halts at once and the fault is reported. [DEDUCED: log 26] -/
def State.doubleTrap (s : State) (n vec detail : Nat) (pc : Word) : State :=
  let t := s.tile n
  let s := s.setTile n { t with running := false, halted := true, wait := .none }
  let s := { s with tilDtrap := satAdd s.tilDtrap 1 0xFFF }
  s.tileFault n 1 ([t.xcst.frm.setWidth 8, BitVec.ofNat 8 vec, BitVec.ofNat 8 detail, 0] ++
    leBytes 4 t.xpc.toNat ++ leBytes 4 pc.toNat)

/-- The trap that is taken: in window 7 a double trap; when the implicit advance finds DEP = 6, the window overflow
first (R37 step 5); else the trap itself. [DEDUCED: log 26] -/
def State.takeTrap (s : State) (n vec detail : Nat) (xval xpc : Word) : State :=
  let t := s.tile n
  if t.cst.frm = 7 then s.doubleTrap n vec detail xpc
  else if vec ≠ vecOverflow ∧ vec ≠ vecUnderflow ∧ t.cst.dep = 6 then s.setTile n (t.enter vecOverflow 0 xpc xpc)
  else s.setTile n (t.enter vec detail xval xpc)

/-- The cause stays pending: the overflow trap is taken first. -/
def Tile.blocked (t : Tile) : Bool := t.cst.frm != 7 && t.cst.dep == 6

/-- At an instruction boundary: a pending tensor fault, then a vector fault (R52), then a GST's error reply, whose trap
names the GST itself (R36, R37), then an asynchronous event while EI is 1 and FRM is not 7 (R40). [DEDUCED: log 27] -/
def State.boundary (s : State) (n : Nat) : State :=
  let t := s.tile n
  if !t.ready then s else
  match t.tfault with
  | some (_, addr, disc, fused) =>
    let s := if t.blocked then s else s.setTile n { t.seeT with tfault := none }
    s.takeTrap n (if fused then vecFused else vecTensor) disc addr t.pc
  | none =>
    match t.vfault with
    | some (_, addr, disc) =>
      let s := if t.blocked then s else s.setTile n { t.seeV with vfault := none }
      s.takeTrap n vecVector disc addr t.pc
    | none =>
      match t.lateErr with
      | some (a, pc) => (s.setTile n { t with lateErr := none }).takeTrap n vecRemote 0 a pc
      | none =>
        if t.cst.ei ∧ t.cst.frm ≠ 7 ∧ t.eventBits ≠ 0 then
          let s := if t.blocked then s else s.setTile n { t with evSeen := t.eventBits }
          s.takeTrap n vecEvent 0 t.pc t.pc
        else s

/-- The instruction retires and the core continues at `pc` (17 R470 counts it). -/
def State.retire (s : State) (n : Nat) (pc : Word) : State :=
  let t := s.tile n
  let s := s.setTile n { t with pc := pc, retired := t.retired + 1, wait := .none, lastFc := s.now }
  let p := s.part (n / 72)
  s.setPart (n / 72) { p with retiredIns := p.retiredIns + 1 }

/-- What an instruction does. -/
inductive IRes where
  | next (s : State)                                   -- retires, continues at PC + 4
  | jump (s : State) (pc : Word)                       -- retires, continues at `pc`
  | hold (s : State)                                   -- the core waits at this instruction
  | trap (s : State) (vec detail : Nat) (xval : Word)  -- a synchronous trap
  | stall                                              -- cannot issue now; comes again

/-- Runs one instruction on a tile whose core can issue. [DESIGN CHOICE: log 2, PRESUMED: log 5] -/
def State.runInstr (s : State) (n : Nat) (f : Tile → IRes) : State :=
  let t := s.tile n
  if !t.ready then s else
  match f t with
  | .next s' => (s'.retire n (t.pc + 4)).boundary n
  | .jump s' pc => (s'.retire n pc).boundary n
  | .hold s' => s'
  | .trap s' vec detail xval => s'.takeTrap n vec detail xval t.pc
  | .stall => s

/-- An instruction that only writes a register. -/
def State.writeReg (s : State) (n : Nat) (rd : Reg) (v : Word) : State := s.setTile n ((s.tile n).setReg rd v)

/-- Register instructions: RD takes a value computed from the tile. -/
def State.runReg (s : State) (n : Nat) (rd : Reg) (f : Tile → Word) : State :=
  s.runInstr n (fun t => .next (s.writeReg n rd (f t)))

/-! ### Waits that end when something is done -/

/-- Kind of an entry that a slot request of a fused instruction holds (09 R287). -/
def kSLOT : BitVec 4 := 5

/-- Live entries of the core's own accesses: not old (17 R465), not slot requests. -/
def liveCount (m : SMap Outst) : Nat := (m.filter (fun e => !e.2.old && e.2.kind != kSLOT)).length

def Handle.isRunning : Handle → Bool
  | .running .. => true
  | _ => false

/-- Every earlier read and acknowledged write of the tile has completed (R53). -/
def Tile.quiet (t : Tile) : Bool :=
  liveCount t.reads == 0 && liveCount t.writes == 0 && !t.handles.toList.any Handle.isRunning

/-- DONE may take effect (R61). [DEDUCED: log 37] -/
def Tile.doneReady (t : Tile) : Bool := t.tq.isEmpty && t.vq.isEmpty && t.quiet

/-- DMA.WAIT's end: the status into A, the handle retired (R55). [DESIGN CHOICE: log 7] -/
def Tile.retireHandle (t : Tile) (rd : Reg) (h : Nat) (st : Byte) : Tile :=
  { t.setReg rd (st.setWidth 64) with handles := t.handles.setIfInBounds h .free }

/-- Ends the wait of a core if what it waits for has come. [DESIGN CHOICE: log 3, DEDUCED: log 37] -/
def State.settle (s : State) (n : Nat) : State :=
  let t := s.tile n
  if !t.running || t.halted || t.drain.isSome then s else
  match t.wait with
  | .none => s.boundary n
  | .twait k => if t.tq.length ≤ k.toNat then ((s.setTile n t.seeT).retire n (t.pc + 4)).boundary n else s
  | .vwait k => if t.vq.length ≤ k.toNat then ((s.setTile n t.seeV).retire n (t.pc + 4)).boundary n else s
  | .fence => if t.quiet then (s.retire n (t.pc + 4)).boundary n else s
  | .dmaWait rd h =>
    match t.handles.toList.getD h .free with
    | .completed st => ((s.setTile n (t.retireHandle rd h st)).retire n (t.pc + 4)).boundary n
    | _ => s
  | .done =>
    if t.tfault.isSome || t.vfault.isSome || t.lateErr.isSome then (s.setTile n { t with wait := .none }).boundary n
    else if t.doneReady then (s.retire n (t.pc + 4)).tileFinished n else s
  | _ => s

end Sys2Proof.Machine
end

