-- ==== Sys2Proof/Machine/PktOps.lean ====
section
/-!
DEFINITION. Packets: the type numbers and replies of 07 R193, R194, R202, the drop counters of 07 (FAB_DROP_A to C), the
journal's queue of record writes (15 R421, R423), and the boundary of a partition out of service (17 R463).
-/

namespace Sys2Proof

/-! Packet types (07 R194). -/
def tRD : BitVec 4 := 0
def tWR : BitVec 4 := 1
def tWRP : BitVec 4 := 2
def tATM : BitVec 4 := 3
def tPUSH : BitVec 4 := 4
def tFWR : BitVec 4 := 5
def tRDR : BitVec 4 := 6
def tACK : BitVec 4 := 7
def tCKT : BitVec 4 := 8
def tCSU : BitVec 4 := 9
def tCRL : BitVec 4 := 10
def tMSG : BitVec 4 := 11
def tMSGP : BitVec 4 := 12
def tCTL : BitVec 4 := 13

/-- Types that expect a reply. -/
def expectsReply (t : BitVec 4) : Bool :=
  t == tRD || t == tWR || t == tATM || t == tPUSH || t == tFWR || t == tCSU || t == tCRL || t == tMSG

/-- The type of the reply. -/
def replyType (t : BitVec 4) : BitVec 4 := if t == tRD || t == tATM then tRDR else tACK

/-! Reply statuses (07 R202). -/
def stOK : Nat := 0
def stRetry : Nat := 1
def stAddress : Nat := 2
def stRefused : Nat := 3
def stPoison : Nat := 4
def stNoStack : Nat := 5
def stNoPart : Nat := 6
def stStale : Nat := 7
def stMalformed : Nat := 8
def stUnreachable : Nat := 9
def stCircuit : Nat := 10
def stLate : Nat := 11
def stDamaged : Nat := 12

/-- ADDR of a reply (07 R193). -/
def replyAddr (rid : BitVec 16) (status : Nat) (chip : BitVec 16) : Word :=
  rid.setWidth 64 ||| (BitVec.ofNat 64 (status % 16) <<< 16) ||| (chip.setWidth 64 <<< 44)

/-- STATUS of a reply. -/
def Packet.status (p : Packet) : Nat := (p.addr.extractLsb' 16 4).toNat
/-- RID that a reply names. -/
def Packet.replyRid (p : Packet) : BitVec 16 := p.addr.extractLsb' 0 16

/-- The reply to a request. -/
def Packet.replyTo (p : Packet) (status : Nat) (data : List Byte) : Packet :=
  { addr := replyAddr p.rid status p.srcChip, ver := 1, typ := replyType p.typ, phase := 0, nonmin := false, ext := 0,
    plen := BitVec.ofNat 13 data.length, tenant := p.tenant, srcChip := p.srcChip, rid := p.rid, exts := [],
    payload := data, tail := .good }

/-- An extension of a kind. -/
def Packet.extOf (p : Packet) (kind : Nat) : Option Ext := p.exts.find? (fun e => e.kind.toNat == kind)

/-- Bits `[hi:lo]` of byte `byte` on of an extension header, bytes 1 to 15 held in `body`. -/
def Ext.field (e : Ext) (byte n : Nat) : Nat := (e.body.toNat / 2 ^ (8 * (byte - 1))) % 2 ^ n

/-- The body of an extension from fields (byte, bits, value). -/
def extBody (l : List (Nat × Nat × Nat)) : BitVec 120 :=
  BitVec.ofNat 120 (l.foldl (fun a f => a + (f.2.2 % 2 ^ f.2.1) * 2 ^ (8 * (f.1 - 1))) 0)

end Sys2Proof

namespace Sys2Proof.Machine

/-! ### The meshes (05 R137 to R142; 04 R106, R107) -/

def State.memIlv (s : State) : Nat := s.reg 0x380000 0

def giB : Nat := 0x40000000

/-- Stack and stack-local byte of a region-0 offset (R107). -/
def memMap (ilv o : Nat) : Nat × Nat :=
  let u := o / (12 * giB)
  let w := o % (12 * giB)
  if bitAt ilv u then
    let c := w / 4096
    (c % 12, u * giB + (c / 12) * 4096 + w % 4096)
  else (w / giB, u * giB + w % giB)

/-- The stack that a region-0 address maps to. -/
def State.stackOfAddr (s : State) (a : Word) : Nat := (memMap s.memIlv (gaOffset a)).1

/-- The partition that owns seam port `q` of a die (05 R140). -/
def seamOwner (east : Bool) (q : Nat) : Nat :=
  let crow := q / 4
  let k := q % 4
  let col := if k = 3 then crow % 3 else k
  (if east then 6 else 0) + (if 3 ≤ crow then 3 else 0) + col

def Router.seamUp (r : Router) (east : Bool) (q : Nat) : Bool := (if east then r.seamEast else r.seamWest).getLsbD q

/-- The memory row of a partition (04 R106). -/
def memRow (n : Nat) : Nat := if n % 6 < 3 then 0 else 5

/-- The memory port of stack `n` nearest a cluster column (04 R106). -/
def memPort (n col : Nat) : MPort := .mem n (min (6 * (n % 3) + 5) (max (6 * (n % 3)) col))

/-- The partition of a port, and its stop: cluster row and column. The stop of a stack for its seam port is the westernmost of
its memory row (05 R141). -/
def MPort.place : MPort → Option (Nat × Nat × Nat)
  | .tile t => some (t / 72, rowOf t / 2, colOf t / 2)
  | .mem n _ => some (n, memRow n, 6 * (n % 3))
  | .part n => some (n, memRow n, 6 * (n % 3))
  | .seam .. | .spine => none

/-- The die of a port: east or not; none for the spine. -/
def MPort.east (p : MPort) : Option Bool :=
  match p with
  | .seam e _ => some e
  | _ => p.place.map (fun x => decide (6 ≤ x.1))

/-- The designated seam port of a partition for a stop (05 R141); where bring-up left it out, the lowest-numbered port in
service that the partition owns (05 R143). -/
def Router.designated (r : Router) (n row col : Nat) : Nat :=
  let east := decide (6 ≤ n)
  let k := n % 3
  let own := (List.range 24).filter (fun q => seamOwner east q == n)
  let here := own.filter (fun q => q / 4 == row)
  let q := match here with
    | [a] => a
    | _ => if col % 2 = 0 then 4 * row + k else 4 * row + 3
  if r.seamUp east q then q else (own.filter (fun q => r.seamUp east q)).headD q

/-- The seam port of a place. -/
def Router.seamOf (r : Router) (p : MPort) : MPort :=
  match p.place with
  | some (n, row, col) => .seam (decide (6 ≤ n)) (r.designated n row col)
  | none => p

/-- The channel of a packet (05 R139): the Zaldarad class of its type. -/
def meshChan (t : BitVec 4) : Nat := if t == tRDR || t == tACK then 3 else if t == tFWR then 1 else if t == tCKT then 2 else 0

/-- Where a packet from a port ends on this package (05 R138): a reply at the tile its RID names; a request for region 0 at the
memory port nearest the column where it travels, for region 1 from a tile or a stack of the package at the physical tile that
the armature names (02 R62), from elsewhere at the partition port, for region 2 in the spine; one for another chip, or a
multicast, at the router. -/
def State.destOf (s : State) (src : MPort) (p : Packet) : MPort :=
  if gaChip p.addr ≠ s.ownChip || (p.extOf 1).isSome then .spine
  else if p.typ == tRDR || p.typ == tACK then
    (match s.physOf (p.replyRid.toNat / 64) with | some t => .tile t | none => .spine)
  else match gaRegion p.addr with
    | 0 =>
      let n := s.stackOfAddr p.addr
      let col := match src.place with
        | some (m, _, c) => if decide (6 ≤ m) = decide (6 ≤ n) then c else 0
        | none => 0
      memPort n col
    | 1 => match src, s.physOf (gaLtid p.addr) with
      | .spine, _ | _, none => .part (gaLtid p.addr / 70)
      | _, some t => .tile t
    | _ => .spine

/-- A packet leaves a port: over its die's mesh to its destination, or, bound off the die, to the designated seam port of its
partition; from the spine it enters the die by the destination's seam port. What stays in the spine takes no mesh. -/
def State.sendPkt (s : State) (src : MPort) (p : Packet) : State :=
  let fin := s.destOf src p
  let fly (a b : MPort) : List Flight := [⟨a, b, meshChan p.typ, p⟩]
  let l := match src.east, fin.east with
    | some x, some y => if x = y then fly src fin else fly src (s.router.seamOf src)
    | some _, none => fly src (s.router.seamOf src)
    | none, some _ => fly (s.router.seamOf fin) fin
    | none, none => []
  ({ s with mesh := s.mesh ++ l }).emit (.packet p)

/-- The way of a flight that has not arrived: between one source port and one destination port the packets of one channel arrive
in the order sent (05 R138). -/
def Flight.lane (f : Flight) : MPort × MPort × Nat := (f.src, f.dst, f.chan)

/-- Flight `i` is the oldest of its lane. -/
def firstOfLane (l : List Flight) (i : Nat) : Bool :=
  match l[i]? with
  | some f => !(l.take i).any (fun g => g.lane == f.lane)
  | none => false

def MPort.isSeam : MPort → Bool
  | .seam .. => true
  | _ => false

/-- A packet arrives: its flight, where it has one, ends at a port that `fits`, as the oldest of its lane; the state without the
flight, and its destination. None where it cannot arrive now. A packet that no flight carries comes from outside.
[DEDUCED: log 177] -/
def State.arrive (s : State) (fits : MPort → Bool) (p : Packet) : Option (State × Option MPort) :=
  match s.mesh.findIdx? (fun f => f.pkt == p && fits f.dst) with
  | some i => if firstOfLane s.mesh i then some ({ s with mesh := s.mesh.eraseIdx i }, (s.mesh[i]?).map (·.dst)) else none
  | none => if s.mesh.any (fun f => f.pkt == p) then none else some (s, none)

/-- The port that sent a request, as its RID names it. -/
def State.requester (s : State) (p : Packet) : MPort :=
  if p.srcChip ≠ s.ownChip then .spine else
  match s.physOf (p.rid.toNat / 64) with
  | some t => .tile t
  | none => .spine

/-- The port at which a packet for this package is answered: its target's, or the router; a memory port answers what entered by
it (04 R106). -/
def State.targetPort (s : State) (p : Packet) : MPort :=
  if gaChip p.addr ≠ s.ownChip then .spine else
  match gaRegion p.addr with
  | 0 => s.destOf (s.requester p) p
  | 1 => match s.physOf (gaLtid p.addr) with
    | some t => .tile t
    | none => .part (gaLtid p.addr / 70)
  | _ => .spine

/-- Answers a packet whose type expects a reply, from the port of its target. -/
def State.answer (s : State) (p : Packet) (status : Nat) (data : List Byte) : State :=
  if expectsReply p.typ then s.sendPkt (s.targetPort p) (p.replyTo status data) else s

/-! Drop counters, all saturating at 0xFFFF. -/
def State.modRouter (s : State) (f : Router → Router) : State := { s with router := f s.router }
def State.cntFraming (s : State) : State := s.modRouter fun r => { r with framing := satAdd r.framing 1 0xFFFF }
def State.cntMalformed (s : State) : State := s.modRouter fun r => { r with malformed := satAdd r.malformed 1 0xFFFF }
def State.cntStomped (s : State) : State := s.modRouter fun r => { r with stomped := satAdd r.stomped 1 0xFFFF }
def State.cntMisroute (s : State) : State := s.modRouter fun r => { r with misroute := satAdd r.misroute 1 0xFFFF }
def State.cntAddress (s : State) : State := s.modRouter fun r => { r with address := satAdd r.address 1 0xFFFF }
def State.cntUnreach (s : State) : State := s.modRouter fun r => { r with unreach := satAdd r.unreach 1 0xFFFF }
def State.cntRefused (s : State) : State := s.modRouter fun r => { r with refused := satAdd r.refused 1 0xFFFF }
def State.cntCircuit (s : State) : State := s.modRouter fun r => { r with circuit := satAdd r.circuit 1 0xFFFF }
def State.cntLate (s : State) : State := s.modRouter fun r => { r with late := satAdd r.late 1 0xFFFF }
def State.cntMc (s : State) : State := s.modRouter fun r => { r with mcDrop := satAdd r.mcDrop 1 0xFFFF }

/-- A packet dropped at a partition's boundary (17 R463). [DEDUCED: log 59] -/
def State.absorb (s : State) (n : Nat) : State :=
  s.setPart n { s.part n with absorbed := satAdd (s.part n).absorbed 1 0xFFFF }

/-- The partition's ports refuse traffic. -/
def State.barred (s : State) (n : Nat) : Bool := (s.psw n).state == .fenced || (s.psw n).state == .resetting

/-- A packet for a partition that is Fenced or Resetting: answered with Partition unavailable, or dropped. -/
def State.bar (s : State) (n : Nat) (p : Packet) : State :=
  if expectsReply p.typ then s.answer p stNoPart [] else s.absorb n

/-- A record write is requested; a queued write of the same record is replaced (15 R423). While the plinth is too hot
the write waits for its cooling (18 R484). [DEDUCED: log 155] -/
def State.journal (s : State) (id : Nat) (data : List Byte) : State :=
  let m := s.mgmt
  let l := if m.writes.any (fun w => w.1 == id) then m.writes.map (fun w => if w.1 == id then (id, data) else w)
    else m.writes ++ [(id, data)]
  if m.overheat then { s with mgmt := { m with aborted := m.aborted.filter (fun w => w.1 != id) ++ [(id, data)] } }
  else { s with mgmt := { m with writes := l } }

end Sys2Proof.Machine
end

