-- ==== Sys2Proof/Machine/Stack.lean ====
section
/-!
DEFINITION. The stacked memory of a partition (04): the address mapping, admission, the queue that orders every line,
encryption by key, correction and poison, bad rows and spares, patrol scrub, refresh and self-refresh.
-/

namespace Sys2Proof.Machine

/-! ### Configuration -/

def offMemCfg : Nat := 0x380008
def State.memCfg (s : State) : Nat := s.reg offMemCfg 0x1818
/-- ROW_THRESH, 0 acting as 1. -/
def State.rowThresh (s : State) : Nat := max 1 (bits s.memCfg 11 8)
def State.autoRemap (s : State) : Bool := bitAt s.memCfg 12
def State.scrubHours (s : State) : Nat := bits s.memCfg 7 0

/-! ### Address mapping (R107, R108) -/

/-- Pseudo-channel number of a stack-local byte (R108). -/
def pcOf (l : Nat) : Nat := 2 * ((l / 256) % 32) + (l / 8192) % 2
def bankOf (l : Nat) : Nat := (l / 65536) % 32
def rowOfL (l : Nat) : Nat := l / 2 ^ 21

/-- A physical row: pseudo-channel, bank and row in one number. -/
def rowKey (pc bank row : Nat) : Nat := (pc * 32 + bank) * 24576 + row

/-- The spare rows (R109). -/
def spareL (l : Nat) : Bool := decide (0xBFFF00000 ≤ l)

/-! ### The bad-row list (R120 to R123) -/

def brValid (e : BitVec 32) : Bool := e.getLsbD 31
def brRemapped (e : BitVec 32) : Bool := e.getLsbD 22
def brRow (e : BitVec 32) : Nat := bits e.toNat 14 0
def brBank (e : BitVec 32) : Nat := bits e.toNat 19 15

/-- The entry that lists the row of a stack-local byte. -/
def Stack.entryOf (k : Stack) (l : Nat) : Option (Nat × BitVec 32) :=
  List.find? (fun e => brValid e.2 && decide (e.1 / 16 = pcOf l ∧ brRow e.2 = rowOfL l ∧ brBank e.2 = bankOf l)) k.badRows

/-- The physical row that serves an access to a stack-local byte. -/
def Stack.servedRow (k : Stack) (l : Nat) : Nat :=
  match k.entryOf l with
  | some (e, w) => if brRemapped w then rowKey (pcOf l) (16 + e % 16) 24575 else rowKey (pcOf l) (bankOf l) (rowOfL l)
  | none => rowKey (pcOf l) (bankOf l) (rowOfL l)

/-- The row of a stack-local byte is being copied: its accesses wait (R121). [DEDUCED: log 55] -/
def State.rowCopying (s : State) (n l : Nat) : Bool :=
  match (s.stack n).entryOf l with
  | some (_, w) => s.autoRemap && !brRemapped w
  | none => false

/-- Free spares of a pseudo-channel, lowest first; a spare marked as failing (SOURCE 1, VALID 0) is never used (16 R440). -/
def Stack.freeSpares (k : Stack) (pc : Nat) : List Nat :=
  (List.range 16).filter (fun i => !brValid (SMap.get 0 k.badRows (16 * pc + i)) && !(SMap.get 0 k.badRows (16 * pc + i)).getLsbD 21)

/-- A change of a bad-row list reaches the plinth's copy and its record 0x05 (R125). -/
def State.journalRows (s : State) : State :=
  { s with mgmt := { s.mgmt with rowCopy := List.map (fun (e : Nat × Stack) => (e.1, e.2.badRows)) s.stks } }.journal 5 ((List.range 12).flatMap (fun n => (List.range 1024).flatMap (fun e => leBytes 4 (SMap.get 0 (s.stack n).badRows e).toNat)))

/-- A row enters the bad-row list (R120 to R123): it takes the lowest free spare of its pseudo-channel; with none free,
SPARE_EXH, report 0x0003, notice 0x0007 and partition event 3, once for the row (R123). Listed and spare rows list nothing
further. -/
def State.listRow (s : State) (n l source : Nat) : State :=
  let k := s.stack n
  if (k.entryOf l).isSome || spareL l then s else
  match k.freeSpares (pcOf l) with
  | [] =>
    let r := rowKey (pcOf l) (bankOf l) (rowOfL l)
    if k.exhRows.contains r then s else
    let s := s.setStack n { k with spareExh := true, exhRows := k.exhRows ++ [r] }
    ((s.report 3 n).noticePart n 7 1 0).partEvent n 3
  | i :: _ =>
    let w := rowOfL l + fieldAt (bankOf l) 15 5 + fieldAt source 21 1 + 2 ^ 31
    (s.setStack n { k with badRows := SMap.set k.badRows (16 * pcOf l + i) (BitVec.ofNat 32 w) }).journalRows

/-- The row watch table counts a corrected event (R120); the new count. -/
def watchAdd (w : List (Nat × Nat)) (row : Nat) : List (Nat × Nat) × Nat :=
  match w.find? (fun e => e.1 == row) with
  | some (_, c) => (w.map (fun e => if e.1 == row then (row, c + 1) else e), c + 1)
  | none =>
    if w.length < 512 then (w ++ [(row, 1)], 1)
    else
      let low := w.foldl (fun m e => min m e.2) (w.headD (0, 0)).2
      let i := w.findIdx (fun e => e.2 == low)
      (w.eraseIdx i ++ [(row, 1)], 1)

/-- A correctable error (R118). -/
def State.lineCorrected (s : State) (n l : Nat) : State :=
  let k := s.stack n
  let (w, c) := watchAdd k.watch (k.servedRow l)
  let s := s.setStack n { k with corrected := satAdd k.corrected 1 0xFFFFFFF, watch := w }
  if s.rowThresh ≤ c then s.listRow n l 0 else s

/-- An uncorrectable stack fault (R124). -/
def State.stackFault (s : State) (n : Nat) : State :=
  ((s.partEvent n 3).noticePart n 7 2 0).fence n 3

/-- An uncorrectable error (R118, R124): the line is poisoned, counted, and its row listed; more than 8 rows of one
pseudo-channel within 1 s are a stack fault. -/
def State.lineUncorrectable (s : State) (n l : Nat) : State :=
  let k := s.stack n
  let rows := (k.uncRows.filter (fun e => decide (s.now < e.2.2 + fcPerS))) ++ [(pcOf l, k.servedRow l, s.now)]
  let s := s.setStack n { k with
    poison := if k.poison.contains (l / 64) then k.poison else k.poison ++ [l / 64],
    uncorr := satAdd k.uncorr 1 0xFFF, uncRows := rows }
  let s := s.listRow n l 0
  let diff := ((rows.filter (fun e => e.1 == pcOf l)).map (fun e => e.2.1)).dedup
  if 8 < diff.length then s.stackFault n else s

/-- A channel fails to retrain after a command parity or data error; twice within 1 s is a stack fault (R124). -/
def State.channelFails (s : State) (n l : Nat) : State :=
  let k := s.stack n
  let ch := pcOf l / 2
  let l' := (k.retrains.filter (fun e => decide (s.now < e.2 + fcPerS))) ++ [(ch, s.now)]
  let s := s.setStack n { k with retrains := l' }
  if 2 ≤ (l'.filter (fun e => e.1 == ch)).length then s.stackFault n else s

/-! ### Lines (R114 to R118) -/

def Stack.isPoisoned (k : Stack) (l : Nat) : Bool := k.poison.contains (l / 64)

/-- The plaintext of a line under a key: what was written under another key, or not written, bears no relation to
anything (R115, 16 R441), but is the same at every read (R114). [DESIGN CHOICE: log 11, DESIGN CHOICE: log 18, DEDUCED: log 53] -/
def State.linePlain (s : State) (n l key : Nat) : List Byte :=
  let k := s.stack n
  match SMap.find? k.keyOf (l / 64) with
  | some w =>
    let b := k.mem.readN (l / 64 * 64) 64
    if w = key then b else (List.range 64).map (Config.xtsOther (12 * (l / 64) + n) b w key)
  | none => (List.range 64).map (Config.xtsOther (12 * (l / 64) + n) [] s.boot.starts key)

/-- Writes a whole line under a key; POISON clears. -/
def State.lineWrite (s : State) (n l key : Nat) (b : List Byte) : State :=
  let k := s.stack n
  s.setStack n { k with mem := k.mem.writeN (l / 64 * 64) b, keyOf := SMap.set k.keyOf (l / 64) key,
                        poison := k.poison.filter (fun x => x != l / 64) }

/-- The line-aligned offsets that a range of region-0 offsets touches. -/
def linesOf (o len : Nat) : List Nat := (List.range ((o + len + 63) / 64 - o / 64)).map (fun i => (o / 64 + i) * 64)

/-- A line read with the error its codeword met: the state after, and none where the line is poisoned.
[DEDUCED: log 54] -/
def State.lineRead (s : State) (n l key : Nat) (err : LineErr) : State × Option (List Byte) :=
  let s := match err with
    | .correctable => s.lineCorrected n l
    | .uncorrectable => s.lineUncorrectable n l
    | _ => s
  if (s.stack n).isPoisoned l then (s, none)
  else if err = .unseen then (s.draw, some (freeBytes (s.free + l / 64) 64))
  else (s, some (s.linePlain n l key))

/-- Reads a range of region-0 offsets under a placement; `errs` gives what each line that is read meets, in order. None where a
line is poisoned. -/
def State.memRead (s : State) (ilv o len key : Nat) (errs : List LineErr) : State × Option (List Byte) :=
  let (s, b, _) := (linesOf o len).foldl (fun (a : State × Option (List Byte) × List LineErr) lo =>
    let (n, l) := memMap ilv lo
    match a.1.lineRead n l key (a.2.2.headD .clean) with
    | (s', some x) => (s', a.2.1.map (fun y => y ++ x), a.2.2.drop 1)
    | (s', none) => (s', none, a.2.2.drop 1)) (s, some [], errs)
  (s, b.map (fun x => (x.drop (o % 64)).take len))

/-- The bytes of a line after a write of `b` at region-0 offset `o`. -/
def mergeLine (old : List Byte) (lo o : Nat) (b : List Byte) : List Byte :=
  (List.range 64).map (fun i => if o ≤ lo + i ∧ lo + i < o + b.length then b.getD (lo + i - o) 0 else old.getD i 0)

/-- A range covers the whole line at `lo`. [DEDUCED: log 51] -/
def wholeLine (lo o len : Nat) : Bool := decide (o ≤ lo ∧ lo + 64 ≤ o + len)

/-- Writes a range: a line covered whole is written; a line covered in part is read, corrected and merged with what the read
returned (R116). A poisoned or uncorrectable line met in such a read refuses the write whole: no byte is merged.
[DEDUCED: log 52] -/
def State.memWrite (s : State) (ilv o key : Nat) (b : List Byte) (errs : List LineErr) : State × Bool :=
  let (s, l, _) := (linesOf o b.length).foldl (fun (a : State × Option (List (Nat × List Byte)) × List LineErr) lo =>
    if wholeLine lo o b.length then (a.1, a.2.1.map (· ++ [(lo, [])]), a.2.2) else
    let (n, l) := memMap ilv lo
    match a.1.lineRead n l key (a.2.2.headD .clean) with
    | (s', some x) => (s', a.2.1.map (· ++ [(lo, x)]), a.2.2.drop 1)
    | (s', none) => (s', none, a.2.2.drop 1)) (s, some [], errs)
  match l with
  | none => (s, false)
  | some ls => (ls.foldl (fun s (x : Nat × List Byte) =>
      let (n, l) := memMap ilv x.1
      s.lineWrite n l key (mergeLine x.2 x.1 o b)) s, true)

/-! ### Atomics (02 R54, 07 R194) -/

/-- The new value of the word; none for a malformed operation. -/
def atomNew (payload : List Byte) (old : Word) : Option Word :=
  let b := BitVec.ofNat 64 (fieldLE payload 0 8)
  let d := BitVec.ofNat 64 (fieldLE payload 8 8)
  if fieldLE payload 17 7 ≠ 0 then none else
  match fieldLE payload 16 1 with
  | 0 => some b
  | 1 => some (old + b)
  | 2 => some (if old = d then b else old)
  | 3 => some (if old.slt b then b else old)
  | 4 => some (if b.slt old then b else old)
  | _ => none

/-! ### Admission (R111, R322) -/

/-- What a request needs of a window: reading, writing. -/
def needs (p : Packet) (o len : Nat) : Bool × Bool :=
  if p.typ == tRD || p.typ == tPUSH then (true, false)
  else if p.typ == tATM then (true, true)
  else (decide (o % 64 ≠ 0 ∨ (o + len) % 64 ≠ 0), true)

def offTenWin (t w : Nat) : Nat := 0x201000 + 0x80 * t + 0x8 * w

/-- The memory-window check (11 R322). -/
def State.windowOk (s : State) (t o len : Nat) (rd wr : Bool) : Bool :=
  t == 0 || (List.range 16).any (fun w =>
    let v := s.reg (offTenWin t w) 0
    let base := bits v 26 8
    let size := bits v 50 32
    bitAt v 0 && (!rd || bitAt v 1) && (!wr || bitAt v 2) &&
      decide (base * 0x200000 ≤ o ∧ o + len ≤ (base + size) * 0x200000))

/-- Bytes that a request touches. -/
def Packet.len (p : Packet) : Nat :=
  if p.typ == tRD then p.plen.toNat
  else if p.typ == tATM then 8
  else if p.typ == tPUSH then fieldLE p.payload 8 4
  else p.payload.length

/-- A request is refused with a status (R111). [DEDUCED: log 80] -/
def State.refuse (s : State) (p : Packet) (st : Nat) : State := s.answer p st []

/-- Admission in the order of R111; the queue is the ordering point, and a write of whole lines is acknowledged once it is
in the queue (R112). [DEDUCED: log 51] -/
def State.stackAdmit (s : State) (n : Nat) (p : Packet) : State :=
  let o := gaOffset p.addr
  let len := Packet.len p
  let (rd, wr) := needs p o len
  let t := p.tenant.toNat
  if s.barred n then s.bar n p
  else if (s.psw n).state = .off then s.refuse p stNoStack
  else if !s.windowOk t o len rd wr then s.cntRefused.refuse p stRefused
  else if (linesOf o len).any (fun lo => spareL (memMap s.memIlv lo).2) then
    (s.setStack n { s.stack n with refused := satAdd (s.stack n).refused 1 7 }).refuse p stRefused
  else
    match SMap.find? s.sec.keys t with
    | none => s.refuse p stRefused
    | some key =>
      let full := !rd && wr
      let s := s.setStack n { s.stack n with queue := (s.stack n).queue ++ [⟨p, key, full, s.memIlv⟩], lastUse := s.now }
      if full then s.answer p stOK [] else s

/-- The reply of a read, or the FWR that a PUSH becomes (07 R194). -/
def State.readDone (s : State) (p : Packet) (b : List Byte) : State :=
  if p.typ == tPUSH then
    s.sendPkt (s.targetPort p) { p with addr := BitVec.ofNat 64 (fieldLE p.payload 0 8), typ := tFWR,
                                        plen := BitVec.ofNat 13 b.length, payload := b }
  else s.answer p stOK b

/-- Serves one request at the stack (R112, R116, R118). -/
def State.serve (s : State) (r : StackReq) (errs : List LineErr) : State :=
  let p := r.pkt
  let o := gaOffset p.addr
  if p.typ == tRD || p.typ == tPUSH then
    match s.memRead r.ilv o (Packet.len p) r.key errs with
    | (s, some b) => s.readDone p b
    | (s, none) => s.answer p stPoison []
  else if p.typ == tATM then
    match s.memRead r.ilv o 8 r.key errs with
    | (s, none) => s.answer p stPoison []
    | (s, some b) =>
      match atomNew p.payload (BitVec.ofNat 64 (leNat b)) with
      | none => s.answer p stMalformed []
      | some v => (s.memWrite r.ilv o r.key (leBytes 8 v.toNat) []).1.answer p stOK b
  else
    match s.memWrite r.ilv o r.key p.payload errs with
    | (s, true) => if r.acked then s else s.answer p stOK []
    | (s, false) => if r.acked then s else s.answer p stPoison []

/-! ### Commands -/

/-- STACK_REQUEST (R111): a request arrives at the controller of stack `n`. [DEDUCED: log 51] -/
def execStackRequest (n : PartNo) (pkt : Packet) (s : State) : Host.Outcome State Fault Refusal :=
  .next (if !s.railsOn then s else
    match s.arrive (fun d => match d with | .mem m _ => m == n.val | _ => false) pkt with
    | some (s, _) => s.stackAdmit n.val pkt
    | none => s)

/-- A line of a range lies in a row that is being copied. -/
def State.rangeCopying (s : State) (ilv o len : Nat) : Bool :=
  (linesOf o len).any (fun lo => s.rowCopying (memMap ilv lo).1 (memMap ilv lo).2)

/-- The lines that a request reads: all of a read or an atomic, those covered in part of a write (R116). -/
def readLines (p : Packet) : List Nat :=
  let o := gaOffset p.addr
  let l := linesOf o (Packet.len p)
  if p.typ == tRD || p.typ == tPUSH || p.typ == tATM then l else l.filter (fun lo => !wholeLine lo o (Packet.len p))

/-- The line of a list whose access finds the channel's interface unable to retrain (R124). -/
def noRetrain (lines : List Nat) (errs : List LineErr) : Option Nat :=
  ((lines.zip errs).find? (fun x => x.2 == .retrainFailed)).map (·.1)

/-- STACK_ACCESS (R118): the request at the head of the queue is served, with what the codeword of each line that it reads met; it
waits while the stack is in self-refresh (R127) or a row of it is being copied (R121). -/
def execStackAccess (n : PartNo) (errs : List LineErr) (s : State) : Host.Outcome State Fault Refusal :=
  let k := s.stack n.val
  .next (match k.queue with
    | [] => s
    | r :: q =>
      if !s.railsOn || k.selfRef || s.rangeCopying r.ilv (gaOffset r.pkt.addr) (Packet.len r.pkt) then s
      else match noRetrain (readLines r.pkt) errs with
        | some lo => s.channelFails n.val (memMap r.ilv lo).2
        | none => (s.setStack n.val { k with queue := q, lastUse := s.now }).serve r errs)

/-- Stack-local address of line `i` of the row that an entry lists (R108). -/
def rowLine (e : Nat) (w : BitVec 32) (i : Nat) : Nat :=
  brRow w * 2 ^ 21 + brBank w * 65536 + (i / 4) * 16384 + ((e / 16) % 2) * 8192 + (e / 32) * 256 + (i % 4) * 64

/-- The copy of a listed row ends (R121, R122): the lines that could not be corrected are poisoned. -/
def State.remapRow (s : State) (n e : Nat) (bad : List Nat) : State :=
  let k := s.stack n
  let w := SMap.get 0 k.badRows e
  if !brValid w || brRemapped w then s else
  let ls := (bad.filter (fun i => decide (i < 16))).map (fun i => rowLine e w i / 64)
  let poison := k.poison ++ ls.filter (fun l => !k.poison.contains l)
  let any := (List.range 16).any (fun i => poison.contains (rowLine e w i / 64))
  let w' := w ||| 0x400000 ||| (if any then 0x100000 else 0)
  (s.setStack n { k with poison := poison, badRows := SMap.set k.badRows e w' }).journalRows

/-- ROW_REMAP (R121): the copy of entry `e` of stack `n` ends; `bad` are the lines that could not be corrected.
[DEDUCED: log 55] -/
def execRowRemap (n : PartNo) (e : Fin 1024) (bad : List Nat) (s : State) : Host.Outcome State Fault Refusal :=
  .next (if s.railsOn && s.autoRemap then s.remapRow n.val e.val bad else s)

/-- AUTO_REMAP (R121): a write of MEM_CFG that sets AUTO_REMAP remaps every listed row with REMAPPED 0, in ascending entry
order; `bad` gives the lines that could not be corrected as 16 × (1,024 × stack + entry) + line. -/
def execAutoRemap (v : Word) (bad : List Nat) (s : State) : Host.Outcome State Fault Refusal :=
  .next (if !s.railsOn || s.setupLocked || !bitAt v.toNat 12 || s.autoRemap then s
    else
      let s := s.setReg offMemCfg 0x1818 (v.toNat % 0x2000)
      (List.range 12).foldl (fun s n =>
        ((s.stack n).badRows.map (·.1)).foldl (fun s e =>
          s.remapRow n e ((bad.filter (fun b => b / 16 == 1024 * n + e)).map (· % 16))) s) s)

/-- The stack-local byte whose accesses a byte of a spare row serves: that of the row remapped to the spare, else its own (R119,
R121). -/
def Stack.servesFor (k : Stack) (l : Nat) : Nat :=
  if !spareL l then l else
  match List.find? (fun e => brValid e.2 && brRemapped e.2 && decide (rowKey (e.1 / 16) (16 + e.1 % 16) 24575 = rowKey (pcOf l) (bankOf l) (rowOfL l))) k.badRows with
  | some (e, w) => rowLine e w (((l / 16384) % 4) * 4 + (l / 64) % 4)
  | none => l

/-- PATROL_SCRUB (R119): the next line is read, corrected and counted; a line of a spare row is that of the row it serves. It takes
only a slot that no request claims, and waits for the copy of a row. -/
def execPatrolScrub (n : PartNo) (err : LineErr) (s : State) : Host.Outcome State Fault Refusal :=
  let k := s.stack n.val
  let st := (s.psw n.val).state
  .next (if !s.railsOn || s.scrubHours == 0 || k.selfRef || !k.queue.isEmpty
      || !(st == .idle || st == .active || st == .fenced) || s.rowCopying n.val (k.servesFor k.scrubPos) then s
    else
      let l := k.scrubPos
      let s := if err = .retrainFailed then s.channelFails n.val l else (s.lineRead n.val (k.servesFor l) 0 err).1
      s.setStack n.val { s.stack n.val with scrubPos := if l + 64 < 48 * giB then l + 64 else 0 })

/-- REFRESH (R126): one bank of one pseudo-channel is refreshed by the controller. -/
def execRefresh (n : PartNo) (bank : Fin 2048) (s : State) : Host.Outcome State Fault Refusal :=
  let k := s.stack n.val
  .next (if !s.railsOn || k.selfRef then s
    else s.setStack n.val { k with refreshed := SMap.set k.refreshed bank.val s.now })

/-- SELF_REFRESH_EXIT (R127): an access makes the controller of a Parked partition leave self-refresh. -/
def execSelfRefreshExit (n : PartNo) (s : State) : Host.Outcome State Fault Refusal :=
  let k := s.stack n.val
  .next (if s.railsOn && k.selfRef && (!k.queue.isEmpty || !k.streams.isEmpty) then
    s.setStack n.val { k with selfRef := false, lastUse := s.now } else s)

/-- SELF_REFRESH_ENTRY (R127): after 50 µs without an access the stack of a Parked partition re-enters self-refresh. -/
def execSelfRefreshEntry (n : PartNo) (s : State) : Host.Outcome State Fault Refusal :=
  let k := s.stack n.val
  .next (if s.railsOn && (s.psw n.val).state == .parked && !k.selfRef && k.queue.isEmpty && k.streams.isEmpty
      && decide (k.lastUse + 50 * fcPerUs ≤ s.now) then
    s.setStack n.val { k with selfRef := true } else s)

end Sys2Proof.Machine
end

