-- ==== Sys2Proof/Machine/Numbers.lean ====
section
/-!
DEFINITION. Number formats and exact arithmetic (03): a number is a signed dyadic, an infinity or a NaN; the element
formats of R66 to R71, rounding to nearest even (R86, R96), block scales (R68, R72), the bounded approximations
(R100), and the bit streams that hold elements (R67).
-/

namespace Sys2Proof.Machine

/-- A decoded value: (−1)^neg × m × 2^e, an infinity, or a NaN. -/
inductive Num where
  | fin (neg : Bool) (m : Nat) (e : Int)
  | inf (neg : Bool)
  | nan
deriving DecidableEq, Repr

def Num.zero : Num := .fin false 0 0

def Num.finite : Num → Bool
  | .fin .. => true
  | _ => false

/-! ### Exact arithmetic on dyadics -/

/-- m × 2^e as an integer multiple of 2^q, for q ≤ e. -/
def alignTo (m : Nat) (e q : Int) : Nat := m * 2 ^ (e - q).toNat

def signed (neg : Bool) (m : Nat) : Int := if neg then -(m : Int) else m

/-- The sum of two signed dyadics; an exact zero keeps a common sign, else it is +0. -/
def addFin (n1 : Bool) (m1 : Nat) (e1 : Int) (n2 : Bool) (m2 : Nat) (e2 : Int) : Num :=
  let q := min e1 e2
  let v := signed n1 (alignTo m1 e1 q) + signed n2 (alignTo m2 e2 q)
  if v = 0 then .fin (n1 && n2) 0 q else .fin (decide (v < 0)) v.natAbs q

/-- Exact sum; opposite infinities give NaN (invalid). -/
def Num.add : Num → Num → Num
  | .nan, _ => .nan
  | _, .nan => .nan
  | .inf a, .inf b => if a = b then .inf a else .nan
  | .inf a, _ => .inf a
  | _, .inf b => .inf b
  | .fin n1 m1 e1, .fin n2 m2 e2 => addFin n1 m1 e1 n2 m2 e2

def Num.negate : Num → Num
  | .fin n m e => .fin (!n) m e
  | .inf n => .inf (!n)
  | .nan => .nan

/-- Exact product; zero times infinity gives NaN (invalid). -/
def Num.mul : Num → Num → Num
  | .nan, _ => .nan
  | _, .nan => .nan
  | .inf a, .inf b => .inf (a != b)
  | .inf a, .fin n m _ => if m = 0 then .nan else .inf (a != n)
  | .fin n m _, .inf b => if m = 0 then .nan else .inf (n != b)
  | .fin n1 m1 e1, .fin n2 m2 e2 => .fin (n1 != n2) (m1 * m2) (e1 + e2)

/-- Compares magnitudes m1 × 2^e1 and m2 × 2^e2. -/
def magLe (m1 : Nat) (e1 : Int) (m2 : Nat) (e2 : Int) : Bool :=
  let q := min e1 e2
  decide (alignTo m1 e1 q ≤ alignTo m2 e2 q)

def magLt (m1 : Nat) (e1 : Int) (m2 : Nat) (e2 : Int) : Bool := !magLe m2 e2 m1 e1

/-- a ≤ b for numbers that are not NaN, with −0 below +0 (R98). -/
def Num.le : Num → Num → Bool
  | .inf true, _ => true
  | _, .inf false => true
  | .inf false, _ => false
  | _, .inf true => false
  | .fin n1 m1 e1, .fin n2 m2 e2 =>
    match n1, n2 with
    | false, false => magLe m1 e1 m2 e2
    | true, true => magLe m2 e2 m1 e1
    | true, false => true
    | false, true => false
  | _, _ => false

/-- The larger; a NaN gives NaN (R98). [DEDUCED: log 42] -/
def Num.maxOf (a b : Num) : Num := if a = .nan ∨ b = .nan then .nan else if a.le b then b else a
/-- The smaller; a NaN gives NaN. [DEDUCED: log 42] -/
def Num.minOf (a b : Num) : Num := if a = .nan ∨ b = .nan then .nan else if a.le b then a else b

/-! ### Formats (R66, R69, R70) -/

/-- A format: element width, mantissa bits, exponent of its least subnormal bit, code of its largest finite magnitude,
whether it has infinities, its NaN code (none where it has none), whether it is a two's-complement integer. -/
structure Fmt where
  width : Nat
  mb    : Nat
  emin  : Int
  maxC  : Nat
  hasInf : Bool
  nanC  : Option Nat
  isInt : Bool
deriving DecidableEq, Repr

def fInt4 : Fmt := ⟨4, 30, 0, 7, false, none, true⟩
def fInt8 : Fmt := ⟨8, 30, 0, 127, false, none, true⟩
def fFp4 : Fmt := ⟨4, 1, -1, 7, false, none, false⟩
def fE3M2 : Fmt := ⟨6, 2, -4, 0x1F, false, none, false⟩
def fE2M3 : Fmt := ⟨6, 3, -3, 0x1F, false, none, false⟩
def fE4M3 : Fmt := ⟨8, 3, -9, 0x7E, false, some 0x7F, false⟩
def fE5M2 : Fmt := ⟨8, 2, -16, 0x7B, true, some 0x7E, false⟩
def fBf16 : Fmt := ⟨16, 7, -133, 0x7F7F, true, some 0x7FC0, false⟩
def fFp32 : Fmt := ⟨32, 23, -149, 0x7F7FFFFF, true, some 0x7FC00000, false⟩

/-- The element format of a format code; CB.FP4 and CB.INT4 elements are FP4 and INT4. -/
def fmtOf (c : Nat) : Option Fmt :=
  match c with
  | 1 => some fInt4
  | 2 => some fInt8
  | 3 => some fFp4
  | 4 => some fE3M2
  | 5 => some fE2M3
  | 6 => some fE4M3
  | 7 => some fE5M2
  | 8 => some fBf16
  | 9 => some fFp4
  | 10 => some fInt4
  | _ => none

/-- The magnitude that a code below the sign bit stands for: significand and exponent. -/
def Fmt.magOf (f : Fmt) (c : Nat) : Nat × Int :=
  let x := c / 2 ^ f.mb
  let m := c % 2 ^ f.mb
  if x = 0 then (m, f.emin) else (2 ^ f.mb + m, f.emin + (x : Int) - 1)

/-- The value of an element's bits. -/
def Fmt.decode (f : Fmt) (w : Nat) : Num :=
  if f.isInt then
    let v := sext f.width w
    .fin (decide (v < 0)) v.natAbs 0
  else
    let neg := bitAt w (f.width - 1)
    let c := w % 2 ^ (f.width - 1)
    if c ≤ f.maxC then
      let (m, e) := f.magOf c
      .fin neg m e
    else if f.hasInf ∧ c = f.maxC + 1 then .inf neg
    else .nan

/-! ### Rounding (R86, R96) -/

/-- m × 2^d rounded to an integer, ties to even, and whether it was inexact. -/
def rneScale (m : Nat) (d : Int) : Nat × Bool :=
  if 0 ≤ d then (m * 2 ^ d.toNat, false)
  else
    let k := (-d).toNat
    let lo := m / 2 ^ k
    let r := m % 2 ^ k
    let h := 2 ^ (k - 1)
    (if h < r ∨ (r = h ∧ lo % 2 = 1) then lo + 1 else lo, decide (r ≠ 0))

/-- The exponent of the unit in the last place for a magnitude. -/
def Fmt.quantum (f : Fmt) (m : Nat) (e : Int) : Int :=
  if m = 0 then f.emin else max ((Nat.log2 m : Int) + e - f.mb) f.emin

/-- The code of a magnitude rounded to nearest even, without an upper limit, and whether it was inexact. -/
def Fmt.round (f : Fmt) (m : Nat) (e : Int) : Nat × Bool :=
  let q := f.quantum m e
  let (k, inx) := rneScale m (e - q)
  ((q - f.emin).toNat * 2 ^ f.mb + k, inx)

/-- The code of the largest magnitude not above m × 2^e, and whether it is exact. -/
def Fmt.floor (f : Fmt) (m : Nat) (e : Int) : Nat × Bool :=
  let q := f.quantum m e
  let d := e - q
  if 0 ≤ d then ((q - f.emin).toNat * 2 ^ f.mb + m * 2 ^ d.toNat, true)
  else
    let k := (-d).toNat
    ((q - f.emin).toNat * 2 ^ f.mb + m / 2 ^ k, decide (m % 2 ^ k = 0))

/-- Bits of a magnitude code with a sign. -/
def Fmt.withSign (f : Fmt) (neg : Bool) (c : Nat) : Nat :=
  if f.isInt then (if neg then (2 ^ f.width - c) % 2 ^ f.width else c)
  else c + (if neg then 2 ^ (f.width - 1) else 0)

/-- A result: bits and the sticky bits of ASTAT that it sets. -/
abbrev Res := Nat × BitVec 8

/-- [DEDUCED: log 41] -/
def stickyIf (b : Bool) (f : BitVec 8) : BitVec 8 := if b then f else 0

/-- UFL: a nonzero result written inexactly below the normal range, or as zero (R103). [DEDUCED: log 41] -/
def Fmt.flags (f : Fmt) (m c : Nat) (inx : Bool) : BitVec 8 :=
  stickyIf inx flagINX ||| stickyIf (inx && decide (m ≠ 0 ∧ c < 2 ^ f.mb)) flagUFL

/-- Canonical NaN, with NAN set. -/
def Fmt.nanRes (f : Fmt) : Res := (f.nanC.getD 0, flagNAN)

/-- Rounds as IEEE 754 (R96): overflow gives an infinity with OVF and INX. -/
def Fmt.ieee (f : Fmt) : Num → Res
  | .nan => f.nanRes
  | .inf neg => (f.withSign neg (f.maxC + 1), 0)
  | .fin neg m e =>
    let (c, inx) := f.round m e
    if f.maxC < c then (f.withSign neg (f.maxC + 1), flagINX ||| flagOVF)
    else (f.withSign neg c, f.flags m c inx)

/-- Rounds as the tensor unit does (R86): saturates to the largest finite value with OVF; a zero is +0. -/
def Fmt.tensor (f : Fmt) (neg : Bool) (m : Nat) (e : Int) : Res :=
  let (c, inx) := f.round m e
  if f.maxC < c then (f.withSign neg f.maxC, flagINX ||| flagOVF)
  else (if c = 0 then 0 else f.withSign neg c, f.flags m c inx)

/-! ### FP32 operations (R96) -/

def f32 (w : Nat) : Num := fFp32.decode w

/-- An FP32 operation on decoded operands, rounded once. [DEDUCED: log 40] -/
def f32op (x : Num) : Res := fFp32.ieee x

def f32add (a b : Nat) : Res := f32op ((f32 a).add (f32 b))
def f32mul (a b : Nat) : Res := f32op ((f32 a).mul (f32 b))

/-- The larger of two FP32 words. -/
def f32max (a b : Nat) : Res := f32op ((f32 a).maxOf (f32 b))

/-! ### Bounded approximations (R100) -/

/-- One of the codes within the bound around the exact value: `lo` is the code of the largest magnitude not above it. A bound
of 2 units leaves lo − 1 to lo + 2, a bound of 1 leaves lo and lo + 1; an exact value leaves one more below.
[DESIGN CHOICE: log 39] -/
def pickCode (bound lo : Nat) (exact : Bool) (k : Nat) : Nat :=
  let first := lo - (bound - 1) - (if exact then 1 else 0)
  first + k % (2 * bound + (if exact then 1 else 0))

/-- The chosen code of format `f`, kept in the normal range from below; above the largest finite it is an infinity.
[DESIGN CHOICE: log 39] -/
def Fmt.approx (f : Fmt) (neg : Bool) (bound lo : Nat) (exact : Bool) (k : Nat) : Res :=
  let c := max (pickCode bound lo exact k) (2 ^ f.mb)
  if f.maxC < c then (f.withSign neg (f.maxC + 1), flagINX ||| flagOVF)
  else (f.withSign neg c, stickyIf (!exact || c != lo) flagINX)

/-- The series of e^x for 0 ≤ x, in fixed point with 200 fraction bits. -/
def expSeries (x : Nat) : Nat → Nat → Nat → Nat → Nat
  | 0, _, _, acc => acc
  | fuel + 1, i, term, acc =>
    let t := term * x / 2 ^ 200 / (i + 1)
    expSeries x fuel (i + 1) t (acc + t)

/-- e^x with 200 fraction bits, for x = ±m × 2^e. -/
def expFixed (neg : Bool) (m : Nat) (e : Int) : Nat :=
  let x := if 0 ≤ e + 200 then m * 2 ^ (e + 200).toNat else m / 2 ^ (-(e + 200)).toNat
  let v := expSeries x 400 0 (2 ^ 200) (2 ^ 200)
  if neg then 2 ^ 400 / v else v

/-- VEXP in format `f` (FP32 bound 2, BF16 bound 1). [DESIGN CHOICE: log 39] -/
def Fmt.vexp (f : Fmt) (bound k : Nat) : Num → Res
  | .nan => f.nanRes
  | .inf true => (0, 0)
  | .inf false => (f.maxC + 1, 0)
  | .fin neg m e =>
    if m = 0 then f.approx false bound (f.floor 1 0).1 true k
    else if !neg && magLt 8872 0 (m * 100) e then (f.maxC + 1, flagINX ||| flagOVF)
    else if neg && magLe 200 0 m e then (0, flagINX ||| flagUFL)
    else
      let v := expFixed neg m e
      if magLt v (-200) 1 (-126) then (0, flagINX ||| flagUFL)
      else f.approx false bound (f.floor v (-200)).1 false k

/-- VRCP. [DESIGN CHOICE: log 39] -/
def Fmt.vrcp (f : Fmt) (k : Nat) : Num → Res
  | .nan => f.nanRes
  | .inf neg => (f.withSign neg 0, 0)
  | .fin neg m e =>
    if m = 0 then (f.withSign neg (f.maxC + 1), flagDIVZ)
    else
      let v := 2 ^ 200 / m
      let exact := decide (2 ^ 200 % m = 0)
      if magLt 1 126 m e then (f.withSign neg 0, flagINX ||| flagUFL)
      else
        let (lo, ex) := f.floor v (-200 - e)
        if f.maxC < lo then (f.withSign neg (f.maxC + 1), flagINX ||| flagOVF)
        else f.approx neg 1 lo (exact && ex) k

/-- VRSQ. [DESIGN CHOICE: log 39] -/
def Fmt.vrsq (f : Fmt) (bound k : Nat) : Num → Res
  | .nan => f.nanRes
  | .inf true => f.nanRes
  | .inf false => (0, 0)
  | .fin neg m e =>
    if m = 0 then (f.withSign neg (f.maxC + 1), flagDIVZ)
    else if neg then f.nanRes
    else
      -- 1 / √(m × 2^e) = √(2^600 / m') × 2^(−300 − e'/2) with e' even
      let m' := if e % 2 = 0 then m else 2 * m
      let e' := if e % 2 = 0 then e else e - 1
      let r := 2 ^ 600 / m'
      let v := Nat.sqrt r
      let exact := decide (2 ^ 600 % m' = 0 ∧ v * v = r)
      let (lo, ex) := f.floor v (-300 - e' / 2)
      f.approx false bound lo (exact && ex) k

/-! ### Bit streams (R67) -/

/-- Element `i` of width `w ≤ 16` of a plane row that starts at byte `off`. -/
def Memory.element (m : Memory) (off w i : Nat) : Nat :=
  let b := off + w * i / 8
  let s := w * i % 8
  ((m.read b).toNat + 256 * (if s + w ≤ 8 then 0 else (m.read (b + 1)).toNat) +
    65536 * (if s + w ≤ 16 then 0 else (m.read (b + 2)).toNat)) / 2 ^ s % 2 ^ w

/-- Elements of width `w` packed into bytes. -/
def packBits (w : Nat) (l : List Nat) : List Byte :=
  leBytes ((w * l.length + 7) / 8) (l.foldr (fun x a => x % 2 ^ w + 2 ^ w * a) 0)

/-! ### Block-scale encode (R72) -/

/-- The smallest integer s with m × 2^e ≤ fmax × 2^s. -/
def scaleFor (f : Fmt) (m : Nat) (e : Int) : Int :=
  let (fm, fe) := f.magOf f.maxC
  let s0 := (Nat.log2 m : Int) + e - ((Nat.log2 fm : Int) + fe)
  if magLe m e fm (fe + s0) then s0 else s0 + 1

/-- Rounds x / 2^(S − 127) to F; saturation sets SAT, a nonzero value that rounds to zero sets UFL.
[DEDUCED: log 45] -/
def encodeElem (f : Fmt) (scale : Nat) (x : Num) : Nat × BitVec 8 :=
  match x with
  | .fin neg m e =>
    let (c, inx) := f.round m (e - ((scale : Int) - 127))
    let fl := stickyIf inx flagINX
    if f.maxC < c then (f.withSign neg f.maxC, flagINX ||| flagSAT)
    else (if c = 0 ∧ f.isInt then 0 else f.withSign neg c, fl ||| stickyIf (decide (m ≠ 0 ∧ c = 0)) flagUFL)
  | _ => (0, 0)

/-- One block: the scale byte, the elements, the sticky bits. -/
def encodeBlock (f : Fmt) (l : List Num) : Nat × List Nat × BitVec 8 :=
  if l.any (fun x => !x.finite) then (0xFF, l.map (fun _ => 0), flagNAN)
  else
    let top := l.foldl (fun (a : Nat × Int) x => match x with
      | .fin _ m e => if magLt a.1 a.2 m e then (m, e) else a
      | _ => a) (0, 0)
    if top.1 = 0 then (0, l.map (fun _ => 0), 0)
    else
      let s := max 0 (min 254 (127 + scaleFor f top.1 top.2))
      let r := l.map (encodeElem f s.toNat)
      (s.toNat, r.map (·.1), r.foldl (fun a x => a ||| x.2) 0)

/-- A block element's value: its decoded value times 2^(S − 127); a NaN-block's elements are NaN (R68). -/
def scaleNum (scale : Nat) (x : Num) : Num :=
  if scale = 0xFF then .nan else
  match x with
  | .fin neg m e => .fin neg m (e + ((scale : Int) - 127))
  | y => y

/-! ### WS48 (R89 to R93) -/

/-- ⌊±m × 2^d⌋, and whether a nonzero bit was dropped. -/
def floorScale (neg : Bool) (m : Nat) (d : Int) : Int × Bool :=
  if 0 ≤ d then (signed neg (m * 2 ^ d.toNat), false)
  else
    let v := signed neg m
    (v / (2 ^ (-d).toNat : Nat), decide (m % 2 ^ (-d).toNat ≠ 0))

/-- The least G_b from 0 on with m × 2^e < 2^(G_b − 127). -/
def ownByteOf (m : Nat) (e : Int) : Nat :=
  if m = 0 then 0 else ((Nat.log2 m : Int) + e + 1 + 127).toNat

/-- The own anchor byte of a group, with NAN or OVF (R90); a group that calls for both sets NAN alone. [DESIGN CHOICE: log 199] -/
def ownAnchor (l : List Num) : Nat × BitVec 8 :=
  if l.any (fun x => !x.finite) then (0xFF, flagNAN)
  else
    let g := l.foldl (fun a x => match x with
      | .fin _ m e => max a (ownByteOf m e)
      | _ => a) 0
    if 254 < g then (0xFF, flagOVF) else (g, 0)

/-- A value at a group anchor byte (R91). -/
def wsEncode (gb : Nat) (x : Num) : Int × Bool :=
  match x with
  | .fin neg m e => floorScale neg m (e + 31 - ((gb : Int) - 127))
  | _ => (0, false)

/-- The value of a WS48 element (R90). -/
def wsValue (gb : Nat) (v : Int) : Num :=
  if gb = 0xFF then .nan else .fin (decide (v < 0)) v.natAbs ((gb : Int) - 127 - 31)

/-- Addition of two elements: saturates to 48 bits with WSOVF (R92). -/
def wsAddElem (a b : Int) : Int × BitVec 8 :=
  let v := a + b
  if v < -(2 ^ 47) then (-(2 ^ 47), flagWSOVF) else if 2 ^ 47 ≤ v then (2 ^ 47 - 1, flagWSOVF) else (v, 0)

/-- A signed element in 6 bytes. -/
def ws48Bytes (v : Int) : List Byte := leBytes 6 (BitVec.ofInt 48 v).toNat

/-- The groups of a WS48 buffer of `n` elements: anchor byte and 16 elements each (R89). -/
def wsRead (b : List Byte) (n : Nat) : List (Nat × List Int) :=
  (List.range (n / 16)).map (fun g =>
    (fieldLE b (6 * n + g) 1, (List.range 16).map (fun i => sext 48 (fieldLE b (96 * g + 6 * i) 6))))

/-- A buffer's bytes; a NaN-group is written as zeros (R90). -/
def wsWrite (gs : List (Nat × List Int)) : List Byte :=
  (gs.flatMap (fun g => if g.1 = 0xFF then List.replicate 96 (0 : Byte) else g.2.flatMap ws48Bytes)) ++
    gs.map (fun g => BitVec.ofNat 8 g.1)

/-- Re-anchoring a group to a byte not below its own (R92). -/
def wsAlign (gb : Nat) (g : Nat × List Int) : (Nat × List Int) × BitVec 8 :=
  if gb = 0xFF then ((0xFF, g.2.map (fun _ => 0)), 0)
  else if g.1 = 0xFF then (g, 0)
  else
    let d := 2 ^ (gb - g.1)
    ((gb, g.2.map (fun v => v / (d : Nat))),
      stickyIf (g.2.any (fun v => decide (v % (d : Nat) ≠ 0))) flagTRUNC)

end Sys2Proof.Machine
end

