-- ==== Sys2Proof/Machine/Tensor.lean ====
section
/-!
DEFINITION. Tensor instructions as computations (03): the descriptor and its checks (R76 to R79, R527), anchors and
products (R81 to R85), and the exact sums rounded or encoded at write-back (R86, R91).
-/

namespace Sys2Proof.Machine

/-- The fields of a tensor descriptor (R76). -/
structure TDesc where
  waddr : Nat
  wscale : Nat
  aaddr : Nat
  ascale : Nat
  oaddr : Nat
  m : Nat
  n : Nat
  k : Nat
  wfmt : Nat
  afmt : Nat
  ofmt : Nat
  wt : Bool
  wstride : Nat
  astride : Nat
  ostride : Nat
  rsvd : Nat               -- every reserved byte and bit, as a sum
deriving DecidableEq, Repr

def tdescOf (b : List Byte) : TDesc :=
  { waddr := fieldLE b 0 4, wscale := fieldLE b 4 4, aaddr := fieldLE b 8 4, ascale := fieldLE b 12 4,
    oaddr := fieldLE b 16 4, m := fieldLE b 24 2, n := fieldLE b 26 2, k := fieldLE b 28 4, wfmt := fieldLE b 32 1,
    afmt := fieldLE b 33 1, ofmt := fieldLE b 34 1, wt := bitAt (fieldLE b 35 1) 0, wstride := fieldLE b 36 4,
    astride := fieldLE b 40 4, ostride := fieldLE b 44 4,
    rsvd := fieldLE b 20 4 + fieldLE b 35 1 / 2 + fieldLE b 48 16 }

/-- The charge class of a weight format, by its cost in cu (R78, 12 R359); 0 where the format names no class. -/
def classCost (wfmt : Nat) : Nat :=
  if wfmt = 1 ∨ wfmt = 3 ∨ wfmt = 9 ∨ wfmt = 10 then 64
  else if wfmt = 2 ∨ wfmt = 4 ∨ wfmt = 5 ∨ wfmt = 6 ∨ wfmt = 7 then 48
  else if wfmt = 8 then 32 else 0

def weightFmt (c : Nat) : Bool := decide (1 ≤ c ∧ c ≤ 10)
def actFmt (c : Nat) : Bool := c == 2 || c == 6 || c == 7 || c == 8
def outFmt (c : Nat) : Bool := c == 8 || c == 0x10 || c == 0x11
def cbFmt (c : Nat) : Bool := c == 9 || c == 10

/-- Elements in one weight block. -/
def TDesc.wblock (d : TDesc) : Nat := if cbFmt d.wfmt then 64 else 32

def fmtWidth (c : Nat) : Nat := ((fmtOf c).map (·.width)).getD 0

/-- Weight rows as stored: their number and bytes in each. -/
def TDesc.wrows (d : TDesc) : Nat × Nat :=
  if d.wt then (d.k, fmtWidth d.wfmt * d.n / 8) else (d.n, fmtWidth d.wfmt * d.k / 8)

/-- Bytes in one weight scale row. -/
def TDesc.wsrow (d : TDesc) : Nat := if d.wt then d.n / 32 else d.k / d.wblock

/-- Bytes of one output row (R79, R89). [DEDUCED: log 48] -/
def TDesc.orow (d : TDesc) : Nat :=
  if d.ofmt = 8 then 2 * d.n else if d.ofmt = 0x10 then 4 * d.n else 6 * d.n + d.n / 16

/-- Rows of a strided plane, as ranges. -/
def planeRows (base stride rows len : Nat) : List (Nat × Nat) := (List.range rows).map (fun i => (base + i * stride, len))

def TDesc.wplane (d : TDesc) : List (Nat × Nat) := planeRows d.waddr d.wstride d.wrows.1 d.wrows.2
def TDesc.aplane (d : TDesc) : List (Nat × Nat) := planeRows d.aaddr d.astride d.m (fmtWidth d.afmt * d.k / 8)
def TDesc.oplane (d : TDesc) : List (Nat × Nat) := planeRows d.oaddr d.ostride d.m d.orow
def TDesc.scales (d : TDesc) : List (Nat × Nat) :=
  if d.wfmt = 8 then [] else [(d.wscale, d.wrows.1 * d.wsrow), (d.ascale, d.m * (d.k / 32))]

/-- What the anchor phase reads (R80). -/
def TDesc.anchorReads (d : TDesc) : List (Nat × Nat) :=
  if d.wfmt = 8 then d.wplane ++ d.aplane else d.scales

/-- Every operand byte. -/
def TDesc.reads (d : TDesc) : List (Nat × Nat) := d.scales ++ d.wplane ++ d.aplane

/-- The bounds of an anchor (R82). -/
def anchorOk (a : Int) : Bool := decide (-250 ≤ a ∧ a ≤ 286)

/-- Checks 2 to 6 of R527; `anchor` is a given anchor, `word` the offset of a TANC result word. A scale plane that BF16 must leave 0
(R76) counts with the reserved fields, in check 2. [DEDUCED: log 48, DESIGN CHOICE: log 179] -/
def TDesc.check (d : TDesc) (anchor : Option Int) (word : Option Word) : Option Nat :=
  let kmul := if cbFmt d.wfmt then 64 else 32
  if d.rsvd ≠ 0 ∨ !weightFmt d.wfmt ∨ !actFmt d.afmt ∨ !outFmt d.ofmt ∨ (d.wt && cbFmt d.wfmt) ∨
      (d.wfmt = 8 ∧ d.wscale ≠ 0) ∨ (d.afmt = 8 ∧ d.ascale ≠ 0) then some 1
  else if (d.wfmt = 8) ≠ (d.afmt = 8) then some 4
  else if d.m = 0 ∨ 4096 < d.m ∨ d.n = 0 ∨ 4096 < d.n ∨ d.k = 0 ∨ d.k % kmul ≠ 0 ∨
      (if cbFmt d.wfmt then 8388544 else 8388576) < d.k ∨ (d.wt ∧ d.n % 32 ≠ 0) ∨
      (d.ofmt = 0x11 ∧ (d.n % 16 ≠ 0 ∨ d.ostride < (d.orow + 7) / 8 * 8)) ∨
      anchor.any (fun a => !anchorOk a) then some 1
  else if d.waddr % 8 ≠ 0 ∨ d.aaddr % 8 ≠ 0 ∨ d.wstride % 8 ≠ 0 ∨ d.astride % 8 ≠ 0 ∨ d.oaddr % 8 ≠ 0 ∨
      d.ostride % 8 ≠ 0 ∨ word.any (fun w => w.toNat % 8 != 0) then some 7
  else if (d.reads ++ d.oplane).any (fun r => !inProg r.1 r.2) ||
      word.any (fun w => !inProg w.toNat 8) then some 2
  else none

/-- Check 1 of R527. [DEDUCED: log 49] -/
def descCheck (off : Word) : Option Nat :=
  if off.toNat % 64 ≠ 0 then some 7 else if !inProg off.toNat 64 then some 2 else none

/-! ### Operand values -/

/-- The weight W[n][k] with its block scale. -/
def TDesc.wval (d : TDesc) (mem : Memory) (n k : Nat) : Num :=
  match fmtOf d.wfmt with
  | none => .nan
  | some f =>
    let (row, i) := if d.wt then (k, n) else (n, k)
    let x := f.decode (mem.element (d.waddr + row * d.wstride) f.width i)
    if d.wfmt = 8 then x
    else scaleNum (mem.read (d.wscale + row * d.wsrow + i / (if d.wt then 32 else d.wblock))).toNat x

/-- The activation A[m][k] with its block scale. -/
def TDesc.aval (d : TDesc) (mem : Memory) (m k : Nat) : Num :=
  match fmtOf d.afmt with
  | none => .nan
  | some f =>
    let x := f.decode (mem.element (d.aaddr + m * d.astride) f.width k)
    if d.afmt = 8 then x else scaleNum (mem.read (d.ascale + m * (d.k / 32) + k / 32)).toNat x

/-! ### Bound exponents and anchors (R81, R82) -/

def boundC (fmt : Nat) : Int :=
  match fmt with
  | 4 => 5
  | 2 => 7
  | 6 => 9
  | 7 => 16
  | _ => 3

/-- The bound exponent of a run of BF16 elements. -/
def bf16Bound (l : List Nat) : Int :=
  l.foldl (fun a w =>
    let x := bits w 14 7
    if x = 255 then a else max a ((max x 1 : Nat) - 126)) (-125)

/-- The bound exponent of a scaled block; a NaN-block has none. -/
def scaleBound (fmt scale : Nat) : Option Int := if scale = 0xFF then none else some ((scale : Int) - 127 + boundC fmt)

/-- The bound exponent of the weight block that holds W[n][k]. -/
def TDesc.wbound (d : TDesc) (mem : Memory) (n k : Nat) : Option Int :=
  let (row, i) := if d.wt then (k, n) else (n, k)
  let bl := if d.wt then 32 else d.wblock
  if d.wfmt = 8 then
    some (bf16Bound ((List.range 32).map (fun j => mem.element (d.waddr + row * d.wstride) 16 (i / 32 * 32 + j))))
  else scaleBound d.wfmt (mem.read (d.wscale + row * d.wsrow + i / bl)).toNat

/-- The bound exponent of the activation block that holds A[m][k]. -/
def TDesc.abound (d : TDesc) (mem : Memory) (m k : Nat) : Option Int :=
  if d.afmt = 8 then
    some (bf16Bound ((List.range 32).map (fun j => mem.element (d.aaddr + m * d.astride) 16 (k / 32 * 32 + j))))
  else scaleBound d.afmt (mem.read (d.ascale + m * (d.k / 32) + k / 32)).toNat

/-- The largest bound of a list, −125 where no block has one. -/
def maxBound (l : List (Option Int)) : Int :=
  (l.foldl (fun (a : Option Int) b => match a, b with
    | none, b => b
    | a, none => a
    | some x, some y => some (max x y)) none).getD (-125)

/-- One (n, k) in each weight block, one (m, k) in each activation block. -/
def TDesc.wblocks (d : TDesc) : List (Nat × Nat) :=
  if d.wt then (List.range d.k).flatMap (fun k => (List.range (d.n / 32)).map (fun b => (32 * b, k)))
  else (List.range d.n).flatMap (fun n => (List.range (d.k / d.wblock)).map (fun b => (n, d.wblock * b)))

def TDesc.ablocks (d : TDesc) : List (Nat × Nat) :=
  (List.range d.m).flatMap (fun m => (List.range (d.k / 32)).map (fun b => (m, 32 * b)))

/-- The anchor that TMM computes (R82). -/
def TDesc.anchor (d : TDesc) (mem : Memory) : Int :=
  maxBound (d.wblocks.map (fun b => d.wbound mem b.1 b.2)) + maxBound (d.ablocks.map (fun b => d.abound mem b.1 b.2))

/-- Two blocks that meet in a product of the pass over rows `ms` and columns `ns` have bounds above the anchor in force (R82). -/
def TDesc.exceeds (d : TDesc) (mem : Memory) (a : Int) (ms ns : List Nat) : Bool :=
  (List.range d.k).any (fun k => ns.any (fun n => match d.wbound mem n k with
    | none => false
    | some bw => ms.any (fun m => match d.abound mem m k with
      | none => false
      | some ba => decide (a < bw + ba))))

/-! ### Sums and results (R83 to R86, R91) -/

/-- ΣP for one output element, whether a product had a non-finite factor, whether bits were dropped. -/
def TDesc.sum (d : TDesc) (mem : Memory) (a : Int) (m n : Nat) : Int × Bool × Bool :=
  (List.range d.k).foldl (fun (acc : Int × Bool × Bool) k =>
    match d.aval mem m k, d.wval mem n k with
    | .fin n1 m1 e1, .fin n2 m2 e2 =>
      let (p, t) := floorScale (n1 != n2) (m1 * m2) (e1 + e2 + 40 - a)
      (acc.1 + p, acc.2.1, acc.2.2 || t)
    | _, _ => (acc.1, true, acc.2.2)) (0, false, false)

/-- An output element in BF16 or FP32; every finite product that loses a bit sets TRUNC, beside a non-finite one too (R83). -/
def outElem (f : Fmt) (a : Int) (r : Int × Bool × Bool) : Res :=
  if r.2.1 then (f.nanRes.1, f.nanRes.2 ||| stickyIf r.2.2 flagTRUNC)
  else
    let (v, fl) := f.tensor (decide (r.1 < 0)) r.1.natAbs (a - 40)
    (v, fl ||| stickyIf r.2.2 flagTRUNC)

/-- A group of 16 output elements in WS48: anchor byte, elements, sticky bits (R90, R91). -/
def outGroup (a : Int) (l : List (Int × Bool × Bool)) : Nat × List Int × BitVec 8 :=
  let xs := l.map (fun r => if r.2.1 then Num.nan else .fin (decide (r.1 < 0)) r.1.natAbs (a - 40))
  let (gb, fl) := ownAnchor xs
  let tr := stickyIf (l.any (fun r => r.2.2)) flagTRUNC
  if gb = 0xFF then (gb, l.map (fun _ => 0), fl ||| tr)
  else
    let es := xs.map (wsEncode gb)
    (gb, es.map (·.1), fl ||| tr ||| stickyIf (es.any (·.2)) flagTRUNC)

/-- Bytes at an offset, as cells. -/
def cellsAt (off : Nat) (b : List Byte) : List (Nat × Byte) := b.mapIdx (fun i x => (off + i, x))

/-- Tiles of a range in steps of `w`. -/
def stepRanges (n w : Nat) : List (List Nat) :=
  (List.range ((n + w - 1) / w)).map (fun i => (List.range (min w (n - i * w))).map (fun j => i * w + j))

/-- The passes: 32 rows by 64 columns, n-tile within m-tile (R78). -/
def TDesc.passes (d : TDesc) : List (List Nat × List Nat) :=
  (stepRanges d.m 32).flatMap (fun ms => (stepRanges d.n 64).map (fun ns => (ms, ns)))

/-- The output of one pass, and its sticky bits. Rows of the output that overlap one another are written in this order.
[DESIGN CHOICE: log 180] -/
def TDesc.passOut (d : TDesc) (mem : Memory) (a : Int) (ms ns : List Nat) : List (Nat × Byte) × BitVec 8 :=
  ms.foldl (fun acc m =>
    if d.ofmt = 0x11 then
      (stepRanges ns.length 16).foldl (fun acc gi =>
        let n0 := ns.headD 0 + gi.headD 0
        let (gb, es, fl) := outGroup a ((List.range 16).map (fun i => d.sum mem a m (n0 + i)))
        let row := d.oaddr + m * d.ostride
        (acc.1 ++ cellsAt (row + 6 * n0) (es.flatMap ws48Bytes) ++ [(row + 6 * d.n + n0 / 16, BitVec.ofNat 8 gb)],
          acc.2 ||| fl)) acc
    else ns.foldl (fun acc n =>
      let (f, w) := if d.ofmt = 8 then (fBf16, 2) else (fFp32, 4)
      let (v, fl) := outElem f a (d.sum mem a m n)
      (acc.1 ++ cellsAt (d.oaddr + m * d.ostride + w * n) (leBytes w v), acc.2 ||| fl)) acc) ([], 0)

/-- The output in the order of the passes, and the sticky bits. -/
def TDesc.output (d : TDesc) (mem : Memory) (a : Int) : List (Nat × Byte) × BitVec 8 :=
  d.passes.foldl (fun acc p => let o := d.passOut mem a p.1 p.2; (acc.1 ++ o.1, acc.2 ||| o.2)) ([], 0)

/-- The operand bytes that a pass reads. -/
def TDesc.passReads (d : TDesc) (ms ns : List Nat) : List (Nat × Nat) :=
  let n0 := ns.headD 0
  let rows := List.range d.k
  let a := ms.map (fun m => (d.aaddr + m * d.astride, fmtWidth d.afmt * d.k / 8))
  let w := if d.wt then rows.map (fun k => (d.waddr + k * d.wstride + fmtWidth d.wfmt * n0 / 8, fmtWidth d.wfmt * ns.length / 8))
    else ns.map (fun n => (d.waddr + n * d.wstride, d.wrows.2))
  let sc := if d.wfmt = 8 then [] else
    (if d.wt then rows.map (fun k => (d.wscale + k * d.wsrow + n0 / 32, ns.length / 32)) else ns.map (fun n => (d.wscale + n * d.wsrow, d.wsrow))) ++
      ms.map (fun m => (d.ascale + m * (d.k / 32), d.k / 32))
  sc ++ w ++ a

/-- Two ranges share a byte. -/
def overlap (x y : Nat × Nat) : Bool := decide (x.1 < y.1 + y.2 ∧ y.1 < x.1 + x.2)

/-- The output overlaps an operand plane (R79). -/
def TDesc.overlaps (d : TDesc) : Bool := d.oplane.any (fun o => d.reads.any (overlap o))

/-- Free bytes at every place of the listed ranges. [DEDUCED: log 47, DEDUCED: log 50] -/
def freeCells (draw : Nat) (l : List (Nat × Nat)) : List (Nat × Byte) :=
  l.flatMap (fun r => (List.range r.2).map (fun i => (r.1 + i, Config.freeByte (draw * 1048576 + r.1 + i))))

/-- What a tensor computation comes to. -/
inductive TRes where
  | ok (writes : List (Nat × Byte)) (sticky : BitVec 8) (anchor : Int)
  | fault (code : Nat) (spoiled : List (Nat × Byte)) (sticky : BitVec 8)
deriving DecidableEq, Repr

/-- Reads ranges of a tile's scratchpad as a unit does: errors are counted and corrected; whether a word was
uncorrectable. -/
def State.unitReads (s : State) (n : Nat) (l : List (Nat × Nat)) : State × Bool :=
  l.foldl (fun (a : State × Bool) r => match a.1.spRead n r.1 r.2 with
    | (s', .ok _) => (s', a.2)
    | (s', .error _) => (s', true)) (s, false)

/-- The anchor phase of a multiply (R80, R82): a given anchor, or the one found; none where a word it reads is uncorrectable. -/
def State.anchorPhase (s : State) (n : Nat) (d : TDesc) (given : Option Int) : State × Option Int :=
  match given with
  | some a => (s, some a)
  | none =>
    let (s, bad) := s.unitReads n d.anchorReads
    (s, if bad then none else some (d.anchor (s.tile n).scratch))

/-- The scratchpad as a unit reads it: of a word that a core store wrote while the unit ran, the old value or the new, freely
(02 R49). [DEDUCED: log 32] -/
def seenBy (m : Memory) (late : List (Nat × List Byte)) (draw : Nat) : Memory :=
  late.foldl (fun m e => if Config.freeBool (draw * 1048576 + e.1) then m.writeN (8 * e.1) e.2 else m) m

/-- The sticky bits that a multiply can set. -/
def tensorSticky : BitVec 8 := flagINX ||| flagOVF ||| flagUFL ||| flagNAN ||| flagTRUNC

/-- The passes of a multiply in turn (R78). A pass that meets an uncorrectable word, or a block above the anchor, ends the
instruction (R527); which comes first within the pass is left open. What earlier passes wrote is then unspecified, and of its own
sticky bits any may have set (R103). [DEDUCED: log 50] -/
def State.runPasses (s : State) (n : Nat) (d : TDesc) (a : Int) (mem : Memory) :
    List (List Nat × List Nat) → List (Nat × Byte) × BitVec 8 → State × TRes
  | [], acc => (s, .ok acc.1 acc.2 a)
  | p :: rest, acc =>
    let (s, bad) := s.unitReads n (d.passReads p.1 p.2)
    let above := d.exceeds mem a p.1 p.2
    if bad || above then
      let code := if bad && above then (if Config.freeBool s.free then 3 else 5) else if bad then 3 else 5
      (s.draw, .fault code (acc.1.map (fun c => (c.1, Config.freeByte (s.free * 1048576 + c.1))))
        (acc.2 ||| (Config.freeByte (s.free * 1048576) &&& tensorSticky)))
    else
      let o := d.passOut mem a p.1 p.2
      s.runPasses n d a mem rest (acc.1 ++ o.1, acc.2 ||| o.2)

/-- The compute phase and the write-back of TMM or TMM.AG. An output that overlaps an operand is unspecified (R79). -/
def State.multiply (s : State) (n : Nat) (d : TDesc) (a : Int) (late : List (Nat × List Byte)) : State × TRes :=
  let mem := seenBy (s.tile n).scratch late s.free
  let (s, r) := (if late.isEmpty then s else s.draw).runPasses n d a mem d.passes ([], 0)
  match r with
  | .ok _ _ _ => if d.overlaps then
      (s.draw, .ok (freeCells s.free d.oplane) (Config.freeByte (s.free * 1048576) &&& tensorSticky) a) else (s, r)
  | r => (s, r)

/-- TANC: the anchor as a signed 64-bit word (R77). -/
def State.tancAnchor (s : State) (n : Nat) (d : TDesc) (word : Word) : State × TRes :=
  let (s, bad) := s.unitReads n d.anchorReads
  if bad then (s, .fault 3 [] 0)
  else
    let a := d.anchor (s.tile n).scratch
    (s, .ok (cellsAt word.toNat (leBytes 8 (BitVec.ofInt 64 a).toNat)) 0 a)

/-- Reads a tensor descriptor: check 1, then the descriptor (R527). -/
def State.readTDesc (s : State) (n : Nat) (off : Word) : State × Except Nat TDesc :=
  match descCheck off with
  | some c => (s, .error c)
  | none =>
    match s.spRead n off.toNat 64 with
    | (s', .ok b) => (s', .ok (tdescOf b))
    | (s', .error _) => (s', .error 3)

/-- Cells grouped into runs of rising addresses. -/
def runsOf : List (Nat × Byte) → List (Nat × List Byte)
  | [] => []
  | (a, b) :: r =>
    match runsOf r with
    | [] => [(a, [b])]
    | (a', l) :: rest => if a' = a + 1 then (a, b :: l) :: rest else (a, [b]) :: (a', l) :: rest

/-- A unit's writes reach the scratchpad. -/
def State.unitWrites (s : State) (n : Nat) (w : List (Nat × Byte)) : State :=
  (runsOf w).foldl (fun s r => s.spWrite n r.1 r.2) s

/-- The signed anchor as ASTAT holds it. -/
def anchor10 (a : Int) : BitVec 10 := BitVec.ofInt 10 a

/-- The head of the tensor queue faults: it and every later instruction are discarded (R52). A fault that is still to be taken keeps
its record. [DEDUCED: log 50, DESIGN CHOICE: log 181] -/
def State.tensorFault (s : State) (n code : Nat) (spoiled : List (Nat × Byte)) (fused : Bool) (sticky : BitVec 8 := 0) : State :=
  let s := s.unitWrites n spoiled
  let t := s.tile n
  match t.tq with
  | [] => s
  | e :: r =>
    let f := match t.tfault with
      | some x => some x
      | none => some (BitVec.ofNat 8 code, e.pc, min r.length 15, fused)
    (s.setTile n { t with tq := [], tfault := f, tAst := t.tAst ++ [(sticky, none, some (BitVec.ofNat 8 code))] }).settle n

/-- The head of the tensor queue finishes: its writes land and ASTAT is updated (R104). -/
def State.tensorDone (s : State) (n : Nat) (w : List (Nat × Byte)) (sticky : BitVec 8) (a : Int) : State :=
  let s := s.unitWrites n w
  let t := s.tile n
  (s.setTile n { t with tq := t.tq.drop 1, tAst := t.tAst ++ [(sticky, some (anchor10 a), none)], lastFc := s.now }).settle n

/-- A run that has no fused part. -/
def TRun.plain (half : Bool) (a : Int) (w : List (Nat × Byte)) (st : BitVec 8) : TRun :=
  { half := half, anchor := a, writes := w, sticky := st, opened := false, team := 0, step := 0, rank := 0, n := 0,
    tdesc := [], fdesc := [], phase := 0, agree := [], rgot := 0, ggot := 0, sends := [], asked := [], flying := [],
    landed := [], waiting := [], due := none }

/-- The head of the tensor queue begins with a run. -/
def State.setRun (s : State) (n : Nat) (r : TRun) : State :=
  let t := s.tile n
  match t.tq with
  | [] => s
  | e :: q => s.setTile n { t with tq := { e with run := some r } :: q }

/-- The start of TMM, TMM.AG or TANC (R77, R527): the descriptor and its checks, and the anchor phase. [DEDUCED: log 47, DEDUCED: log 49] -/
def State.tensorBegin (s : State) (n : Nat) (e : TEntry) (half : Bool) : State :=
  let (off, given, word) : Word × Option Int × Option Word := match e.op with
    | .tmmAg => (e.a, some e.b.toInt, none)
    | .tanc => (e.b, none, some e.a)
    | _ => (e.a, none, none)
  match s.readTDesc n off with
  | (s, .error c) => s.tensorFault n c [] false
  | (s, .ok d) =>
    match d.check given word with
    | some c => s.tensorFault n c [] false
    | none =>
      match word with
      | some w =>
        match s.tancAnchor n d w with
        | (s, .ok w fl a) => s.setRun n (.plain half a w fl)
        | (s, .fault c sp st) => s.tensorFault n c sp false st
      | none =>
        match s.anchorPhase n d given with
        | (s, some a) => s.setRun n { TRun.plain half a [] 0 with tdesc := (s.tile n).scratch.readN off.toNat 64 }
        | (s, none) => s.tensorFault n 3 [] false

/-- tc that the compute phase takes (R80), doubled at half rate. -/
def TDesc.computeTc (d : TDesc) (half : Bool) : Nat :=
  d.passes.length * (if classCost d.wfmt = 64 then d.k / 2 else if classCost d.wfmt = 48 then d.k else 4 * d.k) * (if half then 2 else 1)

/-- The heat score of a tile counts the tc in which its tensor unit computed (05 R149). -/
def State.heatAdd (s : State) (n tc : Nat) : State :=
  let p := s.part (n / 72)
  s.setPart (n / 72) { p with heat := SMap.set p.heat (n % 72) (SMap.get 0 p.heat (n % 72) + tc) }

/-- The finish of TMM, TMM.AG or TANC (R80): the compute phase and its write-back, or the fault met there. -/
def State.tensorEnd (s : State) (n : Nat) (e : TEntry) (r : TRun) : State :=
  if e.op == .tanc then s.tensorDone n r.writes r.sticky r.anchor
  else match s.multiply n (tdescOf r.tdesc) r.anchor e.late with
    | (s, .ok w fl a) => (s.heatAdd n ((tdescOf r.tdesc).computeTc r.half)).tensorDone n w fl a
    | (s, .fault c sp st) => s.tensorFault n c sp false st

end Sys2Proof.Machine
end

