-- ==== Sys2Proof/Machine/DmaOps.lean ====
section
/-!
DEFINITION. What the tile port shares (02): requests and their reply spaces (R53, 17 R465), the hold of a rotation (05 R151),
and the rows, pieces and endings of DMA transfers (R55 to R57; PUSH of 07 R194).
-/

namespace Sys2Proof.Machine

/-! ### Addresses of the tile port -/

/-- The address names the issuing tile's own scratchpad (R57). -/
def State.ownSpad (s : State) (n : Nat) (a : Word) : Bool :=
  gaRegion a == 1 && gaChip a == s.ownChip && some (gaLtid a) == s.ltidOf n

/-- The logical id is moving in a rotation whose hold is in force (05 R151). -/
def State.moving (s : State) (ltid : Nat) : Bool :=
  match (s.part (ltid / 70)).rot with
  | some r => decide (2 ≤ r.step) && r.moves.any (fun m => m.1 == ltid % 70)
  | none => false

/-- A region-1 access of this chip to a moving id stalls at issue. -/
def State.held (s : State) (a : Word) : Bool :=
  gaRegion a == 1 && gaChip a == s.ownChip && s.moving (gaLtid a)

/-- A region-1 access of this chip whose target partition is Off (R62). -/
def State.targetOff (s : State) (a : Word) : Bool :=
  gaRegion a == 1 && gaChip a == s.ownChip && (s.psw (gaLtid a / 70)).state == .off

/-- The tag an access carries: TENANT at tenant level, 0 at firmware level. -/
def Tile.tag (t : Tile) : BitVec 7 := if t.cst.pl then 0 else t.tenant

/-! ### Requests and reply spaces -/

/-- A packet of a tile. -/
def State.tilePacket (s : State) (n tag : Nat) (ten : BitVec 7) (typ : BitVec 4) (a : Word) (plen : Nat) (pl : List Byte) :
    Packet :=
  { addr := a, ver := 1, typ := typ, phase := 0, nonmin := false, ext := 0, plen := BitVec.ofNat 13 plen, tenant := ten,
    srcChip := s.ownChip, rid := BitVec.ofNat 16 (((s.ltidOf n).getD 0) * 64 + tag), exts := [], payload := pl,
    tail := .good }

/-- The lowest free reply space of a table of 64; old entries keep theirs (17 R465). -/
def freeTag (m : SMap Outst) : Option Nat := ((List.range 64).filter (fun i => (SMap.find? m i).isNone)).head?

/-- An RLX = 0 request of the tile to the chip is being retried (07 R203). -/
def Tile.retrying (t : Tile) (chip : BitVec 16) : Bool :=
  (t.reads ++ t.writes).any (fun e => e.2.retry && !e.2.old && !gaRlx e.2.addr && gaChip e.2.addr == chip)

/-- Kinds of outstanding entries. -/
def kDMA : BitVec 4 := 2
def kGLD : BitVec 4 := 0
def kATOM : BitVec 4 := 1
def kSTREAM : BitVec 4 := 3
def kGST : BitVec 4 := 4

/-- Takes a reply space and sends the request; the request of a transfer names its handle and piece. -/
def State.sendRead (s : State) (n tag : Nat) (kind : BitVec 4) (dma : Option (Nat × Nat)) (p : Packet) : State :=
  let t := s.tile n
  (s.setTile n { t with reads := SMap.set t.reads tag ⟨p.addr, (s.psw (n / 72)).gen, false, t.pc, kind, false, p, 0, dma⟩ }).sendPkt (.tile n) p

def State.sendWrite (s : State) (n tag : Nat) (kind : BitVec 4) (dma : Option (Nat × Nat)) (p : Packet) : State :=
  let t := s.tile n
  (s.setTile n { t with writes := SMap.set t.writes tag ⟨p.addr, (s.psw (n / 72)).gen, false, t.pc, kind, false, p, 0, dma⟩ }).sendPkt (.tile n) p

/-! ### DMA descriptors (R56) -/

structure DmaDesc where
  src : Word
  dst : Word
  len : Nat
  rows : Nat
  flags : Nat
  sstride : Nat
  dstride : Nat
deriving DecidableEq, Repr

def dmaDescOf (b : List Byte) : DmaDesc :=
  { src := BitVec.ofNat 64 (fieldLE b 0 8), dst := BitVec.ofNat 64 (fieldLE b 8 8), len := fieldLE b 16 4,
    rows := fieldLE b 20 2, flags := fieldLE b 22 2, sstride := fieldLE b 24 4, dstride := fieldLE b 28 4 }

/-- A transfer at its beginning. -/
def DmaDesc.xfer (d : DmaDesc) (src dst : Word) (post pe lvl : Bool) : Xfer :=
  { src := src, dst := dst, len := d.len, rows := d.rows, sstride := d.sstride, dstride := d.dstride, post := post, pe := pe,
    tenantLevel := lvl, asked := 0, written := 0, got := [], failed := none }

/-- PST is ignored in SRC and DST. -/
def clearPst (a : Word) : Word := a &&& 0xDFFFFFFFFFFFFFFF

/-- The start of row `i`. -/
def rowAddr (a : Word) (stride i : Nat) : Word := a + BitVec.ofNat 64 (stride * i)

/-- R26 at issue, for any row. -/
def rowsFault (a : Word) (stride len rows : Nat) : Bool :=
  (List.range rows).any (fun i => gaRangeFault (rowAddr a stride i) len)

/-- For a tenant-level transfer: a row in the tile's own scratchpad outside the program region. -/
def State.rowsLocal (s : State) (n : Nat) (a : Word) (stride len rows : Nat) : Bool :=
  (List.range rows).any (fun i => let x := rowAddr a stride i
    s.ownSpad n x && !inProg (gaByte x) len)

/-- Pieces of at most 4,096 bytes: offset and length. -/
def pieces (len : Nat) : List (Nat × Nat) :=
  (List.range ((len + 4095) / 4096)).map (fun i => (4096 * i, min 4096 (len - 4096 * i)))

/-- The transfer is carried by PUSH: SRC on another chip, DST on a chip other than SRC's (07 R194). -/
def State.pushes (s : State) (src dst : Word) : Bool := gaChip src != s.ownChip && gaChip dst != gaChip src

/-- Pieces in one row, and in the transfer. -/
def Xfer.perRow (x : Xfer) : Nat := (x.len + 4095) / 4096
def Xfer.total (x : Xfer) : Nat := x.rows * x.perRow

/-- Piece `i`, row by row: its source, its destination, its bytes. -/
def Xfer.piece (x : Xfer) (i : Nat) : Word × Word × Nat :=
  let r := i / x.perRow
  let o := 4096 * (i % x.perRow)
  (rowAddr x.src x.sstride r + BitVec.ofNat 64 o, rowAddr x.dst x.dstride r + BitVec.ofNat 64 o, min 4096 (x.len - o))

def Tile.xfer? (t : Tile) (h : Nat) : Option Xfer :=
  match t.handles.toList.getD h .free with
  | .running x => some x
  | _ => none

def State.setXfer (s : State) (n h : Nat) (x : Xfer) : State :=
  let t := s.tile n
  s.setTile n { t with handles := t.handles.setIfInBounds h (.running x) }

/-- Requests of a handle that are outstanding. -/
def Tile.dmaOut (t : Tile) (h : Nat) : Nat :=
  ((t.reads ++ t.writes).filter (fun e => !e.2.old && (match e.2.dma with | some (k, _) => k == h | none => false))).length

/-- A request of the engine to an address may leave now: no move holds it, and no retried request to the chip is ahead of it
(05 R151, 07 R203). -/
def State.dmaMaySend (s : State) (n : Nat) (a : Word) : Bool := !s.held a && (gaRlx a || !(s.tile n).retrying (gaChip a))

/-- What has come of piece `i`. -/
def Xfer.come (x : Xfer) (i : Nat) (st : Nat) (b : List Byte) : Xfer := { x with got := x.got ++ [(i, BitVec.ofNat 8 st, b)] }

/-- The transfer fails: nothing more is asked for or written. -/
def Xfer.fail (x : Xfer) (st : Nat) : Xfer := if x.failed.isSome then x else { x with failed := some (BitVec.ofNat 8 st), got := [] }

/-- The engine writes the next piece in order, or learns in order that a piece failed (R57): rows before a failing row move in
full. None where it must wait. [DEDUCED: log 35] -/
def State.dmaWrite (s : State) (n h : Nat) (ten : BitVec 7) (x : Xfer) : Option State :=
  match x.got.find? (fun g => g.1 == x.written) with
  | none => none
  | some (i, st, b) =>
    let d := (x.piece i).2.1
    let x' := { x with written := i + 1, got := x.got.filter (fun g => g.1 != i) }
    if st ≠ 0 then some (s.setXfer n h (x.fail st.toNat))
    else if s.ownSpad n d then some ((s.setXfer n h x').spWrite n (gaByte d) b)
    else if s.targetOff d then some (s.setXfer n h (if x.post then x' else x.fail 5))
    else if !s.dmaMaySend n d then none
    else if x.post then some ((s.setXfer n h x').sendPkt (.tile n) (s.tilePacket n 0 ten tWRP d b.length b))
    else match freeTag (s.tile n).writes with
      | none => none
      | some tag => some ((s.setXfer n h x').sendWrite n tag kDMA (some (h, i)) (s.tilePacket n tag ten tWR d b.length b))

/-- The engine asks for the next piece: the own scratchpad gives it at once, PUSH moves it between two other chips (07 R194), a
read takes a reply space. None where it must wait. [DEDUCED: log 35] -/
def State.dmaAsk (s : State) (n h : Nat) (ten : BitVec 7) (x : Xfer) : Option State :=
  if x.pe || x.total ≤ x.asked then none else
  let (a, d, len) := x.piece x.asked
  let x' := { x with asked := x.asked + 1 }
  if s.ownSpad n a then
    match s.spRead n (gaByte a) len with
    | (s, .ok b) => some (s.setXfer n h (x'.come x.asked 0 b))
    | (s, .error _) => some (s.setXfer n h (x'.come x.asked 4 []))
  else if s.targetOff a then some (s.setXfer n h (x'.come x.asked 5 []))
  else if !s.dmaMaySend n a then none
  else if s.pushes x.src x.dst then
    match freeTag (s.tile n).writes with
    | none => none
    | some tag => some ((s.setXfer n h { x' with written := x.asked + 1 }).sendWrite n tag kDMA (some (h, x.asked))
        (s.tilePacket n tag ten tPUSH a 16 (leBytes 8 d.toNat ++ leBytes 4 len ++ [0, 0, 0, 0])))
  else match freeTag (s.tile n).reads with
    | none => none
    | some tag => some ((s.setXfer n h x').sendRead n tag kDMA (some (h, x.asked)) (s.tilePacket n tag ten tRD a len []))

/-- The engine goes on with a transfer until it is done or must wait. -/
def State.dmaRun (s : State) (n h : Nat) : Nat → State
  | 0 => s
  | k + 1 =>
    match (s.tile n).xfer? h with
    | none => s
    | some x =>
      let ten : BitVec 7 := if x.tenantLevel then (s.tile n).tenant else 0
      if x.failed.isSome || (s.tile n).drain.isSome then s
      else match s.dmaWrite n h ten x with
        | some s' => s'.dmaRun n h k
        | none => match s.dmaAsk n h ten x with
          | some s' => s'.dmaRun n h k
          | none => s

/-- The engine goes on with handle `h`; every step of it asks for a piece, writes one, or ends the transfer. -/
def State.dmaPump (s : State) (n h : Nat) : State :=
  match (s.tile n).xfer? h with
  | none => s
  | some x => s.dmaRun n h (2 * x.total + 1)

/-- A reply space came free: every running transfer goes on, lowest handle first. -/
def State.dmaPumpAll (s : State) (n : Nat) : State := (List.range 8).foldl (fun s h => s.dmaPump n h) s

/-- A reply to a request of the DMA engine, whose space is already free: data, an acknowledgement, or a failure (R57). -/
def State.dmaReply (s : State) (n h i : Nat) (write : Bool) (p : Packet) : State :=
  match (s.tile n).xfer? h with
  | none => s
  | some x =>
    let st := if p.status = stPoison then 4 else 5
    if p.status ≠ stOK then s.setXfer n h (if write then x.fail st else if x.failed.isSome then x else x.come i st [])
    else if write || x.failed.isSome then s
    else s.setXfer n h (x.come i 0 p.payload)

/-- The engine has nothing more to do for the transfer, and nothing of it is outstanding. -/
def State.dmaOver (s : State) (n h : Nat) (x : Xfer) : Bool :=
  (x.failed.isSome || decide (x.total ≤ x.written)) && (s.tile n).dmaOut h == 0

/-- Rows from `first` of the own scratchpad become unspecified (R56, R57). [DEDUCED: log 35] -/
def State.dmaSpoil (s : State) (n : Nat) (x : Xfer) (first : Nat) : State :=
  let l := ((List.range x.rows).drop first).filter (fun i => s.ownSpad n (rowAddr x.dst x.dstride i))
  s.draw.unitWrites n (freeCells s.free (l.map (fun i => (gaByte (rowAddr x.dst x.dstride i), x.len))))

/-- Source and destination rows in the own scratchpad overlap: the destination is unspecified (R56). -/
def State.dmaCross (s : State) (n : Nat) (x : Xfer) : Bool :=
  let own (a : Word) (st : Nat) := ((List.range x.rows).filter (fun i => s.ownSpad n (rowAddr a st i))).map (fun i => (gaByte (rowAddr a st i), x.len))
  !x.pe && (own x.src x.sstride).any (fun r => (own x.dst x.dstride).any (overlap r))

/-- A transfer's handle completes with a status; a nonzero one sets EVENT[2] (R57). -/
def State.dmaMark (s : State) (n h : Nat) (st : Nat) : State :=
  let t := s.tile n
  s.setTile n { t with handles := t.handles.setIfInBounds h (.completed (BitVec.ofNat 8 st)), lastFc := s.now,
                       event := if st = 0 then t.event else t.event ||| 4 }

/-- A transfer completes with a status; the core is waked where it waits for it. [DEDUCED: log 35] -/
def State.dmaEnd (s : State) (n h : Nat) (st : Nat) : State := (s.dmaMark n h st).settle n

/-- A transfer that is over completes: what a failure or an overlap leaves unspecified becomes so first. -/
def State.dmaFinish (s : State) (n h : Nat) (x : Xfer) : State :=
  let s := if s.dmaCross n x then s.dmaSpoil n x 0
    else if x.failed.isSome then s.dmaSpoil n x (x.written / x.perRow) else s
  s.dmaEnd n h ((x.failed.getD 0).toNat)

end Sys2Proof.Machine
end

