-- ==== Sys2Proof/Machine/Pointing.lean ====
section
/-!
DEFINITION. The pointing engine (04 R128 to R136): streams, their interlock with bank loads, expansion of codebook
indices (03 R73 to R75), receipts, and engine errors.
-/

namespace Sys2Proof.Machine

/-- Index width, weights per index, entry bytes, codebook bytes of a code (03 R73). -/
def vqIndex (code : Nat) : Nat := if code = 0 then 16 else if code = 1 then 18 else 12
def vqGroup (code : Nat) : Nat := if code = 2 then 4 else 8
def vqEntry (code : Nat) : Nat := if code = 2 then 2 else 4
def vqSize (code : Nat) : Nat := if code = 0 then 0x40000 else if code = 1 then 0x100000 else 0x2000

/-- Indices that a stream reads (R132). -/
def Stream.indices (k : Stream) : Nat := (k.count + vqGroup k.code - 1) / vqGroup k.code

/-- The region-0 range that a stream reads: offset and bytes. -/
def Stream.range (k : Stream) : Nat × Nat :=
  let o := gaOffset k.iaddr
  if k.load then (o, vqSize k.code)
  else
    let b0 := k.first * vqIndex k.code
    let b1 := (k.first + k.indices) * vqIndex k.code
    (o + b0 / 8, (b1 + 7) / 8 - b0 / 8)

/-- R131. -/
def State.placed (s : State) (k : Stream) : Bool :=
  let o := gaOffset k.iaddr
  let e := k.range.1 + k.range.2 - 1
  gaChip k.iaddr == s.ownChip && gaRegion k.iaddr == 0 && !gaFault k.iaddr false &&
    decide (e ≤ 0x8FFFFFFFFF) && !bitAt s.memIlv (o / (12 * giB)) && o / giB == e / giB &&
    !(linesOf o (e + 1 - o)).any (fun lo => spareL (memMap s.memIlv lo).2)

/-- The engine records an error (R136). -/
def State.engineErr (s : State) (n code : Nat) : State := s.setStack n { s.stack n with lastErr := BitVec.ofNat 8 code }

/-- DMA status of an engine error (R136). -/
def engineStatus (code : Nat) : Nat := if code = 6 then 4 else 5

/-- The engine refuses a stream: its DMA transfer completes with the status that R136 gives. -/
def State.engineError (s : State) (n tile h code : Nat) : State := (s.engineErr n code).dmaMark tile h (engineStatus code)

/-- Rows of a stream's output reach the transfer at the tile port: pieces of its rows in order, up to row `upTo`, and then the
failure that ended the stream, if any; the tile port writes them on. -/
def State.streamRows (s : State) (tile h : Nat) (b : List Byte) (upTo : Nat) (fail : Option Nat) : State :=
  match (s.tile tile).xfer? h with
  | none => s
  | some x =>
    let l := (List.range (upTo * x.perRow)).map (fun i =>
      (i, (0 : Byte), (b.drop (i / x.perRow * x.len + 4096 * (i % x.perRow))).take (min 4096 (x.len - 4096 * (i % x.perRow)))))
    let e := match fail with
      | some st => [(max (upTo * x.perRow) x.written, BitVec.ofNat 8 st, [])]
      | none => []
    (s.setXfer tile h { x with got := l ++ e, asked := x.total }).dmaPump tile h

/-- A stream under way fails after `rows` rows: the transfer ends with the status that R136 gives once they have moved; with
nothing to move it ends at once, and a core that waits for it is waked. -/
def State.engineFail (s : State) (n tile h code : Nat) (b : List Byte) (rows : Nat) : State :=
  let s := (s.engineErr n code).streamRows tile h b rows (some (engineStatus code))
  match (s.tile tile).xfer? h with
  | some x => if s.dmaOver tile h x then s.dmaFinish tile h x else s
  | none => s

/-- A bank as it shows (R134): Loading from the moment that the first stream on it is a LOAD that has not ended. -/
def Stack.bankState (k : Stack) (b : Nat) : Nat :=
  match (k.streams.filter (fun x => x.bank == b)).head? with
  | some x => if x.load && !x.active then 1 else (k.banks.toList.getD b .empty).state
  | none => (k.banks.toList.getD b .empty).state

/-- A stream leaves the engine. -/
def State.dropStream (s : State) (n sid : Nat) : State :=
  let k := s.stack n
  s.setStack n { k with streams := k.streams.filter (fun x => x.sid != sid) }

/-- The stream that a 64-byte descriptor describes (R130), for a transfer's LEN and ROWS. [DEDUCED: log 58] -/
def streamOf (b : List Byte) (sid tile h len rows : Nat) (owner : BitVec 7) (now : Nat) : Stream :=
  { sid := sid, tile := tile, handle := h, load := fieldLE b 1 1 == 1, code := fieldLE b 2 1, bank := fieldLE b 3 1 % 2,
    cbTag := BitVec.ofNat 16 (fieldLE b 4 2), owner := owner, iaddr := BitVec.ofNat 64 (fieldLE b 8 8),
    first := fieldLE b 16 8, count := fieldLE b 24 4, len := len, rows := rows, active := false, order := sid,
    since := now }

/-- Error 0x01 (R136). [DEDUCED: log 36] -/
def streamBad (b : List Byte) : Bool :=
  let fl := fieldLE b 3 1
  fieldLE b 0 1 != 1 || decide (1 < fieldLE b 1 1) || decide (2 < fieldLE b 2 1) || fl / 4 != 0 || fieldLE b 6 2 != 0 ||
    fieldLE b 0x1C 36 != 0 ||
    (fieldLE b 1 1 == 1 && (fieldLE b 16 8 != 0 || fieldLE b 24 4 != 0 || fl / 2 != 0 || fieldLE b 8 8 % 64 != 0))

/-- Error 0x05 (R132, R133). -/
def Stream.badSize (k : Stream) : Bool :=
  if k.load then k.len != 64 || k.rows != 1 else k.len * k.rows != (k.count + 1) / 2

/-- The engine that a stream descriptor is sent to: that of the stack that holds IADDR, else the tile's own.
[DEDUCED: log 36] -/
def State.engineOf (s : State) (tile : Nat) (b : List Byte) : Nat :=
  let a := BitVec.ofNat 64 (fieldLE b 8 8)
  if gaChip a == s.ownChip && gaRegion a == 0 && !gaFault a false then s.stackOfAddr a else tile / 72

/-- A stream descriptor reaches its engine (R128, R136): refused, or placed behind the streams there. An EXPAND that arrives
in the fc of a LOAD on its bank is taken as the earlier (R134). The answer is false for a retry reply. -/
def State.streamAdmit (s : State) (tile h len rows : Nat) (owner : BitVec 7) (b : List Byte) : State × Bool :=
  let n := s.engineOf tile b
  let k := s.stack n
  let x := streamOf b k.nextOrder tile h len rows owner s.now
  if s.barred n ∨ (s.psw n).state = .off then (s.dmaMark tile h 5, true)
  else if 64 + 256 ≤ k.streams.length then (s, false)
  else if streamBad b then (s.engineError n tile h 1, true)
  else if !s.placed x then (s.engineError n tile h 2, true)
  else if owner ≠ 0 ∧ owner ≠ (s.psw n).tenant then (s.engineError n tile h 3, true)
  else if x.badSize then (s.engineError n tile h 5, true)
  else
    let i := if x.load then k.streams.length
      else k.streams.findIdx (fun y => y.load && y.bank == x.bank && y.since == s.now)
    (s.setStack n { k with streams := k.streams.insertIdx i x, nextOrder := k.nextOrder + 1, lastUse := s.now }, true)

/-- The streams that run, the first 64 in arrival order. [DEDUCED: log 56] -/
def Stack.runs (k : Stack) (sid : Nat) : Bool := ((k.streams.take 64).map (·.sid)).contains sid

/-- The first stream on a bank. [DEDUCED: log 56] -/
def Stack.firstOn (k : Stack) (bank : Nat) : Option Stream := (k.streams.filter (fun x => x.bank == bank)).head?

/-- A LOAD lies ahead of the stream on its bank. [DEDUCED: log 56] -/
def Stack.behindLoad (k : Stack) (x : Stream) : Bool :=
  (k.streams.takeWhile (fun y => y.sid != x.sid)).any (fun y => y.load && y.bank == x.bank)

/-- The memory key of a tag, if its slot holds one (R115). [DEDUCED: log 57] -/
def State.keyOfTag (s : State) (t : BitVec 7) : Option Nat := SMap.find? s.sec.keys t.toNat

/-- Why an EXPAND may not start on its bank. [DEDUCED: log 57] -/
def Bank.refuses (b : Bank) (x : Stream) : Option Nat :=
  if b.state ≠ 2 then some 4 else if b.owner ≠ x.owner then some 3
  else if b.tag ≠ x.cbTag ∨ b.code ≠ x.code then some 4 else none

/-- The 4-bit elements of `cnt` weights from index number `first`, read from index bytes that begin `skip` bits into the
stream. -/
def expandBytes (code : Nat) (book ix : List Byte) (skip idxs count : Nat) : List Byte :=
  let m : Nat := leNat ix / 2 ^ skip
  let w := vqIndex code
  let e := vqEntry code
  let all := (List.range idxs).flatMap (fun j => let i := m / 2 ^ (w * j) % 2 ^ w
    (book.drop (i * e)).take e)
  let cut := all.take ((count + 1) / 2)
  if count % 2 = 1 then cut.mapIdx (fun i x => if i + 1 = cut.length then x &&& 0x0F else x) else cut

/-- Rows that can be delivered before the first poisoned line of the range: whole indices below the line, in weights, in bytes, in
rows (02 R57). -/
def State.rowsClean (s : State) (x : Stream) : Nat :=
  let (o, len) := x.range
  match ((linesOf o len).filter (fun lo => let (n, l) := memMap s.memIlv lo
    (s.stack n).isPoisoned l)).head? with
  | none => x.rows
  | some lo =>
    let idx := ((lo - o) * 8 - x.first * vqIndex x.code % 8) / vqIndex x.code
    min x.rows (idx * vqGroup x.code / 2 / x.len)

/-- The engine's read may take its turn (R112, R121, R127): no access that entered the queue before it touches its lines, none of
its rows is being copied, and the stack is awake. [DEDUCED: log 178] -/
def State.engineMay (s : State) (n : Nat) (x : Stream) : Bool :=
  let (o, len) := x.range
  s.railsOn && !(s.stack n).selfRef && !s.rangeCopying s.memIlv o len &&
    !(s.stack n).queue.any (fun r => let a := gaOffset r.pkt.addr
      decide (a / 64 * 64 < o + len ∧ o / 64 * 64 < a + Packet.len r.pkt))

/-- EXPAND (R132, R134): a running stream whose bank no LOAD ahead of it holds starts: it is refused by its bank or its
window, or it reads its indices and delivers its rows; an index line in error ends it after the rows before that line. -/
def execExpand (n : PartNo) (sid : Nat) (errs : List LineErr) (s : State) : Host.Outcome State Fault Refusal :=
  let k := s.stack n.val
  .next (match k.streams.find? (fun x => x.sid == sid) with
    | none => s
    | some x =>
      let (o, len) := x.range
      if x.load || x.active || !k.runs sid || k.behindLoad x || !s.engineMay n.val x then s
      else match noRetrain (linesOf o len) errs with
      | some lo => s.channelFails n.val (memMap s.memIlv lo).2
      | none =>
        let bank := k.banks.toList.getD x.bank .empty
        let fail (s : State) (c : Nat) (b : List Byte) (r : Nat) := (s.dropStream n.val sid).engineFail n.val x.tile x.handle c b r
        match bank.refuses x with
        | some c => fail s c [] 0
        | none =>
          if !s.windowOk x.owner.toNat o len true false then fail s 3 [] 0
          else
            match s.keyOfTag x.owner with
            | none => fail s 3 [] 0
            | some key =>
              let skip := x.first * vqIndex x.code % 8
              match s.memRead s.memIlv o len key errs with
              | (s, some ix) =>
                let k := s.stack n.val
                (s.setStack n.val { k with
                  streams := k.streams.map (fun y => if y.sid == sid then { y with active := true } else y),
                  lastUse := s.now }).streamRows x.tile x.handle (expandBytes x.code bank.data ix skip x.indices x.count) x.rows none
              | (s, none) =>
                let r := s.rowsClean x
                let cnt := r * x.len * 2
                let idxs := (cnt + vqGroup x.code - 1) / vqGroup x.code
                match s.memRead s.memIlv o ((idxs * vqIndex x.code + skip + 7) / 8) key [] with
                | (s, some ix) => fail s 6 (expandBytes x.code bank.data ix skip idxs cnt) r
                | (s, none) => fail s 6 [] 0)

/-- The 64-byte receipt of a LOAD (R133). -/
def receipt (x : Stream) (book : List Byte) (lt : Word) : List Byte :=
  [1, BitVec.ofNat 8 x.bank, BitVec.ofNat 8 x.code, 0] ++ leBytes 2 x.cbTag.toNat ++ [0, 0] ++
    leBytes 4 (crc32c book).toNat ++ leBytes 8 lt.toNat ++ List.replicate 44 0

/-- LOAD (R133, R134): the first stream on its bank loads it and returns a receipt; an uncorrectable codebook line leaves
the bank Empty and ends the stream with the data error. -/
def execLoad (n : PartNo) (sid : Nat) (errs : List LineErr) (s : State) : Host.Outcome State Fault Refusal :=
  let k := s.stack n.val
  .next (match k.streams.find? (fun x => x.sid == sid) with
    | none => s
    | some x =>
      let (o, len) := x.range
      if !x.load || x.active || !k.runs sid || (k.firstOn x.bank).map (·.sid) != some sid || !s.engineMay n.val x then s
      else match noRetrain (linesOf o len) errs with
      | some lo => s.channelFails n.val (memMap s.memIlv lo).2
      | none =>
        let setBank (s : State) (b : Bank) :=
          s.setStack n.val { s.stack n.val with banks := (s.stack n.val).banks.setIfInBounds x.bank b }
        let fail (s : State) (c : Nat) := ((setBank s .empty).dropStream n.val sid).engineFail n.val x.tile x.handle c [] 0
        if !s.windowOk x.owner.toNat o len true false then fail s 3
        else
          match s.keyOfTag x.owner with
          | none => fail s 3
          | some key =>
            match s.memRead s.memIlv o len key errs with
            | (s, none) => fail s 6
            | (s, some book) =>
              let s := setBank s ⟨2, x.code, x.cbTag, x.owner, book⟩
              let k := s.stack n.val
              (s.setStack n.val { k with
                streams := k.streams.map (fun y => if y.sid == sid then { y with active := true } else y),
                lastUse := s.now }).streamRows x.tile x.handle (receipt x book s.lay.time) 1 none)

/-- STREAM_END (R134): a stream that has delivered its bytes frees its place, and its transfer completes once its writes are
acknowledged (02 R56). -/
def execStreamEnd (n : PartNo) (sid : Nat) (s : State) : Host.Outcome State Fault Refusal :=
  .next (match (s.stack n.val).streams.find? (fun x => x.sid == sid) with
    | none => s
    | some x =>
      if !x.active then s
      else
        let s := s.dropStream n.val sid
        match (s.tile x.tile).xfer? x.handle with
        | some f => if s.dmaOver x.tile x.handle f then s.dmaFinish x.tile x.handle f else s
        | none => s)

/-- Both banks become Empty, and every stream of the engine ends with engine error 0x03 (R135). -/
def State.cutStreams (s : State) (n : Nat) : State :=
  let k := s.stack n
  let s := s.setStack n { k with streams := [], banks := .replicate 2 .empty }
  k.streams.foldl (fun s x => s.engineFail n x.tile x.handle 3 [] 0) s

end Sys2Proof.Machine
end

