-- ==== Sys2Proof/Machine/Vector.lean ====
section
/-!
DEFINITION. The vector unit (03 R96 to R101, R89 to R93): what one queued vector instruction reads, checks, computes and
writes, and the commands that issue and finish it (02 R50, R52; 03 R104).
-/

namespace Sys2Proof.Machine

/-! ### Words of arrays -/

/-- Element `i` of an array of `w`-byte elements. -/
def Memory.arr (m : Memory) (off w i : Nat) : Nat := leNat (m.readN (off + w * i) w)

/-- A BF16 result of an FP32 operation: FP32 first, then rounded once to BF16 (R96). [DEDUCED: log 40] -/
def toBf16 (r : Res) : Res :=
  let (v, fl) := fBf16.ieee (f32 r.1)
  (v, r.2 ||| fl)

/-- A BF16 word as FP32 bits. -/
def bf16Bits (w : Nat) : Nat := w * 65536

/-- Signed 32-bit value. -/
def i32 (w : Nat) : Int := sext 32 w
def wrap32 (i : Int) : Nat := (BitVec.ofInt 32 i).toNat

/-- An elementwise operation in type `t` (0 FP32, 1 BF16, 2 INT32), given on numbers and on integers.
[DEDUCED: log 40] -/
def elemOp (t : Nat) (f : List Num → Num) (g : List Int → Int) (l : List Nat) : Res :=
  match t with
  | 0 => f32op (f (l.map f32))
  | 1 => toBf16 (f32op (f (l.map (fun w => f32 (bf16Bits w)))))
  | _ => (wrap32 (g (l.map i32)), 0)

/-- Bytes of an element of type `t`. -/
def typeBytes (t : Nat) : Nat := if t = 1 then 2 else 4

def isNan (x : Num) : Bool := decide (x = .nan)

/-- VMAX and VMIN take one of their operands; a NaN gives the canonical NaN. -/
def num2 (f : Num → Num → Num) : List Num → Num
  | [a, b] => f a b
  | _ => .nan
def int2 (f : Int → Int → Int) : List Int → Int
  | [a, b] => f a b
  | _ => 0
def num3 (f : Num → Num → Num → Num) : List Num → Num
  | [a, b, c] => f a b c
  | _ => .nan
def int3 (f : Int → Int → Int → Int) : List Int → Int
  | [a, b, c] => f a b c
  | _ => 0

/-! ### Approximations (R100) -/

/-- VEXP, VRCP or VRSQ of FP32 bits, or of BF16 bits. -/
def approxOp (which : Nat) (bf16 : Bool) (w : Nat) : Res :=
  let k := Config.approxPick which bf16 (BitVec.ofNat 32 w)
  let f := if bf16 then fBf16 else fFp32
  let bound := if bf16 then 1 else 2
  let x := f.decode w
  match which with
  | 0 => f.vexp bound k x
  | 1 => f.vrcp k x
  | _ => f.vrsq bound k x

/-! ### Reductions in the fixed order (R98) -/

/-- The elements of lane `j`. -/
def laneOf (l : List Nat) (j : Nat) : List Nat := (List.range ((l.length + 63 - j) / 64)).map (fun i => l.getD (64 * i + j) 0)

/-- Combines a list pairwise, 0 + 1, 2 + 3, and so on, for `levels` levels. [DEDUCED: log 43] -/
def pairTree (f : Nat → Nat → Res) : Nat → List Res → Res
  | 0, l => l.headD (0, 0)
  | n + 1, l =>
    pairTree f n ((List.range ((l.length + 1) / 2)).map (fun i =>
      let a := l.getD (2 * i) (0, 0)
      let b := l.getD (2 * i + 1) (0, 0)
      let r := f a.1 b.1
      (r.1, r.2 ||| a.2 ||| b.2)))

/-- The sum of FP32 words: lane i mod 64 in rising order, then the tree. -/
def sumF32 (l : List Nat) : Res :=
  pairTree f32add 6 ((List.range 64).map (fun j => (laneOf l j).foldl (fun (a : Res) x =>
    let r := f32add a.1 x
    (r.1, r.2 ||| a.2)) (0, 0)))

/-- The sum of words of type `t`. Where every element is −0 the sign of the zero sum is not stated: `neg` gives it.
[DEDUCED: log 43] -/
def vrsum (t : Nat) (neg : Bool) (l : List Nat) : Res :=
  match t with
  | 2 => (wrap32 ((l.map i32).foldl (· + ·) 0), 0)
  | _ =>
    let l32 := if t = 1 then l.map bf16Bits else l
    let r := if l32.all (fun w => w == 0x80000000) then (if neg then (0x80000000, 0) else (0, 0)) else sumF32 l32
    if t = 1 then toBf16 r else r

/-- The maximum of words of type `t`. -/
def vrmax (t : Nat) (l : List Nat) : Res :=
  match l with
  | [] => (0, 0)
  | x :: r =>
    match t with
    | 2 => (wrap32 (r.foldl (fun a w => max a (i32 w)) (i32 x)), 0)
    | 1 => toBf16 (f32op (r.foldl (fun a w => a.maxOf (f32 (bf16Bits w))) (f32 (bf16Bits x))))
    | _ => f32op (r.foldl (fun a w => a.maxOf (f32 w)) (f32 x))

/-! ### Conversions (R101) -/

/-- To an integer format of `w` bits: rounds to nearest even and saturates. -/
def toInt (w : Nat) (x : Num) : Res :=
  match x with
  | .nan => (0, flagNAN)
  | .inf neg => (if neg then 2 ^ (w - 1) else 2 ^ (w - 1) - 1, flagSAT ||| flagINX)
  | .fin neg m e =>
    let (k, inx) := rneScale m e
    let lim := if neg then 2 ^ (w - 1) else 2 ^ (w - 1) - 1
    if lim < k then (lim, flagSAT ||| flagINX)
    else ((BitVec.ofInt w (signed neg k)).toNat, stickyIf inx flagINX)

/-- To an FP8 format: magnitudes above the largest finite become it, with SAT; E5M2 keeps infinities. -/
def toFp8 (f : Fmt) (x : Num) : Res :=
  match x with
  | .nan => (f.nanC.getD 0, flagNAN)
  | .inf neg => if f.hasInf then (f.withSign neg (f.maxC + 1), 0) else (f.withSign neg f.maxC, flagSAT ||| flagINX)
  | .fin neg m e =>
    let (fm, fe) := f.magOf f.maxC
    if magLt fm fe m e then (f.withSign neg f.maxC, flagSAT ||| flagINX)
    else
      let (c, inx) := f.round m e
      (f.withSign neg c, f.flags m c inx)

/-- Source and destination element bytes of a conversion. -/
def cvtBytes (s : Nat) : Nat × Nat :=
  match s with
  | 0 => (4, 2) | 1 => (2, 4) | 2 => (4, 1) | 3 => (4, 1) | 4 => (1, 4) | 5 => (1, 4) | 6 => (4, 1) | 7 => (1, 4)
  | _ => (4, 4)

/-- [DEDUCED: log 45] -/
def cvt (s w : Nat) : Res :=
  match s with
  | 0 => fBf16.ieee (f32 w)
  | 1 => fFp32.ieee (fBf16.decode w)
  | 2 => toFp8 fE4M3 (f32 w)
  | 3 => toFp8 fE5M2 (f32 w)
  | 4 => fFp32.ieee (fE4M3.decode w)
  | 5 => fFp32.ieee (fE5M2.decode w)
  | 6 => toInt 8 (f32 w)
  | 7 => fFp32.ieee (fInt8.decode w)
  | 8 => fFp32.ieee (let v := i32 w; .fin (decide (v < 0)) v.natAbs 0)
  | _ => toInt 32 (f32 w)

/-! ### One instruction -/

/-- The type code of an elementwise operation. -/
def VOp.ty : VOp → Nat
  | .add t => t.toNat | .sub t => t.toNat | .mul t => t.toNat | .fma t => t.toNat | .max t => t.toNat
  | .min t => t.toNat | .scl t => t.toNat | .exp t => t.toNat | .rcp t => t.toNat | .rsq t => t.toNat
  | .rsum t => t.toNat | .rmax t => t.toNat | _ => 0

/-- The element count (R97): register D, its low half for VRMSN. -/
def VEntry.count (e : VEntry) : Nat :=
  match e.op with
  | .rmsn => e.d.toNat % 2 ^ 32
  | _ => e.d.toNat

/-- The size of a WS48 buffer (R89). -/
def wsBytes (n : Nat) : Nat := 6 * n + n / 16

/-- The arrays an instruction reads: offset, bytes, alignment. -/
def VEntry.reads (e : VEntry) : List (Nat × Nat × Nat) :=
  let n := e.count
  let w := typeBytes e.op.ty
  let a := e.a.toNat
  let b := e.b.toNat
  let c := e.c.toNat
  match e.op with
  | .add _ | .sub _ | .mul _ | .max _ | .min _ => [(b, w * n, w), (c, w * n, w)]
  | .fma _ => [(a, w * n, w), (b, w * n, w), (c, w * n, w)]
  | .scl _ | .exp _ | .rcp _ | .rsq _ | .rsum _ | .rmax _ => [(b, w * n, w)]
  | .smax => [(b, 4 * n, 4)]
  | .rmsn => [(b, 4 * n, 4), (c, 4 * n, 4)]
  | .cvt s => [(b, (cvtBytes s.toNat).1 * n, (cvtBytes s.toNat).1)]
  | .bse _ => [(b, 4 * n, 4)]
  | .bsd s => [(a, (fmtWidth (s.toNat % 32) * n + 7) / 8, 1), (c, (n + 31) / 32, 1)]
  | .wsanc => [(b, 4 * n, 4)]
  | .wsenc => [(b, 4 * n, 4), (c, n / 16, 1)]
  | .wsaln => [(a, wsBytes n, 1), (b, n / 16, 1)]
  | .wsadd => [(a, wsBytes n, 1), (b, wsBytes n, 1)]
  | .wsrnd _ => [(b, wsBytes n, 1)]
  | .wsamx => [(a, n / 16, 1), (b, n / 16, 1)]

/-- The arrays an instruction writes. -/
def VEntry.writes (e : VEntry) : List (Nat × Nat × Nat) :=
  let n := e.count
  let w := typeBytes e.op.ty
  let a := e.a.toNat
  match e.op with
  | .rsum _ | .rmax _ => [(a, w, w)]
  | .cvt s => [(a, (cvtBytes s.toNat).2 * n, (cvtBytes s.toNat).2)]
  | .bse s => [(a, fmtWidth s.toNat * n / 8, 1), (e.c.toNat, n / 32, 1)]
  | .bsd _ => [(e.b.toNat, 4 * n, 4)]
  | .wsanc => [(a, n / 16, 1)]
  | .wsenc | .wsaln | .wsadd => [(a, wsBytes n, 1)]
  | .wsrnd bf => [(a, (if bf then 2 else 4) * n, if bf then 2 else 4)]
  | .wsamx => [(a, n / 16, 1)]
  | _ => [(a, w * n, w)]

/-- The multiple that the count must have. -/
def VEntry.group (e : VEntry) : Nat :=
  match e.op with
  | .bse _ => 32
  | .wsanc | .wsenc | .wsaln | .wsadd | .wsrnd _ | .wsamx => 16
  | _ => 1

/-- The checks made before an operand is read: the count (R97, R72, R89), alignment (R96), range (R79).
[DEDUCED: log 46] -/
def VEntry.check (e : VEntry) : Option Nat :=
  let n := e.count
  if n = 0 ∨ 65536 < n ∨ n % e.group ≠ 0 then some 1
  else if (e.reads ++ e.writes).any (fun r => r.1 % r.2.2 != 0) then some 7
  else if (e.reads ++ e.writes).any (fun r => !inProg r.1 r.2.1) then some 2
  else none

/-- Results of an array as bytes at an offset. -/
def resBytes (off w : Nat) (l : List Res) : List (Nat × Byte) × BitVec 8 :=
  (cellsAt off (l.flatMap (fun r => leBytes w r.1)), l.foldl (fun a r => a ||| r.2) 0)

/-- An elementwise operation over arrays. -/
def elemAll (off w n : Nat) (f : Nat → Res) : List (Nat × Byte) × BitVec 8 := resBytes off w ((List.range n).map f)

/-- VSMAX (R99). [DEDUCED: log 44] -/
def softmax (l : List Nat) : List Res :=
  let m := vrmax 0 l
  let es := l.map (fun x =>
    let d := f32op ((f32 x).add (f32 m.1).negate)
    let r := approxOp 0 false d.1
    (r.1, r.2 ||| d.2 ||| m.2))
  let s := sumF32 (es.map (·.1))
  let q := approxOp 1 false s.1
  es.map (fun x =>
    let r := f32mul x.1 q.1
    (r.1, r.2 ||| x.2 ||| s.2 ||| q.2))

/-- fp32(1 / n), rounded to nearest. A constant of the instruction: its own rounding sets no bit. [DESIGN CHOICE: log 183] -/
def recipF32 (n : Nat) : Res :=
  fFp32.ieee (.fin false (2 * (2 ^ 200 / n) + (if 2 ^ 200 % n = 0 then 0 else 1)) (-201))

/-- VRMSN (R97). [DEDUCED: log 44] -/
def rmsnorm (b c : List Nat) (eps : Nat) : List Res :=
  let sq := b.map (fun x => f32mul x x)
  let s := sumF32 (sq.map (·.1))
  let inv := (recipF32 b.length).1
  let m := f32mul s.1 inv
  let p := f32add m.1 eps
  let q := approxOp 2 false p.1
  let fl := sq.foldl (fun a r => a ||| r.2) (s.2 ||| m.2 ||| p.2 ||| q.2)
  (b.zip c).map (fun x =>
    let y := f32mul x.1 x.2
    let z := f32mul y.1 q.1
    (z.1, z.2 ||| y.2 ||| fl))

/-- A number is neither a NaN nor an infinity. -/
def isFin : Num → Bool
  | .fin .. => true
  | _ => false

/-- The groups of a WS48 buffer in memory. -/
def Memory.ws (m : Memory) (off n : Nat) : List (Nat × List Int) := wsRead (m.readN off (wsBytes n)) n

/-- What the instruction writes and which bits it sets, or the fault code 0x06 (R91, R92). -/
def VEntry.compute (e : VEntry) (m : Memory) (neg : Bool) : Except Nat (List (Nat × Byte) × BitVec 8) :=
  let n := e.count
  let t := e.op.ty
  let w := typeBytes t
  let a := e.a.toNat
  let b := e.b.toNat
  let c := e.c.toNat
  let two (f : List Num → Num) (g : List Int → Int) := Except.ok (elemAll a w n (fun i => elemOp t f g [m.arr b w i, m.arr c w i]))
  match e.op with
  | .add _ => two (num2 Num.add) (int2 (· + ·))
  | .sub _ => two (num2 (fun x y => x.add y.negate)) (int2 (· - ·))
  | .mul _ => two (num2 Num.mul) (int2 (· * ·))
  | .max _ => two (num2 Num.maxOf) (int2 max)
  | .min _ => two (num2 Num.minOf) (int2 min)
  | .fma _ => .ok (elemAll a w n (fun i =>
      elemOp t (num3 (fun x y z => x.add (y.mul z))) (int3 (fun x y z => x + y * z)) [m.arr a w i, m.arr b w i, m.arr c w i]))
  | .scl _ => .ok (elemAll a w n (fun i => elemOp t (num2 Num.mul) (int2 (· * ·)) [m.arr b w i, e.c.toNat % 256 ^ w]))
  | .exp _ => .ok (elemAll a w n (fun i => approxOp 0 (t == 1) (m.arr b w i)))
  | .rcp _ => .ok (elemAll a w n (fun i => approxOp 1 (t == 1) (m.arr b w i)))
  | .rsq _ => .ok (elemAll a w n (fun i => approxOp 2 (t == 1) (m.arr b w i)))
  | .rsum _ => .ok (resBytes a w [vrsum t neg ((List.range n).map (m.arr b w))])
  | .rmax _ => .ok (resBytes a w [vrmax t ((List.range n).map (m.arr b w))])
  | .smax => .ok (resBytes a 4 (softmax ((List.range n).map (m.arr b 4))))
  | .rmsn => .ok (resBytes a 4 (rmsnorm ((List.range n).map (m.arr b 4)) ((List.range n).map (m.arr c 4)) (e.d.toNat / 2 ^ 32)))
  | .cvt s => .ok (elemAll a (cvtBytes s.toNat).2 n (fun i => cvt s.toNat (m.arr b (cvtBytes s.toNat).1 i)))
  | .bse s =>
    match fmtOf s.toNat with
    | none => .error 1
    | some f =>
      .ok ((List.range (n / 32)).foldl (fun acc q =>
        let (sc, el, fl) := encodeBlock f ((List.range 32).map (fun i => f32 (m.arr b 4 (32 * q + i))))
        (acc.1 ++ cellsAt (a + 4 * f.width * q) (packBits f.width el) ++ [(c + q, BitVec.ofNat 8 sc)], acc.2 ||| fl)) ([], 0))
  | .bsd s =>
    match fmtOf (s.toNat % 32) with
    | none => .error 1
    | some f => .ok (elemAll b 4 n (fun i =>
        fFp32.ieee (scaleNum (m.read (c + i / 32)).toNat (f.decode (m.element a f.width i)))))
  | .wsanc => .ok (resBytes a 1 ((List.range (n / 16)).map (fun g =>
      ownAnchor ((List.range 16).map (fun i => f32 (m.arr b 4 (16 * g + i)))))))
  | .wsenc =>
    let gs := (List.range (n / 16)).map (fun g => ((m.read (c + g)).toNat, (List.range 16).map (fun i => f32 (m.arr b 4 (16 * g + i)))))
    if gs.any (fun g => decide (g.1 < (ownAnchor g.2).1)) then .error 6
    else
      let r := gs.map (fun g => ((g.1, g.2.map (fun x => (wsEncode g.1 x).1)),
        stickyIf (g.1 != 0xFF && g.2.any (fun x => (wsEncode g.1 x).2)) flagTRUNC ||| (ownAnchor g.2).2))
      .ok (cellsAt a (wsWrite (r.map (·.1))), r.foldl (fun x y => x ||| y.2) 0)
  | .wsaln =>
    let gs := (m.ws a n).zip ((List.range (n / 16)).map (fun g => (m.read (b + g)).toNat))
    if gs.any (fun g => decide (g.2 < g.1.1)) then .error 6
    else
      let r := gs.map (fun g => wsAlign g.2 g.1)
      .ok (cellsAt a (wsWrite (r.map (·.1))), r.foldl (fun x y => x ||| y.2) 0)
  | .wsadd =>
    let gs := (m.ws a n).zip (m.ws b n)
    if gs.any (fun g => decide (g.1.1 ≠ 0xFF ∧ g.2.1 ≠ 0xFF ∧ g.1.1 ≠ g.2.1)) then .error 6
    else
      let r := gs.map (fun g =>
        if g.1.1 = 0xFF ∨ g.2.1 = 0xFF then ((0xFF, g.1.2.map (fun _ => (0 : Int))), (0 : BitVec 8))
        else
          let es := (g.1.2.zip g.2.2).map (fun x => wsAddElem x.1 x.2)
          ((g.1.1, es.map (·.1)), es.foldl (fun x y => x ||| y.2) 0))
      .ok (cellsAt a (wsWrite (r.map (·.1))), r.foldl (fun x y => x ||| y.2) 0)
  | .wsrnd bf =>
    let f := if bf then fBf16 else fFp32
    .ok (resBytes a (if bf then 2 else 4) ((m.ws b n).flatMap (fun g => g.2.map (fun v =>
      match wsValue g.1 v with
      | .fin ng mm ee => f.tensor ng mm ee
      | _ => f.nanRes))))
  | .wsamx => .ok (elemAll a 1 (n / 16) (fun g => (max (m.read (a + g)).toNat (m.read (b + g)).toNat, 0)))

/-- A non-finite operand or a NaN-block was met, or a NaN-group made (ASTAT.NAN, R103). The anchor bytes that VWSAMX compares are no
operands of that kind. [DESIGN CHOICE: log 182] -/
def VEntry.nonFinite (e : VEntry) (m : Memory) : Bool :=
  let n := e.count
  let t := e.op.ty
  let a := e.a.toNat
  let b := e.b.toNat
  let c := e.c.toNat
  let bad (t off : Nat) := t != 2 && (List.range n).any (fun i =>
    let x := m.arr off (typeBytes t) i
    !isFin (f32 (if t = 1 then bf16Bits x else x)))
  let group (off : Nat) := (m.ws off n).any (fun g => g.1 == 0xFF)
  match e.op with
  | .add _ | .sub _ | .mul _ | .max _ | .min _ => bad t b || bad t c
  | .fma _ => bad t a || bad t b || bad t c
  | .scl _ => bad t b || (t != 2 && !isFin (f32 (if t = 1 then bf16Bits (c % 65536) else c % 2 ^ 32)))
  | .exp _ | .rcp _ | .rsq _ | .rsum _ | .rmax _ => bad t b
  | .smax | .bse _ | .wsanc | .wsenc => bad 0 b
  | .rmsn => bad 0 b || bad 0 c || !isFin (f32 (e.d.toNat / 2 ^ 32))
  | .cvt s => match s.toNat with
    | 0 | 2 | 3 | 6 | 9 => bad 0 b
    | 1 => bad 1 b
    | 4 => (List.range n).any (fun i => !isFin (fE4M3.decode (m.arr b 1 i)))
    | 5 => (List.range n).any (fun i => !isFin (fE5M2.decode (m.arr b 1 i)))
    | _ => false
  | .bsd s => (List.range n).any (fun i => (m.read (c + i / 32)).toNat == 0xFF || (match fmtOf (s.toNat % 32) with
    | some f => !isFin (f.decode (m.element a f.width i))
    | none => false))
  | .wsaln => group a || (List.range (n / 16)).any (fun g => m.read (b + g) == 0xFF)
  | .wsadd => group a || group b
  | .wsrnd _ => group b
  | .wsamx => false

/-! ### Commands -/

/-- A vector instruction issues into the 8-entry queue (02 R50); an unassigned SUB is illegal (R41).
[DESIGN CHOICE: log 3] -/
def State.issueV (s : State) (t : TileNo) (legal : Bool) (op : VOp) (a b c d : Reg) : Host.Outcome State Fault Refusal :=
  .next (s.runInstr t.val (fun x =>
    if !legal then .trap s vecIllegal 0 x.pc
    else if 8 ≤ x.vq.length then .stall
    else .next (s.setTile t.val { x with
      vq := x.vq ++ [⟨op, x.pc, x.reg a, x.reg b, x.reg c, x.reg d, []⟩] })))

def execVadd (t : TileNo) (sub : BitVec 2) (a b c d : Reg) (s : State) : Host.Outcome State Fault Refusal :=
  s.issueV t (sub != 3) (.add sub) a b c d
def execVsub (t : TileNo) (sub : BitVec 2) (a b c d : Reg) (s : State) : Host.Outcome State Fault Refusal :=
  s.issueV t (sub != 3) (.sub sub) a b c d
def execVmul (t : TileNo) (sub : BitVec 2) (a b c d : Reg) (s : State) : Host.Outcome State Fault Refusal :=
  s.issueV t (sub != 3) (.mul sub) a b c d
def execVfma (t : TileNo) (sub : BitVec 2) (a b c d : Reg) (s : State) : Host.Outcome State Fault Refusal :=
  s.issueV t (sub != 3) (.fma sub) a b c d
def execVmax (t : TileNo) (sub : BitVec 2) (a b c d : Reg) (s : State) : Host.Outcome State Fault Refusal :=
  s.issueV t (sub != 3) (.max sub) a b c d
def execVmin (t : TileNo) (sub : BitVec 2) (a b c d : Reg) (s : State) : Host.Outcome State Fault Refusal :=
  s.issueV t (sub != 3) (.min sub) a b c d
def execVscl (t : TileNo) (sub : BitVec 2) (a b c d : Reg) (s : State) : Host.Outcome State Fault Refusal :=
  s.issueV t (sub != 3) (.scl sub) a b c d
def execVexp (t : TileNo) (sub : BitVec 2) (a b d : Reg) (s : State) : Host.Outcome State Fault Refusal :=
  s.issueV t (sub.toNat < 2) (.exp sub) a b 0 d
def execVrcp (t : TileNo) (sub : BitVec 2) (a b d : Reg) (s : State) : Host.Outcome State Fault Refusal :=
  s.issueV t (sub.toNat < 2) (.rcp sub) a b 0 d
def execVrsq (t : TileNo) (sub : BitVec 2) (a b d : Reg) (s : State) : Host.Outcome State Fault Refusal :=
  s.issueV t (sub.toNat < 2) (.rsq sub) a b 0 d
def execVrsum (t : TileNo) (sub : BitVec 2) (a b d : Reg) (s : State) : Host.Outcome State Fault Refusal :=
  s.issueV t (sub != 3) (.rsum sub) a b 0 d
def execVrmax (t : TileNo) (sub : BitVec 2) (a b d : Reg) (s : State) : Host.Outcome State Fault Refusal :=
  s.issueV t (sub != 3) (.rmax sub) a b 0 d
def execVsmax (t : TileNo) (a b d : Reg) (s : State) : Host.Outcome State Fault Refusal :=
  s.issueV t true .smax a b 0 d
def execVrmsn (t : TileNo) (a b c d : Reg) (s : State) : Host.Outcome State Fault Refusal :=
  s.issueV t true .rmsn a b c d
def execVcvt (t : TileNo) (sub : BitVec 6) (a b d : Reg) (s : State) : Host.Outcome State Fault Refusal :=
  s.issueV t (sub.toNat < 10) (.cvt sub) a b 0 d
def execVbse (t : TileNo) (sub : BitVec 6) (a b c d : Reg) (s : State) : Host.Outcome State Fault Refusal :=
  s.issueV t (1 ≤ sub.toNat && sub.toNat ≤ 7) (.bse sub) a b c d
def execVbsd (t : TileNo) (sub : BitVec 6) (a b c d : Reg) (s : State) : Host.Outcome State Fault Refusal :=
  s.issueV t (0x21 ≤ sub.toNat && sub.toNat ≤ 0x27) (.bsd sub) a b c d
def execVwsanc (t : TileNo) (a b d : Reg) (s : State) : Host.Outcome State Fault Refusal :=
  s.issueV t true .wsanc a b 0 d
def execVwsenc (t : TileNo) (a b c d : Reg) (s : State) : Host.Outcome State Fault Refusal :=
  s.issueV t true .wsenc a b c d
def execVwsaln (t : TileNo) (a b d : Reg) (s : State) : Host.Outcome State Fault Refusal :=
  s.issueV t true .wsaln a b 0 d
def execVwsadd (t : TileNo) (a b d : Reg) (s : State) : Host.Outcome State Fault Refusal :=
  s.issueV t true .wsadd a b 0 d
def execVwsrnd (t : TileNo) (bf16 : Bool) (a b d : Reg) (s : State) : Host.Outcome State Fault Refusal :=
  s.issueV t true (.wsrnd bf16) a b 0 d
def execVwsamx (t : TileNo) (a b d : Reg) (s : State) : Host.Outcome State Fault Refusal :=
  s.issueV t true .wsamx a b 0 d

/-- The sticky bits that an instruction can set (R103). -/
def VOp.sticky (o : VOp) : BitVec 8 :=
  let base := flagINX ||| flagOVF ||| flagUFL ||| flagNAN
  match o with
  | .rcp _ | .rsq _ => base ||| flagDIVZ
  | .wsadd => base ||| flagTRUNC ||| flagWSOVF
  | .cvt _ | .bse _ | .bsd _ | .wsenc | .wsaln | .wsrnd _ => base ||| flagSAT ||| flagTRUNC
  | _ => base

/-- The head of the vector queue faults: it and every later instruction are discarded (02 R52); a fault met after the checks may
have set any sticky bit of its own (R103). A fault that is still to be taken keeps its record. [DESIGN CHOICE: log 181] -/
def State.vectorFault (s : State) (n code : Nat) (sticky : BitVec 8) : State :=
  let t := s.tile n
  match t.vq with
  | [] => s
  | e :: r =>
    let f := match t.vfault with
      | some x => some x
      | none => some (BitVec.ofNat 8 code, e.pc, min r.length 15)
    (s.setTile n { t with vq := [], vfault := f, vAst := t.vAst ++ [(sticky, some (BitVec.ofNat 8 code))] }).settle n

/-- What the head of the vector queue writes on a scratchpad, and its sticky bits. -/
def VEntry.result (e : VEntry) (m : Memory) : Except Nat (List (Nat × Byte) × BitVec 8) :=
  match e.compute m (Config.zeroSum e.count) with
  | .ok (w, fl) => .ok (w, fl ||| stickyIf (e.nonFinite m) flagNAN)
  | .error c => .error c

/-- VECTOR_FINISH (03 R104): the head of the vector queue reads its operands, computes and writes, or faults.
[DEDUCED: log 47] -/
def execVectorFinish (t : TileNo) (s : State) : Host.Outcome State Fault Refusal :=
  let x := s.tile t.val
  let n := t.val
  .next (if x.drain.isSome then s else
    match x.vq with
    | [] => s
    | e :: r =>
      match e.check with
      | some c => s.vectorFault n c 0
      | none =>
        match s.unitReads n (e.reads.map (fun y => (y.1, y.2.1))) with
        | (s, true) => s.draw.vectorFault n 3 (Config.freeByte s.free &&& e.op.sticky)
        | (s, false) =>
          match e.result (seenBy (s.tile n).scratch e.late s.free) with
          | .error c => s.draw.vectorFault n c (Config.freeByte s.free &&& e.op.sticky)
          | .ok (w, fl) =>
            let s := (if e.late.isEmpty then s else s.draw).unitWrites n w
            let y := s.tile n
            (s.setTile n { y with vq := r, vAst := y.vAst ++ [(fl, none)], lastFc := s.now }).settle n)

end Sys2Proof.Machine
end

