-- ==== Sys2Proof/Machine/TileMemory.lean ====
section
/-! DEFINITION. Scratchpad loads and stores of a control core (02 R41, R45, R47, R64). -/

namespace Sys2Proof.Machine

/-- Why a scratchpad access traps before it is made: the address fault first (R64), then misalignment.
[DEDUCED: log 23] -/
def Tile.spadTrap (t : Tile) (a : Word) (n : Nat) : Option Nat :=
  if !spadReach t.cst.pl a.toNat n then some vecAddress
  else if a.toNat % n ≠ 0 then some vecMisaligned else none

/-- Ranges that the instructions in execution at the heads of the two queues have still to write. -/
def Tile.pendingRanges (t : Tile) : List (Nat × Nat) :=
  (match t.tq with
    | e :: _ => match e.run with
      | some r => if e.op == .tanc then r.writes.map (fun c => (c.1, 1))
          else if r.phase ≤ 1 then (tdescOf r.tdesc).oplane else []
      | none => []
    | [] => []) ++
  (match t.vq with
    | e :: _ => if e.check = none then e.writes.map (fun w => (w.1, w.2.1)) else []
    | [] => [])

/-- The load races a unit's write of its word (R49). [DEDUCED: log 32] -/
def Tile.races (t : Tile) (off : Nat) : Bool := t.pendingRanges.any (overlap (off / 8 * 8, 8))

/-- What the two heads would write on the present scratchpad: the tensor unit's cells and the vector unit's. -/
def Tile.pendingCells (t : Tile) : List (Nat × Byte) :=
  (match t.tq with
    | e :: _ => match e.run with
      | some r => if e.op == .tanc then r.writes
          else if r.phase ≤ 1 then ((tdescOf r.tdesc).output t.scratch r.anchor).1 else []
      | none => []
    | [] => []) ++
  (match t.vq with
    | e :: _ => match e.result t.scratch with
      | .ok (w, _) => w
      | .error _ => []
    | [] => [])

/-- The bytes of a range with the units' writes in place. [DEDUCED: log 32] -/
def Tile.newBytes (t : Tile) (off n : Nat) : List Byte :=
  Memory.readN (Memory.writeCells t.scratch (t.pendingCells.filter (fun c => decide (off ≤ c.1 ∧ c.1 < off + n)))) off n

/-- A core store that reaches words while an instruction runs at the head of a queue: the unit may still read their old bytes
(R49). -/
def Tile.noteLate (t : Tile) (off n : Nat) : Tile :=
  let add (l : List (Nat × List Byte)) := (wordsOf off n).foldl (fun l w =>
    if l.any (fun e => e.1 == w) then l else l ++ [(w, t.scratch.readN (8 * w) 8)]) l
  { t with tq := (match t.tq with
             | e :: q => if e.run.isSome then { e with late := add e.late } :: q else e :: q
             | [] => []),
           vq := (match t.vq with
             | e :: q => { e with late := add e.late } :: q
             | [] => []) }

/-- What a core load returns: in a race the old or the new value of the whole word, freely (R49). -/
def State.loadBytes (s : State) (n off len : Nat) : State × Except Nat (List Byte) :=
  let t := s.tile n
  match s.spRead n off len with
  | (s', .ok b) =>
    if t.races off then (s'.draw, .ok (if Config.freeBool s.free then t.newBytes off len else b)) else (s', .ok b)
  | r => r

/-- A load of `n` bytes, sign-extended; a double-bit word raises vector 0x07 with the word's offset. -/
def State.runLoad (s : State) (t : TileNo) (n : Nat) (rd rs1 : Reg) (imm : BitVec 16) :
    Host.Outcome State Fault Refusal :=
  .next (s.runInstr t.val (fun x =>
    let a := x.reg rs1 + simm imm
    match x.spadTrap a n with
    | some v => .trap s v 0 a
    | none =>
      match s.loadBytes t.val a.toNat n with
      | (s', .ok b) => .next (s'.writeReg t.val rd (BitVec.ofInt 64 (sext (8 * n) (leNat b))))
      | (s', .error w) => .trap s' vecScratchpad 0 (BitVec.ofNat 64 (8 * w))))

/-- A store of the low `n` bytes of RD. -/
def State.runStore (s : State) (t : TileNo) (n : Nat) (rd rs1 : Reg) (imm : BitVec 16) :
    Host.Outcome State Fault Refusal :=
  .next (s.runInstr t.val (fun x =>
    let a := x.reg rs1 + simm imm
    match x.spadTrap a n with
    | some v => .trap s v 0 a
    | none => .next ((s.setTile t.val (x.noteLate a.toNat n)).spWrite t.val a.toNat (leBytes n (x.reg rd).toNat))))

def execLdd (t : TileNo) (rd rs1 : Reg) (imm : BitVec 16) (s : State) : Host.Outcome State Fault Refusal :=
  s.runLoad t 8 rd rs1 imm
def execLdw (t : TileNo) (rd rs1 : Reg) (imm : BitVec 16) (s : State) : Host.Outcome State Fault Refusal :=
  s.runLoad t 4 rd rs1 imm
def execLdh (t : TileNo) (rd rs1 : Reg) (imm : BitVec 16) (s : State) : Host.Outcome State Fault Refusal :=
  s.runLoad t 2 rd rs1 imm
def execLdb (t : TileNo) (rd rs1 : Reg) (imm : BitVec 16) (s : State) : Host.Outcome State Fault Refusal :=
  s.runLoad t 1 rd rs1 imm
def execStd (t : TileNo) (rd rs1 : Reg) (imm : BitVec 16) (s : State) : Host.Outcome State Fault Refusal :=
  s.runStore t 8 rd rs1 imm
def execStw (t : TileNo) (rd rs1 : Reg) (imm : BitVec 16) (s : State) : Host.Outcome State Fault Refusal :=
  s.runStore t 4 rd rs1 imm
def execSth (t : TileNo) (rd rs1 : Reg) (imm : BitVec 16) (s : State) : Host.Outcome State Fault Refusal :=
  s.runStore t 2 rd rs1 imm
def execStb (t : TileNo) (rd rs1 : Reg) (imm : BitVec 16) (s : State) : Host.Outcome State Fault Refusal :=
  s.runStore t 1 rd rs1 imm

end Sys2Proof.Machine
end

