-- ==== Sys2Proof/Machine/TilePort.lean ====
section
/-!
DEFINITION. The tile port (02 R53 to R63, 07 R203): GLD, GST and ATOM, DMA, the waits of the core, replies, and inbound
packets.
-/

namespace Sys2Proof.Machine

/-! ### GLD, GST, ATOM -/

/-- Why a global access of 8 bytes traps at issue (R26, R64). -/
def globalTrap (a : Word) (pstBad atomic : Bool) : Option Nat :=
  if gaFault a pstBad || gaRangeFault (clearPst a) 1 || (atomic && decide (1 < gaRegion a)) then some vecAddress
  else if a.toNat % 8 ≠ 0 then some vecMisaligned else none

/-- The access cannot issue now: no reply space, a retried access to the same chip, or a moving id.
[DESIGN CHOICE: log 3] -/
def State.portStall (s : State) (x : Tile) (a : Word) (m : Option (SMap Outst)) : Bool :=
  s.held a || (!gaRlx a && x.retrying (gaChip a)) || (match m with | some t => (freeTag t).isNone | none => false)

/-- A read that holds the core until its reply: GLD or ATOM. -/
def State.readAccess (s : State) (n : Nat) (x : Tile) (rd : Reg) (kind typ : BitVec 4) (a : Word) (pl : List Byte)
    (atomic : Bool) : IRes :=
  match globalTrap a true atomic with
  | some v => .trap s v 0 a
  | none =>
    if s.targetOff a then .trap s vecRemote 0 a
    else if s.portStall x a (some x.reads) then .stall
    else
      let tag := (freeTag x.reads).getD 0
      let p := s.tilePacket n tag x.tag typ a (if atomic then 24 else 8) pl
      let s := s.sendRead n tag kind none p
      .hold (s.setTile n { s.tile n with wait := .reply rd tag })

/-- GLD (R53): RD = the 64-bit word at the global address in RS1. [DEDUCED: log 28] -/
def execGld (t : TileNo) (rd rs1 : Reg) (s : State) : Host.Outcome State Fault Refusal :=
  .next (s.runInstr t.val (fun x => s.readAccess t.val x rd kGLD tRD (x.reg rs1) [] false))

/-- GST (R53): the word in RS2 to the global address in RS1; posted where PST is 1. A target that is Off is answered by this port
(R62): an acknowledged store takes the remote error, a posted one is dropped. -/
def execGst (t : TileNo) (rs1 rs2 : Reg) (s : State) : Host.Outcome State Fault Refusal :=
  .next (s.runInstr t.val (fun x =>
    let a := x.reg rs1
    let b := leBytes 8 (x.reg rs2).toNat
    match globalTrap a false false with
    | some v => .trap s v 0 a
    | none =>
      let post := gaPst a
      if s.targetOff a then (if post then .next s else .trap s vecRemote 0 a)
      else if s.portStall x a (if post then none else some x.writes) then .stall
      else if post then .next (s.sendPkt (.tile t.val) (s.tilePacket t.val 0 x.tag tWRP a 8 b))
      else
        let tag := (freeTag x.writes).getD 0
        .next (s.sendWrite t.val tag kGST none (s.tilePacket t.val tag x.tag tWR a 8 b))))

/-- ATOM (R54): operand B, compare D, address C, the old value to A. [DEDUCED: log 28] -/
def State.runAtom (s : State) (t : TileNo) (op : Nat) (a b c d : Reg) : Host.Outcome State Fault Refusal :=
  .next (s.runInstr t.val (fun x =>
    s.readAccess t.val x a kATOM tATM (x.reg c)
      (leBytes 8 (x.reg b).toNat ++ leBytes 8 (x.reg d).toNat ++ leBytes 8 op) true))

def execAtomSwap (t : TileNo) (a b c d : Reg) (s : State) : Host.Outcome State Fault Refusal := s.runAtom t 0 a b c d
def execAtomAdd (t : TileNo) (a b c d : Reg) (s : State) : Host.Outcome State Fault Refusal := s.runAtom t 1 a b c d
def execAtomCas (t : TileNo) (a b c d : Reg) (s : State) : Host.Outcome State Fault Refusal := s.runAtom t 2 a b c d
def execAtomMax (t : TileNo) (a b c d : Reg) (s : State) : Host.Outcome State Fault Refusal := s.runAtom t 3 a b c d
def execAtomMin (t : TileNo) (a b c d : Reg) (s : State) : Host.Outcome State Fault Refusal := s.runAtom t 4 a b c d

/-! ### DMA -/

/-- The lowest-numbered free handle. [DEDUCED: log 34] -/
def Tile.freeHandle (t : Tile) : Option Nat :=
  ((List.range 8).filter (fun i => t.handles.toList.getD i .free == .free)).head?

/-- The transfer that a descriptor starts (R55 to R57): at once completed with a status, or running: its requests leave as far as
reply spaces reach, and bytes that stay in the scratchpad move when it completes; a PE transfer hands its stream descriptor to the engine and is sent again later where the engine answers with a retry.
[DEDUCED: log 58] -/
def State.dmaStart (s : State) (n h : Nat) (fw : Bool) (ten : BitVec 7) (off : Word) : State :=
  let fin (s : State) (st : Nat) := s.dmaMark n h st
  if off.toNat % 32 ≠ 0 ∨ !inProg off.toNat 32 then fin s 1 else
  match s.spRead n off.toNat 32 with
  | (s, .error _) => fin s 4
  | (s, .ok b) =>
    let d := dmaDescOf b
    let pe := bitAt d.flags 0
    let post := bitAt d.flags 1
    let src := clearPst d.src
    let dst := clearPst d.dst
    let run (s : State) := s.setXfer n h (d.xfer src dst post pe (!fw))
    if d.len = 0 ∨ 1048576 < d.len ∨ d.rows = 0 ∨ d.flags / 4 ≠ 0 ∨ (pe ∧ d.sstride ≠ 0) then fin s 1
    else if (pe && (gaFault src false || gaRangeFault src 64)) || (!pe && rowsFault src d.sstride d.len d.rows) ||
        rowsFault dst d.dstride d.len d.rows then fin s 2
    else if pe && (!s.ownSpad n src || src.toNat % 64 != 0 || !inProg (gaByte src) 64) then fin s 3
    else if !fw && ((!pe && s.rowsLocal n src d.sstride d.len d.rows) || s.rowsLocal n dst d.dstride d.len d.rows) then fin s 3
    else if pe then
      match s.spRead n (gaByte src) 64 with
      | (s, .error _) => fin s 4
      | (s, .ok sd) =>
        match (run s).streamAdmit n h d.len d.rows (if fw then 0 else ten) sd with
        | (s, true) => s
        | (s, false) =>
          let t := s.tile n
          let tag := (freeTag t.reads).getD 0
          let pk := s.tilePacket n tag (if fw then 0 else ten) tRD (BitVec.ofNat 64 h) d.len sd
          let e : Outst := ⟨src, (s.psw (n / 72)).gen, false, t.pc, kSTREAM, true, pk, s.now + 256, none⟩
          s.setTile n { t with reads := SMap.set t.reads tag e }
    else if s.ownSpad n src && s.ownSpad n dst then run s else (run s).dmaPump n h

/-- A PE transfer needs a free reply space; with none DMA.GO stalls (R53). -/
def Tile.needsSpace (t : Tile) (off : Word) : Bool :=
  bitAt (leNat (t.scratch.readN (off.toNat + 22) 1)) 0 && (freeTag t.reads).isNone

/-- DMA.GO (R55). With no free handle it stalls while one is running, else it traps with detail 0x01.
[DEDUCED: log 34] -/
def execDmaGo (t : TileNo) (a b : Reg) (s : State) : Host.Outcome State Fault Refusal :=
  .next (s.runInstr t.val (fun x =>
    match x.freeHandle with
    | none => if x.handles.toList.any Handle.isRunning then .stall else .trap s vecDma 1 x.pc
    | some h =>
      let off := x.reg b
      if x.needsSpace off then .stall else
      let s := s.writeReg t.val a (BitVec.ofNat 64 h)
      .next (s.dmaStart t.val h x.cst.pl x.tenant off)))

/-- DMA.WAIT (R55). -/
def execDmaWait (t : TileNo) (a b : Reg) (s : State) : Host.Outcome State Fault Refusal :=
  .next (s.runInstr t.val (fun x =>
    if 7 < (x.reg b).toNat then .trap s vecDma 2 x.pc else
    match x.handles.toList.getD (x.reg b).toNat .free with
    | .free => .next (s.writeReg t.val a 6)
    | .completed st => .next (s.setTile t.val (x.retireHandle a (x.reg b).toNat st))
    | .running .. => .hold (s.setTile t.val { x with wait := .dmaWait a (x.reg b).toNat })))

/-- DMA.TEST (R55). -/
def execDmaTest (t : TileNo) (a b : Reg) (s : State) : Host.Outcome State Fault Refusal :=
  .next (s.runInstr t.val (fun x =>
    if 7 < (x.reg b).toNat then .trap s vecDma 2 x.pc else
    match x.handles.toList.getD (x.reg b).toNat .free with
    | .free => .next (s.writeReg t.val a 6)
    | .completed st => .next (s.setTile t.val (x.retireHandle a (x.reg b).toNat st))
    | .running .. => .next (s.writeReg t.val a 0xFF)))

/-- DMA_COMPLETE (R56, R57): the engine goes on with the transfer, and once nothing is left to ask for or to write and every
request is answered it completes: with 0x00, or with the status of its failure. [DEDUCED: log 35] -/
def execDmaComplete (n : PartNo) (x : Fin 72) (h : Fin 8) (s : State) : Host.Outcome State Fault Refusal :=
  let n := 72 * n.val + x.val
  .next (if (s.tile n).drain.isSome then s else
    let s := s.dmaPump n h.val
    match (s.tile n).xfer? h.val with
    | none => s
    | some x => if s.dmaOver n h.val x then s.dmaFinish n h.val x else s)

/-! ### Synchronisation -/

/-- FENCE (R53). [DEDUCED: log 30] -/
def execFence (t : TileNo) (s : State) : Host.Outcome State Fault Refusal :=
  .next (s.runInstr t.val (fun x => .hold ((s.setTile t.val { x with wait := .fence }).settle t.val)))

/-- WAITV (R58): the word at the offset is compared at issue and again at each write to its line. An offset that is misaligned or
out of reach, and a double-bit word, trap as for a load. [DESIGN CHOICE: log 176] -/
def State.runWaitv (s : State) (t : TileNo) (ge : Bool) (a b c : Reg) : Host.Outcome State Fault Refusal :=
  .next (s.runInstr t.val (fun x =>
    let off := x.reg b
    match x.spadTrap off 8 with
    | some v => .trap s v 0 off
    | none =>
      match s.spRead t.val off.toNat 8 with
      | (s, .error w) => .trap s vecScratchpad 0 (BitVec.ofNat 64 (8 * w))
      | (s, .ok _) =>
        let y := s.tile t.val
        let due := if y.wto = 0 then none else some (s.tcOf t.val + y.wto.toNat)
        let w := Wait.waitv ge off.toNat (x.reg c) a due false
        if y.waitMet w then .next (s.writeReg t.val a 0)
        else .hold (s.setTile t.val { y with wait := w })))

def execWaitvEq (t : TileNo) (a b c : Reg) (s : State) : Host.Outcome State Fault Refusal := s.runWaitv t false a b c
def execWaitvGe (t : TileNo) (a b c : Reg) (s : State) : Host.Outcome State Fault Refusal := s.runWaitv t true a b c

/-- WAITV_WAKE (R58): a write made the condition true, or it holds now; 0 goes to A. -/
def execWaitvWake (t : TileNo) (s : State) : Host.Outcome State Fault Refusal :=
  let x := s.tile t.val
  .next (match x.wait with
    | .waitv ge off v rd due met =>
      if x.running && !x.halted && x.drain.isNone && (met || x.waitMet (.waitv ge off v rd due met)) then
        ((s.writeReg t.val rd 0).retire t.val (x.pc + 4)).boundary t.val
      else s
    | _ => s)

/-- WAITV_TIMEOUT (R58): WTO tc have passed; 1 goes to A. -/
def execWaitvTimeout (t : TileNo) (s : State) : Host.Outcome State Fault Refusal :=
  let x := s.tile t.val
  .next (match x.wait with
    | .waitv _ _ _ rd (some d) false =>
      if x.running && !x.halted && x.drain.isNone && decide (d ≤ s.tcOf t.val) then
        ((s.writeReg t.val rd 1).retire t.val (x.pc + 4)).boundary t.val
      else s
    | _ => s)

/-- BAR (R59): the tile has executed one more BAR and waits for the others. -/
def execBar (t : TileNo) (s : State) : Host.Outcome State Fault Refusal :=
  .next (s.runInstr t.val (fun x => .hold (s.setTile t.val { x with bars := x.bars + 1, wait := .bar })))

/-- Every tile of the job has executed BAR once more than the barriers released (R59). -/
def State.barMet (s : State) (k : DescKey) (j : Job) : Bool :=
  (psetList j.pset).all (fun n => j.admitted.contains n) && !j.tiles.isEmpty &&
    j.tiles.all (fun n => let x := s.tile n
      x.running && x.key == k && x.wait == .bar && x.bars == j.barriers + 1)

/-- BAR_RELEASE (R59). -/
def execBarRelease (key : DescKey) (s : State) : Host.Outcome State Fault Refusal :=
  .next (match s.job? key with
    | none => s
    | some j =>
      if s.barMet key j then
        j.tiles.foldl (fun s n => (s.retire n ((s.tile n).pc + 4)).boundary n)
          (s.setJob key { j with barriers := j.barriers + 1 })
      else s)

/-- TWAIT and VWAIT (R51). -/
def execTwait (t : TileNo) (a : Reg) (s : State) : Host.Outcome State Fault Refusal :=
  .next (s.runInstr t.val (fun x => .hold ((s.setTile t.val { x with wait := .twait (x.reg a) }).settle t.val)))
def execVwait (t : TileNo) (a : Reg) (s : State) : Host.Outcome State Fault Refusal :=
  .next (s.runInstr t.val (fun x => .hold ((s.setTile t.val { x with wait := .vwait (x.reg a) }).settle t.val)))

/-- LAYR (R60). -/
def execLayr (t : TileNo) (a : Reg) (s : State) : Host.Outcome State Fault Refusal :=
  .next (s.runReg t.val a (fun _ => s.lay.time))

/-- LAYW (R60): waits until Lay time is at least B. -/
def execLayw (t : TileNo) (a b : Reg) (s : State) : Host.Outcome State Fault Refusal :=
  .next (s.runInstr t.val (fun x =>
    if (x.reg b).ule s.lay.time then .next (s.writeReg t.val a s.lay.time)
    else .hold (s.setTile t.val { x with wait := .layw (x.reg b) a })))

/-- LAYW_WAKE (R60). -/
def execLaywWake (t : TileNo) (s : State) : Host.Outcome State Fault Refusal :=
  let x := s.tile t.val
  .next (match x.wait with
    | .layw v rd =>
      if x.running && !x.halted && x.drain.isNone && v.ule s.lay.time then
        ((s.writeReg t.val rd s.lay.time).retire t.val (x.pc + 4)).boundary t.val
      else s
    | _ => s)

/-! ### Replies (07 R202, R203; 17 R465) -/

/-- An entry is old: marked so at a tile reset, or of an earlier generation (17 R465). -/
def State.isOld (s : State) (n : Nat) (e : Outst) : Bool := e.old || e.gen != (s.psw (n / 72)).gen

/-- The reply space of an entry. -/
def Tile.entry (t : Tile) (write : Bool) (tag : Nat) : Option Outst := SMap.find? (if write then t.writes else t.reads) tag

def Tile.freeEntry (t : Tile) (write : Bool) (tag : Nat) : Tile :=
  if write then { t with writes := SMap.del t.writes tag } else { t with reads := SMap.del t.reads tag }

/-- An access of partition `n` leaves the die: its target is another package, or a tile or a stack of the other die (05 R141). -/
def State.awayFrom (s : State) (n : Nat) (a : Word) : Bool :=
  gaChip a != s.ownChip ||
    (gaRegion a == 0 && decide (6 ≤ s.stackOfAddr a) != decide (6 ≤ n)) || (gaRegion a == 1 && decide (6 ≤ gaLtid a / 70) != decide (6 ≤ n))

/-- The partition port's own table (17 R465): its matching entry for every request of the partition that leaves through it, for
another package or the other die. It stands from the issue to the reply beside the tile port's entry, so it is read off that one;
tile, write, tag. [DEDUCED: log 170] -/
def State.portTable (s : State) (n : Nat) : List (Nat × Bool × Nat) :=
  let away (e : Nat × Outst) : Bool := s.awayFrom n e.2.addr
  ((List.range 72).map (· + 72 * n)).flatMap (fun t =>
    ((s.tile t).reads.filter away).map (fun e => (t, false, e.1)) ++ ((s.tile t).writes.filter away).map (fun e => (t, true, e.1)))

/-- A reply that meets an old entry is dropped and counted, and the entry is freed, at the first port that holds it: the partition
port for one of `portTable`, else the tile port. [DEDUCED: log 170] -/
def State.lateDrop (s : State) (n : Nat) (write : Bool) (tag : Nat) : State :=
  let p := s.part (n / 72)
  (s.setTile n ((s.tile n).freeEntry write tag)).setPart (n / 72) { p with lateDrops := satAdd p.lateDrops 1 0xFFFF }

/-- A reply reaches the tile port of tile `n`. -/
def State.tileReply (s : State) (n : Nat) (p : Packet) : State :=
  let tag := p.replyRid.toNat % 64
  let write := p.typ == tACK
  match (s.tile n).entry write tag with
  | none => s
  | some e =>
    if s.isOld n e then s.lateDrop n write tag
    else if e.retry then s
    else if p.status = stRetry then
      if (s.tile n).drain.isSome then s.setTile n ((s.tile n).freeEntry write tag)
      else
        let t := s.tile n
        if write then s.setTile n { t with writes := SMap.set t.writes tag { e with retry := true, due := s.now + 256 } }
        else s.setTile n { t with reads := SMap.set t.reads tag { e with retry := true, due := s.now + 256 } }
    else
      let s := s.setTile n ((s.tile n).freeEntry write tag)
      let t := s.tile n
      if t.drain.isSome then s
      else match e.dma with
      | some (h, i) => ((s.dmaReply n h i write p).dmaPumpAll n).settle n
      | none =>
      let s := s.dmaPumpAll n
      let t := s.tile n
      if write then
        if p.status = stOK then s.settle n
        else
          let s := s.setTile n { t with lateErr := match t.lateErr with | some a => some a | none => some (e.addr, e.pc) }
          s.settle n
      else
        match t.wait with
        | .reply rd w =>
          if w ≠ tag then s
          else if p.status = stOK then
            ((s.writeReg n rd (BitVec.ofNat 64 (fieldLE p.payload 0 8))).retire n (t.pc + 4)).boundary n
          else (s.setTile n { t with wait := .none }).takeTrap n vecRemote 0 e.addr t.pc
        | _ => s

/-- A request of a tile is sent again, 256 fc after a Retry (07 R203). -/
def State.tileResend (s : State) (n : Nat) (tag : BitVec 6) (write : Bool) : State :=
  let x := s.tile n
  match x.entry write tag.toNat with
    | none => s
    | some e =>
      if !e.retry || decide (s.now < e.due) || s.isOld n e || x.drain.isSome then s
      else if e.kind = kSTREAM then
        let h := e.pkt.addr.toNat
        match x.handles.toList.getD h .free with
        | .running x =>
          match s.streamAdmit n h x.len x.rows e.pkt.tenant e.pkt.payload with
          | (s, true) => (s.setTile n ((s.tile n).freeEntry false tag.toNat)).settle n
          | (s, false) => s
        | _ => s.setTile n (x.freeEntry false tag.toNat)
      else if write then
        (s.setTile n { x with writes := SMap.set x.writes tag.toNat { e with retry := false } }).sendPkt (.tile n) e.pkt
      else (s.setTile n { x with reads := SMap.set x.reads tag.toNat { e with retry := false } }).sendPkt (.tile n) e.pkt

/-- LATE_REPLY (17 R465): a reply meets an old entry of the tile port. -/
def execLateReply (t : TileNo) (pkt : Packet) (s : State) : Host.Outcome State Fault Refusal :=
  let n := t.val
  let tag := pkt.replyRid.toNat % 64
  let write := pkt.typ == tACK
  .next (match (s.tile n).entry write tag with
    | some e => if !s.isOld n e then s else match s.arrive (fun d => d == .tile n) pkt with
      | some (s, _) => s.lateDrop n write tag
      | none => s
    | none => s)

/-! ### Inbound packets (R62, R63) -/

/-- A refusal at the tile port: the error reply, and the record with its cause. -/
def State.portRefuse (s : State) (n : Nat) (p : Packet) (st cause : Nat) : State :=
  (s.tileRecord n cause (List.replicate 16 0 ++ leBytes 8 p.addr.toNat ++ leBytes 2 p.srcChip.toNat ++
    [p.tenant.setWidth 8])).answer p st []

/-- The region of an inbound packet that its tag may reach (R45, R63). -/
def portRegionOk (p : Packet) : Bool :=
  let o := gaByte p.addr
  let n := Packet.len p
  if p.tenant = 0 then decide (o + n ≤ spadEnd) else inProg o n

/-- Payload bytes of posted writes counted for an open fused step (09 R277): in GADDR, and in the result area. -/
def overlapLen (a n b m : Nat) : Nat := min (a + n) (b + m) - max a b

/-- Counts an accepted posted write of `n` bytes at `o` for the fused instruction at the head of the queue. -/
def Tile.countFused (t : Tile) (ten : BitVec 7) (o n : Nat) : Tile :=
  match t.tq with
  | [] => t
  | e :: q => match e.run with
    | none => t
    | some r =>
      if !r.opened || ten != t.tenant then t else
      let td := tdescOf r.tdesc
      let elems := td.m * td.n
      let size := if fieldLE r.fdesc 1 1 = 8 then 2 else 4
      let ar := e.op == .ar
      let rs := e.op == .rs
      let g := if ar || rs then overlapLen o n (fieldLE r.fdesc 0x10 4) (elems / 16) else 0
      let a := if ar then overlapLen o n (fieldLE r.fdesc 8 4) (elems * size)
        else if rs then overlapLen o n (fieldLE r.fdesc 8 4) (elems / r.n * size) else 0
      { t with tq := { e with run := some { r with ggot := r.ggot + g, rgot := r.rgot + a } } :: q }

/-- An accepted inbound packet is carried out in the scratchpad. -/
def State.portServe (s : State) (n : Nat) (p : Packet) : State :=
  let o := gaByte p.addr
  if p.typ == tRD || p.typ == tPUSH then
    match s.spRead n o (Packet.len p) with
    | (s, .ok b) =>
      if p.typ == tRD then s.answer p stOK b
      else s.sendPkt (.tile n) { p with addr := BitVec.ofNat 64 (fieldLE p.payload 0 8), typ := tFWR,
                                        plen := BitVec.ofNat 13 b.length, payload := b }
    | (s, .error _) => s.answer p stPoison []
  else if p.typ == tATM then
    match s.spRead n o 8 with
    | (s, .error _) => s.answer p stPoison []
    | (s, .ok b) =>
      match atomNew p.payload (BitVec.ofNat 64 (leNat b)) with
      | none => s.answer p stMalformed []
      | some v => (s.spWrite n o (leBytes 8 v.toNat)).answer p stOK b
  else
    let s := s.spWrite n o p.payload
    let s := if p.typ == tWRP then s.setTile n ((s.tile n).countFused p.tenant o p.payload.length) else s
    s.answer p stOK []

/-- The checks of an inbound region-1 packet in order: tile id, tag, region (R62, R63), then the access. -/
def State.portInbound (s : State) (n : Nat) (p : Packet) : State :=
  let x := s.tile n
  if s.barred (n / 72) then s.bar (n / 72) p
  else if (s.psw (n / 72)).state = .off then s.answer p stNoStack []
  else if s.ltidOf n ≠ some (gaLtid p.addr) then s.portRefuse n p stStale 4
  else if p.tenant ≠ 0 ∧ p.tenant ≠ x.tenant then s.portRefuse n p stRefused 2
  else if !portRegionOk p then s.portRefuse n p stRefused 3
  else s.portServe n p

/-! ### Scrub, and the end of a faulted job -/

def offTilCfg : Nat := 0x340000

/-- SCRATCHPAD_SCRUB (R48): one line per bank is read and corrected, with the errors that the upsets since brought (word,
double-bit); an uncorrectable word is recorded with cause 0x05 and left as it is. [DEDUCED: log 31] -/
def execScratchpadScrub (t : TileNo) (upsets : List (BitVec 20 × Bool)) (s : State) : Host.Outcome State Fault Refusal :=
  let n := t.val
  let st := (s.psw (n / 72)).state
  let x := s.tile n
  let ups := upsets.foldl (fun m u => if u.1.toNat * 8 < spadEnd then SMap.set m u.1.toNat
    (u.2 || SMap.get false m u.1.toNat) else m) x.upsets
  let s := s.setTile n { x with upsets := ups }
  .next (if !s.railsOn || !bitAt (s.reg offTilCfg 0x12) 4 || !(st == .idle || st == .active || st == .fenced) then s
    else
      let x := s.tile n
      let pos := x.scrubPos
      let s := s.setTile n { x with scrubPos := if pos + 1024 < spadEnd then pos + 1024 else 0 }
      (List.range 16).foldl (fun s i =>
        let l := (s.tile n).badWords (pos + 64 * i) 64
        l.foldl (fun s w => s.tileRecord n 5 ([0, 0, 0, 0] ++ leBytes 4 (8 * w))) (s.spRead n (pos + 64 * i) 64).1) s)

/-- TILE_FAULT_JOB_END (R38): every ordered reset has completed; the job ends with status 0x07 and the faulting tile in
DETAIL.INFO. [DEDUCED: log 38] -/
def execTileFaultJobEnd (key : DescKey) (s : State) : Host.Outcome State Fault Refusal :=
  .next (match s.job? key with
    | some j => match j.fault with
      | some l => if j.resets.isEmpty ∧ j.aborted = none then s.jobEnd key 7 l else s
      | none => s
    | none => s)

end Sys2Proof.Machine
end

