-- ==== Sys2Proof/Machine/Fused.lean ====
section
/-!
DEFINITION. The member's side of a fused collective (09 R274 to R285): descriptors and checks, shards and images, the
slot requests and chunks it sends, the multicasts of an owner, and how the instruction ends or aborts its team.
-/

namespace Sys2Proof.Machine

/-! ### The fused descriptor (R275) -/

structure FDesc where
  version : Nat
  rfmt : Nat
  flags : Nat
  anchor : Int
  tmo : Nat
  raddr : Nat
  rstride : Nat
  gaddr : Nat
  rbuf : Nat
  rsvd : Nat
deriving DecidableEq, Repr

def fdescOf (b : List Byte) : FDesc :=
  { version := fieldLE b 0 1, rfmt := fieldLE b 1 1, flags := fieldLE b 2 1, anchor := sext 16 (fieldLE b 4 2),
    tmo := fieldLE b 6 2, raddr := fieldLE b 8 4, rstride := fieldLE b 12 4, gaddr := fieldLE b 16 4,
    rbuf := fieldLE b 20 4, rsvd := fieldLE b 3 1 + fieldLE b 24 40 }

def FDesc.ag (f : FDesc) : Bool := bitAt f.flags 0
/-- The anchor that FLAGS.AG gives. -/
def FDesc.given (f : FDesc) : Option Int := if f.ag then some f.anchor else none
/-- Bytes of a result element of a reduction. -/
def FDesc.size (f : FDesc) : Nat := if f.rfmt = 8 then 2 else 4

def TOp.reduces : TOp → Bool
  | .rs => true | .ar => true | _ => false

def TOp.fused : TOp → Bool
  | .rs => true | .ar => true | .ag => true | .a2a => true | _ => false

def rbufBytes : Nat := 98304

/-- Bytes of an output element in BF16 or FP32. -/
def TDesc.osize (d : TDesc) : Nat := if d.ofmt = 8 then 2 else 4

/-- The areas that a fused descriptor names: offset, bytes, alignment (R275). [DEDUCED: log 104] -/
def fusedAreas (op : TOp) (d : TDesc) (f : FDesc) (n : Nat) : List (Nat × Nat × Nat) :=
  let e := d.m * d.n
  match op with
  | .rs => [(f.raddr, e / n * f.size, 8), (f.gaddr, e / 16, 8), (f.rbuf, rbufBytes, 64)]
  | .ar => [(f.raddr, e * f.size, 8), (f.gaddr, e / 16, 8), (f.rbuf, rbufBytes, 64)]
  | .a2a => [(f.raddr, (d.m - 1) * f.rstride + d.n * d.osize, 8)]
  | _ => []

/-- The conditions of R275 and R276 that need no team. -/
def FDesc.plainOk (f : FDesc) (op : TOp) : Bool :=
  f.version == 1 && f.rsvd == 0 && decide (f.flags < 2) && (if f.ag then anchorOk f.anchor else f.anchor == 0) &&
    (if op.reduces then f.rfmt == 8 || f.rfmt == 0x10 else f.rfmt == 0) &&
    (if op == .ag then f.raddr == 0 else true) && (if op == .a2a then f.rstride % 8 == 0 else f.rstride == 0) &&
    (if op.reduces then true else f.gaddr == 0 && f.rbuf == 0)

/-- The conditions that need the tensor descriptor and the team's size. -/
def fusedFits (op : TOp) (d : TDesc) (f : FDesc) (n : Nat) : Bool :=
  (match op with
    | .rs | .ar => d.ofmt == 0x11 && d.m * d.n % (16 * n) == 0
    | .ag => d.m % n == 0
    | .a2a => (d.ofmt == 8 || d.ofmt == 0x10) && d.m % n == 0 && decide (d.n * d.osize ≤ f.rstride)
    | _ => true) &&
  (fusedAreas op d f n).all (fun a => a.1 % a.2.2 == 0 && inProg a.1 a.2.1)

/-- An area overlaps OADDR or another area (R275). -/
def fusedOverlap (op : TOp) (d : TDesc) (f : FDesc) (n : Nat) : Bool :=
  let as := (fusedAreas op d f n).map (fun a => (a.1, a.2.1))
  as.any (fun a => d.oplane.any (overlap a)) ||
    (List.range as.length).any (fun i => (List.range i).any (fun j => overlap (as.getD i (0, 0)) (as.getD j (0, 0))))

/-! ### Teams (R268, R271) -/

def State.team? (s : State) (ten : BitVec 7) (num : Nat) : Option Team :=
  s.staging.teams.find? (fun t => t.tenant == ten && t.num.toNat == num)

def Team.size (t : Team) : Nat := t.tlist.length
/-- The chip and the logical tile of a rank. -/
def Team.chipOf (t : Team) (rank : Nat) : Nat := t.chips.getD (rank / t.size) 0
def Team.ltidOf (t : Team) (rank : Nat) : Nat := t.tlist.getD (rank % t.size) 0
/-- The rank of a logical tile of a chip. -/
def Team.rankOf (t : Team) (chip ltid : Nat) : Option Nat :=
  if t.chips.contains chip && t.tlist.contains ltid then
    some (t.chips.findIdx (· == chip) * t.size + t.tlist.findIdx (· == ltid)) else none

def State.setTeam (s : State) (t : Team) : State :=
  { s with staging := { s.staging with teams := s.staging.teams.map (fun x =>
      if x.tenant == t.tenant && x.num == t.num then t else x) } }

/-- The run of the fused instruction at the head of a tile's queue, once it has opened. -/
def Tile.openRun (t : Tile) : Option (TEntry × TRun) :=
  match t.tq with
  | e :: _ => match e.run with
    | some r => if r.opened then some (e, r) else none
    | none => none
  | [] => none

/-- Local tiles that are open on a (team, step). -/
def State.openTiles (s : State) (ten : BitVec 7) (num step : Nat) : List Nat :=
  (s.tiles.filter (fun e => match e.2.openRun with
    | some (_, r) => e.2.tenant == ten && r.team == num && r.step == step
    | none => false)).map (·.1)

/-! ### Shards, groups and images (R276, R279, R280, R282, R284) -/

/-- Elements of one shard. -/
def shardOf (d : TDesc) (n : Nat) : Nat := d.m * d.n / n

/-- Where a group of 16 output elements lies: its elements and its anchor byte. -/
def TDesc.groupAt (d : TDesc) (g : Nat) : Nat × Nat :=
  let row := 16 * g / d.n
  let col := 16 * g % d.n
  (d.oaddr + row * d.ostride + 6 * col, d.oaddr + row * d.ostride + 6 * d.n + col / 16)

/-- Bytes of a member's image: its A rows for a gather, its block of output rows for an exchange. -/
def imageLen (op : TOp) (d : TDesc) (n : Nat) : Nat :=
  if op == .ag then d.m / n * (fmtWidth d.afmt * d.k / 8 + (if d.afmt = 8 then 0 else d.k / 32))
  else d.m / n * (d.n * d.osize)

/-- Chunks of one pass to one destination. -/
def chunkCount (op : TOp) (d : TDesc) (n : Nat) : Nat :=
  if op.reduces then (shardOf d n + 8191) / 8192 else (imageLen op d n + 49151) / 49152

/-- KIND, FIRST and PBYTES of a SEQ; none where it is out of range. -/
def chunkShape (op : TOp) (d : TDesc) (n seq : Nat) : Option (Nat × Nat × Nat) :=
  let c := chunkCount op d n
  if op.reduces then
    let gs := shardOf d n / 16
    let i := if c = 0 then 0 else seq % c
    let cnt := min 512 (gs - 512 * i)
    if seq < c then some (0, 512 * i, cnt) else if seq < 2 * c then some (1, 512 * i, 96 * cnt) else none
  else if seq < c then some (if op == .ag then 3 else 2, 49152 * seq, min 49152 (imageLen op d n - 49152 * seq))
  else none

/-- The scratchpad place of byte `p` of rank `r`'s gather image (R279). -/
def gatherAt (d : TDesc) (n r p : Nat) : Nat :=
  let rows := d.m / n
  let w := fmtWidth d.afmt * d.k / 8
  if p < rows * w then d.aaddr + (r * rows + p / w) * d.astride + p % w
  else
    let q := p - rows * w
    d.ascale + (r * rows + q / (d.k / 32)) * (d.k / 32) + q % (d.k / 32)

/-- The landing place of byte `p` of the block from rank `r` (R276, R280). -/
def landAt (d : TDesc) (f : FDesc) (n r p : Nat) : Nat :=
  let w := d.n * d.osize
  f.raddr + (r * (d.m / n) + p / w) * f.rstride + p % w

/-- The source place of byte `p` of the block for rank `r`. -/
def blockAt (d : TDesc) (n r p : Nat) : Nat :=
  let w := d.n * d.osize
  d.oaddr + (r * (d.m / n) + p / w) * d.ostride + p % w

/-- The scratchpad ranges of a chunk's payload, in payload order. -/
def chunkRanges (op : TOp) (d : TDesc) (n me dst seq : Nat) : List (Nat × Nat) :=
  match chunkShape op d n seq with
  | none => []
  | some (kind, first, len) =>
    let base := dst * (shardOf d n / 16) + first
    match kind with
    | 0 => (List.range len).map (fun i => ((d.groupAt (base + i)).2, 1))
    | 1 => (List.range (len / 96)).map (fun i => ((d.groupAt (base + i)).1, 96))
    | 2 => (List.range len).map (fun i => (blockAt d n dst (first + i), 1))
    | _ => (List.range len).map (fun i => (gatherAt d n me (first + i), 1))

/-- The team digest (R285). -/
def teamDigest (op : TOp) (d : TDesc) (f : FDesc) : BitVec 32 :=
  let major := match op with | .rs => 0x30 | .ar => 0x31 | .ag => 0x32 | _ => 0x33
  crc32c ([BitVec.ofNat 8 major, BitVec.ofNat 8 f.rfmt, BitVec.ofNat 8 (if op == .ag then d.afmt else 0), BitVec.ofNat 8 d.ofmt]
    ++ leBytes 2 d.m ++ leBytes 2 d.n ++ leBytes 4 d.k ++ leBytes 4 (if op == .ar then f.raddr else 0)
    ++ leBytes 4 (if op.reduces then f.gaddr else 0))

/-! ### Messages (R286) -/

/-- Where collective messages go (09 Staging slots and grants). -/
def stagingAddr (chip : Nat) : Word := BitVec.ofNat 64 (chip * 2 ^ 44 + 2 * 2 ^ 40 + 0xFF0000)

def colExt (team flags step slot chunk off bytes : Nat) : Ext :=
  ⟨3, 0, 0, extBody [(2, 8, team), (3, 8, flags), (4, 16, step), (6, 9, slot), (8, 32, chunk), (12, 10, off), (14, 13, bytes)]⟩

/-- The RID of the staging controller, the first agent of the spine. [DESIGN CHOICE: log 84] -/
def spineRid : Nat := 840 * 64

/-- A collective message of a kind. -/
def State.colPacket (s : State) (typ : BitVec 4) (chip rid team kind step seq : Nat) (pl : List Byte) : Packet :=
  { addr := stagingAddr chip, ver := 1, typ := typ, phase := 0, nonmin := false, ext := 3,
    plen := BitVec.ofNat 13 pl.length, tenant := 0, srcChip := s.ownChip, rid := BitVec.ofNat 16 rid,
    exts := [colExt team kind step 0 seq 0 pl.length], payload := pl, tail := .good }

/-- The 16-byte payload of SLOT_REQ, CHECKED and RESEND. -/
def slotPayload (src dst seq ten kind : Nat) : List Byte :=
  leBytes 4 src ++ leBytes 4 dst ++ leBytes 4 seq ++ [BitVec.ofNat 8 ten, BitVec.ofNat 8 kind, 0, 0]

/-- KIND of the chunks of a SEQ. -/
def seqKind (op : TOp) (d : TDesc) (n seq : Nat) : Nat := ((chunkShape op d n seq).map (·.1)).getD 0

/-- The chip that a destination lies on: a rank's chip, or for a gather the chip itself. -/
def Team.destChip (t : Team) (op : TOp) (dst : Nat) : Nat := if op == .ag then dst else t.chipOf dst

/-- COL_CFG (09). -/
def offColCfg : Nat := 0x440000
def State.colCfg (s : State) : Nat := s.reg offColCfg 0x640810
def State.slotCap (s : State) : Nat := min 16 (max 1 (bits s.colCfg 4 0))
def State.reqOut (s : State) : Nat := min 8 (max 1 (bits s.colCfg 11 8))
def State.incUs (s : State) : Nat := max 1 (bits s.colCfg 23 16)

/-! ### Changing the run -/

/-- Changes the run at the head of a tile's tensor queue. -/
def State.modRun (s : State) (n : Nat) (f : TRun → TRun) : State :=
  let t := s.tile n
  match t.tq with
  | e :: q => match e.run with
    | some r => s.setTile n { t with tq := { e with run := some (f r) } :: q }
    | none => s
  | [] => s

/-- Asks for slots, in order, up to REQ_OUT requests outstanding; each holds a reply space (R287, 02 R53).
[DEDUCED: log 102] -/
def State.askSlots (s : State) (n : Nat) : Nat → State
  | 0 => s
  | fuel + 1 =>
    let t := s.tile n
    match t.openRun with
    | none => s
    | some (e, r) =>
      match r.sends, freeTag t.writes, s.team? t.tenant r.team with
      | (dst, seq, retry) :: rest, some tag, some tm =>
        if s.reqOut ≤ r.asked.length then s
        else
          let d := tdescOf r.tdesc
          let chip := tm.destChip e.op dst
          let rid := ((s.ltidOf n).getD 0) * 64 + tag
          let p := s.colPacket tMSG chip rid r.team 1 r.step seq
            (slotPayload r.rank dst seq t.tenant.toNat (seqKind e.op d r.n seq))
          let o : Outst := ⟨p.addr, (s.psw (n / 72)).gen, false, t.pc, kSLOT, false, p, 0, none⟩
          let s := s.setTile n { t with writes := SMap.set t.writes tag o }
          let s := s.sendPkt (.tile n) p
          (s.modRun n (fun r => { r with sends := rest, asked := r.asked ++ [(dst, seq, retry, tag)] })).askSlots n fuel
      | _, _, _ => s

/-- Puts chunks of a pass to every destination into the list of sends, and asks. -/
def State.queueSends (s : State) (n : Nat) (l : List (Nat × Nat)) : State :=
  (s.modRun n (fun r => { r with sends := r.sends ++ l.map (fun x => (x.1, x.2, false)) })).askSlots n 8

/-- Every other rank. -/
def TRun.others (r : TRun) : List Nat := (List.range r.n).filter (· != r.rank)

/-! ### Ending the instruction -/

/-- The slots of a (team, step) are discarded and its queued requests answered with SLOT 0x1FF (R291). -/
def State.dropStep (s : State) (ten : BitVec 7) (num step : Nat) : State :=
  let st := s.staging
  let mine (a : BitVec 7) (b : BitVec 8) (c : BitVec 16) := a == ten && b.toNat == num && c.toNat == step
  let gone := st.reqs.filter (fun r => mine r.tenant r.team r.step)
  let s := { s with staging := { st with
    slots := st.slots.filter (fun e => !mine e.2.tenant e.2.team e.2.step),
    reqs := st.reqs.filter (fun r => !mine r.tenant r.team r.step) } }
  gone.foldl (fun s r => s.sendPkt .spine ({ r.pkt.replyTo stOK [] with
    ext := 3, exts := [colExt num 2 step 0x1FF r.seq 0 0] })) s

/-- A tile's part of failed-check marks goes when its instruction ends. -/
def State.clearMarks (s : State) (n : Nat) : State :=
  { s with staging := { s.staging with failed := s.staging.failed.filter (fun f => f.1 != n) } }

/-- A fused instruction at the head of a queue ends with a fault: what its areas hold is unspecified after an abort.
[DEDUCED: log 105] -/
def State.fusedFault (s : State) (n code : Nat) : State :=
  let t := s.tile n
  match t.openRun with
  | none => (s.clearMarks n).tensorFault n code [] true
  | some (e, r) =>
    let d := tdescOf r.tdesc
    let l := d.oplane ++ (fusedAreas e.op d (fdescOf r.fdesc) r.n).map (fun a => (a.1, a.2.1)) ++
      (if e.op == .ag then d.aplane ++ [(d.ascale, d.m * (d.k / 32))] else [])
    (s.draw.clearMarks n).tensorFault n code (freeCells s.free (l.filter (fun a => inProg a.1 a.2))) true

/-- A member open on an aborted step ends with 0x24 and sets EVENT bit 0 (R291). -/
def State.abortMember (s : State) (n : Nat) : State :=
  let s := s.fusedFault n 0x24
  s.setTile n { s.tile n with event := (s.tile n).event ||| 1 }

/-- The first instruction of a queue that has not opened and names the (team, step). -/
def Tile.queuedStep (t : Tile) (num step : Nat) : Option Nat :=
  t.tq.findIdx? (fun e => e.op.fused && !e.run.any (·.opened) && e.d.toNat == num && e.c.toNat == step)

/-- A member that waits in its queue on an aborted step: that instruction ends with 0x24 and sets EVENT bit 0 (R291), and it and every
later one of the queue are discarded (02 R52); those before it go on. -/
def State.abortQueued (s : State) (num step n : Nat) : State :=
  let t := s.tile n
  match t.queuedStep num step with
  | none => s
  | some i =>
    match t.tq[i]? with
    | none => s
    | some e =>
      let f := match t.tfault with
        | some x => some x
        | none => some (0x24, e.pc, min (t.tq.length - i - 1) 15, true)
      (s.setTile n { t with tq := t.tq.take i, tfault := f, event := t.event ||| 1, tAst := t.tAst ++ [(0, none, some 0x24)] }).settle n

/-- The local tiles of a tenant. -/
def State.tenantTiles (s : State) (ten : BitVec 7) : List Nat := (s.tiles.filter (fun e => e.2.tenant == ten)).map (·.1)

/-- What a staging controller does with an abort of a (team, step): discards, records, and ends every local member, open or waiting
in its queue, but `skip` (R291 steps 2 to 4). -/
def State.stepAborted (s : State) (ten : BitVec 7) (num step : Nat) (skip : Option Nat) : State :=
  let s := s.dropStep ten num step
  let s := match s.team? ten num with
    | some t => s.setTeam { t with aborted := some (BitVec.ofNat 16 step) }
    | none => s
  let s := (s.openTiles ten num step).foldl (fun s n => if some n = skip then s else s.abortMember n) s
  (s.tenantTiles ten).foldl (fun s n => s.abortQueued num step n) s

/-- A member's own fault with a code of 0x20 to 0x28 after opening: it ends, and ABORT goes to every other chip of the
set (R291). -/
def State.memberFault (s : State) (n code : Nat) : State :=
  let t := s.tile n
  match t.openRun with
  | none => s.fusedFault n code
  | some (_, r) =>
    let s := s.fusedFault n code
    match s.team? t.tenant r.team with
    | none => s
    | some tm =>
      let pl := [BitVec.ofNat 8 t.tenant.toNat, BitVec.ofNat 8 code, 0, 0] ++ leBytes 4 r.rank
      let s := (tm.chips.filter (· != s.ownChip.toNat)).foldl (fun s c =>
        s.sendPkt .spine ((s.colPacket tMSGP c spineRid r.team 5 r.step 0 pl))) s
      let s := { s with staging := { s.staging with aborts := satAdd s.staging.aborts 1 0xFFFF } }
      s.stepAborted t.tenant r.team r.step (some n)

/-! ### The reduction's owner (R278) -/

/-- Agreed bytes travel, and results of an all-reduce: one multicast for each listed tile, in packets of 4,096 bytes. -/
def State.teamCast (s : State) (tm : Team) (off : Nat) (b : List Byte) : State :=
  tm.tlist.foldl (fun s l => (pieces b.length).foldl (fun s pc =>
    let x : Ext := ⟨1, 0, 0, extBody [(1, 2, 0), (2, 16, tm.lmask.toNat), (4, 12, tm.mcIdx), (6, 12, s.ownChip.toNat / 16)]⟩
    s.sendPkt .spine ({ addr := BitVec.ofNat 64 (s.ownChip.toNat * 2 ^ 44 + 2 ^ 40 + l * 2 ^ 20 + off + pc.1), ver := 1, typ := tWRP,
                        phase := 0, nonmin := false, ext := 1, plen := BitVec.ofNat 13 pc.2, tenant := tm.tenant,
                        srcChip := s.ownChip, rid := BitVec.ofNat 16 spineRid, exts := [x],
                        payload := (b.drop pc.1).take pc.2, tail := .good })) s) s

/-- Every SEQ of a pass from every other rank has landed. -/
def TRun.passIn (r : TRun) (lo hi : Nat) : Bool :=
  r.others.all (fun k => ((List.range (hi - lo)).all (fun i => r.landed.contains (k, lo + i))))

/-- The own shard's first group. -/
def TRun.shardBase (r : TRun) (d : TDesc) : Nat := r.rank * (shardOf d r.n / 16)

/-- Phase 4: once the product stands and all anchor bytes are in, the agreed bytes of the own shard are multicast. -/
def State.castAnchors (s : State) (n : Nat) : State :=
  let t := s.tile n
  match t.openRun with
  | none => s
  | some (e, r) =>
    let d := tdescOf r.tdesc
    let f := fdescOf r.fdesc
    if r.phase ≠ 2 ∨ !r.passIn 0 (chunkCount e.op d r.n) then s else
    match s.team? t.tenant r.team with
    | some tm => s.teamCast tm (f.gaddr + r.shardBase d) (r.agree.map (BitVec.ofNat 8))
    | none => s

/-- One group of OADDR, as anchor byte and elements. -/
def Tile.groupVal (t : Tile) (d : TDesc) (g : Nat) : Nat × List Int :=
  let (e, a) := d.groupAt g
  ((t.scratch.read a).toNat, (List.range 16).map (fun i => sext 48 (leNat (t.scratch.readN (e + 6 * i) 6))))

/-- Writes one group of OADDR. -/
def State.putGroup (s : State) (n : Nat) (d : TDesc) (g : Nat) (v : Nat × List Int) : State :=
  let (e, a) := d.groupAt g
  let el := if v.1 = 0xFF then List.replicate 96 (0 : Byte) else v.2.flatMap ws48Bytes
  (s.spWrite n e el).spWrite n a [BitVec.ofNat 8 v.1]

/-- Phase 7: a data chunk is added into the own shard in place. -/
def State.addChunk (s : State) (n : Nat) (first : Nat) (b : List Byte) : State :=
  match (s.tile n).openRun with
  | none => s
  | some (_, r) =>
    let d := tdescOf r.tdesc
    (List.range (b.length / 96)).foldl (fun s i =>
      let g := r.shardBase d + first + i
      let v := (s.tile n).groupVal d g
      let w := (List.range 16).map (fun j => sext 48 (fieldLE b (96 * i + 6 * j) 6))
      s.putGroup n d g (v.1, (v.2.zip w).map (fun x => (wsAddElem x.1 x.2).1))) s

/-- Phase 8: the own shard rounded to RFMT, and the sticky bits. -/
def Tile.roundShard (t : Tile) (r : TRun) (d : TDesc) (f : FDesc) : List Byte × BitVec 8 :=
  let fm := if f.rfmt = 8 then fBf16 else fFp32
  (List.range (shardOf d r.n / 16)).foldl (fun acc i =>
    let g := t.groupVal d (r.shardBase d + i)
    g.2.foldl (fun acc v =>
      let x : Res := match wsValue g.1 v with
        | .fin ng m e => fm.tensor ng m e
        | _ => fm.nanRes
      (acc.1 ++ leBytes f.size x.1, acc.2 ||| x.2)) acc) ([], 0)

/-- Phase 8, once every contribution is added: RS writes its shard, AR multicasts it to every member. -/
def State.finishShard (s : State) (n : Nat) : State :=
  let t := s.tile n
  match t.openRun with
  | none => s
  | some (e, r) =>
    let d := tdescOf r.tdesc
    let f := fdescOf r.fdesc
    let c := chunkCount e.op d r.n
    if r.phase ≠ 3 ∨ !r.passIn c (2 * c) ∨ !r.waiting.isEmpty then s else
    let (b, fl) := t.roundShard r d f
    let s := s.modRun n (fun r => { r with phase := 4, sticky := r.sticky ||| (fl &&& 0x07) ||| (fl &&& flagNAN) })
    if e.op == .rs then s.spWrite n f.raddr b
    else match s.team? t.tenant r.team with
      | some tm => s.teamCast tm (f.raddr + r.rank * (shardOf d r.n) * f.size) b
      | none => s

/-- Phase 5, when E / 16 bytes are in GADDR: OADDR is re-anchored in place; then the data pass begins (phase 6), and data
chunks that waited in RBUF are added. -/
def State.reanchor (s : State) (n : Nat) : State :=
  let t := s.tile n
  match t.openRun with
  | none => s
  | some (e, r) =>
    let d := tdescOf r.tdesc
    let f := fdescOf r.fdesc
    let gs := d.m * d.n / 16
    if r.phase ≠ 2 ∨ !e.op.reduces ∨ (1 < r.n ∧ r.ggot < gs) then s else
    let (s, fl) := if r.n = 1 then (s, (0 : BitVec 8)) else
      (List.range gs).foldl (fun (a : State × BitVec 8) g =>
        let t := a.1.tile n
        let gb := (t.scratch.read (f.gaddr + g)).toNat
        let (v, fl) := wsAlign gb (t.groupVal d g)
        (a.1.putGroup n d g v, a.2 ||| fl ||| stickyIf (gb == 0xFF) flagNAN)) (s, 0)
    let s := s.modRun n (fun r => { r with phase := 3, sticky := r.sticky ||| fl })
    let s := r.waiting.foldl (fun s w => s.addChunk n w.2.1 w.2.2) s
    let s := s.modRun n (fun r => { r with waiting := [] })
    let c := chunkCount e.op d r.n
    (s.queueSends n (r.others.flatMap (fun k => (List.range c).map (fun i => (k, c + i))))).finishShard n

/-! ### After the multiply (R278 to R280) -/

/-- The multiply computes and its write-back completes, or it faults: what the instruction does next. -/
def State.fusedMultiplied (s : State) (n : Nat) : State :=
  let t := s.tile n
  match t.openRun with
  | none => s
  | some (e, r) =>
    let d := tdescOf r.tdesc
    let f := fdescOf r.fdesc
    match s.multiply n d r.anchor e.late with
    | (s, .fault c sp st) => (s.clearMarks n).tensorFault n c sp true st
    | (s, .ok w fl _) =>
    let s := ((s.heatAdd n (d.computeTc r.half)).unitWrites n w).modRun n (fun r => { r with sticky := fl })
    match e.op with
    | .ag => s.modRun n (fun r => { r with phase := 4 })
    | .a2a =>
      let len := imageLen e.op d r.n
      let own := (List.range len).map (fun p =>
        (landAt d f r.n r.rank p, (s.tile n).scratch.read (blockAt d r.n r.rank p)))
      let s := (s.unitWrites n own).modRun n (fun r => { r with phase := 4 })
      s.queueSends n (r.others.flatMap (fun k => (List.range (chunkCount e.op d r.n)).map (fun i => (k, i))))
    | _ =>
      let gs := shardOf d r.n / 16
      let own := (List.range gs).map (fun i => ((s.tile n).scratch.read (d.groupAt (r.shardBase d + i)).2).toNat)
      let agree := (List.range gs).map (fun i => max (own.getD i 0) (r.agree.getD i 0))
      let s := s.modRun n (fun r => { r with phase := 2, agree := agree })
      if r.n = 1 then s.reanchor n
      else
        (s.queueSends n (r.others.flatMap (fun k =>
          (List.range (chunkCount e.op d r.n)).map (fun i => (k, i))))).castAnchors n

/-- The multiply of an opened instruction begins: its anchor phase; computing and write-back are left to TENSOR_FINISH. -/
def State.fusedMultiply (s : State) (n : Nat) : State :=
  match (s.tile n).openRun with
  | none => s
  | some (_, r) =>
    match s.anchorPhase n (tdescOf r.tdesc) (fdescOf r.fdesc).given with
    | (s, some a) => s.modRun n (fun r => { r with anchor := a, phase := 1 })
    | (s, none) => (s.clearMarks n).tensorFault n 3 [] true

/-- The rows of every other rank have landed: the gather is complete and the multiply begins (R279). -/
def State.gatherDone (s : State) (n : Nat) : State :=
  match (s.tile n).openRun with
  | some (e, r) =>
    if e.op == .ag && r.phase == 0 && r.passIn 0 (chunkCount .ag (tdescOf r.tdesc) r.n) then s.fusedMultiply n else s
  | none => s

/-! ### Starting (R277) -/

/-- Reads the fused descriptor. -/
def State.readFDesc (s : State) (n : Nat) (e : TEntry) : State × Except Nat (List Byte) :=
  if e.b.toNat % 64 ≠ 0 ∨ !inProg e.b.toNat 64 ∨ 65536 ≤ e.c.toNat ∨ 256 ≤ e.d.toNat then (s, .error 0x21)
  else match s.spRead n e.b.toNat 64 with
    | (s, .ok b) => (s, .ok b)
    | (s, .error _) => (s, .error 3)

/-- The tensor descriptor's bytes where it can be read, for the conditions of R276. -/
def Tile.peekDesc (t : Tile) (off : Word) : Option TDesc :=
  match descCheck off with
  | some _ => none
  | none => some (tdescOf (t.scratch.readN off.toNat 64))

/-- The start of a fused instruction: the checks in order, the open, and its first phase. [DEDUCED: log 104] -/
def State.fusedBegin (s : State) (n : Nat) (e : TEntry) (half : Bool) : State :=
  let fail (s : State) (c : Nat) := s.tensorFault n c [] true
  match s.readFDesc n e with
  | (s, .error c) => fail s c
  | (s, .ok fb) =>
    let f := fdescOf fb
    let t := s.tile n
    let ltid := (s.ltidOf n).getD 0xFFFF
    let tm := match s.team? t.tenant e.d.toNat with
      | some x => if x.relay || (x.rankOf s.ownChip.toNat ltid).isNone then none else some x
      | none => none
    let size := match s.team? t.tenant e.d.toNat with
      | some x => x.n
      | none => 1
    let fits := match t.peekDesc e.a with
      | some d => fusedFits e.op d f size
      | none => true
    if !f.plainOk e.op || !fits then fail s 0x21 else
    match s.readTDesc n e.a with
    | (s, .error c) => fail s c
    | (s, .ok d) =>
      match d.check f.given none, tm with
      | some c, _ => fail s c
      | none, none => fail s 0x20
      | none, some x =>
        if x.aborted = some (BitVec.ofNat 16 e.c.toNat) then
          let s := fail s 0x24
          s.setTile n { s.tile n with event := (s.tile n).event ||| 1 }
        else
          let rank := (x.rankOf s.ownChip.toNat ltid).getD 0
          let s := s.setTeam { x with aborted := none }
          let tb := (s.tile n).scratch.readN e.a.toNat 64
          let s := s.setRun n { TRun.plain half 0 [] 0 with
            opened := true, team := e.d.toNat, step := e.c.toNat, rank := rank, n := x.n, tdesc := tb, fdesc := fb,
            phase := 0, agree := [], due := if f.tmo = 0 then none else some (s.now + f.tmo * fcPerUs) }
          if e.op == .ag then
            let c := chunkCount .ag d x.n
            let dests := x.chips.filter (fun ch => ch != s.ownChip.toNat || decide (1 < x.size))
            let s := s.queueSends n (dests.flatMap (fun ch => (List.range c).map (fun i => (ch, i))))
            s.gatherDone n
          else s.fusedMultiply n

/-! ### Sending a chunk (R282, R283) -/

/-- The circuit that a team's chunks to a chip ride (R271). -/
def State.teamCircuit (s : State) (ten : BitVec 7) (chip : Nat) : Nat :=
  match s.router.ckts.find? (fun c => c.owner == s.ownChip && c.inPort.isNone && decide (0 < c.refs) && c.tenant == ten &&
      c.dst.toNat == chip) with
  | some c => c.cid.toNat
  | none => 0

/-- The image of a chunk: the header with its CRC, then the payload. -/
def chunkImage (kind team step rank dst seq first : Nat) (retry : Bool) (digest : BitVec 32) (pl : List Byte) : List Byte :=
  let h := [1, BitVec.ofNat 8 kind, BitVec.ofNat 8 team, BitVec.ofNat 8 (b2n retry)] ++ leBytes 2 step ++ [0, 0] ++
    leBytes 4 rank ++ leBytes 4 dst ++ leBytes 4 seq ++ leBytes 4 first ++ leBytes 4 pl.length ++ leBytes 4 digest.toNat ++
    List.replicate 28 0
  h ++ leBytes 4 (crc32c (h ++ pl)).toNat ++ pl

/-- Sends a granted chunk in packets of 4,096 bytes of its image. -/
def State.sendChunk (s : State) (n dst seq slot : Nat) (retry : Bool) : State :=
  let t := s.tile n
  match t.openRun with
  | none => s
  | some (e, r) =>
    let d := tdescOf r.tdesc
    let f := fdescOf r.fdesc
    match s.team? t.tenant r.team, chunkShape e.op d r.n seq with
    | some tm, some (kind, first, _) =>
      let (s, b) := (chunkRanges e.op d r.n r.rank dst seq).foldl (fun (a : State × Option (List Byte)) g =>
        match a.1.spRead n g.1 g.2 with
        | (s', .ok x) => (s', a.2.map (· ++ x))
        | (s', .error _) => (s', none)) (s, some [])
      match b with
      | none => (s.clearMarks n).tensorFault n 3 [] true
      | some pl =>
        let img := chunkImage kind r.team r.step r.rank dst seq first retry (teamDigest e.op d f) pl
        let chip := tm.destChip e.op dst
        let cid := s.teamCircuit t.tenant chip
        let s := (pieces img.length).foldl (fun s pc =>
          let cx : Ext := ⟨2, 3, 0, extBody [(2, 16, s.ownChip.toNat), (4, 12, cid)]⟩
          s.sendPkt (.tile n) ({ addr := stagingAddr chip, ver := 1, typ := tCKT, phase := 0, nonmin := false, ext := 2,
                                 plen := BitVec.ofNat 13 pc.2, tenant := t.tenant, srcChip := s.ownChip,
                                 rid := BitVec.ofNat 16 spineRid,
                                 exts := [cx, colExt r.team 0 r.step slot seq (pc.1 / 64) pc.2],
                                 payload := (img.drop pc.1).take pc.2, tail := .good })) s
        let s := if retry then { s with staging := { s.staging with resends := satAdd s.staging.resends 1 0xFFFF } } else s
        s.modRun n (fun r => { r with flying := r.flying ++ [(dst, seq)] })
    | _, _ => s

/-- A packet that matches nothing is dropped and counted in STRAY. -/
def State.stray (s : State) : State := { s with staging := { s.staging with stray := satAdd s.staging.stray 1 0xFFFF } }

/-- The fields of a collective extension (07 R196). -/
structure Col where
  team : Nat
  kind : Nat
  step : Nat
  slot : Nat
  chunk : Nat
  off : Nat
  bytes : Nat
deriving DecidableEq, Repr

def colOfPacket (p : Packet) : Option Col :=
  (p.extOf 3).map (fun x => ⟨x.field 2 8, x.field 3 3, x.field 4 16, x.field 6 9, x.field 8 32, x.field 12 10, x.field 14 13⟩)

/-- The collective fields, where the message kind rides the packet type that R286 gives it. -/
def colMsg (p : Packet) (kind : Nat) (typ : BitVec 4) : Option Col :=
  (colOfPacket p).filter (fun c => c.kind == kind && p.typ == typ)

/-- The answer to a SLOT_REQ reaches the tile: a grant, an aborted step (SLOT 0x1FF), or a refusal (0x27). Retry is the
tile port's affair (07 R203), and an ACK of another kind is a stray (R286). [DEDUCED: log 102] -/
def State.slotReply (s : State) (n : Nat) (p : Packet) : State :=
  let tag := p.replyRid.toNat % 64
  match (s.tile n).entry true tag with
  | none => s
  | some e =>
    if s.isOld n e || e.kind != kSLOT || p.status = stRetry then s.tileReply n p
    else if p.status = stOK && (colMsg p 2 tACK).isNone then s.stray
    else
      let s := s.setTile n ((s.tile n).freeEntry true tag)
      match (s.tile n).openRun with
      | none => s
      | some (_, r) =>
        match r.asked.find? (fun a => a.2.2.2 == tag) with
        | none => s
        | some (dst, seq, retry, _) =>
          let s := s.modRun n (fun r => { r with asked := r.asked.filter (fun a => a.2.2.2 != tag) })
          if p.status ≠ stOK then s.memberFault n 0x27
          else
            let slot := ((colMsg p 2 tACK).map (·.slot)).getD 0x1FF
            if slot = 0x1FF then s.abortMember n
            else (s.sendChunk n dst seq slot retry).askSlots n 8

end Sys2Proof.Machine
end

