-- ==== Sys2Proof/Machine/Staging.lean ====
section
/-!
DEFINITION. The staging controller of the package router (09 R286 to R293), and the commands of the tensor queue (03 R77,
R80; 12 R359, R360; 09 R274, R281, R292).
-/

namespace Sys2Proof.Machine

/-! ### Requests and grants (R287) -/

/-- The tiles that a chunk is delivered to. -/
def State.recipients (s : State) (tm : Team) (kind src dst : Nat) : List Nat :=
  if kind = 3 then
    (tm.tlist.filter (fun l => tm.rankOf s.ownChip.toNat l != some src)).filterMap s.physOf
  else ((s.physOf (tm.ltidOf dst)).map (fun t => [t])).getD []

/-- The destination lies on this chip, and the source is a rank of the team. -/
def State.destHere (s : State) (tm : Team) (kind src dst : Nat) : Bool :=
  decide (src < tm.n) && (if kind = 3 then dst == s.ownChip.toNat else decide (dst < tm.n) && tm.chipOf dst == s.ownChip.toNat)

/-- The answer to a request that gets no slot. -/
def State.noSlot (s : State) (p : Packet) (c : Col) : State :=
  s.sendPkt .spine ({ p.replyTo stOK [] with ext := 3, exts := [colExt c.team 2 c.step 0x1FF c.chunk 0 0] })

/-- SLOT_REQ (R287): queued, answered with Retry where the queue of 4,096 is full, refused where it names no formed member
team or a rank or chip that is not here, and answered with SLOT 0x1FF for a tile of a barred partition (17 R463) or an
aborted step. -/
def execSlotReq (pkt : Packet) (s : State) : Host.Outcome State Fault Refusal :=
  .next (if !s.railsOn then s else
    match colMsg pkt 1 tMSG with
    | none => s.stray
    | some c =>
      let src := fieldLE pkt.payload 0 4
      let dst := fieldLE pkt.payload 4 4
      let seq := fieldLE pkt.payload 8 4
      let ten : BitVec 7 := BitVec.ofNat 7 (fieldLE pkt.payload 12 1)
      let kind := fieldLE pkt.payload 13 1
      match s.team? ten c.team with
      | none => s.answer pkt stRefused []
      | some tm =>
        if tm.relay || !s.destHere tm kind src dst then s.answer pkt stRefused []
        else if tm.aborted = some (BitVec.ofNat 16 c.step) || (s.recipients tm kind src dst).any (fun t => s.barred (t / 72)) then
          s.noSlot pkt c
        else if 4096 ≤ s.staging.reqs.length then s.answer pkt stRetry []
        else
          let r : SlotReq := ⟨pkt, ten, BitVec.ofNat 8 c.team, BitVec.ofNat 16 c.step, src, dst, seq, kind⟩
          { s with staging := { s.staging with reqs := s.staging.reqs ++ [r] } })

/-- Slots that a tile holds. -/
def State.slotsOf (s : State) (t : Nat) : Nat := (s.staging.slots.filter (fun e => e.2.tiles.contains t)).length

/-- The lowest free slot. -/
def State.freeSlot (s : State) : Option Nat :=
  ((List.range 384).filter (fun i => (SMap.find? s.staging.slots i).isNone && !s.staging.withheld.contains i)).head?

/-- The tiles of a request, where every condition of R287 step 3 but the free slot holds. -/
def State.eligible (s : State) (r : SlotReq) : Option (List Nat) :=
  match s.team? r.tenant r.team.toNat with
  | none => none
  | some tm =>
    let ts := s.recipients tm r.kind r.srcRank r.dst
    if !ts.isEmpty && ts.all (fun t => (s.openTiles r.tenant r.team.toNat r.step.toNat).contains t &&
        decide (s.slotsOf t < s.slotCap)) then some ts else none

/-- The receiving tile a request is counted under. -/
def State.reqTile (s : State) (r : SlotReq) : Option Nat := (s.eligible r).bind (·.head?)

/-- The request that is served next: round-robin over the receiving tiles, in arrival order for each (R287).
[DEDUCED: log 103] -/
def State.nextGrant (s : State) : Option Nat :=
  let l := s.staging.reqs.mapIdx (fun i r => (i, s.reqTile r))
  let cand := l.filterMap (fun x => x.2.map (fun t => ((t + 864 - (s.staging.lastTile + 1)) % 864, x.1)))
  (cand.foldl (fun (m : Option (Nat × Nat)) x => match m with
    | none => some x
    | some y => if x.1 < y.1 then some x else some y) none).map (·.2)

/-- The payload bytes and first place that the receiver expects of a SEQ (R284). -/
def State.expected (s : State) (tile seq : Nat) : Option (Nat × Nat × Nat) :=
  match (s.tile tile).openRun with
  | some (e, r) => chunkShape e.op (tdescOf r.tdesc) r.n seq
  | none => none

/-- GRANT (R287): the controller grants queued request `i`, the one that is to be served next, and answers its SLOT_REQ.
[DEDUCED: log 103] -/
def execGrant (i : Nat) (s : State) : Host.Outcome State Fault Refusal :=
  .next (if s.nextGrant ≠ some i then s else
    match s.staging.reqs[i]? with
    | none => s
    | some r =>
      match s.freeSlot, s.eligible r with
      | some k, some ts =>
        let t0 := ts.headD 0
        let need := 64 + (((s.expected t0 r.seq).map (fun x => x.2.2)).getD 0)
        let slot : Slot := Slot.mk r.tenant r.team r.step r.srcRank r.dst r.seq r.kind r.pkt.srcChip ts [] s.now none need
        let left := s.staging.reqs.eraseIdx i
        let slots := SMap.set s.staging.slots k slot
        let s := { s with staging := { s.staging with reqs := left, lastTile := t0, slots := slots } }
        s.sendPkt .spine ({ r.pkt.replyTo stOK [] with
          ext := 3, exts := [colExt r.team.toNat 2 r.step.toNat k r.seq 0 0] })
      | _, _ => s)

/-! ### Chunks (R288) -/

/-- The bytes of an image, in place; none while a byte is missing. -/
def Slot.bytes (k : Slot) : Option (List Byte) :=
  let m := k.image.foldl (fun (m : Memory) x => m.writeN x.1 x.2) []
  let covered (i : Nat) : Bool := k.image.any (fun x => decide (x.1 ≤ i ∧ i < x.1 + x.2.length))
  if (List.range k.need).all covered then some (m.readN 0 k.need) else none

/-- A slot is freed. [DEDUCED: log 103] -/
def State.freeSlotNo (s : State) (k : Nat) : State := { s with staging := { s.staging with slots := SMap.del s.staging.slots k } }

/-- A message about a chunk to its sender. -/
def State.chunkMsg (s : State) (k : Slot) (kind : Nat) : State :=
  s.sendPkt .spine ((s.colPacket tMSGP k.srcChip.toNat spineRid k.team.toNat kind k.step.toNat k.seq
    (slotPayload k.srcRank k.dst k.seq k.tenant.toNat k.kind)))

/-- A kind 0x05 record (17 R474). [DEDUCED: log 105] -/
def State.collectiveRecord (s : State) (t : Nat) (k : Slot) (cause : Nat) : State :=
  s.logErr { ErrRec.blank 5 cause s.lay.time with
    part := BitVec.ofNat 8 (t / 72), tenant := k.tenant.setWidth 8, gen := (s.psw (t / 72)).gen,
    ring := (s.tile t).ring.setWidth 16, job := (s.tile t).job, ltid := BitVec.ofNat 16 ((s.ltidOf t).getD 0xFFFF),
    die := BitVec.ofNat 8 (dieOf t), row := BitVec.ofNat 8 (rowOf t), col := BitVec.ofNat 8 (colOf t),
    data := [k.team, 0] ++ leBytes 2 k.step.toNat ++ leBytes 4 k.srcRank ++ leBytes 4 k.seq }

/-- A chunk fails its check: the slot is freed and RESEND goes out; a second failure is fault 0x23 at the receiving tiles,
with a collective error record. -/
def State.chunkFail (s : State) (no : Nat) (k : Slot) : State :=
  let s := s.freeSlotNo no
  let mark (t : Nat) := (t, k.step.toNat, k.srcRank, k.seq)
  let again := k.tiles.filter (fun t => s.staging.failed.contains (mark t))
  let marks := s.staging.failed ++ k.tiles.map mark
  let cnt := satAdd s.staging.checkFail 1 0xFFFF
  let s := ({ s with staging := { s.staging with checkFail := cnt, failed := marks } }).raise 1488
  if again.isEmpty then s.chunkMsg k 4
  else again.foldl (fun s t => (s.collectiveRecord t k 0x23).memberFault t 0x23) s

/-- A chunk's image passes every check but the digest, for one receiving tile (R288). -/
def State.chunkOk (s : State) (t : Nat) (k : Slot) (b : List Byte) : Bool :=
  match (s.tile t).openRun with
  | none => false
  | some (e, r) =>
    let f (o n : Nat) := fieldLE b o n
    match chunkShape e.op (tdescOf r.tdesc) r.n k.seq with
    | none => false
    | some (kind, first, len) =>
      f 0x3C 4 == (crc32c (b.take 0x3C ++ b.drop 0x40)).toNat && f 0 1 == 1 && f 1 1 == kind && f 2 1 == k.team.toNat &&
        f 4 2 == k.step.toNat && f 8 4 == k.srcRank && f 0xC 4 == k.dst && f 0x10 4 == k.seq && f 0x14 4 == first &&
        f 0x18 4 == len && !r.landed.contains (k.srcRank, k.seq)

/-- The digest equals the receiver's own. -/
def State.digestOk (s : State) (t : Nat) (b : List Byte) : Bool :=
  match (s.tile t).openRun with
  | none => false
  | some (e, r) => fieldLE b 0x1C 4 == (teamDigest e.op (tdescOf r.tdesc) (fdescOf r.fdesc)).toNat

/-- A passed chunk is delivered to one receiving tile (R278 phases 4 and 7, R279, R280). -/
def State.deliverChunk (s : State) (t : Nat) (k : Slot) (b : List Byte) : State :=
  match (s.tile t).openRun with
  | none => s
  | some (_, r) =>
    let d := tdescOf r.tdesc
    let f := fdescOf r.fdesc
    let pl := b.drop 64
    let first := fieldLE b 0x14 4
    let s := s.modRun t (fun r => { r with landed := r.landed ++ [(k.srcRank, k.seq)] })
    match fieldLE b 1 1 with
    | 0 =>
      let gs := shardOf d r.n / 16
      let up (i : Nat) : Nat := if first ≤ i ∧ i < first + pl.length then (pl.getD (i - first) 0).toNat else 0
      let agree := (List.range gs).map (fun i => max (r.agree.getD i 0) (up i))
      (s.modRun t (fun r => { r with agree := agree })).castAnchors t
    | 1 =>
      let half := match r.waiting with
        | w :: _ => 1 - w.1
        | [] => b2n (Config.freeBool s.free)
      let s := s.draw.spWrite t (f.rbuf + half * (rbufBytes / 2)) pl
      if r.phase = 3 then (s.addChunk t first pl).finishShard t
      else s.modRun t (fun r => { r with waiting := r.waiting ++ [(half, first, pl)] })
    | 2 => s.unitWrites t (pl.mapIdx (fun i x => (landAt d f r.n k.srcRank (first + i), x)))
    | _ =>
      (s.unitWrites t (pl.mapIdx (fun i x => (gatherAt d r.n k.srcRank (first + i), x)))).gatherDone t

/-- A complete image is checked (R288): delivered with CHECKED, resent, or a digest that differs faults with 0x22. -/
def State.chunkCheck (s : State) (no : Nat) (k : Slot) (b : List Byte) : State :=
  if !k.tiles.all (fun t => s.chunkOk t k b) then s.chunkFail no k
  else
    let s := s.freeSlotNo no
    let bad := k.tiles.filter (fun t => !s.digestOk t b)
    if bad.isEmpty then (k.tiles.foldl (fun s t => s.deliverChunk t k b) s).chunkMsg k 3
    else bad.foldl (fun s t => (s.collectiveRecord t k 0x22).memberFault t 0x22) s

/-- Both halves of a receiver's RBUF hold data that waits for phase 5: a further data chunk stays in its slot (R278, R290). -/
def State.rbufFull (s : State) (k : Slot) (b : List Byte) : Bool :=
  fieldLE b 1 1 == 1 && k.tiles.any (fun t => match (s.tile t).openRun with
    | some (_, r) => r.phase != 3 && decide (2 ≤ r.waiting.length)
    | none => false)

/-- The complete chunks that waited in their slots for a tile's RBUF, in slot order. -/
def State.flushSlots (s : State) (t : Nat) : State :=
  ((s.staging.slots.filter (fun e => e.2.tiles.contains t)).map (·.1)).foldl (fun s no =>
    match SMap.find? s.staging.slots no with
    | none => s
    | some k => match k.bytes with
      | some b => if s.rbufFull k b then s else s.chunkCheck no k b
      | none => s) s

/-- A chunk packet reaches the staging memory. A packet whose tail failed leaves nothing (07 R201). -/
def State.chunkArrives (s : State) (pkt : Packet) : State :=
  if pkt.tail ≠ .good then s else
  match colMsg pkt 0 tCKT with
  | none => s.stray
  | some c =>
    match SMap.find? s.staging.slots c.slot with
    | none => s.stray
    | some k =>
      if k.team.toNat ≠ c.team ∨ k.step.toNat ≠ c.step ∨ k.seq ≠ c.chunk then s.stray
      else if k.tiles.any (fun t => s.barred (t / 72)) then s.freeSlotNo c.slot
      else
        let k := { k with image := k.image ++ [(64 * c.off, pkt.payload)], first := some (k.first.getD s.now) }
        let keep := { s with staging := { s.staging with slots := SMap.set s.staging.slots c.slot k } }
        match k.bytes with
        | some b => if s.rbufFull k b then keep else s.chunkCheck c.slot k b
        | none => keep

/-- CHUNK (R288). -/
def execChunk (pkt : Packet) (s : State) : Host.Outcome State Fault Refusal :=
  .next (if s.railsOn then s.chunkArrives pkt else s)

/-- SLOT_TIMEOUT (R289): no first packet within 1 ms of the grant, or an image not complete INC_US after its first packet. -/
def execSlotTimeout (slot : Fin 384) (s : State) : Host.Outcome State Fault Refusal :=
  .next (match SMap.find? s.staging.slots slot.val with
    | none => s
    | some k =>
      let due := match k.first with
        | none => k.granted + fcPerMs
        | some f => f + s.incUs * fcPerUs
      if due ≤ s.now ∧ k.bytes.isNone then s.chunkFail slot.val k else s)

/-! ### What the sender hears (R288) -/

/-- The local member that a CHECKED or RESEND names. -/
def State.senderOf (s : State) (p : Packet) (c : Col) : Option Nat :=
  (s.openTiles (BitVec.ofNat 7 (fieldLE p.payload 12 1)) c.team c.step).find? (fun n =>
    match (s.tile n).openRun with
    | some (_, r) => r.rank == fieldLE p.payload 0 4
    | none => false)

/-- CHECKED (R288): the chunk is no longer in flight. -/
def execChecked (pkt : Packet) (s : State) : Host.Outcome State Fault Refusal :=
  .next (if !s.railsOn then s else
    match colMsg pkt 3 tMSGP with
    | none => s.stray
    | some c =>
      match s.senderOf pkt c with
      | none => s
      | some n =>
        let key := (fieldLE pkt.payload 4 4, fieldLE pkt.payload 8 4)
        s.modRun n (fun r => { r with flying := r.flying.filter (fun x => x != key) }))

/-- RESEND (R288): the sender asks for a new slot and sends the chunk again with RETRY set. -/
def execResend (pkt : Packet) (s : State) : Host.Outcome State Fault Refusal :=
  .next (if !s.railsOn then s else
    match colMsg pkt 4 tMSGP with
    | none => s.stray
    | some c =>
      match s.senderOf pkt c with
      | none => s
      | some n =>
        let dst := fieldLE pkt.payload 4 4
        let seq := fieldLE pkt.payload 8 4
        (s.modRun n (fun r =>
          if r.flying.contains (dst, seq) then
            { r with flying := r.flying.filter (fun x => x != (dst, seq)), sends := (dst, seq, true) :: r.sends }
          else r)).askSlots n 8)

/-- ABORT (R291): the step's chunks and requests go, the step is recorded, and every local member of it ends with 0x24. -/
def execAbort (pkt : Packet) (s : State) : Host.Outcome State Fault Refusal :=
  .next (if !s.railsOn then s else
    match colMsg pkt 5 tMSGP with
    | none => s.stray
    | some c => (s.raise 1488).stepAborted (BitVec.ofNat 7 (fieldLE pkt.payload 0 1)) c.team c.step none)

/-! ### Inbound packets of a tile port -/

/-- An inbound request at a tile port, and what the bytes it brought let a fused instruction begin (R278 phase 5). -/
def State.tileInbound (s : State) (n : Nat) (p : Packet) : State := ((s.portInbound n p).reanchor n).flushSlots n

/-- TILE_PORT_INBOUND (02 R63). Replies are not inbound requests; a retired tile's stop delivers nothing to it (05 R147). -/
def execTilePortInbound (t : TileNo) (pkt : Packet) (s : State) : Host.Outcome State Fault Refusal :=
  .next (if !s.railsOn || pkt.typ == tRDR || pkt.typ == tACK || gaRegion pkt.addr != 1 ||
      (s.part (t.val / 72)).retired.contains (t.val % 72) then s
    else match s.arrive (fun d => d == .tile t.val || d == .part (t.val / 72)) pkt with
      | some (s, _) => s.tileInbound t.val pkt
      | none => s)

/-! ### The tensor queue -/

/-- A tensor or fused instruction issues into the 16-entry queue (02 R50). [DESIGN CHOICE: log 3] -/
def State.issueT (s : State) (t : TileNo) (legal : Bool) (op : TOp) (a b c d : Reg) : Host.Outcome State Fault Refusal :=
  .next (s.runInstr t.val (fun x =>
    if !legal then .trap s vecIllegal 0 x.pc
    else if 16 ≤ x.tq.length then .stall
    else .next (s.setTile t.val { x with
      tq := x.tq ++ [⟨op, x.pc, x.reg a, x.reg b, x.reg c, x.reg d, [], none, none⟩] })))

def execTmm (t : TileNo) (a : Reg) (s : State) : Host.Outcome State Fault Refusal := s.issueT t true .tmm a 0 0 0
def execTmmAg (t : TileNo) (a b : Reg) (s : State) : Host.Outcome State Fault Refusal := s.issueT t true .tmmAg a b 0 0
def execTanc (t : TileNo) (a b : Reg) (s : State) : Host.Outcome State Fault Refusal := s.issueT t true .tanc a b 0 0
def execTmmxRs (t : TileNo) (sub : BitVec 6) (a b c d : Reg) (s : State) : Host.Outcome State Fault Refusal :=
  s.issueT t (sub == 0) .rs a b c d
def execTmmxAr (t : TileNo) (sub : BitVec 6) (a b c d : Reg) (s : State) : Host.Outcome State Fault Refusal :=
  s.issueT t (sub == 0) .ar a b c d
def execTmmxAg (t : TileNo) (sub : BitVec 6) (a b c d : Reg) (s : State) : Host.Outcome State Fault Refusal :=
  s.issueT t (sub == 0) .ag a b c d
def execTmmxA2a (t : TileNo) (sub : BitVec 6) (a b c d : Reg) (s : State) : Host.Outcome State Fault Refusal :=
  s.issueT t (sub == 0) .a2a a b c d

/-- The charge that the head of a queue requests: that of the class its WFMT byte names; nothing for TANC, for a
descriptor that fails check 1, or for a WFMT that names no class (12 R359). -/
def Tile.chargeOf (t : Tile) (e : TEntry) : Nat :=
  if e.op = .tanc then 0 else
  match descCheck e.a with
  | some _ => 0
  | none => classCost (t.scratch.read (e.a.toNat + 0x20)).toNat

/-- CHARGE_REQUEST (12 R359). -/
def execChargeRequest (t : TileNo) (s : State) : Host.Outcome State Fault Refusal :=
  let x := s.tile t.val
  .next (match x.tq with
    | [] => s
    | e :: q =>
      if x.drain.isSome || e.req.isSome then s
      else s.setTile t.val { x with tq := { e with req := some (x.chargeOf e, s.tcOf t.val) } :: q })

/-- Requests of a partition that wait for charge: tc, logical tile, physical tile. -/
def State.chargeQueue (s : State) (n : Nat) : List (Nat × Nat × Nat) :=
  (s.tiles.filter (fun e => e.1 / 72 == n)).filterMap (fun e => match e.2.tq with
    | h :: _ => match h.req, h.run with
      | some (c, w), none => if c = 0 then none else some (w, (s.ltidOf e.1).getD 0xFFFF, e.1)
      | _, _ => none
    | [] => none)

/-- No earlier request waits: by tc, then by logical tile id (12 R360). -/
def State.chargeFirst (s : State) (t w : Nat) : Bool :=
  let me := (s.ltidOf t).getD 0xFFFF
  (s.chargeQueue (t / 72)).all (fun x => x.2.2 == t || decide (w < x.1 ∨ (w = x.1 ∧ me ≤ x.2.1)))

/-- The start of the head of a queue at a rate. -/
def State.startHead (s : State) (t : Nat) (e : TEntry) (half : Bool) : State :=
  if e.op.fused then s.fusedBegin t e half else s.tensorBegin t e half

/-- TENSOR_START (12 R360): the budget covers the request, which no earlier one precedes, and the instruction starts at full
rate; a request that claims nothing starts at once. -/
def execTensorStart (t : TileNo) (s : State) : Host.Outcome State Fault Refusal :=
  let x := s.tile t.val
  .next (match x.tq with
    | [] => s
    | e :: _ =>
      match e.req, e.run with
      | some (c, w), none =>
        let p := s.part (t.val / 72)
        if x.drain.isSome then s
        else if c = 0 then s.startHead t.val e false
        else if c ≤ p.charge && s.chargeFirst t.val w then
          (s.setPart (t.val / 72) { p with charge := p.charge - c }).startHead t.val e false
        else s
      | _, _ => s)

/-- HALF_RATE_START (12 R360): 64 tc after its request a start that is still not covered proceeds at half rate. -/
def execHalfRateStart (t : TileNo) (s : State) : Host.Outcome State Fault Refusal :=
  let x := s.tile t.val
  .next (match x.tq with
    | [] => s
    | e :: _ =>
      match e.req, e.run with
      | some (c, w), none =>
        let p := s.part (t.val / 72)
        if x.drain.isSome || c == 0 || decide (s.tcOf t.val < w + 64) || (decide (c ≤ p.charge) && s.chargeFirst t.val w) then s
        else
          (s.setPart (t.val / 72) { p with halfStarts := p.halfStarts + 1 }).startHead t.val e true
      | _, _ => s)

/-- TENSOR_FINISH (03 R80): the compute phase and its write-back complete, or meet a fault (R527, R82); a plain instruction finishes,
a fused one goes on (09 R278 to R280).
[DEDUCED: log 47] -/
def execTensorFinish (t : TileNo) (s : State) : Host.Outcome State Fault Refusal :=
  let x := s.tile t.val
  .next (match x.tq with
    | [] => s
    | e :: _ =>
      match e.run with
      | none => s
      | some r =>
        if x.drain.isSome then s
        else if e.op.fused then (if r.phase = 1 then s.fusedMultiplied t.val else s)
        else s.tensorEnd t.val e r)

/-- The conditions of 09 R281. -/
def fusedReady (e : TEntry) (r : TRun) : Bool :=
  let d := tdescOf r.tdesc
  let f := fdescOf r.fdesc
  r.phase == 4 && r.sends.isEmpty && r.asked.isEmpty && r.flying.isEmpty &&
    (match e.op with
      | .ar => decide (d.m * d.n * f.size ≤ r.rgot)
      | .a2a => r.passIn 0 (chunkCount e.op d r.n)
      | _ => true)

/-- FUSED_FINISH (09 R281): every chunk is CHECKED and the results are in place. Areas that overlap hold unspecified contents (R275). -/
def execFusedFinish (t : TileNo) (s : State) : Host.Outcome State Fault Refusal :=
  let x := s.tile t.val
  .next (match x.openRun with
    | none => s
    | some (e, r) =>
      if x.drain.isSome || !fusedReady e r then s
      else
        let d := tdescOf r.tdesc
        let f := fdescOf r.fdesc
        let spoil := if fusedOverlap e.op d f r.n then
          d.oplane ++ (fusedAreas e.op d f r.n).map (fun a => (a.1, a.2.1)) else []
        (s.draw.clearMarks t.val).tensorDone t.val (freeCells s.free spoil) r.sticky r.anchor)

/-- FUSED_TIMEOUT (09 R292): TMO has passed since the start; finish conditions met at the same time win (R293). -/
def execFusedTimeout (t : TileNo) (s : State) : Host.Outcome State Fault Refusal :=
  let x := s.tile t.val
  .next (match x.openRun with
    | none => s
    | some (e, r) =>
      match r.due with
      | some due => if x.drain.isNone && decide (due ≤ s.now) && !fusedReady e r then s.memberFault t.val 0x25 else s
      | none => s)

end Sys2Proof.Machine
end

