-- ==== Sys2Proof/Machine/Armature.lean ====
section
/-!
DEFINITION. Seams, the armature, rotation and the firmware broadcast (05 R140 to R155).
-/

namespace Sys2Proof.Machine

/-! ### Seams (R140, R143) -/

/-- A seam port leaves service. -/
def Router.seamDown (r : Router) (east : Bool) (q : Nat) : Router :=
  if east then { r with seamEast := r.seamEast &&& ~~~(BitVec.ofNat 24 (2 ^ q)) } else { r with seamWest := r.seamWest &&& ~~~(BitVec.ofNat 24 (2 ^ q)) }

/-- SEAM_RESEND (R143): a flit is resent; eight failed resends of it in a row take the port out of service and fence the
partition that owns it with cause 0x04. -/
def execSeamResend (east : Bool) (q : Fin 24) (failed : Bool) (s : State) : Host.Outcome State Fault Refusal :=
  let r := s.router
  let k := q.val + (if east then 24 else 0)
  let fails := SMap.get 0 r.seamFails k + 1
  .next (if !s.railsOn || !r.seamUp east q.val then s
    else
      let r := { r with seamRetry := satAdd r.seamRetry 1 0xFFFF }
      if !failed then { s with router := { r with seamFails := SMap.del r.seamFails k } }
      else if fails < 8 then { s with router := { r with seamFails := SMap.set r.seamFails k fails } }
      else (({ s with router := { r.seamDown east q.val with seamFails := SMap.del r.seamFails k } }).partEvent
        (seamOwner east q.val) 6).fence (seamOwner east q.val) 4)

/-! ### Building and showing a record (R144, R146) -/

/-- Step 3 and 4 of R146: the two spares and the map, for at most two retired physical indices. -/
def buildArm (retired : List Nat) (epoch : BitVec 16) : Option Armature :=
  let ret := (List.range 72).filter (fun x => retired.contains x)
  if 2 < ret.length then none
  else
    let live := (List.range 72).filter (fun x => !ret.contains x)
    let extra := live.drop (live.length - (2 - ret.length))
    let spares := ((ret.map (fun x => (x, true))) ++ (extra.map (fun x => (x, false))))
    let spares := match spares with
      | [a, b] => if b.1 < a.1 then [b, a] else [a, b]
      | l => l
    some { lmap := live.filter (fun x => !extra.contains x), spares := spares, epoch := epoch }

/-- The 80 bytes of a record (R144). -/
def Armature.bytes (a : Armature) (part : Nat) : List Byte :=
  let b := a.lmap.map (BitVec.ofNat 8) ++ a.spares.map (fun x => BitVec.ofNat 8 (x.1 + (if x.2 then 128 else 0))) ++
    leBytes 2 a.epoch.toNat ++ [BitVec.ofNat 8 part, 0]
  b ++ leBytes 4 (crc32c b).toNat

/-- Spares that are not retired. -/
def Armature.freeSpares (a : Armature) : List Nat := (a.spares.filter (fun x => !x.2)).map (·.1)

/-- Every copy takes the new record as a whole (R145, R154). Between its broadcast and the acknowledgement of the last copy only
the ids that a hold stops change place, so one record stands for all copies. [DEDUCED: log 184] -/
def State.setArm (s : State) (n : Nat) (a : Armature) : State :=
  (s.setPart n { s.part n with arm := some a, epoch := a.epoch }).cast 0xFFF (.record n (a.bytes n))

/-! ### Rotation (R148 to R153) -/

def offArmCfg : Nat := 0x300100
def State.armCfg (s : State) : Nat := s.reg offArmCfg 0x3E801

/-- The logical index and physical index of the in-service tile with the highest score, lowest index first; those already
chosen are left out. -/
def hottest (p : Part) (a : Armature) (taken : List Nat) : Option (Nat × Nat) :=
  (a.lmap.mapIdx (fun i x => (i, x))).foldl (fun (m : Option (Nat × Nat)) c =>
    if taken.contains c.2 then m else
    match m with
    | none => some c
    | some b =>
      let hc := SMap.get 0 p.heat c.2
      let hb := SMap.get 0 p.heat b.2
      if hb < hc ∨ (hb = hc ∧ c.2 < b.2) then some c else some b) none

/-- The moves of a rotation: (logical index, from, to), one for each spare that is not retired (R149). -/
def movesOf (p : Part) (a : Armature) : List (Nat × Nat × Nat) :=
  a.freeSpares.foldl (fun l sp => match hottest p a (l.map (fun m => m.2.1)) with
    | some (i, x) => l ++ [(i, x, sp)]
    | none => l) []

/-- The tile ports that carry a logical id. -/
def State.logicalTiles (s : State) : List Nat := (List.range 12).flatMap s.tilesOf

/-- ROTATION (R148, R149, R150 steps 1 and 2). -/
def execRotation (n : PartNo) (s : State) : Host.Outcome State Fault Refusal :=
  let p := s.part n.val
  .next (match p.arm, p.rot with
    | some a, none =>
      let ms := movesOf p a
      let least := max 1 (bits s.armCfg 23 8)
      if !s.railsOn || p.psw.state != .idle || !p.becameIdle || !bitAt s.armCfg 0 || !p.jobs.isEmpty ||
          decide (s.now < p.rotLast + least * fcPerMs) || a.freeSpares.isEmpty ||
          (ms.map (fun m => SMap.get 0 p.heat m.2.1)).all (· == 0) then s
      else
        let marks := ms.flatMap (fun m => (s.logicalTiles.map (fun t => (72 * n.val + m.2.1, some t, 0))) ++
          (maskList (SMap.get 0 p.portUsed m.2.1) 4).map (fun c => (72 * n.val + m.2.1, none, c)))
        (s.setPart n.val { p with
          rot := some { moves := ms, markers := marks, step := 3, held := [], started := s.now },
          rotLast := s.now, becameIdle := false }).cast 0xFFF (.hold (ms.map (fun m => 70 * n.val + m.1)))
    | _, _ => s)

/-- Flits of a packet (07 R192). -/
def flitsOf (p : Packet) : Nat := (16 * (1 + p.exts.length) + p.payload.length + 4 + 63) / 64

/-- Flits in the hold buffer of 256 (R151). -/
def RotState.heldFlits (r : RotState) : Nat := r.held.foldl (fun a p => a + flitsOf p) 0

/-- The markers are not all in within 16,000 fc of the hold, or the hold buffer is full: the rotation can only be abandoned
(R152). -/
def State.rotationLate (s : State) (r : RotState) : Bool :=
  (r.step == 3 && decide (r.started + 16000 ≤ s.now)) || decide (256 ≤ r.heldFlits)

/-- DRAIN_MARKER (R151): a marker reaches moving tile `t` on a channel from a tile port, behind every packet that port has sent to
it, or from the partition port (none). With the last one the copy begins. -/
def execDrainMarker (t : TileNo) (m : MarkerSrc) (s : State) : Host.Outcome State Fault Refusal :=
  let n := t.val / 72
  let p := s.part n
  .next (match p.rot with
    | some r =>
      if r.step ≠ 3 || s.rotationLate r || s.mesh.any (fun f => m.src.any (fun x => f.lane == (.tile x.val, .tile t.val, m.chan.val))) then s else
      let left := r.markers.filter (fun k => k != (t.val, m.src.map (·.val), m.chan.val))
      s.setPart n { p with rot := some { r with markers := left, step := if left.isEmpty then 4 else 3 } }
    | none => s)

/-- The old record stays in force, the release is broadcast, the held posted writes go to P, and the cause is recorded (R152). -/
def State.abandonRotation (s : State) (n : Nat) (cause : BitVec 8) : State :=
  let p := s.part n
  match p.rot with
  | none => s
  | some r =>
    let s := ((s.setPart n { p with rot := none, lastAbort := cause }).partEvent n 4).cast 0xFFF (.release (r.moves.map (fun m => 70 * n + m.1)))
    r.held.foldl (fun s k => match s.physOf (gaLtid k.addr) with
      | some t => s.tileInbound t k
      | none => s) s

/-- A moving tile holds a word that cannot be corrected. -/
def State.rotationBad (s : State) (n : Nat) (r : RotState) : Bool :=
  r.moves.any (fun m => !((s.tile (72 * n + m.2.1)).badWords 0 spadEnd).isEmpty)

/-- The copy of one moving tile's scratchpad; single-bit errors are corrected on the way (02 R47). -/
def State.copyTile (s : State) (n x y : Nat) : State :=
  let (s, _) := s.spRead (72 * n + x) 0 spadEnd
  let p := s.tile (72 * n + x)
  let q := s.tile (72 * n + y)
  s.setTile (72 * n + y) { q with scratch := p.scratch, upsets := [], tenant := p.tenant, fwCrc := p.fwCrc }

/-- The record after the moves (R150 steps 5 and 6). -/
def Armature.moved (a : Armature) (ms : List (Nat × Nat × Nat)) : Armature :=
  ms.foldl (fun a m =>
    let sp := a.spares.map (fun x => if x.1 == m.2.2 then (m.2.1, x.2) else x)
    let sp := match sp with
      | [u, v] => if v.1 < u.1 then [v, u] else [u, v]
      | l => l
    { a with lmap := a.lmap.set m.1 m.2.2, spares := sp }) { a with epoch := a.epoch + 1 }

/-- ROTATION_COPY_DONE (R150 steps 4 and 5): the copies end and the new record, with the next EPOCH, is broadcast; a double-bit
word met in the copy abandons the rotation and is counted (R152). -/
def execRotationCopyDone (n : PartNo) (s : State) : Host.Outcome State Fault Refusal :=
  let p := s.part n.val
  .next (match p.rot, p.arm with
    | some r, some a =>
      if r.step ≠ 4 || s.rotationLate r then s
      else if s.rotationBad n.val r then (s.countSp 0 1).abandonRotation n.val 3
      else
        let s := r.moves.foldl (fun s m => s.copyTile n.val m.2.1 m.2.2) s
        let s := s.setArm n.val (a.moved r.moves)
        s.setPart n.val { s.part n.val with rot := some { r with step := 5 } }
    | _, _ => s)

/-- Step 6 of R150: the release is broadcast, held posted writes go to S in order, the scores return to zero. -/
def State.releaseRotation (s : State) (n : Nat) : State :=
  let p := s.part n
  match p.rot with
  | none => s
  | some r =>
    let s := ((s.setPart n { p with rot := none, heat := [], rotations := satAdd p.rotations 1 0xFFFFFFFF }).partEvent n 4).cast
      0xFFF (.release (r.moves.map (fun m => 70 * n + m.1)))
    r.held.foldl (fun s k => match s.physOf (gaLtid k.addr) with
      | some t => s.tileInbound t k
      | none => s) s

/-- An order that ends the partition's work: a rotation that has begun step 5 completes first, an earlier one is abandoned
(R152). -/
def State.endRotation (s : State) (n : Nat) : State :=
  match (s.part n).rot with
  | some r => if 5 ≤ r.step then s.releaseRotation n else s.dropRotation n
  | none => s

/-- ROTATION_RELEASE (R150 step 6), once every copy has acknowledged; fencing orders that waited are carried out (R152). -/
def execRotationRelease (n : PartNo) (s : State) : Host.Outcome State Fault Refusal :=
  let p := s.part n
  .next (match p.rot with
    | some r =>
      if r.step ≠ 5 then s
      else
        let s := s.releaseRotation n.val
        p.fencesHeld.foldl (fun s c => s.fence n.val c) (s.setPart n.val { s.part n.val with fencesHeld := [] })
    | none => s)

/-- ROTATION_ABANDON (R152): markers not all in within 16,000 fc of the hold (1), a full hold buffer (2), a double-bit word (3),
or an order for the partition (4). -/
def execRotationAbandon (n : PartNo) (cause : BitVec 3) (s : State) : Host.Outcome State Fault Refusal :=
  .next (match (s.part n.val).rot with
    | some r =>
      let holds := match cause.toNat with
        | 1 => r.step == 3 && decide (r.started + 16000 ≤ s.now)
        | 2 => decide (r.step < 5 ∧ 256 ≤ r.heldFlits)
        | 3 => r.step == 4 && s.rotationBad n.val r
        | 4 => decide (r.step < 5)
        | _ => false
      if !holds then s
      else (if cause = 3 then s.countSp 0 1 else s).abandonRotation n.val (cause.setWidth 8)
    | none => s)

/-! ### Firmware broadcast (R154, R155) -/

/-- Tiles of a partition that are not retired, spares included. -/
def State.liveTiles (s : State) (n : Nat) : List Nat :=
  (List.range 72).filterMap (fun x => if (s.part n).retired.contains x then none else some (72 * n + x))

/-- The firmware image reaches a tile's firmware region. -/
def State.putFirmware (s : State) (image : List Byte) (t : Nat) : State :=
  let s := s.spWrite t 0 image
  s.setTile t { s.tile t with fwCrc := crc32c image, fwTry := 0 }

/-- FIRMWARE_BROADCAST (R154): 32 KiB into the firmware region of every tile of the masked partitions that is not retired. -/
def execFirmwareBroadcast (mask : BitVec 12) (image : List Byte) (s : State) : Host.Outcome State Fault Refusal :=
  if image.length ≠ progBase then .fault .illFormed
  else if !s.railsOn then .next s
  else
    let s := (psetList mask).foldl (fun s n => (s.liveTiles n).foldl (fun s t => s.putFirmware image t) s) s
    .next (({ s with fwImage := image }).cast mask.toNat (.firmware image))

/-- FIRMWARE_CRC_CHECK (R155): a tile port computes the CRC-32C of its firmware region and replies with it; a tile that differs is
sent the image again by ordinary writes, and a second difference adds it to the failing tiles; before an image has been
broadcast there is none to check. -/
def execFirmwareCrcCheck (n : PartNo) (i : Fin 72) (s : State) : Host.Outcome State Fault Refusal :=
  let t := 72 * n.val + i.val
  let x := s.tile t
  .next (if !s.railsOn || s.fwImage.isEmpty || (s.part n.val).retired.contains i.val then s
    else if crc32c (x.scratch.readN 0 progBase) = x.fwCrc then s.setTile t { x with fwTry := 0 }
    else if 1 ≤ x.fwTry then s.setTile t { x with fwTry := x.fwTry + 1, marked := true }
    else
      let s := s.putFirmware s.fwImage t
      s.setTile t { s.tile t with fwTry := 1 })

end Sys2Proof.Machine
end

