-- ==== Sys2Proof/Machine/Coding.lean ====
section
/-!
DEFINITION. What lies on a lane (spec 08): the 8b/10b code and symbol lock (R233), blocks and their scrambler (R234), the check
codes of R238 and R525, the bytes of frames and ordered sets (R237, R257), eye margins (R249) and PRBS (R262).
-/

namespace Sys2Proof.Machine

/-! ### Check codes (R238, R525) -/

/-- One byte into the CRC-8: polynomial x^8 + x^2 + x + 1, most significant bit first. -/
def crc8Step (c b : Byte) : Byte :=
  (List.range 8).foldl (fun c _ => if c.getLsbD 7 then (c <<< 1) ^^^ 0x07 else c <<< 1) (c ^^^ b)

def crc8 (l : List Byte) : Byte := l.foldl crc8Step 0

/-- One byte into the CRC-16 of polynomial 0x8BB7, most significant bit first. [DESIGN CHOICE: log 189] -/
def crc16Step (c : BitVec 16) (b : Byte) : BitVec 16 :=
  (List.range 8).foldl (fun c _ => if c.getLsbD 15 then (c <<< 1) ^^^ 0x8BB7 else c <<< 1) (c ^^^ (b.setWidth 16 <<< 8))

def crc16 (l : List Byte) : BitVec 16 := l.foldl crc16Step 0xFFFF

/-- The link CRC of a flit (R238): its 64 bytes, then its channel nibble. -/
def linkCrc (flit : List Byte) (vc : BitVec 4) : BitVec 16 := crc16 (flit ++ [vc.setWidth 8])

/-! ### 8b/10b (R233) -/

/-- The 5b/6b sub-blocks abcdei at negative running disparity, a the highest bit. [PRESUMED: log 190] -/
def code6 : List (BitVec 6) :=
  [0b100111, 0b011101, 0b101101, 0b110001, 0b110101, 0b101001, 0b011001, 0b111000, 0b111001, 0b100101, 0b010101, 0b110100, 0b001101,
   0b101100, 0b011100, 0b010111, 0b011011, 0b100011, 0b010011, 0b110010, 0b001011, 0b101010, 0b011010, 0b111010, 0b110011, 0b100110,
   0b010110, 0b110110, 0b001110, 0b101110, 0b011110, 0b101011]

/-- The 3b/4b sub-blocks fghj at negative running disparity, f the highest bit. [PRESUMED: log 190] -/
def code4 : List (BitVec 4) := [0b1011, 0b1001, 0b0101, 0b1100, 0b1101, 0b1010, 0b0110, 0b1110]

/-- Ones among the low `n` bits. -/
def ones (n v : Nat) : Nat := (List.range n).countP (fun i => v.testBit i)

/-- A sub-block at a running disparity: unbalanced ones, and the two balanced ones of equal halves, are complemented at positive
disparity. -/
def sub6 (plus : Bool) (v : BitVec 6) : BitVec 6 := if plus && (ones 6 v.toNat != 3 || v == 0b111000) then ~~~v else v
def sub4 (plus : Bool) (v : BitVec 4) : BitVec 4 := if plus && (ones 4 v.toNat != 2 || v == 0b1100) then ~~~v else v

/-- Running disparity after a sub-block of `n` bits. -/
def dispAfter (n : Nat) (plus : Bool) (v : Nat) : Bool := if 2 * ones n v = n then plus else decide (n < 2 * ones n v)

/-- The data character of a byte, first bit on the wire as bit 9. -/
def enc10 (plus : Bool) (b : Byte) : BitVec 10 :=
  let x := b.toNat % 32
  let y := b.toNat / 32
  let v := sub6 plus (code6.getD x 0)
  let mid := dispAfter 6 plus v.toNat
  let alt := y == 7 && (if mid then x == 11 || x == 13 || x == 14 else x == 17 || x == 18 || x == 20)
  v ++ sub4 mid (if alt then 0b0111 else code4.getD y 0)

/-- The comma K28.5. -/
def comma10 (plus : Bool) : BitVec 10 := if plus then 0b1100000101 else 0b0011111010

/-- Running disparity after a character. -/
def dispChar (plus : Bool) (c : BitVec 10) : Bool :=
  dispAfter 4 (dispAfter 6 plus (c.toNat / 16)) (c.toNat % 16)

/-- A character as received: the comma, a data byte, or a code violation or disparity error. -/
inductive Sym where
  | comma
  | data (b : Byte)
  | bad
deriving DecidableEq, Repr

def dec10 (plus : Bool) (c : BitVec 10) : Sym :=
  if c = comma10 plus then .comma
  else match (List.range 256).find? (fun b => enc10 plus (BitVec.ofNat 8 b) == c) with
    | some b => .data (BitVec.ofNat 8 b)
    | none => .bad

/-- The symbols of characters from a running disparity on. -/
def symbols (plus : Bool) : List (BitVec 10) → List Sym
  | [] => []
  | c :: r => dec10 plus c :: symbols (dispChar plus c) r

/-- Symbol lock (R233): the last four commas lie at one bit position, and no 256 symbols hold eight errors. -/
def symbolLock (pos : List Nat) (l : List Sym) : Bool :=
  (match pos.reverse with
   | a :: b :: c :: d :: _ => a == b && b == c && c == d
   | _ => false) && (List.range l.length).all (fun i => decide (((l.drop i).take 256).countP (· == .bad) < 8))

/-! ### Training sequences (R244) -/

/-- Symbols 1 to 14. -/
def tsBytes (t : TrainSeq) : List Byte :=
  [t.typ, t.lane, t.ver, t.rate, t.good] ++ leBytes 2 t.chip.toNat ++ [t.port, t.flags] ++ leBytes 2 t.ack.toNat ++
    leBytes 3 t.zero.toNat

/-- CHECK holds and every field marked zero is zero. -/
def tsValid (t : TrainSeq) (typ : Byte) : Bool :=
  t.typ == typ && t.check == crc8 (tsBytes t) && decide (t.lane.toNat < 8) && decide (t.rate.toNat < 8) &&
    decide (t.port.toNat < 32) && decide (t.flags.toNat < 8) && decide (t.ack.toNat < 2048) && t.zero == 0

/-- A sequence from its symbols 1 to 15. -/
def tsOfBytes (b : List Byte) : TrainSeq :=
  let g (i : Nat) : Byte := b.getD i 0
  { typ := g 0, lane := g 1, ver := g 2, rate := g 3, good := g 4, chip := BitVec.ofNat 16 (fieldLE b 5 2), port := g 7, flags := g 8,
    ack := BitVec.ofNat 16 (fieldLE b 9 2), zero := BitVec.ofNat 24 (fieldLE b 11 3), check := g 14 }

/-- The data bytes of symbols that are all data. -/
def dataOf : List Sym → List Byte
  | .data b :: r => b :: dataOf r
  | _ => []

/-- The TSA sequences among received symbols, in order. -/
def tsaIn (l : List Sym) : List TrainSeq :=
  (List.range l.length).filterMap (fun i =>
    match l.drop i with
    | .comma :: r =>
      let b := dataOf (r.take 15)
      let t := tsOfBytes b
      if b.length = 15 ∧ tsValid t 0x5A then some t else none
    | _ => none)

/-- A receive lane in Align, `plus` the running disparity before its characters: the last sequence read on it, and whether it had to be
inverted for that; none without symbol lock.
[DEDUCED: log 191] -/
def laneHeard (plus : Bool) (x : LaneRx) : Option (TrainSeq × Bool) :=
  let l := symbols plus x.chars
  let m := symbols (!plus) (x.chars.map (~~~ ·))
  match (if symbolLock x.pos l then (tsaIn l).getLast? else none), (if symbolLock x.pos m then (tsaIn m).getLast? else none) with
  | some t, _ => some (t, false)
  | none, some t => some (t, true)
  | none, none => none

/-! ### Blocks and the scrambler (R234) -/

/-- What the scrambler of a lane is loaded with. -/
def scrLoad (lane : Nat) : BitVec 31 := BitVec.ofNat 31 (0x1ABC0000 + lane)

/-- One step: the bit that leaves is the oldest, the bit that enters the sum of the oldest and the fourth oldest.
[DESIGN CHOICE: log 189] -/
def scrStep (r : BitVec 31) : BitVec 31 × Bool :=
  let o := r.getLsbD 30
  ((r <<< 1) ||| (BitVec.ofBool (o ^^ r.getLsbD 27)).setWidth 31, o)

/-- A byte through the scrambler, least significant bit first; the same for sending and receiving. -/
def scrByte (r : BitVec 31) (b : Byte) : BitVec 31 × Byte :=
  (List.range 8).foldl (fun (a : BitVec 31 × Byte) i =>
    let (r, k) := scrStep a.1
    (r, a.2 ^^^ ((BitVec.ofBool k).setWidth 8 <<< i))) (r, b)

def scrBytes (r : BitVec 31) : List Byte → BitVec 31 × List Byte
  | [] => (r, [])
  | b :: t =>
    let (r, c) := scrByte r b
    let (r, l) := scrBytes r t
    (r, c :: l)

/-- A block as it goes on the wire, bit 0 first: the header bits 0, 1 of a data block, 1, 0 of an ordered set, then the bytes. -/
def blockOf (data : Bool) (b : List Byte) : BitVec 130 := BitVec.ofNat 130 ((if data then 2 else 1) + 4 * leNat b)

/-- A block with `n` bits inverted from bit `i` on, as far as it reaches. -/
def flipBits (w : BitVec 130) (i n : Nat) : BitVec 130 := w ^^^ BitVec.ofNat 130 ((2 ^ n - 1) * 2 ^ i)

/-! ### Ordered sets (R257) -/

def osCMP : Byte := 0x0F
def osPAUSE : Byte := 0x50
def osRETRAIN : Byte := 0x7E
def osWINDOW : Byte := 0xE1

/-- An ordered set: its code, its body, zeros up to byte 14, its CRC-8. -/
def osBytes (code : Byte) (body : List Byte) : List Byte :=
  let b := code :: (body ++ List.replicate (14 - body.length) 0)
  b ++ [crc8 b]

/-- A compensation block: its code and filler. -/
def cmpBytes : List Byte := osCMP :: List.replicate 15 0xAA

/-- A compensation block as it arrives, 4 filler bytes more or fewer. -/
def isCmp (b : List Byte) : Bool :=
  (b.length == 12 || b.length == 16 || b.length == 20) && b.head? == some osCMP && (b.drop 1).all (· == 0xAA)

/-- The ordered set that the receiver acts on: the first block, by rank, whose check passes. -/
def osIn (blocks : List (List Byte)) : Option (List Byte) :=
  blocks.find? (fun b => b.length == 16 && b.getD 15 0 == crc8 (b.take 15))

/-! ### Frames (R237) -/

/-- The trailer from its fields: link CRCs, channels, SEQ, ACK, NAK, credits, RDY; TCRC over bytes 6 to 14 (R525). -/
def trailerOf (flits : List (Nat × List Byte)) (seq ack : BitVec 11) (nak : Bool) (cred : List Nat) (rdy : Bool) : List Byte :=
  let f (i : Nat) : Nat × List Byte := flits.getD i (15, [])
  let crc (i : Nat) : Nat := (linkCrc (f i).2 (BitVec.ofNat 4 (f i).1)).toNat
  let low := fieldAt (crc 0) 0 16 + fieldAt (crc 1) 16 16 + fieldAt (crc 2) 32 16
  let mid := fieldAt (f 0).1 48 4 + fieldAt (f 1).1 52 4 + fieldAt (f 2).1 56 4 + fieldAt seq.toNat 60 11 + fieldAt ack.toNat 71 11 +
    fieldAt (b2n nak) 82 1 + (List.range 12).foldl (fun a c => a + fieldAt (cred.getD c 0) (83 + 3 * c) 3) 0 + fieldAt (b2n rdy) 119 1
  let b := leBytes 15 (low + mid)
  b ++ [crc8 (b.drop 6)]

/-- The null flit (R238). -/
def nullFlit : Nat × List Byte := (15, List.replicate 64 0)

/-- The 208 bytes of a frame of up to three flits, null flits behind them. -/
def frameBytes (flits : List (Nat × List Byte)) (seq ack : BitVec 11) (nak : Bool) (cred : List Nat) (rdy : Bool) : List Byte :=
  let l := (flits ++ List.replicate 3 nullFlit).take 3
  l.flatMap (·.2) ++ trailerOf l seq ack nak cred rdy

/-- A frame read from its 208 bytes. -/
def parseFrame (b : List Byte) : LinkFrame :=
  let t := b.drop 192
  let v := leNat t
  { flits := (List.range 3).map (fun i =>
      let f := (b.drop (64 * i)).take 64
      let vc := BitVec.ofNat 4 (bits v (51 + 4 * i) (48 + 4 * i))
      ⟨vc, f, decide ((linkCrc f vc).toNat = bits v (16 * i + 15) (16 * i))⟩),
    seq := BitVec.ofNat 11 (bits v 70 60), ack := BitVec.ofNat 11 (bits v 81 71), nak := bitAt v 82,
    cred := (List.range 12).map (fun c => bits v (85 + 3 * c) (83 + 3 * c)), rdy := bitAt v 119,
    tcrcOk := t.getD 15 0 == crc8 ((t.drop 6).take 9) }

/-! ### Eye margins (R249) -/

/-- The largest offset reached with no disagreement at it or below it, at most 128. -/
def margin (l : List Bool) : Nat := (l.take 128).findIdx (fun d => d)

/-- The eye margin metric with one code. -/
def sweepEmm (w : Sweep) : Nat := min 255 (margin w.up + margin w.down)

/-- The best of the codes tried from code `n` on, the lowest among equals: code and metric. -/
def bestCode (n : Nat) : List Sweep → Option (Nat × Nat)
  | [] => none
  | w :: r => match bestCode (n + 1) r with
    | some (c, m) => if sweepEmm w < m then some (c, m) else some (n, sweepEmm w)
    | none => some (n, sweepEmm w)

/-! ### PRBS (R262) -/

/-- The degree and the other tap of a pattern; 3 acts as 2. -/
def prbsTaps (pattern : Nat) : Nat × Nat := match pattern with
  | 0 => (7, 6)
  | 1 => (15, 14)
  | _ => (31, 28)

/-- The next bit of a pattern after the bits of a register, the newest in bit 0. -/
def prbsNext (pattern : Nat) (r : BitVec 31) : Bool :=
  let (a, b) := prbsTaps pattern
  r.getLsbD (a - 1) ^^ r.getLsbD (b - 1)

def prbsPush (r : BitVec 31) (b : Bool) : BitVec 31 := (r <<< 1) ||| (BitVec.ofBool b).setWidth 31

/-- `n` bits of a generator. -/
def prbsGo (pattern : Nat) (r : BitVec 31) : Nat → BitVec 31 × List Bool
  | 0 => (r, [])
  | n + 1 =>
    let b := prbsNext pattern r
    let (r, l) := prbsGo pattern (prbsPush r b) n
    (r, b :: l)

/-- What a checker starts from. -/
def PrbsChk.start : PrbsChk := ⟨0, 0, 0, false, []⟩

/-- A received bit at a checker; whether it counts as wrong. Out of sync the register takes the received bits; in sync, after 64
right predictions in a row, it goes on by its own; 256 wrong bits within 1,024 have it load again. [DEDUCED: log 192] -/
def PrbsChk.bit (c : PrbsChk) (pattern : Nat) (b : Bool) : PrbsChk × Bool :=
  let n := c.loaded + 1
  let p := prbsNext pattern c.reg
  if !c.sync then
    let run := if decide ((prbsTaps pattern).1 ≤ c.loaded) && p == b then c.run + 1 else 0
    ({ c with reg := prbsPush c.reg b, loaded := n, run := run, sync := decide (64 ≤ run), wrong := [] }, false)
  else
    let wrong := (c.wrong.filter (fun i => decide (n < i + 1024))) ++ (if p == b then [] else [n])
    (if 256 ≤ wrong.length then .start else { c with reg := prbsPush c.reg p, loaded := n, wrong := wrong }, p != b)

/-- Received bits at a checker, and how many count as wrong. -/
def PrbsChk.run' (c : PrbsChk) (pattern : Nat) : List Bool → PrbsChk × Nat
  | [] => (c, 0)
  | b :: r =>
    let (c, w) := c.bit pattern b
    let (c, n) := c.run' pattern r
    (c, b2n w + n)

end Sys2Proof.Machine
end

