-- ==== Sys2Proof/Machine/PktBytes.lean ====
section
/-!
DEFINITION. Packets as flits (spec 07 R192, R193, R196): their bytes with the tail check PCRC, and a packet read back from its flits.
-/

namespace Sys2Proof

open Machine

/-- Bytes 8 to 15 of the base header with a phase and the NONMIN bit (R193). -/
def Packet.word1 (k : Packet) (phase nonmin : Nat) : Nat :=
  k.ver.toNat + 4 * k.typ.toNat + 2 ^ 6 * phase + 2 ^ 8 * nonmin + 2 ^ 9 * k.ext.toNat + 2 ^ 12 * k.plen.toNat +
    2 ^ 25 * k.tenant.toNat + 2 ^ 32 * k.srcChip.toNat + 2 ^ 48 * k.rid.toNat

/-- An extension header of 16 bytes (R196). -/
def Ext.bytes (e : Ext) : List Byte :=
  BitVec.ofNat 8 (e.kind.toNat + 8 * e.next.toNat + 64 * e.rsvd.toNat) :: leBytes 15 e.body.toNat

/-- The bytes before the tail check: base header, extensions, payload, zeros (R192). -/
def Packet.front (k : Packet) (phase nonmin : Nat) : List Byte :=
  let b := leBytes 8 k.addr.toNat ++ leBytes 8 (k.word1 phase nonmin) ++ k.exts.flatMap Ext.bytes ++ k.payload
  b ++ List.replicate (64 * flitsOf k - 4 - b.length) 0

/-- PCRC: the CRC-32C of the bytes before it with PHASE and NONMIN as zero (R192); stomped, the correct value XOR 0xFFFF_FFFF
(R201). A failed check that is not stomped shows some other value. [DESIGN CHOICE: log 193] -/
def Packet.pcrc (k : Packet) : BitVec 32 :=
  let c := crc32c (k.front 0 0)
  match k.tail with
  | .good => c
  | .stomped => c ^^^ 0xFFFFFFFF
  | .bad => c ^^^ 1

/-- All the bytes of a packet. -/
def Packet.bytes (k : Packet) : List Byte := k.front k.phase.toNat (b2n k.nonmin) ++ leBytes 4 k.pcrc.toNat

/-- Cuts bytes into flits of 64. -/
def flitsFrom : Nat → List Byte → List (List Byte)
  | 0, _ => []
  | n + 1, b => b.take 64 :: flitsFrom n (b.drop 64)

/-- The flits of a packet. -/
def Packet.flits (k : Packet) : List (List Byte) := flitsFrom (flitsOf k) k.bytes

/-! ### A packet as it arrives -/

/-- The extension headers that a NEXT chain names, at most four. -/
def extsFrom : Nat → Nat → List Byte → List Ext
  | 0, _, _ => []
  | n + 1, kind, b =>
    if kind = 0 then []
    else
      let h := (b.getD 0 0).toNat
      ⟨BitVec.ofNat 3 h, BitVec.ofNat 3 (h / 8), BitVec.ofNat 2 (h / 64), BitVec.ofNat 120 (leNat ((b.drop 1).take 15))⟩ ::
        extsFrom n (h / 8 % 8) (b.drop 16)

/-- The header of a packet from the bytes that have come. -/
def packetHead (b : List Byte) : Packet :=
  let w := fieldLE b 8 8
  let ext := bits w 11 9
  { addr := BitVec.ofNat 64 (fieldLE b 0 8), ver := BitVec.ofNat 2 w, typ := BitVec.ofNat 4 (w / 4), phase := BitVec.ofNat 2 (w / 64),
    nonmin := bitAt w 8, ext := BitVec.ofNat 3 ext, plen := BitVec.ofNat 13 (w / 4096), tenant := BitVec.ofNat 7 (w / 2 ^ 25),
    srcChip := BitVec.ofNat 16 (w / 2 ^ 32), rid := BitVec.ofNat 16 (w / 2 ^ 48), exts := extsFrom 4 ext (b.drop 16), payload := [],
    tail := .good }

/-- Payload bytes that a header announces: PLEN, none for RD (R193, R194). -/
def Packet.payLen (k : Packet) : Nat := if k.typ = 0 then 0 else k.plen.toNat

/-- Flits that a header announces; a packet has at most 66. [DESIGN CHOICE: log 193] -/
def Packet.needs (k : Packet) : Nat := min 66 ((16 * (1 + k.exts.length) + k.payLen + 4 + 63) / 64)

/-- The packet whose flits have all come, its tail checked (R201); none while flits are missing. The header lies in the first flit,
a fourth extension in the second. -/
def packetOf (b : List Byte) : Option Packet :=
  let k := packetHead b
  if b.length < 64 * k.needs ∨ b.length = 0 then none
  else
    let k := { k with payload := (b.drop (16 * (1 + k.exts.length))).take (min k.payLen (64 * k.needs - 4 - 16 * (1 + k.exts.length))) }
    let z := placeBytes (b.take (64 * k.needs - 4)) 8 (leBytes 8 (k.word1 0 0))
    let c := BitVec.ofNat 32 (fieldLE b (64 * k.needs - 4) 4)
    some { k with tail := if c = crc32c z then .good else if c = crc32c z ^^^ 0xFFFFFFFF then .stomped else .bad }

end Sys2Proof
end

