-- ==== Sys2Proof/Machine/LinkOps.lean ====
section
/-!
DEFINITION. What the link ports share (spec 08): port states and their notices (R243), rounds and frames (R234, R236, R237), the
transmitter with its credits, replay buffer and pauses (R240 to R242, R258; 07 R205, R206), training sequences as sent (R244), control
packets (R261), and retrains (R251 to R253).
-/

namespace Sys2Proof.Machine

/-! ### What a test does to the lanes (R262 to R264) -/

def kINJECT : Nat := 12
def kPRBS : Nat := 13
def kLOOP : Nat := 14

/-! ### Port states (R243) -/

def LState.code : LState → Nat
  | .down => 0 | .align => 1 | .exchange => 2 | .hold => 3 | .adapt => 4 | .lock => 5 | .up => 6 | .spliced => 7
  | .retrain => 8 | .window => 9 | .loopback => 10 | .test => 11 | .failed => 12

/-- The link carries frames. -/
def LState.running : LState → Bool
  | .up => true
  | .spliced => true
  | _ => false

/-- States that event notice 0x0008 announces. -/
def LState.noticed : LState → Bool
  | .up => true | .spliced => true | .hold => true | .window => true | .failed => true
  | _ => false

/-- STATE takes a value: source 1,377 + p, and the notice where the state entered is announced. -/
def State.portState (s : State) (p : Nat) (st : LState) : State :=
  if (s.port p).state = st then s
  else
    let s := (s.setPort p { s.port p with state := st }).raise (1377 + p)
    if st.noticed then s.notice0 8 p st.code else s

/-- The training stage: under Retrain, the stage the retrain has reached. -/
def Port.stage (x : Port) : LState := if x.state = .retrain then x.under else x.state

/-- Training moves to a stage; under Retrain STATE keeps reading Retrain (R252). -/
def State.toStage (s : State) (p : Nat) (st : LState) : State :=
  let x := { s.port p with sinceTrain := s.now }
  if x.state = .retrain then s.setPort p { x with under := st } else (s.setPort p x).portState p st

/-! ### Register fields -/

def offLnkCtl (p : Nat) : Nat := 0x400000 + 0x40 * p
def lnkCtlReset : Nat := 0x80400
def State.lnkCtl (s : State) (p : Nat) : Nat := s.reg (offLnkCtl p) lnkCtlReset
def offLnkPause (p : Nat) : Nat := 0x400038 + 0x40 * p
def State.lnkCfg (s : State) : Nat := s.reg 0x401000 0x81128
def State.emmMin (s : State) : Nat := bits s.lnkCfg 7 0
def State.retrainMax (s : State) : Nat := max 1 (bits s.lnkCfg 19 16)
def State.offline (s : State) (p : Nat) : Bool := bitAt (s.lnkCtl p) 0
def State.fullAdapt (s : State) (p : Nat) : Bool := bitAt (s.lnkCtl p) 2

/-! ### Rounds (R234, R236) -/

/-- The transmit lane that a receive lane carries (R265). -/
def laneTx (map : BitVec 32) (l : Nat) : Nat := bits map.toNat (4 * l + 2) (4 * l)

/-- Receive lanes, by mask, as transmit lane numbers, and back. -/
def txMask (map : BitVec 32) (rx : BitVec 8) : BitVec 8 :=
  BitVec.ofNat 8 (listMask ((maskList rx.toNat 8).map (laneTx map)))

def rxMask (map : BitVec 32) (tx : BitVec 8) : BitVec 8 :=
  BitVec.ofNat 8 (listMask ((List.range 8).filter (fun l => tx.getLsbD (laneTx map l))))

/-- The lanes in use of a direction, by rank: all eight, or the four lowest of the receiver's good lanes (R255). -/
def lanesOf (good : BitVec 8) : List Nat := if good = 0xFF then List.range 8 else (maskList good.toNat 8).take 4

/-- The transmit lanes that the usable receive lanes carry. -/
def Port.usableTx (x : Port) : BitVec 8 := txMask x.laneMap x.usable

/-- Frames leave and are taken: in operation, and in a window until its transmitter stops (R259 step 3). -/
def Port.live (x : Port) : Bool := x.state.running || (x.state == .window && x.winOpen)

/-- One round leaves, a block on each lane in use, with the bits that an injection inverts (R263). -/
def State.sendRound (s : State) (p : Nat) (blocks : List (Nat × BitVec 130)) : State :=
  let x := s.port p
  match x.inject with
  | none => s.emit (.linkRound p blocks)
  | some (lane, skip, n) =>
    if !blocks.any (fun b => b.1 == lane) then s.emit (.linkRound p blocks)
    else
      let left := n - (130 - skip)
      (s.setPort p { x with inject := if left = 0 then none else some (lane, 0, left) }).emit
        (.linkRound p (blocks.map (fun b => if b.1 = lane then (lane, flipBits b.2 skip n) else b)))

/-- An ordered set in a number of rounds, alike on every lane in use (R257). -/
def State.sendOs (s : State) (p n : Nat) (b : List Byte) : State :=
  (List.range n).foldl (fun s _ => s.sendRound p ((lanesOf (s.port p).txGood).map (fun l => (l, blockOf false b)))) s

/-- A compensation round; the scramblers are loaded for the data round after it. -/
def State.sendCmp (s : State) (p : Nat) : State :=
  let s := s.sendOs p 1 cmpBytes
  s.setPort p { s.port p with txScr := Vector.ofFn (fun l => scrLoad l.val), txRounds := 0 }

/-- A data round of the bytes given: byte j travels as byte ⌊j / n⌋ of the block on the lane of rank j mod n; after 1,040 of them a
compensation round. -/
def State.dataRound (s : State) (p : Nat) (b : List Byte) : State :=
  let x := s.port p
  let lanes := lanesOf x.txGood
  let n := lanes.length
  let l := lanes.mapIdx (fun k l => (l, scrBytes (x.txScr.toList.getD l 0) ((List.range 16).map (fun j => b.getD (n * j + k) 0))))
  let s := s.setPort p { x with txScr := l.foldl (fun v e => v.setIfInBounds e.1 e.2.1) x.txScr, txRounds := x.txRounds + 1 }
  let s := s.sendRound p (l.map (fun e => (e.1, blockOf true e.2.2)))
  if 1040 ≤ (s.port p).txRounds then s.sendCmp p else s

/-- The rounds that the bytes at hand fill. -/
def State.drainTx (s : State) (p : Nat) : Nat → State
  | 0 => s
  | n + 1 =>
    let x := s.port p
    let w := 16 * (lanesOf x.txGood).length
    if w = 0 ∨ x.txBuf.length < w then s
    else ((s.setPort p { x with txBuf := x.txBuf.drop w }).dataRound p (x.txBuf.take w)).drainTx p n

/-! ### Frames (R237, R240 to R242) -/

/-- A frame leaves with the present ACK, and with NAK where one is due. [DESIGN CHOICE: log 194] -/
def State.sendFrame (s : State) (p : Nat) (flits : List (Nat × List Byte)) (seq : BitVec 11) (cred : List Nat) (rdy : Bool) : State :=
  let x := s.port p
  let b := frameBytes flits seq (x.rxSeq - 1) x.nakDue cred rdy
  let s := (s.setPort p { x with nakDue := false, txBuf := x.txBuf ++ b }).emit (.linkFrame p b)
  s.drainTx p 4

/-- The credits of the next frame, 7 of a channel at the most, and those left (R242). -/
def Port.takeCred (x : Port) : List Nat × Port :=
  (x.credRet.toList.map (min 7), { x with credRet := x.credRet.map (fun n => n - 7) })

/-- A frame of null flits, with the credits at hand. [DESIGN CHOICE: log 194] -/
def State.nullFrame (s : State) (p : Nat) (rdy : Bool) : State :=
  let (c, x) := (s.port p).takeCred
  (s.setPort p x).sendFrame p [] x.txSeq c rdy

/-- Frames of null flits until no credit is left to return. -/
def State.creditFrames (s : State) (p : Nat) : Nat → State
  | 0 => s
  | n + 1 => if (s.port p).credRet.toList.all (· == 0) then s else (s.nullFrame p true).creditFrames p n

/-- Flits leave a receive buffer: their credits return (R205, R242). -/
def State.rxFree (s : State) (o : Org) : State :=
  let x := s.port o.port
  let used := x.rxUsed.toList.getD o.vc 0
  let s := s.setPort o.port { x with
    rxUsed := x.rxUsed.setIfInBounds o.vc (used - o.flits),
    credRet := x.credRet.setIfInBounds o.vc (x.credRet.toList.getD o.vc 0 + min used o.flits) }
  if x.live then s.creditFrames o.port 12 else s

/-- A packet of a receive buffer is still in the router's hands, or queued for some port. -/
def State.orgHeld (s : State) (o : Org) : Bool :=
  s.router.hand == some o || s.ports.any (fun e => let x : Port := e.2
    x.txq.toList.any (fun q => q.any (fun (k : Queued) => k.org == some o)))

/-- The buffer's flits leave with the last of the packet's copies. -/
def State.orgLeaves (s : State) (o : Option Org) : State :=
  match o with
  | some o => if s.orgHeld o then s else s.rxFree o
  | none => s

/-- The frames that flits left in: the first flit of each, and of a frame resent in part, begins one. -/
def frameGroups : List Sent → List (List Sent)
  | [] => []
  | a :: r => match frameGroups r with
    | (b :: g) :: l => if b.cred.isSome then [a] :: (b :: g) :: l else (a :: b :: g) :: l
    | l => [a] :: l

/-- Flits sent again in the frames they left in, with the credits those returned (R240, R242). [DESIGN CHOICE: log 194] -/
def State.sendAgain (s : State) (p : Nat) (l : List Sent) : State :=
  (frameGroups l).foldl (fun s g => match g with
    | [] => s
    | a :: _ => s.sendFrame p (g.map (fun e => (e.vc, e.bytes))) a.seq (a.cred.getD (List.replicate 12 0)) true) s

/-- New flits leave, three to a frame, and stay in the replay buffer until they are acknowledged. -/
def State.sendNew (s : State) (p : Nat) : Nat → List Sent → State
  | 0, _ => s
  | _, [] => s
  | n + 1, a :: r =>
    let (c, x) := (s.port p).takeCred
    let g := { a with cred := some c } :: r.take 2
    let x := { x with replay := x.replay ++ g, ackAt := if x.replay.isEmpty then s.now else x.ackAt }
    ((s.setPort p x).sendFrame p (g.map (fun e => (e.vc, e.bytes))) a.seq c true).sendNew p n (r.drop 2)

/-! ### Channels, credits, transmission -/

/-- Packets that the transmitter holds with flits sent and not acknowledged. -/
def Port.inside (x : Port) : Nat :=
  x.replay.countP (fun (e : Sent) => e.done.isSome) + x.outq.countP (fun (k : Started) => !k.sent.isEmpty)

/-- Receive buffers in flits (07 R205). -/
def bufFlits (p vc : Nat) : Nat :=
  if vc = 11 then 8
  else if p < 16 then (if 9 ≤ vc then 144 else 72)
  else if 9 ≤ vc then 1024 else 144

def fullCredits (p : Nat) : Vector Nat 12 := Vector.ofFn (fun i => bufFlits p i.val)

/-- A pause holds the transmitter. -/
def Port.paused (x : Port) : Bool := x.pauseEnd.isSome

/-- The transmitter sends null flits only: a pause holds it, or a rewind that the pause recorded waits. Control packets go on
(R258). -/
def Port.holdsBack (x : Port) (vc : Nat) : Bool := vc != 11 && (x.paused || x.rewind)

/-- The head of a channel's queue may start: the link runs, no window is near, nothing holds the channel back, and there are
credits for every flit (R205, R258, R259). -/
def Port.canStart (x : Port) (vc : Nat) : Option (Queued × List Queued) :=
  match x.txq.toList.getD vc [] with
  | [] => none
  | k :: r =>
    if x.state.running && !x.quiet && !x.holdsBack vc && decide (flitsOf k.pkt ≤ x.credits.toList.getD vc 0) then some (k, r) else none

/-- The sixty-fourths of a port that the circuits of a channel reserve (07 R220). -/
def Router.chanShare (r : Router) (p c : Nat) : Nat := r.ckts.foldl (fun a k => if k.out = some p ∧ k.chan = c then a + k.share else a) 0

/-- A circuit channel has not had its share of the present 64 flits (07 R206, R220). -/
def State.owed (s : State) (p c : Nat) : Bool := decide ((s.port p).cktSent.toList.getD c 0 < s.router.chanShare p c)

/-- The channel to serve next (07 R206): control; the circuits within their shares; then round-robin over the others, the circuits
among them. [DEDUCED: log 92, DESIGN CHOICE: log 195] -/
def State.nextChannel (s : State) (p : Nat) : Option (Nat × Queued × List Queued) :=
  let x := s.port p
  let owed := ((List.range 2).filter (s.owed p)).map (· + 9)
  ([11] ++ owed ++ (List.range 11).map (fun i => (x.rr + 1 + i) % 11)).findSome? (fun vc =>
    (x.canStart vc).map (fun (y : Queued × List Queued) => (vc, y.1, y.2)))

/-- The counts of the circuits' shares after `n` flits on a channel. -/
def Port.countShare (x : Port) (vc n : Nat) : Port :=
  if vc = 11 then x
  else if 64 ≤ x.slotCnt + n then { x with slotCnt := (x.slotCnt + n) % 64, cktSent := .replicate 2 0 }
  else { x with slotCnt := x.slotCnt + n,
                cktSent := if 9 ≤ vc then x.cktSent.setIfInBounds (vc - 9) (x.cktSent.toList.getD (vc - 9) 0 + n) else x.cktSent }

/-- A packet starts: its credits are spent, and it leaves the receive buffer that held it. -/
def State.startPacket (s : State) (p vc : Nat) (k : Queued) (r : List Queued) : State :=
  let n := flitsOf k.pkt
  let owed := s.owed p (vc - 9)
  let x := (s.port p).countShare vc n
  let s := s.setPort p { x with
    txq := x.txq.setIfInBounds vc r, credits := x.credits.setIfInBounds vc (x.credits.toList.getD vc 0 - n),
    outq := ⟨vc, [], k.pkt.flits, k.pkt⟩ :: x.outq, rr := if vc < 9 ∨ (vc < 11 ∧ !owed) then vc else x.rr }
  (s.emit (.linkOut p vc k.pkt)).orgLeaves k.org

/-- The next flit of the packet that is leaving goes, if the replay buffer has room after `n` more flits and nothing holds it back
(R241, R258). -/
def State.flitOut (s : State) (p n : Nat) : Option (State × Sent) :=
  let x := s.port p
  match x.outq with
  | ⟨vc, sent, f :: r, k⟩ :: rest =>
    if x.holdsBack vc || decide (1024 ≤ x.replay.length + n) then none
    else
      let e : Sent := { seq := x.txSeq, vc := vc, bytes := f, done := if r.isEmpty then some k else none, cred := none }
      some (s.setPort p { x with outq := if r.isEmpty then rest else ⟨vc, sent ++ [f], r, k⟩ :: rest, txSeq := x.txSeq + 1 }, e)
  | _ => none

/-- The flits that can go now: of the packet that is leaving, then of the next packet, one packet at a time; a control packet also
while a packet is held back (R258). [DESIGN CHOICE: log 194] -/
def State.gather (s : State) (p : Nat) (acc : List Sent) : Nat → State × List Sent
  | 0 => (s, acc)
  | n + 1 =>
    match s.flitOut p acc.length with
    | some (s, e) => s.gather p (acc ++ [e]) n
    | none =>
      let x := s.port p
      let next := if x.outq.isEmpty then s.nextChannel p
        else if x.outq.any (fun (k : Started) => x.holdsBack k.vc) then
          (x.canStart 11).map (fun (y : Queued × List Queued) => (11, y.1, y.2))
        else none
      if 1024 ≤ x.replay.length + acc.length then (s, acc)
      else match next with
        | some (vc, k, r) => (s.startPacket p vc k r).gather p acc n
        | none => (s, acc)

/-- Sends what can be sent. -/
def State.pump (s : State) (p : Nat) : State :=
  let x := s.port p
  if !x.live then s
  else
    let todo := x.txq.toList.foldl (fun a q => q.foldl (fun a k => a + flitsOf k.pkt + 1) a) 0 +
      x.outq.foldl (fun a (k : Started) => a + k.todo.length) 0
    let (s, l) := s.gather p [] (todo + 1)
    s.sendNew p l.length l

/-- A queue of a port takes a packet. -/
def State.enqueue (s : State) (p vc : Nat) (k : Queued) : State :=
  let x := s.port p
  (s.setPort p { x with txq := x.txq.setIfInBounds vc (x.txq.toList.getD vc [] ++ [k]) }).pump p

/-- A packet is queued for a port and channel; one that came over a link keeps its place in the receive buffer. -/
def State.portSend (s : State) (p vc : Nat) (k : Packet) : State := s.enqueue p vc ⟨s.router.hand, k⟩

/-- A control packet of one flit (R261): the fields at their byte offsets, every other byte zero. -/
def State.ctlSend (s : State) (p : Nat) (kind : Nat) (fields : List (Nat × List Byte)) : State :=
  let body := fields.foldl (fun b f => placeBytes b f.1 f.2) (List.replicate 44 0)
  s.portSend p 11 { addr := (s.port p).peerChip.setWidth 64 <<< 44, ver := 1, typ := tCTL, phase := 0, nonmin := false,
                    ext := 0, plen := 44, tenant := 0, srcChip := s.ownChip, rid := 0, exts := [],
                    payload := placeBytes body 0 [BitVec.ofNat 8 kind], tail := .good }

/-- The transmitter is free again: a recorded rewind is carried out, then the queues drain (R258, R260). -/
def State.unpause (s : State) (p : Nat) : State :=
  let x := s.port p
  let run := x.live
  let s := s.setPort p { x with pauseEnd := none, rewind := x.rewind && !run }
  (if x.rewind && run then s.sendAgain p x.replay else s).pump p

/-! ### Training sequences as sent (R244) -/

def tyTSA : Byte := 0x5A
def tyTSB : Byte := 0xA5
def tyRATE : Byte := 0x3C
def tyLB : Byte := 0xC3

/-- A valid maquette entry names the peer that the lanes show (R244 FLAGS.MAQ). -/
def Port.maqNames (x : Port) : Bool :=
  x.maq.any (fun e => x.seenPeer.any (fun n => fieldLE e 2 2 == n.1.toNat && fieldLE e 4 1 == n.2.toNat))

/-- The sequence that a port sends on a transmit lane. `hold` is FLAGS.HOLD. -/
def State.tsOf (s : State) (p : Nat) (typ : Byte) (rate : Nat) (hold : Bool) (lane : Nat) : TrainSeq :=
  let x := s.port p
  let again := x.state == .retrain && !x.anew
  let t : TrainSeq :=
    { typ := typ, lane := BitVec.ofNat 8 lane, ver := 0x22, rate := BitVec.ofNat 8 rate, good := x.usableTx, chip := s.ownChip,
      port := BitVec.ofNat 8 p, flags := BitVec.ofNat 8 (b2n hold + 2 * b2n x.maqNames + 4 * b2n again),
      ack := if again then (x.rxSeq - 1).setWidth 16 else 0, zero := 0, check := 0 }
  { t with check := crc8 (tsBytes t) }

/-- A port sends a sequence on every lane, until it sends another. -/
def State.sendTs (s : State) (p : Nat) (typ : Byte) (rate : Nat) (hold : Bool) : State :=
  s.emit (.linkTs p ((List.range 8).map (s.tsOf p typ rate hold)))

/-- Sequences that a lane has sent since a time at a rate code: one of 160 bits lasts 2,048 / 225 fc at rate 0.
[DEDUCED: log 196] -/
def seqsSent (now since rate : Nat) : Nat := (now - since) * 2 ^ rate * 225 / 2048

/-! ### Service and retrains (R251 to R253) -/

/-- A port leaves service: it is out of every choice at once; PORT_LEAVE_SERVICE deals with what it held (07 R211, R226). -/
def State.leaveService (s : State) (p : Nat) : State :=
  let x := s.port p
  if x.inService then s.setPort p { x with inService := false, anew := true, leaving := true }
  else s.setPort p { x with anew := true }

/-- The port's bit in FAB_PORT_STAT.MISWIRED (01 R29). -/
def State.miswire (s : State) (p : Nat) (v : Bool) : State :=
  let m : BitVec 32 := BitVec.ofNat 32 (2 ^ p)
  s.modRouter fun r => { r with miswired := if v then r.miswired ||| m else r.miswired &&& ~~~m }

/-- A port starts training from Align, at rate 0 with the code CTLE_INIT (R245). -/
def State.toAlign (s : State) (p : Nat) : State :=
  let code : BitVec 5 := BitVec.ofNat 5 (bits s.lnkCfg 13 9)
  let x := { s.port p with usable := 0, aligned := false, goodTrail := 0, tsaCount := .replicate 8 0, tsbGot := .replicate 8 0, lastTs := none, holdCause := 0, eq := .replicate 8 code, loopPeer := false, seenPeer := none, rate := 0, tsbAt := none, txBuf := [], blockLock := 0, winOpen := false, nakDue := false }
  (((s.setPort p x).miswire p false).toStage p .align).sendTs p tyTSA 2 false

/-- A port enters Failed. Lanes marked bad before it was last spliced stay so (R256). -/
def State.portFail (s : State) (p : Nat) : State :=
  let s := ((s.leaveService p).miswire p false).portState p .failed
  let x := s.port p
  s.setPort p { x with sinceTrain := s.now, attempts := 0, attempts2 := 0, lockPasses := 0, badLanes := x.spliceBad, holdCause := 0 }

/-- A retrain begins (R251, R252): the end that decides sends RETRAIN in 4 rounds; frames stop. More than RETRAIN_MAX within 1 s fail the
port (R253). Lanes marked bad stay bad, but for a full adaptation (R256). [DEDUCED: log 96] -/
def State.beginRetrain (s : State) (p : Nat) (decides : Bool) : State :=
  let x := s.port p
  if !x.state.running then s
  else
    let recent := x.retrainAt.filter (fun t => decide (s.now < t + fcPerS)) ++ [s.now]
    let bad := if s.fullAdapt p then 0 else x.spliceBad
    let s := s.setPort p { x with retrains := satAdd x.retrains 1 0xFFF, retrainAt := recent, retrainStart := s.now, waitResend := false, attempts := 0, attempts2 := 0, lockPasses := 0, badLanes := bad, spliceBad := bad }
    let s := if decides then s.sendOs p 4 (osBytes osRETRAIN []) else s
    if s.retrainMax < recent.length then s.portFail p
    else (s.portState p .retrain).toAlign p

end Sys2Proof.Machine
end

