-- ==== Sys2Proof/Machine/Lay.lean ====
section
/-!
DEFINITION. Lay time (spec 10): the counter with its steering and slew (R297, R298), the per-fc clocks of the partitions,
roles, the pulse input and the sync tree (R299 to R305), and the arming of the calendars (R308, R311).
-/

namespace Sys2Proof.Machine

/-! ### The tile clock of a partition (12 R343, R361) -/

/-- The tile clock at an operating point, in units of 10 MHz. -/
def opClock (n : Nat) : Nat := [40, 50, 60, 70, 80, 90, 100, 110, 120, 130, 140, 150, 155, 165, 172, 180].getD n 180

/-- The nominal voltage at an operating point, in mV. -/
def opMilliVolt (n : Nat) : Nat := [550, 570, 590, 610, 630, 650, 670, 690, 710, 730, 750, 780, 800, 830, 860, 890].getD n 890

/-- The tile clock runs: it starts when the partition leaves Off, Parked or Resetting (12 R359). [DEDUCED: log 76] -/
def PState.clocked : PState → Bool
  | .idle => true
  | .active => true
  | .fenced => true
  | _ => false

/-- What one fc adds to the tile clock count, in 1/640 tc: the fabric clock is 1.6 GHz. -/
def Part.tcStep (p : Part) : Nat :=
  match p.stretch with
  | .none => 4 * opClock p.opPt
  | .half => 2 * opClock p.opPt
  | .threeQuarter => 3 * opClock p.opPt

/-- One fc of a partition: the tile clock, the charge budget's refill of 4 cu per tc (12 R359), the time stretched and the end of
the 32 tc at three quarters of the frequency (R361). [DESIGN CHOICE: log 15] -/
def Part.tick (p : Part) : Part :=
  if !p.psw.state.clocked then p else
  let acc := p.tcAcc + p.tcStep
  { p with tcAcc := acc, charge := min 4096 (p.charge + 4 * (acc / 640 - p.tcAcc / 640)),
           stretched := p.stretched + b2n (decide (p.stretch ≠ .none)),
           stretch := if p.stretch = .threeQuarter ∧ p.stretchEnd ≤ acc / 640 then .none else p.stretch }

/-! ### The counter (R297, R298) -/

/-- One lt in units of the counter's fraction. -/
def ltUnit : Nat := 2 ^ 32

/-- What one fc adds, in 2^-32 lt, over a denominator of 2^32 × 25,600: 0.625 lt scaled by the steering frequency, and the
share of the slew that is spread over 16 µs (25,600 fc). -/
def Lay.advanceNum (l : Lay) : Int :=
  2684354560 * (4294967296 + l.freq) * 25600 + (if l.slewLeft = 0 then 0 else l.slew * 4294967296 * 4294967296)

def advanceDen : Int := 4294967296 * 25600

/-- The whole units of one fc's advance; where the exact advance lies between two units, which of the two it is stays
free. [DEDUCED: log 106] -/
def Lay.advance (l : Lay) (up : Bool) : Nat :=
  (l.advanceNum / advanceDen + (if l.advanceNum % advanceDen ≠ 0 ∧ up then 1 else 0)).toNat

/-- The counter with its fraction, as one number of units. -/
def Lay.units (l : Lay) : Nat := l.time.toNat * ltUnit + l.frac.toNat

/-- The counter at a number of units. -/
def Lay.atUnits (l : Lay) (u : Nat) : Lay :=
  { l with time := BitVec.ofNat 64 (u / ltUnit), frac := BitVec.ofNat 32 (u % ltUnit) }

/-- One fc of the counter: a hold of first lock takes up its part of the advance first.
[DESIGN CHOICE: log 15, DEDUCED: log 106] -/
def Lay.run (l : Lay) (up : Bool) : Lay :=
  let a := l.advance up
  let h := min a l.holdLeft
  { l.atUnits (l.units + (a - h)) with holdLeft := l.holdLeft - h, slewLeft := l.slewLeft - 1 }

/-- LAY_PPS_OUT (R307): while Locked it rises as the counter reaches a multiple of 10^9 and falls 1 ms later; in any
other state it is low. -/
def Lay.ppsLevel (l : Lay) (old : Word) : Bool :=
  decide (l.state = 2) &&
    (decide (old.toNat / 1000000000 < l.time.toNat / 1000000000) ||
      (l.ppsOut && decide (l.time.toNat % 1000000000 < 1000000)))

/-- Sets the land LAY_PPS_OUT to its level. -/
def State.ppsSet (s : State) (old : Word) : State :=
  let v := s.lay.ppsLevel old
  if v = s.lay.ppsOut then s else ({ s with lay := { s.lay with ppsOut := v } }).emit (.land "LAY_PPS_OUT" v)

/-- LAY_STAT.STATE takes a value; a change raises source 1,489 (14 R385), and outside Locked LAY_PPS_OUT falls.
[DEDUCED: log 110] -/
def State.layState (s : State) (st : Nat) : State :=
  if s.lay.state = st then s
  else (({ s with lay := { s.lay with state := st, everLocked := s.lay.everLocked || decide (st = 2) } }).ppsSet s.lay.time).raise 1489

/-- One fc of every partition's clock. -/
def State.tickParts (s : State) : State :=
  (List.range 12).foldl (fun s n => if (s.psw n).state.clocked then s.setPart n (s.part n).tick else s) s

/-- LAY_TICK (R297): one fc passes; while the core rails are on the counter advances.
[DESIGN CHOICE: log 15, DESIGN CHOICE: log 16] -/
def execLayTick (s : State) : Host.Outcome State Fault Refusal :=
  let s := { s with now := s.now + 1 }
  .next (if !s.railsOn then s else
    let old := s.lay.time
    let l := s.lay.run (Config.freeBool s.free)
    let s := if s.lay.advanceNum % advanceDen = 0 then s else s.draw
    (({ s with lay := l }).tickParts).ppsSet old)

/-! ### The calendars (R308, R311) -/

/-- Kind number of R309. -/
def Cal.order : Cal → Nat
  | .linkWindow .. => 1
  | .topology => 2
  | .sample _ => 5
  | .desc _ => 7

def PCal.order : PCal → Nat
  | .opRaise => 3
  | .unparkStep _ => 3
  | .ageing => 4
  | .phase .. => 6

/-- The lowest free entry: 32 to 255 for descriptors, 0 to 31 for the others. -/
def Lay.freeEntry (l : Lay) (desc : Bool) : Option Nat :=
  ((if desc then (List.range 224).map (· + 32) else List.range 32).filter (fun i => !l.cal.any (fun e => e.slot == i))).head?

/-- An arming that found no entry is counted; an internal one is reported. -/
def State.calFull (s : State) (order : Nat) : State :=
  let s := { s with lay := { s.lay with fullCnt := satAdd s.lay.fullCnt 1 0xFFFF } }
  if order = 7 ∨ order = 6 then s else s.report 0x0A order

/-- Arms an entry of the package calendar: 32 reserved, 224 for descriptors. An event armed for a time at or before the
counter is late. [DEDUCED: log 111] -/
def State.armPkg (s : State) (lt : Word) (c : Cal) : State × Bool :=
  let l := s.lay
  match l.freeEntry (decide (c.order = 7)) with
  | none => (s.calFull c.order, false)
  | some i =>
    ({ s with lay := { l with cal := l.cal ++ [⟨lt, l.armNo, lt.ule l.time, c, i⟩], armNo := l.armNo + 1 } }, true)

/-- Arms an entry of a partition calendar for the plinth supervisor; its reserved entries never run short (R308). -/
def State.armPart (s : State) (n : Nat) (lt : Word) (c : PCal) : State :=
  let l := s.lay
  let p := s.part n
  ({ s with lay := { l with armNo := l.armNo + 1 } }).setPart n { p with cal := p.cal ++ [(lt, l.armNo, lt.ule l.time, c)] }

/-- The counter has stepped from `old`: every event passed over is late (R311). [DEDUCED: log 108] -/
def State.markPassed (s : State) : State :=
  let t := s.lay.time
  let s := { s with lay := { s.lay with cal := s.lay.cal.map (fun e => if e.lt.ult t then { e with late := true } else e) } }
  (List.range 12).foldl (fun s n =>
    let p := s.part n
    if p.cal.isEmpty then s
    else s.setPart n { p with cal := p.cal.map (fun e => if e.1.ult t then (e.1, e.2.1, true, e.2.2.2) else e) }) s

/-! ### Steering (R300, R302 to R305) -/

def clampInt (lo hi v : Int) : Int := if v < lo then lo else if hi < v then hi else v

/-- R304. -/
def Lay.steer (l : Lay) (theta : Int) : Lay :=
  { l with freq := clampInt (-214748) 214748 (l.freq + theta * 256), slew := clampInt (-15) 15 (theta / 2),
           slewLeft := 25600, offset := clampInt (-128) 127 theta }

/-- The runs of consecutive parent samples with |θ| ≤ 4 and with |θ| > 64 (R305). -/
def Lay.runs (l : Lay) (theta : Int) : Lay :=
  { l with smallRun := if -4 ≤ theta ∧ theta ≤ 4 then l.smallRun + 1 else 0,
           bigRun := if theta < -64 ∨ 64 < theta then l.bigRun + 1 else 0 }

/-- First lock (R300, R305): forward by θ at once, a hold of −θ, or a refusal below −1,000,000. [DEDUCED: log 108] -/
def State.firstLock (s : State) (theta : Int) : State × Bool :=
  let l := s.lay
  if 0 ≤ theta then
    (({ s with lay := { l with time := l.time + BitVec.ofInt 64 theta, firstDone := true } }).markPassed, true)
  else if -1000000 ≤ theta then
    ({ s with lay := { l with holdLeft := (-theta).toNat * ltUnit, firstDone := true } }, true)
  else
    (({ s with lay := { l with stepRef := satAdd l.stepRef 1 0xFF } }).report 9 0, false)

/-- The package is its own master: set as master, or standalone (R299, R300). [DEDUCED: log 112] -/
def State.isMaster (s : State) : Bool := s.lay.role || s.router.topo.isNone

/-- LAY_PPS_IN rises (R300). Only a master heeds it, and only after a whole second S has been given.
[DEDUCED: log 108, DEDUCED: log 112] -/
def execPpsEdge (s : State) : Host.Outcome State Fault Refusal :=
  let l := s.lay
  .next (if !s.railsOn || !s.isMaster then s
    else if !l.firstDone then
      match l.second with
      | none => s
      | some v =>
        let theta : Int := (v.toNat * 1000000000 : Nat) - (l.time.toNat : Int)
        let (s, ok) := ({ s with lay := { l with second := none } }).firstLock theta
        if ok then
          ({ s with lay := { s.lay with pps := true, lastEdge := s.now,
                                        frac := if 0 ≤ theta then 0 else s.lay.frac } }).layState 2
        else s
    else
      let r := (l.time.toNat + 500000000) / 1000000000 * 1000000000
      let theta : Int := (r : Int) - (l.time.toNat : Int)
      if theta < -1000 ∨ 1000 < theta then { s with lay := { l with ppsIgn := satAdd l.ppsIgn 1 0xFFFF } }
      else ({ s with lay := { l.steer theta with pps := true, lastEdge := s.now } }).layState 2)

/-- PPS_TIMEOUT (R300): 2.5 s without an accepted edge. -/
def execPpsTimeout (s : State) : Host.Outcome State Fault Refusal :=
  let l := s.lay
  .next (if s.railsOn && s.isMaster && l.pps && decide (l.lastEdge + 5 * (fcPerS / 2) ≤ s.now) then
      ({ s with lay := { l with pps := false, slewLeft := 0 } }).layState 3
    else s)

/-! ### The sync tree (R301 to R303) -/

/-- The link carries sync traffic. -/
def LState.syncs : LState → Bool
  | .up => true
  | .spliced => true
  | .retrain => true
  | _ => false

/-- SYNC_TIMER (R301): every 16 µs SYNC_REQ leaves on every live port. -/
def execSyncTimer (s : State) : Host.Outcome State Fault Refusal :=
  .next (if !s.railsOn || decide (s.now < s.lay.syncDue) then s else
    let s := { s with lay := { s.lay with syncDue := s.now + 16 * fcPerUs } }
    (List.range 32).foldl (fun s p =>
      if (s.port p).state.syncs then s.ctlSend p 1 [(8, leBytes 8 s.lay.time.toNat)] else s) s)

/-- SYNC_REQ (R301): the answer carries state, master, hops, T1 copied, T2 and T3. [DEDUCED: log 107] -/
def execSyncReq (p : PortNo) (t1 : Word) (s : State) : Host.Outcome State Fault Refusal :=
  .next (if !s.railsOn || !(s.port p.val).state.syncs then s else
    let l := s.lay
    s.ctlSend p.val 2 [(1, [BitVec.ofNat 8 (l.state + 4 * b2n l.pps)]), (2, leBytes 2 (if l.role then s.ownChip else l.master).toNat),
      (4, [BitVec.ofNat 8 (if l.role then 0 else l.hops)]), (8, leBytes 8 t1.toNat), (16, leBytes 8 l.time.toNat), (24, leBytes 8 l.time.toNat)])

/-- A port qualifies as parent (R303): its latest valid sample is no older than 1 ms and comes from a responder in Locked
or Holdover with HOPS below 63. -/
def State.qualifies (s : State) (p : Nat) : Option (Nat × Nat) :=
  match (s.port p).syncLast with
  | some (t, st, _, m, h) => if s.now ≤ t + fcPerMs ∧ (st = 2 ∨ st = 3) ∧ h ≠ 63 then some (m.toNat, h) else none
  | none => none

/-- The preferred parent: lowest master, fewest hops, lowest port. -/
def State.bestParent (s : State) : Option Nat :=
  ((List.range 32).foldl (fun (b : Option (Nat × Nat × Nat)) p =>
    match s.qualifies p with
    | none => b
    | some (m, h) => match b with
      | none => some (m, h, p)
      | some (m', h', p') => if m < m' ∨ (m = m' ∧ h < h') then some (m, h, p) else some (m', h', p')) none).map (·.2.2)

/-- A valid sample from the parent (R304, R305). -/
def State.parentSample (s : State) (theta : Int) : State :=
  let l := s.lay
  if l.state = 0 then
    let (s, ok) := ({ s with lay := { l.runs theta with offset := clampInt (-128) 127 theta } }).firstLock theta
    if ok then s.layState 1 else s
  else
    let l := (l.steer theta).runs theta
    let st := if l.state = 2 then (if 8 ≤ l.bigRun then 1 else 2) else if 64 ≤ l.smallRun then 2 else 1
    ({ s with lay := l }).layState st

/-- A master that hears of a lower-numbered master becomes a follower (R299). [DEDUCED: log 110] -/
def State.demote (s : State) (m : BitVec 16) : State :=
  let l := s.lay
  (((({ s with lay := { l with role := false, roleConf := satAdd l.roleConf 1 0xFF, pps := false, parent := none,
                               smallRun := 0, bigRun := 0, slewLeft := 0, freq := if l.firstDone then l.freq else 0 } }).layState
    (if l.firstDone then 1 else 0)).raise 1490).report 8 m.toNat)

/-- After every sample a follower chooses its parent again; the choice takes effect at the next sample (R303). -/
def State.reparent (s : State) : State :=
  let best := s.bestParent
  if s.lay.role || best == s.lay.parent then s
  else { s with lay := { s.lay with parent := best, smallRun := 0, bigRun := 0 } }

/-- A valid sample of a port: it steers where it comes from the parent in force, and the parent is chosen again.
[DEDUCED: log 109] -/
def State.validSample (s : State) (p : Nat) (theta : Int) : State :=
  if s.lay.role then s else
  let best := s.bestParent
  let cur := if s.lay.parent.isNone then best else s.lay.parent
  let s := { s with lay := { s.lay with parent := cur } }
  let s := if cur = some p ∧ (s.qualifies p).isSome then
      match (s.port p).syncLast with
      | some (_, _, pps, m, h) =>
        ({ s with lay := { s.lay with master := m, hops := h + 1, pps := pps } }).parentSample theta
      | none => s
    else s
  s.reparent

/-- SYNC_RESP (R302 to R305): the sample is formed at the package's own time T4. -/
def execSyncResp (p : PortNo) (st : BitVec 2) (pps : Bool) (master : BitVec 16) (hops : BitVec 6) (t1 t2 t3 : Word)
    (s : State) : Host.Outcome State Fault Refusal :=
  let x := s.port p.val
  .next (if !s.railsOn || !x.state.syncs then s else
    let t4 := s.lay.time
    let theta : Int := (((t2.toNat : Int) - t1.toNat) + ((t3.toNat : Int) - t4.toNat)) / 2
    let q : Int := ((t4.toNat : Int) - t1.toNat) - ((t3.toNat : Int) - t2.toNat)
    let recent := x.syncBest.filter (fun e => decide (s.now ≤ e.2 + fcPerS))
    let valid := recent.all (fun e => decide (q ≤ e.1 + 8))
    let best := recent.filter (fun e => decide (e.1 < q)) ++ [(q, s.now)]
    let s := s.setPort p.val { x with syncBest := best }
    let s := if s.lay.role && decide (st ≠ 0) && master.ult s.ownChip then s.demote master else s
    if !valid then { s with lay := { s.lay with discarded := satAdd s.lay.discarded 1 0xFFFF } }.reparent
    else
      (s.setPort p.val { s.port p.val with syncLast := some (s.now, st, pps, master, hops.toNat) }).validSample p.val theta)

/-- PARENT_TIMEOUT (R303): no port has qualified for 1 ms. [DEDUCED: log 109] -/
def execParentTimeout (s : State) : Host.Outcome State Fault Refusal :=
  let l := s.lay
  .next (if s.railsOn && !l.role && s.bestParent.isNone && l.everLocked then
      ({ s with lay := { l with slewLeft := 0, parent := none, pps := false, smallRun := 0, bigRun := 0 } }).layState 3
    else s)

end Sys2Proof.Machine
end

