-- ==== Sys2Proof/Machine/Rings.lean ====
section
/-!
DEFINITION. The host's side of the rings (spec 06): doorbell lines (R165 to R168), ring set-up (R163, R164), function-level
reset (R159), MSI-X (R184, R185), and the accesses a function refuses (R156, R158; 16 R436).
-/

namespace Sys2Proof.Machine

/-- BAR0 and configuration space answer: from step 6 of a start on, once step 5 has completed (16 R436).
[DESIGN CHOICE: log 19] -/
def State.barLive (s : State) : Bool := s.railsOn && (s.boot.ready || decide (6 ≤ s.boot.step))

/-- Rings and doorbell lines may be read: step 11 has been reached (16 R436), and no orderly shutdown runs (R442). -/
def State.hostLive (s : State) : Bool := s.railsOn && s.boot.ready && !s.boot.shutdown

/-! ### Doorbell lines -/

def lineEn (c : Nat) : Bool := bitAt c 0
def lineTenant (c : Nat) : Nat := bits c 7 1
/-- The bits of HIF_DBL_CTL_n that a write sets. -/
def dblMask : Nat := 0x1FFFFFFF

/-- Coherent doorbell mode is in force (R166): DB_MODE, with CXL.cache enabled by the host, and no fall back to polling. -/
def State.coherent (s : State) : Bool := bitAt s.hifCtl 1 && s.cxlOn && !s.cxlDown

/-- The package reads a line with its tenant's function and PASID; in coherent mode with RdShared. [DEDUCED: log 65] -/
def State.readLine (s : State) (l : Nat) : State :=
  (s.setLine l { s.line l with busy := true }).emit
    (if s.coherent then .rdShared (s.lineWho l) (s.dblAddr l) else .hostRead (s.lineWho l) (s.dblAddr l) 64)

/-- The enabled lines, in ascending order. -/
def State.linesOn (s : State) : List Nat := (List.range 1024).filter (fun l => lineEn (s.dblCtl l))

/-- Every enabled line is read into the device cache when coherent mode begins (R166). -/
def State.fillLines (s : State) : State :=
  s.linesOn.foldl (fun s l => if (s.line l).busy then s else s.readLine l) s

/-- DB_MODE is 1 and CXL.cache is not enabled: CXL_FAULT, and polling until the next PF function-level reset (R166). -/
def State.checkCxl (s : State) : State :=
  if bitAt s.hifCtl 1 && !s.cxlOn && !s.cxlDown then { s.hifSet 2 with cxlDown := true } else s

/-- The enabled rings that name a line, in ascending order. -/
def State.ringsOfLine (s : State) (l : Nat) : List Nat :=
  (s.rings.filter (fun e => let c := s.rngCfg e.1; cfgEn c && cfgDbl c == l)).map (·.1)

/-- DOORBELL_LINE_ENABLE (R165, HIF_DBL_CTL_n): the write of a line's control. While EN is 1 only EN can change; EN = 0 is
ignored while an enabled ring names the line; TENANT above 64 leaves EN at 0. -/
def State.writeDblCtl (s : State) (l v : Nat) : State :=
  let o := offDblCtl l
  let c := s.dblCtl l
  let w := v % (dblMask + 1)
  if lineEn c then
    if bitAt v 0 || !(s.ringsOfLine l).isEmpty then s
    else (s.setReg o 0 (c - 1)).setLine l .fresh
  else
    let ok := bitAt w 0 && decide (lineTenant w ≤ 64)
    let s := s.setReg o 0 (if ok then w else w / 2 * 2)
    if ok && s.hostLive && s.coherent then s.readLine l else s

def execDoorbellLineEnable (l : LineNo) (v : Word) (s : State) : Host.Outcome State Fault Refusal :=
  .next (if s.barLive then s.barAccess.writeDblCtl l.val v.toNat else s)

/-- SNOOP_INVALIDATION (R166, R168): the line is dropped, the snoop is answered, a control core is waked, and the line is read
again; while a read of it is outstanding, once more after that read. -/
def execSnoopInvalidation (l : LineNo) (s : State) : Host.Outcome State Fault Refusal :=
  let x := s.line l.val
  .next (if !s.hostLive || !s.coherent || !lineEn (s.dblCtl l.val) then s
    else
      let s := (s.emit (.snoopAnswer (s.dblAddr l.val))).raise (1 + l.val)
      if x.busy then s.setLine l.val { x with cached := false, again := true }
      else (s.setLine l.val { x with cached := false }).readLine l.val)

/-- The interval between two reads of a line, in fc: 1,000 µs in coherent mode, else POLL_US, 0 acting as 1 and values above
1,000 as 1,000 (R166, R167, HIF_CTL). -/
def State.pollSpan (s : State) : Nat :=
  fcPerUs * (if s.coherent then 1000 else max 1 (min 1000 (bits s.hifCtl 13 4)))

/-- The lines whose turn in the present sweep has come: the k-th of n enabled lines is read k n-ths of the interval after the
sweep's start. -/
def State.pollTurn (s : State) : List Nat :=
  let l := s.linesOn
  (l.mapIdx (fun k n => (k, n))).filterMap (fun e =>
    if s.pollNext ≤ e.2 ∧ s.pollAt + e.1 * s.pollSpan / l.length ≤ s.now then some e.2 else none)

/-- A sweep begins where the last one has come to every line, none is still being read, and the interval has passed. -/
def State.pollBegin (s : State) : State :=
  let l := s.linesOn
  if s.pollAt + s.pollSpan ≤ s.now && l.all (fun n => decide (n < s.pollNext) && !(s.line n).busy) then
    { s with pollAt := s.now, pollNext := 0 }
  else s

/-- DOORBELL_POLL (R166, R167): the lines whose turn has come are read, each enabled line once in a sweep; a sweep that does not
end within the interval delays the next. [DESIGN CHOICE: log 186] -/
def execDoorbellPoll (s : State) : Host.Outcome State Fault Refusal :=
  .next (if !s.hostLive then s
    else
      let s := s.pollBegin
      s.pollTurn.foldl (fun s l =>
        let s := { s with pollNext := l + 1 }
        if (s.line l).busy then s else s.readLine l) s)

/-- The reads of a submission ring's new descriptors are sent, those that lie together as one (R161, R165): entry i lies at
base + (i mod 2^k) × 64. -/
def State.askFetch (s : State) (r : Nat) : State :=
  let c := s.rngCfg r
  let g := s.ring r
  if !s.hostLive || !s.fetchEn || !cfgEn c || cfgKind c != 0 || g.stopped || decide (g.lead ≤ g.asked) then s
  else
    let size := 2 ^ cfgLog2 c
    let first := (g.pkgIndex.toNat + g.asked) % size
    let n := g.lead - g.asked
    let a := min n (size - first)
    let s := (s.setRing r { g with asked := g.lead }).emit (.hostRead (s.ringWho r) (s.rngBase r + 64 * first) (64 * a))
    if n = a then s else s.emit (.hostRead (s.ringWho r) (s.rngBase r) (64 * (n - a)))

/-- What a slot's value says to its ring (R162, R168). [DEDUCED: log 65] -/
def State.slotSeen (s : State) (r : Nat) (v : BitVec 32) : State :=
  let c := s.rngCfg r
  let g := s.ring r
  if g.stopped then s
  else if cfgKind c = 0 then
    let lead := (v - g.pkgIndex).toNat
    if lead < 2 ^ cfgLog2 c then (s.setRing r { g with lead := lead, hostIdx := v }).askFetch r
    else if lead < 2 ^ 31 then s.stopRing r 3
    else s
  else if v ≠ g.hostIdx ∧ (v - g.hostIdx).toNat < 2 ^ 31 then
    let s := s.setRing r { g with hostIdx := v }
    if cfgKind c = 2 then s.overflowNotice r else s
  else s

/-- Slot values of a line. -/
def lineSlots (b : List Byte) : List (BitVec 32) := (List.range 8).map (fun j => BitVec.ofNat 32 (fieldLE b (8 * j) 4))

/-- A read of host memory failed: HIF_ERR (R165, R172). -/
def State.hostReadErr (s : State) (ats : Bool) : State := s.hifSet (if ats then 3 else 4)

/-- The read of a line is over; a snoop that came meanwhile has the line read once more (R168). -/
def State.lineDone (s : State) (l : Nat) : State :=
  let x := s.line l
  let s := s.setLine l { x with busy := false, again := false, cached := s.coherent }
  if x.again then s.readLine l else s

/-- DOORBELL_READ (R168): a line read returns, and its slots are acted on. -/
def execDoorbellRead (l : LineNo) (rd : HostRead) (s : State) : Host.Outcome State Fault Refusal :=
  if !s.hostLive || !lineEn (s.dblCtl l.val) then .next s
  else match rd with
    | .translation => .next ((s.hostReadErr true).lineDone l.val)
    | .error => .next ((s.hostReadErr false).lineDone l.val)
    | .ok b =>
      if b.length ≠ 64 then .fault .illFormed
      else
        let now := lineSlots b
        let old := (s.line l.val).seen
        let s := s.setLine l.val { s.line l.val with seen := now }
        let s := if !s.coherent && !old.isEmpty && old != now then s.raise (1 + l.val) else s
        let s := (s.ringsOfLine l.val).foldl (fun s r => s.slotSeen r (now.getD (cfgSlot (s.rngCfg r)) 0)) s
        .next (s.lineDone l.val)

/-- CXL_CACHE_ERROR (R166): coherent mode falls back to polling until the next PF function-level reset. -/
def execCxlCacheError (s : State) : Host.Outcome State Fault Refusal :=
  .next (if !s.barLive || !bitAt s.hifCtl 1 then s
    else
      let s := s.hifSet 2
      { s with cxlDown := true, lines := s.lines.map (fun e => (e.1, { e.2 with cached := false })) })

/-! ### Ring set-up (R163) -/

/-- Enabled rings of a tenant. [DEDUCED: log 61] -/
def State.ringCount (s : State) (t : Nat) : Nat :=
  (s.rings.filter (fun e => let c := s.rngCfg e.1; cfgEn c && cfgTenant c == t)).length

/-- The checks of R163, the ring limit last; the error code, if one fails. [DEDUCED: log 62] -/
def State.ringCheck (s : State) (r : Nat) (c : Nat) : Option (BitVec 8) :=
  let k := cfgKind c
  let line := s.dblCtl (cfgDbl c)
  let q := s.rngCfg (cfgCq c)
  if k = 3 ∨ cfgLog2 c < 6 ∨ 16 < cfgLog2 c ∨ 64 < cfgTenant c then some 1
  else if !lineEn line || lineTenant line != cfgTenant c then some 1
  else if k = 0 ∧ (!cfgEn q ∨ cfgKind q ≠ 1 ∨ cfgTenant q ≠ cfgTenant c) then some 1
  else if k = 2 ∧ (s.rings.any (fun e => let d := s.rngCfg e.1
      e.1 != r && cfgEn d && cfgKind d == 2 && cfgTenant d == cfgTenant c)) then some 1
  else if 512 ≤ s.ringCount (cfgTenant c) then some 2
  else none

/-- RING_ENABLE (R163): the write of RNG_CFG_r with EN = 1. With every check passed EN reads 1 and the ring starts empty at
the value of its slot, which is read with the ring's function and PASID; a slot read that fails stops the ring with ERR 0x04.
[DEDUCED: log 62] -/
def execRingEnable (r : RingNo) (v : Word) (slot : HostRead) (s : State) : Host.Outcome State Fault Refusal :=
  let s := s.barAccess
  if !s.barLive || cfgEn (s.rngCfg r.val) || !bitAt v.toNat 0 then .next s
  else
    let o := offRngCfg r.val
    let c := v.toNat
    let s := s.setReg o rngCfgReset (c - 1)
    let g := s.ring r.val
    match s.ringCheck r.val (c - 1) with
    | some e => .next (s.setRing r.val { g with err := e })
    | none =>
      let s := s.setReg o rngCfgReset c
      let g := { g with stopped := false, lead := 0, asked := 0, unsent := 0, timer := none, dropped := 0 }
      let s := s.emit (.hostRead (s.ringWho r.val) (s.dblAddr (cfgDbl c) + 8 * cfgSlot c) 8)
      match slot with
      | .ok b =>
        if b.length ≠ 8 then .fault .illFormed
        else
          let i := BitVec.ofNat 32 (fieldLE b 0 4)
          .next (s.setRing r.val { g with pkgIndex := i, hostIdx := i })
      | .translation => .next (((s.setRing r.val g).hostReadErr true).stopRing r.val 4)
      | .error => .next (((s.setRing r.val g).hostReadErr false).stopRing r.val 4)

/-- The ring is disabled: fetching stops at once, STOPPED reads 0. -/
def State.ringOff (s : State) (r : Nat) : State :=
  (s.setReg (offRngCfg r) rngCfgReset (s.rngCfg r / 2 * 2)).setRing r { s.ring r with lead := 0, asked := 0, stopped := false }

/-- The write of RNG_CFG_r with EN = 0 (R163). A completion ring in use refuses it with ERR 0x06; a ring that is not enabled
takes the fields written. -/
def State.writeRngCfg (s : State) (r v : Nat) : State :=
  let c := s.rngCfg r
  if !cfgEn c then s.setReg (offRngCfg r) rngCfgReset v
  else if cfgKind c = 1 ∧ ((s.ring r).reserved ≠ 0 ∨ s.rings.any (fun e => let d := s.rngCfg e.1
      cfgEn d && cfgKind d == 0 && cfgCq d == r)) then
    s.setRing r { s.ring r with err := 6 }
  else s.ringOff r

/-- RING_DISABLE (R163). -/
def execRingDisable (r : RingNo) (v : Word) (s : State) : Host.Outcome State Fault Refusal :=
  .next (if !s.barLive || bitAt v.toNat 0 then s else s.barAccess.writeRngCfg r.val v.toNat)

/-! ### Interrupts (R184, R185) -/

/-- MODERATION_TIMER (R184): MOD_TIME has passed since the first entry not yet announced. The message goes at the end of the fc in
which the timer expires, so it covers every entry of that fc (R185). [DEDUCED: log 187] -/
def execModerationTimer (r : RingNo) (s : State) : Host.Outcome State Fault Refusal :=
  let g := s.ring r.val
  let c := s.rngCfg r.val
  .next (match g.timer with
    | some d => if d < s.now then (s.setRing r.val { g with unsent := 0, timer := none }).sendMsix (cfgTenant c) (cfgVector c) else s
    | none => s)

/-- A vector is unmasked, and its pending message goes out, or is masked (R184). [PRESUMED: log 12] -/
def State.maskVector (s : State) (fn vec : Nat) (mask : Bool) : State :=
  let k := fn * 64 + vec
  let (_, pend) := SMap.get (true, false) s.msix k
  let s := { s with msix := SMap.set s.msix k (mask, mask && pend) }
  if pend && !mask then s.sendMsix fn vec else s

/-- MSIX_VECTOR_UNMASK (R184). -/
def execMsixVectorUnmask (fn : TenantNo) (vec : BitVec 6) (s : State) : Host.Outcome State Fault Refusal :=
  .next (if s.barLive then s.maskVector fn.val vec.toNat false else s)

/-! ### BAR2: the MSI-X table and the pending bits (R157) -/

/-- Eight bytes of BAR2: entry i lies at 16 i, its message address, then its data and, at bit 32, its mask; the pending bits lie at
0x8000. [PRESUMED: log 198] -/
def State.readMsix (s : State) (fn off : Nat) : Nat :=
  if off = 0x8000 then listMask ((List.range 64).filter (fun v => (SMap.get (true, false) s.msix (fn * 64 + v)).2))
  else if 0x400 ≤ off then 0
  else
    let k := fn * 64 + off / 16
    let (a, d) := SMap.get (0, 0) s.msixTab k
    if off % 16 < 8 then a.toNat else d.toNat + fieldAt (b2n (SMap.get (true, false) s.msix k).1) 32 1

/-- A write of eight bytes of BAR2; the pending bits are read-only. -/
def State.writeMsix (s : State) (fn off v : Nat) : State :=
  if 0x400 ≤ off then s
  else
    let k := fn * 64 + off / 16
    let (a, d) := SMap.get (0, 0) s.msixTab k
    if off % 16 < 8 then { s with msixTab := SMap.set s.msixTab k (BitVec.ofNat 64 v / 4 * 4, d) }
    else ({ s with msixTab := SMap.set s.msixTab k (a, BitVec.ofNat 32 v) }).maskVector fn (off / 16) (bitAt v 32)

/-! ### The tenant view (R158, R160) -/

/-- Eight bytes of the tenant view: the tenant's number and partitions, the state words of its own partitions, zero elsewhere. -/
def State.readView (s : State) (ten off : Nat) : Nat :=
  let mine (n : Nat) : Bool := (s.psw n).tenant.toNat == ten
  if off = 0 then fieldAt ten 0 7 + fieldAt (listMask ((List.range 12).filter mine)) 8 12
  else if 0x100 ≤ off ∧ off < 0x160 then (if mine ((off - 0x100) / 8) then (s.psw ((off - 0x100) / 8)).word else 0)
  else 0

/-- What an aligned access of 32 or 64 bits takes of eight bytes; any other reads zero. [PRESUMED: log 198] -/
def barPart (off : Nat) (w : Width) (v : Nat) : Word :=
  match w with
  | .w64 => if off % 8 = 0 then BitVec.ofNat 64 v else 0
  | .w32 => if off % 8 = 0 then BitVec.ofNat 64 (v % 2 ^ 32) else if off % 8 = 4 then BitVec.ofNat 64 (v / 2 ^ 32) else 0
  | .other _ => 0

/-- Eight bytes after an aligned write of 32 or 64 bits; none for any other. -/
def barMerge (off : Nat) (w : Width) (old v : Nat) : Option Nat :=
  match w with
  | .w64 => if off % 8 = 0 then some v else none
  | .w32 => if off % 8 = 0 then some (old / 2 ^ 32 * 2 ^ 32 + v % 2 ^ 32)
    else if off % 8 = 4 then some (old % 2 ^ 32 + v % 2 ^ 32 * 2 ^ 32) else none
  | .other _ => none

/-! ### Functions (R156 to R159, 16 R436) -/

/-- The features that the port supports, and so advertises (R156). -/
def supported (f : HostFeature) : Bool :=
  match f with
  | .aspmL0s | .l1Substates | .pasidExecute | .pasidPrivileged | .pri | .msi | .intx | .atomicOps | .ptm | .resizableBar | .ide | .doe
  | .vpd | .cxl68 | .cxlMem | .backInvalidate | .multiLogical | .cxlSwitching => false
  | _ => true

/-- What a configuration request asks (R156): a feature is advertised where it is supported; the use of one that is not draws an
Unsupported Request where the standard calls for one, and is otherwise ignored; CXL.cache is enabled in 256-byte flit mode only;
an ATS invalidation changes which host addresses translate. [DESIGN CHOICE: log 69, DESIGN CHOICE: log 188] -/
def State.cfgAsk (s : State) (fn : Nat) (req : CfgReq) : State :=
  match req with
  | .plain => s
  | .advertised f => s.emit (.advertises fn f (supported f))
  | .uses f => if supported f then s else if Config.freeBool s.free then s.draw.emit (.unsupported fn) else s.draw
  | .cxlCache on flit256 =>
    let was := s.coherent
    let s := ({ s with cxlOn := on && flit256 }).checkCxl
    if s.hostLive && s.coherent && !was then s.fillLines else s
  | .translate lo hi ok =>
    { s with hostBad := if ok then s.hostBad.filter (fun e => !decide (lo ≤ e.1 ∧ e.2 ≤ hi)) else s.hostBad ++ [(lo, hi)] }

/-- CONFIGURATION_REQUEST (16 R436): Request Retry Status until step 5 has completed. -/
def execConfigurationRequest (c : CfgAccess) (s : State) : Host.Outcome State Fault Refusal :=
  .next (if !s.railsOn then s
    else if !s.barLive then s.emit (.configStatus true)
    else (s.emit (.configStatus false)).cfgAsk c.fn.val c.req)

/-- VF_WRITE (R158): a write to a VF BAR0 is discarded and sets HIF_ERR.VF_WRITE. -/
def execVfWrite (_ten : Fin 64) (_off : Nat) (_v : Word) (s : State) : Host.Outcome State Fault Refusal :=
  .next (if s.barLive then s.hifSet 1 else s)

/-- SETUP_LOCK (R159, 19 R504): HIF_CTL is written; its RWL fields take the values written unless they are frozen already. DB_MODE
without CXL.cache falls back at once (R166); with FETCH_EN the new descriptors are read. -/
def State.writeHifCtl (s : State) (v : Nat) : State :=
  let old := s.hifCtl
  let rwl := if bitAt old 0 then old % 0x4000 else v % 0x4000 - v % 16 + v % 4
  let was := s.coherent
  let s := (s.setReg HIF_CTL 0x640 (rwl + fieldAt (b2n (bitAt v 14)) 14 1)).checkCxl
  let s := if s.hostLive && s.coherent && !was then s.fillLines else s
  (s.rings.map (·.1)).foldl (fun s r => s.askFetch r) s

def execSetupLock (v : Word) (s : State) : Host.Outcome State Fault Refusal :=
  .next (if s.barLive && bitAt v.toNat 0 then s.barAccess.writeHifCtl v.toNat else s)

/-- FETCH_EN (HIF_CTL): fetching is let go or stopped; descriptors in execution complete. -/
def execFetchEn (v : Word) (s : State) : Host.Outcome State Fault Refusal :=
  .next (if s.barLive then s.barAccess.writeHifCtl v.toNat else s)

/-- Offsets of the registers with RWL fields outside HIF_ (19 R507): a PF function-level reset returns them to reset. -/
def rwlOffsets : List Nat := [0x300100, 0x300600, 0x340000, 0x380000, 0x380008, 0x3C0018, 0x401000, 0x440000, 0x500010]

/-- The effects of R159 on the PF, and with it on every ring and line: disabled, with every HIF_, RNG_ and RWL field at its reset
value; descriptors in execution run on without entries. -/
def State.flrAll (s : State) : State :=
  { s with setup := s.setup.filter (fun e => decide (0x200000 ≤ e.1) && !rwlOffsets.contains e.1), rings := [], lines := [],
           hifErr := 0, lastOff := 0, cxlDown := false, shadow := none,
           descs := s.descs.map (fun e => (e.1, { e.2 with gone := true, wiped := true })) }

/-- PF_FLR (R159). -/
def execPfFlr (s : State) : Host.Outcome State Fault Refusal :=
  .next (if s.barLive then (s.raise 1409).flrAll else s)

/-- VF_FLR (R159): the rings and lines of tenant t are disabled, and its descriptors run on without entries. -/
def execVfFlr (ten : Fin 64) (s : State) : Host.Outcome State Fault Refusal :=
  let t := ten.val + 1
  .next (if !s.barLive then s else
    let s := s.raise (1409 + t)
    let mine := (s.rings.filter (fun e => let c := s.rngCfg e.1; cfgEn c && cfgTenant c == t)).map (·.1)
    let s := mine.foldl (fun s r => s.ringOff r) s
    let s := (List.range 1024).foldl (fun s l => let c := s.dblCtl l
      if lineEn c && lineTenant c == t then (s.setReg (offDblCtl l) 0 (c - 1)).setLine l .fresh else s) s
    { s with descs := s.descs.map (fun e => if e.2.tenant.toNat = t then (e.1, { e.2 with gone := true }) else e) })

end Sys2Proof.Machine
end

