-- ==== Sys2Proof/Machine/Descriptors.lean ====
section
/-!
DEFINITION. Descriptors (spec 06): fetching and checking (R169 to R173), job launch (R174, R175; 12 R356), the control
complex's DMA (R176), Lay-scheduled events (R177) and diagnostics (R178; 17 R470, R472, R473).
-/

namespace Sys2Proof.Machine

/-! ### Layouts and checks (R169, R171) -/

/-- The defined fields of a class after the header: offset, bytes, mask of the defined bits (R174, R176 to R178; 09 R269,
07 R228, 12 R348, R358). -/
def classFields (c : Nat) : List (Nat × Nat × Nat) :=
  match c with
  | 1 => [(0x10, 2, 0xFFF), (0x14, 4, 0xFFFFFFFF), (0x1C, 28, 2 ^ 224 - 1)]
  | 2 => [(0x10, 8, 2 ^ 64 - 1), (0x18, 8, 2 ^ 64 - 1), (0x20, 4, 0xFFFFFFFF), (0x24, 1, 0xFF), (0x25, 1, 1)]
  | 3 => [(0x10, 1, 0xFF), (0x11, 1, 0xFF), (0x12, 2, 0xFFFF), (0x14, 2, 0xFFF), (0x16, 1, 0xFF), (0x18, 8, 2 ^ 64 - 1),
          (0x20, 8, 2 ^ 64 - 1), (0x28, 2, 0xFFFF)]
  | 4 => [(0x10, 1, 0xFF), (0x11, 1, 0xFF), (0x12, 1, 1), (0x14, 2, 0xFFFF), (0x16, 2, 0xFFFF)]
  | 6 => [(0x10, 1, 0xFF), (0x12, 2, 0xFFF), (0x14, 1, 0xF), (0x15, 1, 0xF), (0x16, 2, 0xFFFF)]
  | 7 => [(0x10, 2, 0xFFF), (0x12, 1, 0xFF)]
  | 8 => [(0x10, 1, 0xFF), (0x18, 8, 2 ^ 64 - 1), (0x20, 4, 0xFFFFFFFF)]
  | _ => []

/-- The mask of the defined bits of a descriptor as one number of 512 bits. -/
def classMask (c : Nat) : Nat :=
  (((0, 2, 0xFFFF) :: (2, 1, 7) :: (4, 12, 2 ^ 96 - 1) :: classFields c) : List (Nat × Nat × Nat)).foldl
    (fun m f => m ||| (f.2.2 <<< (8 * f.1))) 0

/-- The byte offset of the first nonzero reserved bit (R171 step 4, R172). -/
def reservedAt (b : List Byte) : Option Nat :=
  let v := leNat b
  let c := fieldLE b 1 1
  let m := classMask c
  ((List.range 64).filter (fun i => (v >>> (8 * i)) % 256 != ((v &&& m) >>> (8 * i)) % 256)).head?

def knownClass (c : Nat) : Bool := decide (1 ≤ c ∧ c ≤ 8)
/-- Classes open to tenant 0 only, and those that allow START_LT (R170). -/
def ownerClass (c : Nat) : Bool := c == 6 || c == 7
def timedClass (c : Nat) : Bool := c == 1 || c == 5 || c == 6 || c == 7

/-- The first of a list of conditions that hold, as a field offset. [DEDUCED: log 72] -/
def firstBad : List (Bool × Nat) → Option Nat
  | [] => none
  | (b, o) :: r => if b then some o else firstBad r

/-- The field out of range (R171 step 5, R172), lowest offset first. [DEDUCED: log 72] -/
def rangeAt (b : List Byte) : Option Nat :=
  let f (o n : Nat) := fieldLE b o n
  let c := f 1 1
  firstBad ((!timedClass c && f 8 8 != 0, 8) :: (match c with
    | 1 => [(f 0x10 2 == 0, 0x10), (f 0x14 4 % 4 != 0 || !inProg (f 0x14 4) 4, 0x14)]
    | 2 => [(f 0x20 4 == 0, 0x20), (decide (2 < f 0x24 1), 0x24)]
    | 3 =>
      if f 0x10 1 = 0 then
        [(decide (f 0x16 1 < 1 ∨ 48 < f 0x16 1), 0x16), (f 0x18 8 % 64 != 0, 0x18), (decide (f 0x28 2 < 1 ∨ 840 < f 0x28 2), 0x28)]
      else if f 0x10 1 = 1 then [(f 0x16 1 != 0, 0x16), (f 0x18 8 != 0, 0x18), (f 0x20 8 != 0, 0x20), (f 0x28 2 != 0, 0x28)]
      else [(true, 0x10)]
    | 4 =>
      if f 0x10 1 = 0 then [(decide (f 0x11 1 < 1 ∨ 48 < f 0x11 1), 0x11), (f 0x16 2 != 0, 0x16)]
      else if f 0x10 1 = 1 then [(f 0x11 1 != 0, 0x11)]
      else [(true, 0x10)]
    | 6 =>
      if f 0x10 1 = 0 then [(f 0x12 2 == 0, 0x12), (decide (f 0x15 1 < f 0x14 1), 0x14), (f 0x16 2 != 0, 0x16)]
      else if f 0x10 1 ≤ 2 then
        [(f 0x12 2 != 0, 0x12), (f 0x14 1 != 0, 0x14), (f 0x15 1 != 0, 0x15), (f 0x10 1 == 2 && f 0x16 2 != 0, 0x16)]
      else [(true, 0x10)]
    | 7 => [(f 0x10 2 == 0, 0x10), (decide (1 < f 0x12 1), 0x12)]
    | 8 => [(decide (3 < f 0x10 1), 0x10), (f 0x18 8 % 64 != 0 || (f 0x10 1 == 0 && f 0x18 8 != 0), 0x18),
            (f 0x10 1 == 0 && f 0x20 4 != 0, 0x20)]
    | _ => []))

/-- The checks of R171, in order: the status and INFO of a refusal. -/
def refusalOf (tenant : Nat) (b : List Byte) : Option (Nat × Nat) :=
  let c := fieldLE b 1 1
  if !knownClass c then some (1, 0)
  else if fieldLE b 0 1 ≠ 1 then some (2, fieldLE b 0 1)
  else if ownerClass c ∧ tenant ≠ 0 then some (5, 0)
  else match reservedAt b with
    | some o => some (3, o)
    | none => match rangeAt b with
      | some o => some (4, o)
      | none => none

/-- A slot of a completion ring can be reserved (R162, R173). -/
def State.slotFree (s : State) (q : Nat) : Bool :=
  let g := s.ring q
  decide (g.lead' + g.reserved + 1 < 2 ^ cfgLog2 (s.rngCfg q))

/-- The descriptor of a class is ready to be carried out. -/
def State.readyDesc (s : State) (k : DescKey) (cls : Nat) : Option Desc :=
  match s.desc? k with
  | some d => if s.railsOn && d.ready && !d.busy && fieldLE d.bytes 1 1 == cls then some d else none
  | none => none

/-- A descriptor starts (R173): index, lead, counts, the reservation, and the PASID of its accesses (R165). -/
def State.startDesc (s : State) (k : DescKey) (b : List Byte) : State :=
  let r := k.ring.val
  let c := s.rngCfg r
  let g := s.ring r
  let s := s.setRing r { g with pkgIndex := g.pkgIndex + 1, lead := g.lead - 1, asked := g.asked - 1, started := g.started + 1,
                                inflight := g.inflight + 1 }
  let q := s.ring (cfgCq c)
  let s := s.setRing (cfgCq c) { q with reserved := q.reserved + 1 }
  { s with descs := s.descs ++ [(k, { bytes := b, tenant := BitVec.ofNat 7 (cfgTenant c), pasid := (s.ringWho r).pasid, cq := cfgCq c, ready := true,
                                      late := false, busy := false, gone := false, wiped := false,
                                      aux := s.lay.time.toNat })] }

/-- DESCRIPTOR_FETCH (R171, R173): the next descriptor of a ring, whose read has been sent, is checked and started, or waits.
[DEDUCED: log 67, DEDUCED: log 68] -/
def execDescriptorFetch (r : RingNo) (rd : HostRead) (s : State) : Host.Outcome State Fault Refusal :=
  let c := s.rngCfg r.val
  let g := s.ring r.val
  let k : DescKey := ⟨r, g.pkgIndex⟩
  if !s.hostLive || !s.fetchEn || !cfgEn c || cfgKind c != 0 || g.stopped || g.lead == 0 || g.asked == 0 || decide (256 ≤ g.inflight) ||
      !s.slotFree (cfgCq c) || (s.desc? k).isSome then .next s
  else match rd with
    | .translation => .next ((s.hostReadErr true).stopRing r.val 4)
    | .error => .next ((s.hostReadErr false).stopRing r.val 4)
    | .ok b =>
      if b.length ≠ 64 then .fault .illFormed
      else match refusalOf (cfgTenant c) b with
        | some (st, info) => .next ((s.startDesc k b).complete k st info 0)
        | none =>
          if bitAt (fieldLE b 2 1) 1 && s.descs.any (fun e => e.1.ring == r) then .next s
          else
            let lt := BitVec.ofNat 64 (fieldLE b 8 8)
            let s := s.startDesc k b
            if lt = 0 then .next s
            else match s.armPkg lt (.desc k) with
              | (s, false) => .next (s.complete k 0xC 0 0)
              | (s, true) => match s.desc? k with
                | some d => .next (s.setDesc k { d with ready := false })
                | none => .next s

/-! ### Job launch (R174, R175) -/

/-- The set meets a rotation (05 R153) or a tenant change (11 R319) and waits. -/
def State.setHeld (s : State) (l : List Nat) : Bool := l.any (fun n => (s.part n).rot.isSome || s.changing n)

/-- A partition that has been Idle for longer than 1 ms is admitted by RAMP_ADMISSION (12 R356). -/
def State.longIdle (s : State) (n : Nat) : Bool :=
  (s.psw n).state == .idle && decide ((s.part n).idleSince + fcPerMs < s.now)

/-- The tiles of a partition receive the job (R175, 02 R35). -/
def State.admitTiles (s : State) (k : DescKey) (n : Nat) : State :=
  match s.job? k with
  | none => s
  | some j =>
    let l := s.tilesOf n
    let s := s.setJob k { j with admitted := j.admitted ++ [n], tiles := j.tiles ++ l, since := SMap.set j.since n (s.part n).tcAcc }
    l.foldl (fun s t => s.launchTile k t) s

/-- A partition takes a job: STATE becomes Active (01 R22). [DEDUCED: log 73] -/
def State.partTakes (s : State) (k : DescKey) (n : Nat) (wait : Bool) : State :=
  let p := s.part n
  let s := s.setPart n { p with jobs := p.jobs ++ [k], waiting := if wait then p.waiting ++ [k] else p.waiting,
                                admitted := p.admitted + 1, becameIdle := false }
  s.pswChange n (fun q => if q.state == .idle then { q with state := .active } else q)

/-- The job of a launch descriptor (R174). -/
def Job.start (d : Desc) : Job :=
  { tenant := d.tenant, pset := BitVec.ofNat 12 (fieldLE d.bytes 0x10 2), entry := BitVec.ofNat 32 (fieldLE d.bytes 0x14 4),
    args := (List.range 7).map (fun i => BitVec.ofNat 32 (fieldLE d.bytes (0x1C + 4 * i) 4)), admitted := [], finished := [],
    tiles := [], energyPj := 0, since := [], fault := none, resets := [], aborted := none, barriers := 0 }

/-- The rings whose job launches contend for admission: a launch has started and nothing holds its set (R175). -/
def State.launchRings (s : State) : List Nat :=
  (s.descs.filter (fun e => let d : Desc := e.2
    d.ready && !d.busy && fieldLE d.bytes 1 1 == 1 && !s.setHeld (psetList (BitVec.ofNat 12 (fieldLE d.bytes 0x10 2))))).map (·.1.ring.val)

/-- The admissions are served round-robin over the rings, one at a time (R175): whether a ring is the next after the one served
last. [DEDUCED: log 73] -/
def State.launchTurn (s : State) (r : Nat) : Bool :=
  let gap (q : Nat) : Nat := (q + 8192 - s.launchLast - 1) % 8192
  s.launchRings.all (fun q => decide (gap r ≤ gap q))

/-- JOB_LAUNCH (R175): R18 in one read of the whole set, then the admission. [DEDUCED: log 73] -/
def execJobLaunch (key : DescKey) (s : State) : Host.Outcome State Fault Refusal :=
  .next (match s.readyDesc key 1 with
    | none => s
    | some d =>
      let l := psetList (BitVec.ofNat 12 (fieldLE d.bytes 0x10 2))
      let turn := s.launchTurn key.ring.val
      let s := if turn && !s.setHeld l then { s with launchLast := key.ring.val } else s
      if !turn || s.setHeld l then s
      else match l.filter (fun n => (s.psw n).tenant != d.tenant) with
        | n :: _ => s.complete key 5 n 0
        | [] => match l.filter (fun n => !(s.psw n).inService) with
          | n :: _ => s.complete key 6 n 0
          | [] =>
            let slow := l.filter s.longIdle
            let j := Job.start d
            let s := s.setDesc key { d with busy := true }
            let s := { s with jobs := s.jobs ++ [(key, j)] }
            let s := l.foldl (fun s n => s.partTakes key n (slow.contains n)) s
            (l.filter (fun n => !slow.contains n)).foldl (fun s n => s.admitTiles key n) s)

/-! ### DMA of the control complex (R176) -/

/-- Bytes from an address to the end of what R26 lets an access reach; none where the address itself is refused. -/
def gaRoom (a : Word) : Nat :=
  if gaFault a false then 0
  else match gaRegion a with
    | 0 => 0x9000000000 - gaOffset a
    | 1 => spadEnd - gaByte a
    | _ => 0x1000000 - gaOffset a

/-- Bytes of a transfer before the first access that R26 refuses. [DEDUCED: log 71] -/
def dmaRoom (b : List Byte) : Nat :=
  let src := clearPst (BitVec.ofNat 64 (fieldLE b 0x10 8))
  let dst := clearPst (BitVec.ofNat 64 (fieldLE b 0x18 8))
  let n := fieldLE b 0x20 4
  match fieldLE b 0x24 1 with
  | 0 => min n (gaRoom dst)
  | 1 => min n (gaRoom src)
  | _ => min n (min (gaRoom src) (gaRoom dst))

/-- Who accesses host memory for a descriptor: the ring's function and PASID (R157, R165, R176). -/
def Desc.who (d : Desc) : Requester := ⟨d.tenant.toNat, d.pasid⟩

/-- A packet of the control complex's engines. -/
def State.ccPacket (s : State) (ten : BitVec 7) (typ : BitVec 4) (a : Word) (plen : Nat) (pl : List Byte) : Packet :=
  { addr := a, ver := 1, typ := typ, phase := 0, nonmin := false, ext := 0, plen := BitVec.ofNat 13 plen, tenant := ten,
    srcChip := s.ownChip, rid := BitVec.ofNat 16 spineRid, exts := [], payload := pl, tail := .good }

/-- RIDs of the engines' requests: units 841 to 849 of the spine. [DESIGN CHOICE: log 84] -/
def ccRid (i : Nat) : BitVec 16 := BitVec.ofNat 16 (841 * 64 + i)
def ccRids : Nat := 576
def isCcRid (r : Nat) : Bool := decide (841 * 64 ≤ r ∧ r < 841 * 64 + ccRids)

/-- An RLX = 0 request to a chip waits while an earlier one to it is being retried (07 R203). -/
def State.ccHeld (s : State) (k : Packet) : Bool :=
  !gaRlx k.addr && s.ccReqs.any (fun q => q.again.isSome && !gaRlx q.pkt.addr && gaChip q.pkt.addr == gaChip k.addr)

/-- The engines send a packet: a posted write at once; a request once it has a RID, and with it reply space of its own (07 R229),
behind those that wait. -/
def State.ccSend (s : State) (k : Packet) : State :=
  if !expectsReply k.typ then s.sendPkt .spine k
  else match (List.range ccRids).find? (fun i => !s.ccReqs.any (fun q => q.rid == ccRid i)) with
    | some i =>
      if !s.ccWait.isEmpty || s.ccHeld k then { s with ccWait := s.ccWait ++ [k] }
      else
        let k := { k with rid := ccRid i }
        ({ s with ccReqs := s.ccReqs ++ [CcReq.mk (ccRid i) k none] }).sendPkt .spine k
    | none => { s with ccWait := s.ccWait ++ [k] }

/-- The requests that wait are sent in order, as far as they can be. -/
def State.ccPump (s : State) : State :=
  s.ccWait.foldl (fun s k => s.ccSend k) { s with ccWait := [] }

/-- A reply to a request of the engines: Retry is sent again after 256 fc, without a limit; any other status ends it (07 R203). -/
def State.ccReply (s : State) (rid : BitVec 16) (status : Nat) : State :=
  if status = stRetry then
    { s with ccReqs := s.ccReqs.map (fun q => if q.rid == rid then { q with again := some (s.now + 256) } else q) }
  else ({ s with ccReqs := s.ccReqs.filter (fun q => q.rid != rid) }).ccPump

/-- A request of the engines is sent again (07 R203). -/
def State.ccResend (s : State) (rid : BitVec 16) : State :=
  match List.find? (fun (q : CcReq) => q.rid == rid && q.again.any (fun d => decide (d ≤ s.now))) s.ccReqs with
  | some q => ({ s with ccReqs := List.map (fun (p : CcReq) => if p.rid == rid then { p with again := none } else p) s.ccReqs }).sendPkt
      .spine q.pkt
  | none => s

/-- DMA (R176): the engines read the source, up to the first access that R26 refuses. [DEDUCED: log 71] -/
def execDma (key : DescKey) (s : State) : Host.Outcome State Fault Refusal :=
  .next (match s.readyDesc key 2 with
    | none => s
    | some d =>
      let n := dmaRoom d.bytes
      let s := s.setDesc key { d with busy := true, aux := n }
      let src := BitVec.ofNat 64 (fieldLE d.bytes 0x10 8)
      if n = 0 then s.complete key 0xA 0 0
      else if fieldLE d.bytes 0x24 1 = 0 then s.emit (.hostRead d.who src.toNat n)
      else (pieces n).foldl (fun s pc =>
        s.ccSend (s.ccPacket d.tenant tRD (clearPst src + BitVec.ofNat 64 pc.1) pc.2 [])) s)

/-- The bytes read reach the destination, in address order. -/
def State.dmaOut (s : State) (d : Desc) (b : List Byte) : State :=
  let dst := BitVec.ofNat 64 (fieldLE d.bytes 0x18 8)
  if b.isEmpty then s
  else if fieldLE d.bytes 0x24 1 = 1 then s.emit (.hostWrite d.who dst.toNat b)
  else
    let post := bitAt (fieldLE d.bytes 0x25 1) 0
    (pieces b.length).foldl (fun s pc =>
      s.ccSend (s.ccPacket d.tenant (if post then tWRP else tWR) (clearPst dst + BitVec.ofNat 64 pc.1) pc.2
        ((b.drop pc.1).take pc.2))) s

/-- HOST_DMA_COMPLETE (R176, R172): the transfer ends; VALUE counts the bytes before the failing access.
[DEDUCED: log 71] -/
def execHostDmaComplete (key : DescKey) (r : HostDmaEnd) (s : State) : Host.Outcome State Fault Refusal :=
  match s.desc? key with
  | none => .next s
  | some d =>
    if !s.railsOn || !d.busy || fieldLE d.bytes 1 1 != 2 then .next s
    else
      let len := fieldLE d.bytes 0x20 4
      match r with
      | .moved b =>
        if b.length ≠ d.aux then .fault .illFormed
        else .next ((s.dmaOut d b).complete key (if d.aux < len then 0xA else 0) 0 d.aux)
      | .hostFault ats b =>
        if d.aux ≤ b.length then .fault .illFormed
        else .next (((s.hostReadErr ats).dmaOut d b).complete key 9 0 b.length)
      | .fabricError b =>
        if d.aux ≤ b.length then .fault .illFormed else .next ((s.dmaOut d b).complete key 0xA 0 b.length)
      | .dataError host b =>
        if d.aux ≤ b.length then .fault .illFormed
        else .next (((if host then s.hostReadErr false else s).dmaOut d b).complete key 0xB 0 b.length)

/-! ### Lay-scheduled events (R177) -/

/-- LAY_SCHEDULED_EVENT (R177): completes with the low half of the Lay time at which it fired. -/
def execLayScheduledEvent (key : DescKey) (s : State) : Host.Outcome State Fault Refusal :=
  .next (match s.readyDesc key 5 with
    | none => s
    | some d => s.complete key 0 0 d.aux)

/-! ### Diagnostics (R178) -/

/-- The 64 bytes of an error record (17 R473). -/
def ErrRec.bytes (r : ErrRec) : List Byte :=
  [1, r.kind, r.cause, r.part] ++ leBytes 4 r.seq.toNat ++ leBytes 8 r.lt.toNat ++ [r.tenant, r.gen] ++
    leBytes 2 r.ring.toNat ++ leBytes 4 r.job.toNat ++ leBytes 2 r.ltid.toNat ++ [r.die, r.row, r.col, 0, 0, 0] ++
    (r.data ++ List.replicate 32 0).take 32

/-- The longest prefix of whole records within `n` bytes. -/
def fitRecords (n : Nat) : List (List Byte) → List Byte
  | [] => []
  | b :: r => if b.length ≤ n then b ++ fitRecords (n - b.length) r else []

/-- Copies records to BUF and completes with the bytes written. [DEDUCED: log 70] -/
def State.diagCopy (s : State) (k : DescKey) (d : Desc) (recs : List (List Byte)) : State :=
  let b := fitRecords (fieldLE d.bytes 0x20 4) recs
  let buf := fieldLE d.bytes 0x18 8
  if b.isEmpty then s.complete k 0 0 0
  else if s.hostFails buf b.length then (s.hifSet 3).complete k 9 0 0
  else (s.emit (.hostWrite d.who buf b)).complete k 0 0 b.length

/-- The ready diagnostic of an action. -/
def State.readyDiag (s : State) (k : DescKey) (act : Nat) : Option Desc :=
  match s.readyDesc k 8 with
  | some d => if fieldLE d.bytes 0x10 1 = act then some d else none
  | none => none

def execDiagEcho (key : DescKey) (s : State) : Host.Outcome State Fault Refusal :=
  .next (match s.readyDiag key 0 with
    | none => s
    | some _ => s.complete key 0 0 0)

/-- DIAG_ERRLOG (R178, 17 R472): the records held, oldest first; a tenant sees those that name it. -/
def execDiagErrlog (key : DescKey) (s : State) : Host.Outcome State Fault Refusal :=
  .next (match s.readyDiag key 1 with
    | none => s
    | some d => s.diagCopy key d
        ((s.rst.log.filter (fun r => d.tenant == 0 || r.tenant == d.tenant.setWidth 8)).map (·.bytes)))

/-- A tile of a running job that has finished nothing for 1 ms (17 R470). -/
def State.isStalled (s : State) (t : Nat) : Bool := (s.tile t).running && decide ((s.tile t).lastFc + fcPerMs ≤ s.now)

/-- PRT_PROG_n (17). -/
def State.partProg (s : State) (n : Nat) : Nat :=
  let ts := (List.range 72).map (· + 72 * n)
  (s.part n).retiredIns / 1024 % 2 ^ 32 + fieldAt (ts.filter s.isStalled).length 32 7 +
    fieldAt (ts.filter (fun t => (s.tile t).halted)).length 39 7 + fieldAt (s.part n).admitted 46 18

/-- RNG_PROG_r (17). -/
def Ring.prog (g : Ring) : Nat := g.started.toNat + g.completed.toNat * 2 ^ 32

/-- The record of a ring in the PROGRESS diagnostic (17 R470). -/
def State.ringRecord (s : State) (r : Nat) : List Byte :=
  leBytes 2 r ++ [0, 0] ++ leBytes 4 (s.ring r).pkgIndex.toNat ++ leBytes 8 (s.ring r).prog

/-- The partition belongs to the asking tenant; tenant 0 sees all. -/
def State.seesPart (s : State) (t : BitVec 7) (n : Nat) : Bool := t == 0 || (s.psw n).tenant == t

/-- DIAG_PROGRESS (17 R470): twelve partition words, then a record for each enabled ring that the tenant may see.
[DEDUCED: log 70] -/
def execDiagProgress (key : DescKey) (s : State) : Host.Outcome State Fault Refusal :=
  .next (match s.readyDiag key 2 with
    | none => s
    | some d =>
      let ps := (List.range 12).map (fun n => leBytes 8 (if s.seesPart d.tenant n then s.partProg n else 0))
      let rs := (s.rings.filter (fun e => let c := s.rngCfg e.1
        cfgEn c && (d.tenant == 0 || cfgTenant c == d.tenant.toNat))).map (fun e => s.ringRecord e.1)
      s.diagCopy key d (ps ++ rs))

/-- DIAG_PRTSTATE (R178): the twelve partition state words. [DEDUCED: log 70] -/
def execDiagPrtstate (key : DescKey) (s : State) : Host.Outcome State Fault Refusal :=
  .next (match s.readyDiag key 3 with
    | none => s
    | some d => s.diagCopy key d ((List.range 12).map (fun n => leBytes 8 (if s.seesPart d.tenant n then (s.psw n).word else 0))))

end Sys2Proof.Machine
end

