-- ==== Sys2Proof/Machine/Topo.lean ====
section
/-!
DEFINITION. The topology record (spec 07 R187 to R191; 01 R24, R28 to R30): its fields, the conditions of acceptance, what a
port's far end must be.
-/

namespace Sys2Proof.Machine

/-! ### Fields (R187, R188) -/

def Topo.f (t : Topo) (o n : Nat) : Nat := fieldLE t.bytes o n
def Topo.shape (t : Topo) : Nat := t.f 1 1
def Topo.chip (t : Topo) : Nat := t.f 2 2
def Topo.groups (t : Topo) : Nat := t.f 4 2
def Topo.dim (t : Topo) (d : Nat) : Nat := t.f (8 + 2 * d) 2
def Topo.epoch (t : Topo) : Nat := t.f 0x10 8
def Topo.act (t : Topo) : Nat := t.f 0x18 8
/-- Port entry `p` (R188). -/
def Topo.entry (t : Topo) (p : Nat) : Nat := t.f (0x40 + 8 * p) 8
def eKind (e : Nat) : Nat := bits e 1 0
def ePort (e : Nat) : Nat := bits e 7 3
def eChip (e : Nat) : Nat := bits e 23 8
def eDim (e : Nat) : Nat := bits e 25 24
def eDir (e : Nat) : Bool := bitAt e 26
def eUp (e : Nat) : Bool := bitAt e 27
def eLo (e : Nat) : Nat := bits e 43 32
def eHi (e : Nat) : Nat := bits e 55 44
/-- The mask of members present in a group. -/
def Topo.members (t : Topo) (g : Nat) : Nat := if g < 2048 then t.f (0x340 + 2 * g) 2 else 0
/-- A global link map entry: the peer group, where VALID is set. -/
def Topo.glink (t : Topo) (i : Nat) : Option Nat :=
  let e := t.f (0x140 + 2 * i) 2
  if bitAt e 15 then some (bits e 11 0) else none

/-- The 2-byte entries of a table. -/
def pairs16 : List Byte → List Nat
  | a :: b :: r => (a.toNat + 256 * b.toNat) :: pairs16 r
  | _ => []

/-- The 256 entries of GLINKS and the 2,048 of MEMBERS. -/
def Topo.glinks (t : Topo) : List Nat := pairs16 ((t.bytes.drop 0x140).take 512)
def Topo.memberMasks (t : Topo) : List Nat := pairs16 ((t.bytes.drop 0x340).take 4096)
/-- The groups present. -/
def Topo.present (t : Topo) : List Nat := (t.memberMasks.mapIdx (fun g m => (g, m))).filterMap (fun e => if e.2 = 0 then none else some e.1)

def chipGroup (c : Nat) : Nat := c / 16
def chipMember (c : Nat) : Nat := c % 16

/-- The record lists a chip (R187, 01 R24). -/
def Topo.lists (t : Topo) (c : Nat) : Bool := bitAt (t.members (chipGroup c)) (chipMember c)

/-- The all-to-all shapes. -/
def Topo.a2a (t : Topo) : Bool := t.shape == 2 || t.shape == 3

/-! ### What R29 requires of a local port -/

/-- The chip and port at the far end of local port `p`. -/
def localPeer (chip p : Nat) : Nat × Nat :=
  let m := chipMember chip
  if p = 15 then (16 * chipGroup chip + (if m % 2 = 0 then m + 1 else m - 1), 15)
  else (16 * chipGroup chip + (m + p + 1) % 16, 14 - p)

/-- The chip and port that the record requires at the far end of port `p`; none for an unused port, one that leads to an absent member
(R246 cause 0x8), or a global port in a single group (01 R30). -/
def Topo.peer (t : Topo) (p : Nat) : Option (Nat × Nat) :=
  let e := t.entry p
  if eKind e = 0 ∨ (t.shape = 1 ∧ 16 ≤ p) then none
  else
    let x := if p < 16 then localPeer t.chip p else (eChip e, ePort e)
    if t.lists x.1 then some x else none

/-! ### Acceptance (R189, R190) -/

def zeroIn (l : List Byte) : Bool := l.all (· == 0)
def Topo.slice (t : Topo) (a b : Nat) : List Byte := (t.bytes.drop a).take (b - a)

def Topo.crcOk (t : Topo) : Bool :=
  decide ((crc32c (t.bytes.take 0x3C ++ [0, 0, 0, 0] ++ t.bytes.drop 0x40)).toNat = t.f 0x3C 4)

/-- Reserved fields are zero; KIND 3 is a reserved value. -/
def Topo.reservedOk (t : Topo) : Bool :=
  zeroIn (t.slice 6 8) && zeroIn (t.slice 0xE 0x10) && zeroIn (t.slice 0x20 0x3C) &&
    (List.range 32).all (fun p =>
      let e := t.entry p
      !bitAt e 2 && bits e 31 28 == 0 && bits e 63 56 == 0 && eKind e != 3) &&
    t.glinks.all (fun e => bits e 14 12 == 0)

/-- Local entries agree with R29, and the own member is present. -/
def Topo.localsOk (t : Topo) : Bool :=
  t.lists t.chip && (List.range 32).all (fun p =>
    let e := t.entry p
    eKind e == 0 || (if p < 16 then eKind e == 1 && (eChip e, ePort e) == localPeer t.chip p else eKind e == 2))

/-- A coordinate of a group (R189). -/
def Topo.coord (t : Topo) (g d : Nat) : Nat :=
  match d with
  | 0 => g % t.dim 0
  | 1 => (g / t.dim 0) % t.dim 1
  | _ => g / (t.dim 0 * t.dim 1)

/-- The group one step away. -/
def Topo.neighbour (t : Topo) (g d : Nat) (down : Bool) : Nat :=
  let stride := match d with
    | 0 => 1
    | 1 => t.dim 0
    | _ => t.dim 0 * t.dim 1
  let c := t.coord g d
  let c' := if down then (c + t.dim d - 1) % t.dim d else (c + 1) % t.dim d
  g - c * stride + c' * stride

def Topo.torusOk (t : Topo) : Bool :=
  let g := chipGroup t.chip
  let m := chipMember t.chip
  (List.range 3).all (fun d => decide (1 ≤ t.dim d)) && t.groups == t.dim 0 * t.dim 1 * t.dim 2 &&
    (let l := t.memberMasks
     (l.take t.groups).all (· != 0)) && decide (g < t.groups) &&
    (List.range 16).all (fun i =>
      let e := t.entry (16 + i)
      eKind e == 0 || (decide (eDim e < 3) && eChip e == 16 * t.neighbour g (eDim e) (eDir e) + m)) &&
    (List.range 3).all (fun d => decide (t.dim d ≤ 1) || [false, true].all (fun w => (List.range 16).any (fun i =>
      let e := t.entry (16 + i)
      eKind e != 0 && eDim e == d && eDir e == w)))

/-- What the record of one package shows of R189's tree: the member plane, one parent above it, and the children's ranges, which follow
on one another from the group itself on, as the depth-first numbering has them. -/
def Topo.treeOk (t : Topo) : Bool :=
  let g := chipGroup t.chip
  let m := chipMember t.chip
  let es := ((List.range 16).map (fun i => t.entry (16 + i))).filter (fun e => eKind e != 0)
  let ups := (es.filter eUp).map (fun e => chipGroup (eChip e))
  let kids := ((es.filter (fun e => !eUp e)).map (fun e => (eLo e, eHi e))).eraseDups
  ups.all (· == ups.headD 0) && decide ((kids.map (·.1)).Nodup) && kids.all (fun k => k.1 == g + 1 || kids.any (fun j => j.2 + 1 == k.1)) &&
  (List.range 16).all (fun i =>
    let e := t.entry (16 + i)
    eKind e == 0 || (chipMember (eChip e) == m &&
      (if eUp e then decide (chipGroup (eChip e) < g)
       else decide (g < eLo e ∧ eLo e ≤ eHi e) && chipGroup (eChip e) == eLo e))) &&
    (g == 0 || (List.range 16).any (fun i => eKind (t.entry (16 + i)) != 0 && eUp (t.entry (16 + i))))

def Topo.a2aOk (t : Topo) : Bool :=
  let own := chipGroup t.chip
  let dests := t.glinks.filterMap (fun e => if bitAt e 15 then some (bits e 11 0) else none)
  t.present.all (fun g => g == own || dests.contains g)

def Topo.shapeOk (t : Topo) : Bool :=
  decide (1 ≤ t.shape ∧ t.shape ≤ 5) && t.localsOk &&
    (if t.shape = 4 then t.torusOk else zeroIn (t.slice 8 0xE)) &&
    (if t.a2a then t.a2aOk else zeroIn (t.slice 0x140 0x340)) &&
    (t.shape != 5 || t.treeOk)

/-- R30: the number of groups the shape allows, two packages or more in a single group, and no group number with bit 11 set. -/
def Topo.countOk (t : Topo) : Bool :=
  decide (1 ≤ t.groups ∧ t.groups ≤ 2048) && !bitAt t.chip 15 &&
    (t.shape != 1 || (t.groups == 1 && decide (2 ≤ (maskList (t.members (chipGroup t.chip)) 16).length))) && (t.shape != 2 || decide (2 ≤ t.groups ∧ t.groups ≤ 257)) &&
    (List.range 32).all (fun p => let e := t.entry p
      !bitAt (eChip e) 15 && !bitAt (eLo e) 11 && !bitAt (eHi e) 11) &&
    t.glinks.all (fun e => !bitAt e 15 || !bitAt e 11)

/-- The cause of a rejection, in the order of FAB_TOPO_STAT.REJECT; 0 accepts. [DEDUCED: log 78] -/
def State.topoReject (s : State) (t : Topo) : Nat :=
  if !t.crcOk then 1
  else if t.f 0 1 ≠ 1 ∨ !t.reservedOk then 2
  else if !t.shapeOk then 3
  else if !t.countOk then 4
  else match s.router.topo with
    | none => 0
    | some o => if t.chip ≠ o.chip then 5 else if t.epoch ≤ o.epoch then 6 else 0

end Sys2Proof.Machine
end

