-- ==== Sys2Proof/Machine/Router.lean ====
section
/-!
DEFINITION. The package router (spec 07): header checks (R192 to R200), routes (R207 to R214), the choice of ports (R209, R210),
multicast (R215 to R218), forwarding on circuits (R219 to R227), and authentication at the source and at delivery (11 R328,
R329).
-/

namespace Sys2Proof

open Machine

def Packet.hasReply (k : Packet) : Bool := expectsReply k.typ

/-- The class of a type: 0 request, 1 reply, 2 forwarded (R194, R204). -/
def pktClass (t : BitVec 4) : Nat := if t == tRDR || t == tACK then 1 else if t == tFWR then 2 else 0

/-- The channel of a class in a phase. -/
def chanOf (t : BitVec 4) (phase : Nat) : Nat :=
  if t == tCTL then 11 else if t == tCKT then (if phase = 0 then 9 else 10) else 3 * pktClass t + min phase 2

/-- The bytes of an extension header, with its bytes from `cut` on as zero. -/
def Ext.bytesCut (e : Ext) (cut : Nat) : List Byte :=
  BitVec.ofNat 8 (e.kind.toNat + 8 * e.next.toNat + 64 * e.rsvd.toNat) :: leBytes 15 (e.body.toNat % 2 ^ (8 * (cut - 1)))

/-- The bytes that a fabric tag covers: the base header with PHASE and NONMIN as zero, the extensions with TAG as zero, the
payload (11 R328). -/
def Packet.tagged (k : Packet) : List Byte :=
  leBytes 8 k.addr.toNat ++ leBytes 8 (k.word1 0 0) ++
    k.exts.flatMap (fun e => e.bytesCut (if e.kind = 4 then 8 else 16)) ++ k.payload

/-- Types that an extension kind may accompany (R196). -/
def extAllowed (kind : Nat) (t : BitVec 4) : Bool :=
  match kind with
  | 1 => t == tWRP || t == tCKT
  | 2 => t == tCKT || t == tCSU || t == tCRL
  | 3 => t == tCKT || t == tMSG || t == tMSGP || t == tACK
  | 4 => t != tCTL
  | 5 => true
  | _ => false

/-- The chain of NEXT fields names the extensions present, at most four. [DEDUCED: log 79] -/
def chainOk : Nat → List Ext → Bool
  | k, [] => k == 0
  | k, e :: r => e.kind.toNat == k && chainOk e.next.toNat r

/-- The extensions are of known kinds, allowed for the type, none repeated, and the chain ends by the fourth. -/
def Packet.extsOk (k : Packet) : Bool :=
  chainOk k.ext.toNat k.exts && decide (k.exts.length ≤ 4) && k.exts.all (fun e => extAllowed e.kind.toNat k.typ) &&
    decide ((k.exts.map (·.kind)).Nodup)

/-- PLEN in the range of its type, the payload as long as the type says, BYTES and COVER equal to PLEN (R194, R198).
[DEDUCED: log 79] -/
def Packet.lengthOk (k : Packet) : Bool :=
  let n := k.plen.toNat
  let t := k.typ
  (if t == tRD then decide (1 ≤ n ∧ n ≤ 4096) && k.payload.isEmpty
   else decide (k.payload.length = n) &&
    (if t == tWR || t == tWRP || t == tFWR then decide (1 ≤ n ∧ n ≤ 4096)
     else if t == tATM then n == 24
     else if t == tPUSH then n == 16 && decide (1 ≤ fieldLE k.payload 8 4 ∧ fieldLE k.payload 8 4 ≤ 4096)
     else if t == tRDR || t == tCKT then decide (n ≤ 4096)
     else if t == tACK then decide (n ≤ 64)
     else if t == tCSU || t == tCRL then n == 0
     else if t == tMSG || t == tMSGP then decide (n ≤ 1024)
     else decide (n ≤ 44))) &&
    k.exts.all (fun e => (e.kind != 3 || e.field 14 13 == n) && (e.kind != 4 || e.field 4 13 == n))

/-- The chip that a packet is routed to: every router routes on ADDR[59:44]. -/
def Packet.chip (k : Packet) : Nat := (k.addr.extractLsb' 44 16).toNat

/-- A packet whose last header flit is its last flit: its tail is known before cut-through begins (R199). -/
def Packet.short (k : Packet) : Bool := decide (flitsOf k ≤ (if k.exts.length = 4 then 2 else 1))

/-- An extension added behind the others. -/
def Packet.addExt (k : Packet) (e : Ext) : Packet :=
  match k.exts.reverse with
  | [] => { k with ext := e.kind, exts := [e] }
  | l :: r => { k with exts := r.reverse ++ [{ l with next := e.kind }, e] }

/-- An extension replaced in place. -/
def Packet.mapExt (k : Packet) (kind : Nat) (f : Ext → Ext) : Packet :=
  { k with exts := k.exts.map (fun e => if e.kind.toNat = kind then f e else e) }

/-- A field of an extension takes a value: byte, bits, value. -/
def Ext.put (e : Ext) (byte n v : Nat) : Ext :=
  { e with body := BitVec.ofNat 120 (e.body.toNat - e.field byte n * 2 ^ (8 * (byte - 1)) + (v % 2 ^ n) * 2 ^ (8 * (byte - 1))) }

/-- Packets that may take a non-minimal route. -/
def Packet.mayDetour (k : Packet) : Bool :=
  ((k.typ == tRD || k.typ == tWR || k.typ == tWRP || k.typ == tATM || k.typ == tPUSH) && gaRlx k.addr) ||
    k.typ == tFWR || k.typ == tRDR || k.typ == tACK || k.typ == tMSG

/-- Packets whose choice of ports is fixed (R210): those with RLX = 0, CSU and CRL. The rule gives multicast and circuit packets with RLX =
1 no choice; theirs is the same. [DESIGN CHOICE: log 202] -/
def Packet.fixedChoice (k : Packet) : Bool :=
  k.typ == tCSU || k.typ == tCRL || k.typ == tCKT || (k.extOf 1).isSome || (!k.mayDetour && !gaRlx k.addr)

/-- UNIT of R210: the agent, or the CID of a set-up or release. -/
def Packet.choiceUnit (k : Packet) : Nat :=
  if k.typ == tCSU || k.typ == tCRL then ((k.extOf 2).map (fun e => e.field 4 12)).getD 0 else k.rid.toNat / 64

/-- The tail as it goes onward: a failed one is stomped (R201). -/
def Packet.onward (k : Packet) (phase : Nat) : Packet :=
  { k with phase := BitVec.ofNat 2 phase, tail := if k.tail = .good then .good else .stomped }

end Sys2Proof

namespace Sys2Proof.Machine

/-! ### Headers (R192 to R198) -/

/-! ### Ports and routes (R207 to R214) -/

/-- The port serves a link of the record. -/
def State.upPort (s : State) (t : Topo) (p : Nat) : Bool := (s.port p).inService && eKind (t.entry p) != 0

/-- Local ports in service to a member of the own group. -/
def State.localPorts (s : State) (t : Topo) (m : Nat) : List Nat :=
  (List.range 16).filter (fun p => s.upPort t p && chipMember (localPeer t.chip p).1 == m)

/-- The group's global links to a group, sorted by (member, port). -/
def Topo.linksTo (t : Topo) (g : Nat) : List (Nat × Nat) :=
  (t.glinks.mapIdx (fun i e => (i, e))).filterMap (fun x =>
    if bitAt x.2 15 && bits x.2 11 0 == g then some (x.1 / 16, 16 + x.1 % 16) else none)

/-- Flits queued for a port in the packet's class, and the credits of that class outstanding (R209). -/
def State.queueCost (s : State) (k : Packet) (p : Nat) : Nat :=
  let x := s.port p
  (List.range 3).foldl (fun a i =>
    let vc := 3 * pktClass k.typ + i
    a + (x.txq.toList.getD vc []).foldl (fun b (q : Queued) => b + flitsOf q.pkt) 0 + (bufFlits p vc - x.credits.toList.getD vc 0)) 0

/-- A way onward: the (member, port) it stands for under R210, and the own ports that begin it. -/
abbrev Way := Nat × Nat × List Nat

/-- What the router decides. -/
inductive Route where
  | here
  | onward (ways : List Way) (phase : Nat)
  | misroute
deriving DecidableEq, Repr

/-- Ways to another group: own global links first; a packet that arrived over a local link takes no other. -/
def State.waysTo (s : State) (t : Topo) (g : Nat) (local_ : Bool) : List Way :=
  let m := chipMember t.chip
  let own := (t.linksTo g).filterMap (fun l => if l.1 = m ∧ s.upPort t l.2 then some (l.1, l.2, [l.2]) else none)
  if !own.isEmpty then own
  else if local_ then []
  else (t.linksTo g).filterMap (fun l =>
    let ps := s.localPorts t l.1
    if l.1 = m ∨ ps.isEmpty then none else some (l.1, l.2, ps))

/-- Ways of one local hop. -/
def State.localWays (s : State) (t : Topo) (n : Nat) : List Way := (s.localPorts t n).map (fun p => (n, p, [p]))

/-- Own global links to a present group other than two. -/
def State.detours (s : State) (t : Topo) (b : Nat) : List Way :=
  ((List.range 16).map (· + 16)).filterMap (fun p =>
    let g := chipGroup (eChip (t.entry p))
    if s.upPort t p && g != b && g != chipGroup t.chip && t.members g != 0 then some (chipMember t.chip, p, [p]) else none)

/-- Group shapes (R207, R208); `via` is the intermediate group the source router drew. -/
def State.groupRoute (s : State) (t : Topo) (k : Packet) (inPort via : Option Nat) : Route :=
  let b := chipGroup k.chip
  let n := chipMember k.chip
  let arrG := inPort.any (fun p => decide (16 ≤ p))
  let arrL := inPort.any (fun p => decide (p < 16))
  let ph := k.phase.toNat + b2n arrG
  if 2 < ph then .misroute
  else if k.chip = t.chip then .here
  else if chipGroup t.chip = b then if arrL then .misroute else .onward (s.localWays t n) ph
  else if 2 ≤ ph then .misroute
  else if k.nonmin ∧ ph = 0 then
    match via with
    | some c => .onward (s.waysTo t c false) ph
    | none => .onward (s.detours t b) ph
  else .onward (s.waysTo t b arrL) ph

/-- The hop over which a packet arrived crossed the dateline of its dimension (R213). -/
def Topo.crossed (t : Topo) (p : Nat) : Bool :=
  let e := t.entry p
  let c := t.coord (chipGroup t.chip) (eDim e)
  if eDir e then c == 0 else c + 1 == t.dim (eDim e)

/-- Torus shape (R212, R213). -/
def State.torusRoute (s : State) (t : Topo) (k : Packet) (inPort : Option Nat) : Route :=
  let a := chipGroup t.chip
  let b := chipGroup k.chip
  let arr := inPort.bind (fun p => if 16 ≤ p then some p else none)
  let arrL := inPort.any (fun p => decide (p < 16))
  let cross := arr.any t.crossed
  if k.chip = t.chip then
    (if arr.isSome ∧ (k.phase.toNat = 2 ∨ (cross ∧ k.phase.toNat ≠ 0)) ∨ (arrL ∧ k.phase.toNat ≠ 2) then .misroute else .here)
  else if arrL ∨ (arr.isSome ∧ k.phase.toNat = 2) ∨ (cross ∧ k.phase.toNat ≠ 0) then .misroute
  else
    let d0 := arr.map (fun p => eDim (t.entry p))
    match (List.range 3).find? (fun d => t.coord a d != t.coord b d) with
    | none => .onward (s.localWays t (chipMember k.chip)) 2
    | some d =>
      if d0.any (fun e => decide (d < e)) then .misroute
      else
        let delta := (t.coord b d + t.dim d - t.coord a d) % t.dim d
        let down := decide (t.dim d - delta < delta)
        let ph := if d0 = some d then (if cross then 1 else k.phase.toNat) else 0
        .onward (((List.range 16).map (· + 16)).filterMap (fun p =>
          let e := t.entry p
          if s.upPort t p && eDim e == d && eDir e == down then some (chipMember t.chip, p, [p]) else none)) ph

/-- Tree shape (R214). -/
def State.treeRoute (s : State) (t : Topo) (k : Packet) (inPort : Option Nat) : Route :=
  let b := chipGroup k.chip
  let arrG := inPort.any (fun p => decide (16 ≤ p))
  let arrL := inPort.any (fun p => decide (p < 16))
  let ports (f : Nat → Bool) : List Way := ((List.range 16).map (· + 16)).filterMap (fun p =>
    if s.upPort t p && f (t.entry p) then some (chipMember t.chip, p, [p]) else none)
  if k.chip = t.chip then
    (if (arrG ∧ k.phase.toNat = 2) ∨ (arrL ∧ k.phase.toNat ≠ 2) then .misroute else .here)
  else if arrL ∨ (arrG ∧ k.phase.toNat = 2) then .misroute
  else if chipGroup t.chip = b then .onward (s.localWays t (chipMember k.chip)) 2
  else
    let child (e : Nat) : Bool := eKind e != 0 && !eUp e && decide (eLo e ≤ b ∧ b ≤ eHi e)
    if (List.range 16).any (fun i => child (t.entry (16 + i))) then .onward (ports child) 1
    else if k.phase.toNat ≠ 0 then .misroute
    else .onward (ports (fun e => eUp e)) 0

/-- The route of a packet at this router. -/
def State.routeOf (s : State) (t : Topo) (k : Packet) (inPort via : Option Nat) : Route :=
  if k.nonmin && !t.a2a then .misroute
  else if t.shape = 4 then s.torusRoute t k inPort
  else if t.shape = 5 then s.treeRoute t k inPort
  else s.groupRoute t k inPort via

/-! ### Choosing among ports (R209, R210) -/

/-- The port with the least Q, the lowest-numbered among equals. -/
def State.leastPort (s : State) (k : Packet) (ws : List Way) : Option Nat :=
  (((List.range 32).filter (fun p => ws.any (fun w => w.2.2.contains p))).foldl (fun (b : Option (Nat × Nat)) p =>
    let q := s.queueCost k p
    match b with
    | none => some (q, p)
    | some (q', p') => if q < q' then some (q, p) else some (q', p')) none).map (·.2)

/-- The port that the packet takes. -/
def State.pickPort (s : State) (k : Packet) (ws : List Way) : Option Nat :=
  if k.fixedChoice then
    let i := Nat.xor k.choiceUnit k.chip
    match ws[i % ws.length]? with
    | some w => w.2.2[i % w.2.2.length]?
    | none => none
  else s.leastPort k ws

def State.routeCfg (s : State) : Nat := s.reg 0x3C0018 0x4001

/-- The source router's choice of an intermediate group (R209). The links a route needs inside another group, and the
landing member of another member's link, stand in no record of this package: they are free. [DEDUCED: log 83] -/
def State.chooseVia (s : State) (t : Topo) (k : Packet) : State × Option Nat :=
  let b := chipGroup k.chip
  if !k.mayDetour || !t.a2a || b == chipGroup t.chip || !bitAt s.routeCfg 0 || !t.lists k.chip then (s, none)
  else
    let gs := t.present.filter (fun g => g != b && g != chipGroup t.chip)
    match gs[(Config.lfsr s.free).toNat % gs.length]? with
    | none => (s, none)
    | some c =>
      let wm := s.waysTo t b false
      let wn := s.waysTo t c false
      match s.leastPort k wm, s.leastPort k wn with
      | some xm, some xn =>
        let fin (p : Nat) (d : Nat) : Nat :=
          if 16 ≤ p then b2n (chipMember (eChip (t.entry p)) != chipMember k.chip) else b2n (Config.freeBool d)
        let hm := (if 16 ≤ xm then 1 else 2) + fin xm s.free
        let hn := (if 16 ≤ xn then 1 else 2) + 1 + b2n (Config.freeBool (s.free + 1)) + b2n (Config.freeBool (s.free + 2))
        let cm := s.queueCost k xm * hm
        let cn := s.queueCost k xn * hn + bits s.routeCfg 15 8
        (s.draw.draw.draw, if cn < cm then some c else none)
      | _, _ => (s.draw, none)

/-! ### Authentication (11 R328, R329) -/

def State.tenCfg (s : State) (t : Nat) : Nat := s.reg (0x200100 + 8 * t) 0

/-- The packet as it is first sent onto a link: sealed where its tenant asks; none where no fabric key is loaded.
[DEDUCED: log 82] -/
def State.seal (s : State) (k : Packet) : Option Packet :=
  if k.typ == tCTL || k.tenant == 0 || !bitAt (s.tenCfg k.tenant.toNat) 0 then some k
  else match SMap.get [] s.sec.fabKeys k.tenant.toNat with
    | [] => none
    | ⟨id, key, _⟩ :: _ =>
      let k1 := k.addExt ⟨4, 0, 0, extBody [(2, 16, id.toNat), (4, 13, k.plen.toNat)]⟩
      some (k1.mapExt 4 (fun e => e.put 8 64 (Config.cmac key k1.tagged).toNat))

/-- The check at delivery of a packet that arrived from a link. [DEDUCED: log 82] -/
def State.authentic (s : State) (k : Packet) : Bool :=
  k.tenant == 0 || !bitAt (s.tenCfg k.tenant.toNat) 1 ||
    (match k.extOf 4 with
     | none => false
     | some e => (SMap.get [] s.sec.fabKeys k.tenant.toNat).any (fun x =>
        x.id.toNat == e.field 2 16 && (Config.cmac x.draw k.tagged).toNat == e.field 8 64))

/-! ### Sending and delivering -/

/-- A packet goes onto a port; a packet of this package is sealed first. -/
def State.linkSend (s : State) (p vc : Nat) (k : Packet) (inside : Bool) : State :=
  if !inside then s.portSend p vc k
  else match s.seal k with
    | some k => s.portSend p vc k
    | none => s.cntRefused.answer k stRefused []

/-- The time extension's deadline has passed (R197). -/
def State.isLate (s : State) (k : Packet) : Bool :=
  match k.extOf 5 with
  | some e => e.field 2 32 != 0 && decide (e.field 8 64 + e.field 2 32 < s.lay.time.toNat)
  | none => false

/-- The checks of a packet about to be delivered here, in order: authentication, the target address (01 R26), the deadline. -/
def State.deliverCheck (s : State) (k : Packet) (link : Bool) : State × Bool :=
  let range := k.typ == tRD || k.typ == tWR || k.typ == tWRP || k.typ == tATM || k.typ == tPUSH || k.typ == tFWR
  let msg := k.typ == tMSG || k.typ == tMSGP
  if link && !s.authentic k then (s.cntRefused.answer k stRefused [], false)
  else if (range || msg) && (gaFault k.addr (k.typ == tRD || k.typ == tATM) || (range && gaRangeFault k.addr (Packet.len k)) ||
      (msg && gaRegion k.addr != 2)) then (s.cntAddress.answer k stAddress [], false)
  else if (range || msg) && gaRegion k.addr == 2 && k.tenant != 0 then (s.cntRefused.answer k stRefused [], false)
  else if s.isLate k then (s.cntLate.answer k stLate [], false)
  else (s, true)

/-- Delivery inside the package, after the checks; nothing of a packet whose tail failed is committed. -/
def State.deliverHere (s : State) (k : Packet) (link : Bool) : State :=
  let (s, ok) := s.deliverCheck k link
  if ok && k.tail == .good then s.sendPkt .spine k else s

/-- A drop as unreachable. -/
def State.unreachable (s : State) (k : Packet) : State := s.cntUnreach.answer k stUnreachable []

/-! ### Multicast (R215 to R218) -/

def maskBit (l : List Byte) (g : Nat) : Bool := (l.getD (g / 8) 0).getLsbD (g % 8)

/-- The own group's chosen link to a group: the lowest (member, port). -/
def Topo.chosen (t : Topo) (g : Nat) : Option (Nat × Nat) := (t.linksTo g).head?

/-- A copy with a stage onto a port. -/
def State.mcCopy (s : State) (t : Topo) (k : Packet) (p stage phase : Nat) (inside : Bool) : State :=
  let k := (k.mapExt 1 (fun e => e.put 1 2 stage)).onward phase
  if s.upPort t p then s.linkSend p (chanOf k.typ phase) k inside else s.cntUnreach

/-- A copy to a member of the own group by one local hop. -/
def State.mcLocal (s : State) (t : Topo) (k : Packet) (n stage phase : Nat) (inside : Bool) : State :=
  match s.pickPort k (s.localWays t n) with
  | some p => s.mcCopy t k p stage phase inside
  | none => s.cntUnreach

/-- The copy that is delivered here: ADDR's chip number is ignored, and a copy without a collective extension writes its payload (R216,
R221). -/
def State.mcDeliver (s : State) (k : Packet) (link : Bool) : State :=
  let a := k.addr &&& ~~~(0xFFFF00000000000 : Word)
  if link && !s.authentic k then s.cntRefused
  else s.deliverHere { k with addr := a ||| (s.ownChip.setWidth 64 <<< 44),
                              typ := if k.typ == tCKT && (k.extOf 3).isNone then tWRP else k.typ } false

/-- The torus and tree shapes. -/
def Topo.fly (t : Topo) : Bool := t.shape == 4 || t.shape == 5

/-- The hop over which a copy arrived is the one its stage takes, in that stage's phase (R200, R217, R218). -/
def State.mcHopOk (s : State) (t : Topo) (k : Packet) (stage : Nat) (inPort : Option Nat) : Bool :=
  match inPort with
  | none => true
  | some p =>
    let global := decide (16 ≤ p)
    let ph := k.phase.toNat
    match stage with
    | 1 => !global && ph == 0
    | 2 => global && (if t.fly then s.routeOf t k inPort none != .misroute else ph == 0)
    | 3 => !global && ph == (if t.fly then 2 else 1)
    | _ => true

/-- Replication at this router. -/
def State.multicast (s : State) (t : Topo) (k : Packet) (e : Ext) (inPort : Option Nat) : State :=
  match SMap.find? s.router.mc (e.field 4 12) with
  | none => s.cntMc
  | some x =>
    if x.tenant != k.tenant then s.cntMc
    else
      let m := chipMember t.chip
      let a := chipGroup t.chip
      let mask := e.field 2 16
      let inMask := maskBit x.groups a
      let mine := bitAt mask m
      let inside := inPort.isNone
      let targets := t.present.filter (fun g => maskBit x.groups g && g != a)
      let others := (List.range 16).filter (fun n => n != m && bitAt mask n)
      let fly := t.fly
      let arrG := inPort.any (fun p => decide (16 ≤ p))
      if (k.nonmin && !t.a2a) || !s.mcHopOk t k (e.field 1 2) inPort then s.cntMisroute
      else match e.field 1 2 with
      | 0 =>
        let s := if inMask && mine then s.mcDeliver k (!inside) else s
        if fly then
          let s := (if inMask then others else []).foldl (fun s n => s.mcLocal t k n 1 0 inside) s
          targets.foldl (fun s g =>
            let k := { k with addr := (k.addr &&& ~~~(0xFFFF00000000000 : Word)) ||| (BitVec.ofNat 64 (16 * g + m) <<< 44) }
            match s.routeOf t k none none with
            | .onward ws ph => match s.pickPort k ws with
              | some p => s.mcCopy t k p 2 ph inside
              | none => s.cntUnreach
            | _ => s.cntUnreach) s
        else
          let links := targets.filterMap t.chosen
          let hops := (List.range 16).filter (fun n => n != m && ((inMask && bitAt mask n) || links.any (fun l => l.1 == n)))
          let s := hops.foldl (fun s n => s.mcLocal t k n 1 0 inside) s
          (links.filter (fun l => l.1 == m)).foldl (fun s l => s.mcCopy t k l.2 2 0 inside) s
      | 1 =>
        let s := if inMask && mine then s.mcDeliver k (!inside) else s
        if fly then s else (((targets.filterMap t.chosen).filter (fun l => l.1 == m))).foldl (fun s l => s.mcCopy t k l.2 2 0 inside) s
      | 2 =>
        if fly && k.chip != t.chip then
          match s.routeOf t k inPort none with
          | .onward ws ph => match s.pickPort k ws with
            | some p => s.mcCopy t k p 2 ph inside
            | none => s.cntUnreach
          | _ => s.cntMisroute
        else
          let ph := if fly then 2 else k.phase.toNat + b2n arrG
          let s := if mine then s.mcDeliver k (!inside) else s
          others.foldl (fun s n => s.mcLocal t k n 3 ph inside) s
      | _ => s.mcDeliver k (!inside)

/-! ### Circuits in the router (R219 to R226) -/

/-- The entry of a key. -/
def Router.ckt (r : Router) (owner cid : Nat) : Option Ckt := r.ckts.find? (fun c => c.owner.toNat == owner && c.cid.toNat == cid)

def State.dropCkt (s : State) (owner cid : Nat) : State :=
  s.modRouter fun r => { r with ckts := r.ckts.filter (fun c => !(c.owner.toNat == owner && c.cid.toNat == cid)) }

def State.setCkt (s : State) (c : Ckt) : State :=
  s.modRouter fun r => { r with ckts := r.ckts.map (fun d => if d.owner == c.owner && d.cid == c.cid then c else d) }

/-- The sixty-fourths of a port that circuits hold (R220). -/
def Router.share (r : Router) (p : Nat) : Nat := r.ckts.foldl (fun a c => if c.out = some p then a + c.share else a) 0

/-- RID of the circuit agent: the spine's units from 850 on name the circuits. [DESIGN CHOICE: log 84] -/
def cktRid (cid : Nat) : BitVec 16 := BitVec.ofNat 16 (850 * 64 + cid)

/-- The circuit extension. -/
def cktExt (fin bind : Bool) (owner cid share : Nat) : Ext :=
  ⟨2, 0, 0, extBody [(1, 2, b2n fin + 2 * b2n bind), (2, 16, owner), (4, 12, cid), (6, 6, share)]⟩

/-- A circuit packet of this package: set-up, release, or the END of a tear-down. -/
def Ckt.packet (c : Ckt) (typ : BitVec 4) (fin : Bool) : Packet :=
  { addr := c.dst.setWidth 64 <<< 44, ver := 1, typ := typ, phase := 0, nonmin := false, ext := 2, plen := 0,
    tenant := c.tenant, srcChip := c.owner, rid := cktRid c.cid.toNat,
    exts := [cktExt fin (typ == tCSU && c.bind) c.owner.toNat c.cid.toNat (if typ == tCSU then c.share else 0)],
    payload := [], tail := .good }

/-- The acknowledgement that a circuit's end sends to the owner. -/
def State.cktAck (s : State) (k : Packet) (status : Nat) (data : List Byte) : State :=
  s.sendPkt .spine ({ k with addr := replyAddr k.rid status k.srcChip, typ := tACK, phase := 0, nonmin := false, ext := 0,
                             plen := BitVec.ofNat 13 data.length, exts := [], payload := data, tail := .good })

/-- A refusal of R224: the code and this chip's number. -/
def State.cktRefuse (s : State) (k : Packet) (code : Nat) : State :=
  (s.modRouter fun r => { r with cktRefus := satAdd r.cktRefus 1 0xFFFF }).cktAck k stCircuit (leBytes 2 code ++ leBytes 2 s.ownChip.toNat)

/-- CSU at a router of the path (R223, R224): a share outside R220's 1 to 48 cannot be granted; one that comes late to its destination is
dropped (R197). [DEDUCED: log 85] -/
def State.cktSetUp (s : State) (t : Topo) (k : Packet) (e : Ext) (inPort : Option Nat) : State :=
  let owner := e.field 2 16
  let cid := e.field 4 12
  let share := e.field 6 6
  let mk (out : Option Nat) (ph : Nat) : Ckt :=
    { owner := BitVec.ofNat 16 owner, cid := BitVec.ofNat 12 cid, inPort := inPort, out := out, chan := min ph 1, phase := ph, share := share,
      tenant := k.tenant, broken := false, bind := e.field 1 2 / 2 == 1, dst := BitVec.ofNat 16 k.chip, refs := 0, up := true,
      closing := false, key := none, why := none, due := none, again := none }
  match s.routeOf t k inPort none with
  | .misroute => s.cntMisroute.answer k stUnreachable []
  | .here =>
    let late := s.isLate k
    let s := if late then s else s.dropCkt owner cid
    if late then s.cntLate.answer k stLate []
    else if share < 1 ∨ 48 < share then s.cktRefuse k 2
    else if 4096 ≤ s.router.ckts.length then s.cktRefuse k 1
    else (s.modRouter fun r => { r with ckts := r.ckts ++ [mk none 0] }).cktAck k stOK []
  | .onward ws ph =>
    match s.pickPort k ws with
    | none => s.unreachable k
    | some p =>
      let s := s.dropCkt owner cid
      if 4096 ≤ s.router.ckts.length then s.cktRefuse k 1
      else if share < 1 ∨ 48 < s.router.share p + share then s.cktRefuse k 2
      else (s.modRouter fun r => { r with ckts := r.ckts ++ [mk (some p) ph] }).portSend p
        (chanOf k.typ ph) (k.onward ph)

/-- CRL at a router (R224): the entry is freed and the packet goes on; the first router that holds none, or the destination, answers; one
that comes there late is dropped (R197). -/
def State.cktRelease (s : State) (t : Topo) (k : Packet) (e : Ext) (inPort : Option Nat) : State :=
  let owner := e.field 2 16
  let cid := e.field 4 12
  let here (s : State) : State := if s.isLate k then s.cntLate.answer k stLate [] else s.cktAck k stOK []
  match s.router.ckt owner cid with
  | none => here s
  | some c =>
    let s := if c.out.isNone && s.isLate k then s else s.dropCkt owner cid
    match c.out with
    | none => here s
    | some p =>
      let ph := match s.routeOf t k inPort none with
        | .onward _ ph => ph
        | _ => k.phase.toNat
      if s.upPort t p then s.portSend p (chanOf k.typ ph) (k.onward ph) else s.unreachable k

/-- The write of a circuit packet without a collective extension: a posted write (R221). -/
def State.cktDeliver (s : State) (k : Packet) (link : Bool) : State :=
  if (k.extOf 3).isSome then s.deliverHere k link
  else if link && !s.authentic k then s.cntRefused
  else s.deliverHere { k with typ := tWRP } false

/-- CKT, and the END of a tear-down (R221, R225): in the phase of the circuit's next hop. A packet that came over a hop which breaks the
phase rule is dropped (R200), and one that ends here late (R197). -/
def State.cktForward (s : State) (t : Topo) (k : Packet) (e : Ext) (inPort : Option Nat) : State :=
  let owner := e.field 2 16
  let cid := e.field 4 12
  let fin := bitAt (e.field 1 2) 0
  if inPort.isSome && s.routeOf t k inPort none == .misroute then s.cntMisroute
  else if inPort.isNone && k.chip == s.ownChip.toNat && !fin then s.cktDeliver k false
  else match s.router.ckt owner cid with
    | none => s.cntCircuit
    | some c =>
      if c.inPort != inPort then s.cntCircuit
      else if c.tenant != k.tenant then s.cntRefused
      else if c.broken then
        (if fin then s.dropCkt owner cid else s.cntCircuit)
      else if fin && c.out.isNone && s.isLate k then s.cntLate
      else
        let s := match c.out with
          | some p => s.linkSend p (9 + c.chan) (k.onward c.phase) (inPort.isNone)
          | none => if fin then s.cktAck { k with srcChip := c.owner } stOK [] else s.cktDeliver k inPort.isSome
        if fin && inPort.isSome then s.dropCkt owner cid else s

/-! ### One packet (R199, R200, R205) -/

/-- The header's faults in the order of R200, apart from those that need a route. -/
def State.headerFault (s : State) (k : Packet) : Option State :=
  if k.ver ≠ 1 ∨ 13 < k.typ.toNat then some s.cntMalformed
  else if k.phase = 3 ∨ !k.extsOk then some (s.cntMalformed.answer k stMalformed [])
  else if !k.lengthOk then some (s.cntFraming.answer k stMalformed [])
  else none

/-- Reserved KINDs of control packets (R261; 10 R301). -/
def ctlKnown (kind : Nat) : Bool := kind == 1 || kind == 2 || (decide (0x10 ≤ kind) && decide (kind ≤ 0x13))

/-- A packet leaves the list of those that a port has released to the router, the oldest of its channel first, and is in the router's
hands with its place in the receive buffer (R205). One that no port lists comes from outside. None where it cannot come now.
[DEDUCED: log 177] -/
def State.rxTake (s : State) (p : Nat) (k : Packet) : Option State :=
  let x := s.port p
  match List.find? (fun (e : Nat × Nat × Packet) => e.2.2 == k) x.rxq with
  | none => some s
  | some (id, vc, _) =>
    if x.rxq.any (fun (e : Nat × Nat × Packet) => e.2.1 == vc && decide (e.1 < id)) then none
    else some ((s.setPort p { x with rxq := x.rxq.filter (fun (e : Nat × Nat × Packet) => e.1 != id) }).modRouter fun r =>
      { r with hand := some ⟨p, vc, k.needs, id⟩ })

/-- The router has dealt with a packet: where no port's queue holds it, its credits return. -/
def State.handDone (s : State) : State := (s.modRouter fun r => { r with hand := none }).orgLeaves s.router.hand

/-- The bound circuit that carries a posted write of the owner package (R227). [DESIGN CHOICE: log 84] -/
def State.boundFor (s : State) (k : Packet) : Option Ckt :=
  if k.typ == tWRP && gaRlx k.addr && (k.extOf 1).isNone && decide (k.exts.length < 3) then
    s.router.ckts.find? (fun c => c.owner == s.ownChip && c.inPort.isNone && c.bind && c.up && !c.broken && !c.closing &&
      c.tenant == k.tenant && c.dst.toNat == k.chip)
  else none

/-- What the source router does first: phase 0, the intermediate group, SEND_LT (R197), the bound circuit (R227). -/
def State.atSource (s : State) (t : Topo) (k : Packet) : State × Packet × Option Nat :=
  let k := { k with phase := 0, nonmin := false }
  let k := k.mapExt 5 (fun e => e.put 8 64 s.lay.time.toNat)
  match s.boundFor k with
  | some c => (s, { k with typ := tCKT }.addExt (cktExt false false c.owner.toNat c.cid.toNat 0), none)
  | none =>
    let (s, via) := s.chooseVia t k
    (s, { k with nonmin := via.isSome }, via)

/-- Routing under a record in force. -/
def State.routeWith (s : State) (t : Topo) (k : Packet) (inPort : Option Nat) : State :=
  let (s, k, via) := if inPort.isNone then s.atSource t k else (s, k, none)
  match k.extOf 1 with
  | some e => s.multicast t k e inPort
  | none =>
    if !t.lists k.chip then s.unreachable k
    else match k.extOf 2 with
      | some e =>
        if k.typ == tCKT then s.cktForward t k e inPort
        else if k.typ == tCSU then s.cktSetUp t k e inPort
        else if k.typ == tCRL then s.cktRelease t k e inPort
        else s
      | none =>
        if k.typ == tCKT then s.cntCircuit
        else match s.routeOf t k inPort via with
          | .misroute => s.cntMisroute.answer k stUnreachable []
          | .here => s.deliverHere k inPort.isSome
          | .onward ws ph =>
            let ws := if inPort.isSome && k.nonmin && ph == 0 then
                (ws[(Config.lfsr s.free).toNat % ws.length]?).toList else ws
            let s := if inPort.isSome && k.nonmin && ph == 0 then s.draw else s
            match s.pickPort k ws with
            | none => s.unreachable k
            | some p => s.linkSend p (chanOf k.typ ph) (k.onward ph) inPort.isNone

/-- Without a record every chip but 0x0000 is unknown (01 R27, R28). -/
def State.routeAlone (s : State) (k : Packet) (inPort : Option Nat) : State :=
  if k.chip ≠ 0 then s.unreachable k
  else if k.typ == tCKT then (if inPort.isNone then s.cktDeliver k false else s.cntCircuit)
  else s.deliverHere (k.mapExt 5 (fun e => if inPort.isNone then e.put 8 64 s.lay.time.toNat else e)) inPort.isSome

/-- The checks of the header, and the route (R199, R200): control packets are consumed, a packet of a port out of service is discarded. A
packet whose tail failed before cut-through could begin goes nowhere: TAIL_CHECK answers it. -/
def State.routeFrom (s : State) (k : Packet) (inPort : Option Nat) : State :=
  if inPort.any (fun p => !(s.port p).inService) then s.cntUnreach
  else match s.headerFault k with
    | some s' => s'
    | none =>
      if k.tail != .good && k.short then s
      else if k.typ == tCTL then
        match inPort with
        | none => s
        | some p =>
          if ctlKnown ((k.payload.headD 0).toNat) then (if k.tail == .good then s.sendPkt .spine k else s)
          else s.setPort p { s.port p with ctlDrop := satAdd (s.port p).ctlDrop 1 0xFF }
      else match s.router.topo with
        | some t => s.routeWith t k inPort
        | none => s.routeAlone k inPort

/-- A packet at the router. -/
def State.routePacket (s : State) (src : PktSource) (k : Packet) : State :=
  match src with
  | .port p => match s.rxTake p.val k with
    | some s => (s.routeFrom k (some p.val)).handDone
    | none => s
  | _ => s.routeFrom k none

/-- A packet reaches the package router: from a partition port, what the mesh of its die has brought to a seam port of that
partition (05 R141); a packet between two ports of one die stays on its mesh (01 R11). -/
def State.routeArrive (s : State) (src : PktSource) (k : Packet) : State :=
  if !s.railsOn then s else
  match src with
  | .part n =>
    if gaChip k.addr = s.ownChip ∧ (k.extOf 1).isNone ∧ (s.destOf .spine k).east = some (decide (6 ≤ n.val)) then s
    else match s.arrive (fun d => match d with | .seam e q => seamOwner e q == n.val | _ => false) k with
      | some (s, _) => s.routePacket src k
      | none => s
  | _ => s.routePacket src k

/-- PACKET_ROUTE (R200). -/
def execPacketRoute (src : PktSource) (pkt : Packet) (s : State) : Host.Outcome State Fault Refusal :=
  .next (s.routeArrive src pkt)

/-- TAIL_CHECK (R200, R201): a failed tail is counted; before cut-through, and at the final hop of a stomped packet, a type that
expects a reply is answered with Damaged. -/
def execTailCheck (_ : PktSource) (pkt : Packet) (forwarded : Bool) (s : State) : Host.Outcome State Fault Refusal :=
  let s0 := s
  .next (if !s0.railsOn then s0 else match pkt.tail with
    | .good => s0
    | .bad => if forwarded && !pkt.short then s0.cntFraming else s0.cntFraming.answer pkt stDamaged []
    | .stomped => if pkt.chip = s0.ownChip.toNat then s0.cntStomped.answer pkt stDamaged [] else s0.cntStomped)

/-- CKT (R221): a circuit packet without END. -/
def execCkt (src : PktSource) (pkt : Packet) (s : State) : Host.Outcome State Fault Refusal :=
  .next (if !s.railsOn || pkt.typ != tCKT || (pkt.extOf 2).any (fun e => bitAt (e.field 1 2) 0) then s else s.routeArrive src pkt)

/-- CSU (R223). -/
def execCsu (src : PktSource) (pkt : Packet) (s : State) : Host.Outcome State Fault Refusal :=
  .next (if !s.railsOn || pkt.typ != tCSU then s else s.routeArrive src pkt)

/-- CRL (R224). -/
def execCrl (src : PktSource) (pkt : Packet) (s : State) : Host.Outcome State Fault Refusal :=
  .next (if !s.railsOn || pkt.typ != tCRL then s else s.routeArrive src pkt)

/-- CIRCUIT_END (R225): a circuit packet with END. -/
def execCircuitEnd (src : PktSource) (pkt : Packet) (s : State) : Host.Outcome State Fault Refusal :=
  .next (if !s.railsOn || pkt.typ != tCKT || !(pkt.extOf 2).any (fun e => bitAt (e.field 1 2) 0) then s else s.routeArrive src pkt)

end Sys2Proof.Machine
end

