-- ==== Sys2Proof/Machine/Circuits.lean ====
section
/-!
DEFINITION. Circuits at their owner (07 R223 to R228), team formation and dissolution (09 R268 to R272), broken circuits (07 R226),
and what a port that leaves service held (R211).
-/

namespace Sys2Proof.Machine

/-! ### Setting up and tearing down (R223 to R225) -/

/-- The circuits this package owns. -/
def State.ownCkts (s : State) : List Ckt := s.router.ckts.filter (fun c => c.owner == s.ownChip && c.inPort.isNone)

def State.ownCkt (s : State) (cid : Nat) : Option Ckt := s.ownCkts.find? (fun c => c.cid.toNat == cid)

/-- The lowest CID the owner does not use. [DEDUCED: log 85] -/
def State.freeCid (s : State) : Option Nat := (List.range 4096).find? (fun i => (s.ownCkt i).isNone)

/-- A refusal at the owner's own router counts there too. [DEDUCED: log 86] -/
def State.ownRefusal (s : State) : State := s.modRouter fun r => { r with cktRefus := satAdd r.cktRefus 1 0xFFFF }

/-- The owner's entry, and the CSU; or the refusal code and chip of R224 and R228. -/
def State.startCkt (s : State) (ten : BitVec 7) (dst share : Nat) (bind : Bool) (refs : Nat) (key : Option DescKey) :
    State × Option (Nat × Nat) :=
  match s.router.topo, s.freeCid with
  | none, _ => (s, some (3, 0))
  | some _, none => (s.ownRefusal, some (1, s.ownChip.toNat))
  | some t, some cid =>
    let c : Ckt := { owner := s.ownChip, cid := BitVec.ofNat 12 cid, inPort := none, out := none, chan := 0, phase := 0, share := share, tenant := ten, broken := false, bind := bind, dst := BitVec.ofNat 16 dst, refs := refs, up := false, closing := false, key := key, why := none, due := none, again := none }
    let k := c.packet tCSU false
    if 4096 ≤ s.router.ckts.length then (s.ownRefusal, some (1, s.ownChip.toNat))
    else match s.routeOf t k none none with
      | .onward ws ph =>
        (match s.pickPort k ws with
         | none => (s, some (6, 0))
         | some p =>
          if 48 < s.router.share p + share then (s.ownRefusal, some (2, s.ownChip.toNat))
          else
            let c := { c with out := some p, chan := min ph 1, phase := ph }
            ((s.modRouter fun r => { r with ckts := r.ckts ++ [c] }).linkSend p (chanOf tCSU ph) (k.onward ph) true, none))
      | _ => (s, some (6, 0))

/-- The END packet down a circuit (R225). -/
def State.sendEnd (s : State) (c : Ckt) : State :=
  match c.out with
  | some p => if (s.port p).inService then s.linkSend p (9 + c.chan) ((c.packet tCKT true).onward c.phase) (c.owner == s.ownChip) else s
  | none => s

/-- The CRL along the path of a refused set-up (R224). -/
def State.sendRelease (s : State) (c : Ckt) : State :=
  match c.out with
  | some p => s.linkSend p (chanOf tCRL c.phase) ((c.packet tCRL false).onward c.phase) true
  | none => s

/-- The owner stops sending and sends END (R225). -/
def State.tearDown (s : State) (c : Ckt) (key : Option DescKey) (due : Option Nat) : State :=
  (s.setCkt { c with closing := true, key := key, due := due }).sendEnd c

/-! ### Teams (09 R268 to R272) -/

/-- The circuit of a tenant's teams to a chip (R271). -/
def State.teamCkt (s : State) (ten : BitVec 7) (chip : Nat) : Option Ckt :=
  s.ownCkts.find? (fun c => decide (0 < c.refs) && c.tenant == ten && c.dst.toNat == chip && !c.broken && !c.closing)

/-- A team lets go of its circuit to a chip; with the last reference the circuit is torn down. -/
def State.dropRef (s : State) (ten : BitVec 7) (chip : Nat) (key : Option DescKey) (due : Option Nat) : State :=
  match s.teamCkt ten chip with
  | none => s
  | some c =>
    if c.refs ≤ 1 then s.tearDown { c with refs := 0 } key due
    else s.setCkt { c with refs := c.refs - 1 }

/-- Circuits whose tear-down a descriptor awaits. -/
def State.awaits (s : State) (key : DescKey) : Bool := s.ownCkts.any (fun c => c.closing && c.key == some key)

def State.setForm (s : State) (f : Forming) : State :=
  { s with staging := { s.staging with forming := s.staging.forming.map (fun g => if g.key == f.key then f else g) } }

def State.dropForm (s : State) (k : DescKey) : State :=
  { s with staging := { s.staging with forming := s.staging.forming.filter (fun g => !(g.key == k)) } }

/-- Circuits of a formation that are being set up: a chip without a circuit is one whose path broke. -/
def State.formPending (s : State) (f : Forming) : List Nat :=
  f.taken.filter (fun c => (s.teamCkt f.tenant c).any (fun k => !k.up))

/-- The next circuits of a formation, sixteen at a time (R271). -/
def State.formStart (s : State) (f : Forming) : Nat → State × Forming
  | 0 => (s, f)
  | n + 1 =>
    match f.todo, f.fail with
    | c :: r, none =>
      if 16 ≤ (s.formPending f).length then (s, f)
      else match s.teamCkt f.tenant c with
        | some k => (s.setCkt { k with refs := k.refs + 1 }).formStart { f with todo := r, taken := f.taken ++ [c] } n
        | none => match s.startCkt f.tenant c f.share false 1 none with
          | (s, none) => s.formStart { f with todo := r, taken := f.taken ++ [c] } n
          | (s, some (_, chip)) => (s, { f with fail := some (6, chip) })
    | _, _ => (s, f)

/-- Check 7 of R270: a listed tile lies in a partition of another tenant. -/
def State.foreignTile (s : State) (f : Forming) : Bool :=
  !f.relay && f.tlist.any (fun l => (s.psw (l / 70)).tenant != f.tenant)

/-- The formation installs its entries and completes (R271). -/
def State.formInstall (s : State) (f : Forming) : State :=
  let tm : Team := { tenant := f.tenant, num := f.num, relay := f.relay, chips := f.chips, tlist := f.tlist, n := f.n, mcIdx := f.mcIdx, lmask := f.lmask, ckts := f.taken, aborted := none }
  let s := { s with staging := { s.staging with teams := s.staging.teams ++ [tm] } }
  let s := s.modRouter fun r => { r with mc := SMap.set r.mc f.mcIdx ⟨f.groups, f.tenant, f.num.toNat⟩ }
  (s.dropForm f.key).complete f.key 0 0 f.n

/-- A refused formation lets its circuits go, and completes when they are gone (R270). -/
def State.formUndo (s : State) (f : Forming) (code chip : Nat) : State :=
  if !(s.formPending f).isEmpty then s.setForm f
  else
    let s := f.taken.foldl (fun s c => s.dropRef f.tenant c (some f.key) none) s
    let s := s.setForm { f with taken := [], todo := [] }
    if s.awaits f.key then s else (s.dropForm f.key).complete f.key 0xD code chip

/-- A formation goes on as far as its circuits allow. [DEDUCED: log 89] -/
def State.formStep (s : State) (f : Forming) : State :=
  let lost := f.taken.any (fun c => (s.teamCkt f.tenant c).isNone)
  let f := if f.fail.isNone ∧ lost then { f with fail := some (6, 0) } else f
  let (s, f) := s.formStart f f.todo.length
  match f.fail with
  | some (code, chip) => s.formUndo { f with todo := [] } code chip
  | none =>
    if !f.todo.isEmpty || !(s.formPending f).isEmpty then s.setForm f
    else if s.foreignTile f then s.formUndo { f with fail := some (7, 0) } 7 0
    else s.formInstall f

/-- Every formation in progress goes on. -/
def State.formAll (s : State) : State :=
  (s.staging.forming.map (·.key)).foldl (fun s k => match s.staging.forming.find? (fun f => f.key == k) with
    | some f => s.formStep f
    | none => s) s

/-- The chips of a set, ascending (R268). -/
def chipSet (gmask : List Byte) (local_ : Nat) : List Nat :=
  ((List.range 2048).filter (fun g => maskBit gmask g)).flatMap (fun g => (maskList local_ 16).map (fun m => 16 * g + m))

/-- The two-byte ids of a tile list. -/
def tileList (b : List Byte) : List Nat := pairs16 b

def ascending : List Nat → Bool
  | a :: b :: r => decide (a < b) && ascending (b :: r)
  | _ => true

/-- The record lists every chip of the set; without one, only this chip is known (R270 code 0x04). -/
def State.knowsChips (s : State) (l : List Nat) : Bool :=
  match s.router.topo with
  | none => l.all (· == 0)
  | some t =>
    let masks := t.memberMasks
    l.all (fun c => bitAt (masks.getD (c / 16) 0) (c % 16))

/-- The checks of R270 before any circuit, in table order. [DEDUCED: log 89] -/
def State.formRefusal (s : State) (d : Desc) (gmask : List Byte) (chips : List Nat) : Option Nat :=
  let num := fieldLE d.bytes 0x11 1
  let mcIdx := fieldLE d.bytes 0x14 2
  if (s.team? d.tenant num).isSome || s.staging.forming.any (fun f => f.tenant == d.tenant && f.num.toNat == num) then some 1
  else if 65536 < chips.length * fieldLE d.bytes 0x28 2 then some 2
  else if !maskBit gmask (chipGroup s.ownChip.toNat) then some 3
  else if !s.knowsChips chips then some 4
  else if (SMap.find? s.router.mc mcIdx).any (fun e => e.tenant != d.tenant || e.team != num) ||
      s.staging.forming.any (fun f => f.mcIdx == mcIdx) then some 5
  else none

/-- Status and HIF_ERR of a failed read of host memory, if one failed. -/
def readFault (a b : HostRead) : Option Bool :=
  match a, b with
  | .translation, _ => some true
  | .error, _ => some false
  | .ok _, .translation => some true
  | .ok _, .error => some false
  | .ok _, .ok _ => none

/-- TEAM_FORM (09 R268 to R271): a descriptor of class 0x03 with OP 0. -/
def execTeamForm (key : DescKey) (gmask tlist : HostRead) (s : State) : Host.Outcome State Fault Refusal :=
  match s.readyDesc key 3 with
  | none => .next s
  | some d =>
    if fieldLE d.bytes 0x10 1 ≠ 0 then .next s
    else
      let s := (s.emit (.hostRead d.who (fieldLE d.bytes 0x18 8) 256)).emit (.hostRead d.who (fieldLE d.bytes 0x20 8) (2 * fieldLE d.bytes 0x28 2))
      match gmask, tlist with
      | .ok g, .ok l =>
        if g.length ≠ 256 ∨ l.length ≠ 2 * fieldLE d.bytes 0x28 2 then .fault .illFormed
        else
          let ids := tileList l
          let mask := fieldLE d.bytes 0x12 2
          let chips := chipSet g mask
          if !ascending ids || ids.any (fun i => decide (840 ≤ i)) then .next (s.complete key 4 0x20 0)
          else match s.formRefusal d g chips with
            | some code => .next (s.complete key 0xD code 0)
            | none =>
              let own := s.ownChip.toNat
              let relay := !chips.contains own
              let f : Forming := { key := key, tenant := d.tenant, num := BitVec.ofNat 8 (fieldLE d.bytes 0x11 1), relay := relay, chips := chips, tlist := ids, n := chips.length * ids.length, mcIdx := fieldLE d.bytes 0x14 2, lmask := BitVec.ofNat 16 mask, groups := g, share := fieldLE d.bytes 0x16 1, todo := if relay then [] else chips.filter (· != own), taken := [], fail := none }
              let s := s.setDesc key { d with busy := true }
              .next (({ s with staging := { s.staging with forming := s.staging.forming ++ [f] } }).formStep f)
      | a, b => .next ((s.hostReadErr ((readFault a b).getD false)).complete key 9 0 0)

/-- An instruction of the team is queued or running on a tile of this package (R270 code 0x08). -/
def State.teamBusy (s : State) (tm : Team) : Bool :=
  s.tiles.any (fun e => e.2.tenant == tm.tenant && e.2.tq.any (fun q => q.op.fused && q.d.toNat % 256 == tm.num.toNat))

/-- Members that are open on a step of a team that goes end with 0x28, and their ABORTs go out (R291, R292). -/
def State.endOpen (s : State) (tm : Team) : State :=
  (s.tiles.filter (fun e => e.2.tenant == tm.tenant && (e.2.openRun.map (fun r => r.2.team)) == some tm.num.toNat)).foldl
    (fun s e => s.memberFault e.1 0x28) s

/-- A team goes: its entry, its multicast entry, its references (R272). -/
def State.dissolve (s : State) (tm : Team) (key : Option DescKey) (due : Option Nat) : State :=
  let s := { s with staging := { s.staging with teams := s.staging.teams.filter (fun t => !(t.tenant == tm.tenant && t.num == tm.num)) } }
  let s := s.modRouter fun r => { r with mc := SMap.del r.mc tm.mcIdx }
  tm.ckts.foldl (fun s c => s.dropRef tm.tenant c key due) s

/-- TEAM_DISSOLVE (09 R272): a descriptor of class 0x03 with OP 1; it completes after the tear-downs. -/
def execTeamDissolve (key : DescKey) (s : State) : Host.Outcome State Fault Refusal :=
  .next (match s.readyDesc key 3 with
    | none => s
    | some d =>
      if fieldLE d.bytes 0x10 1 ≠ 1 then s
      else match s.team? d.tenant (fieldLE d.bytes 0x11 1) with
        | none => s.complete key 0xD 1 0
        | some tm =>
          if s.teamBusy tm then s.complete key 0xD 8 0
          else
            let s := (s.setDesc key { d with busy := true }).dissolve tm (some key) none
            if s.awaits key then s else s.complete key 0 0 0)

/-! ### The circuit descriptor (07 R228) -/

/-- Links on the minimal path that begins at a port: known within a group, in a torus, behind an own global link of an all-to-all shape,
and in a tree to the parent and to a child; elsewhere the record of this package gives a bound. [DEDUCED: log 87] -/
def State.linkCount (s : State) (dst : Nat) (port : Option Nat) : Nat :=
  match s.router.topo with
  | none => 0
  | some t =>
    let a := chipGroup t.chip
    let b := chipGroup dst
    let hop := b2n (chipMember t.chip != chipMember dst)
    if a = b then 1
    else if t.shape = 4 then
      (List.range 3).foldl (fun n d =>
        let x := (t.coord b d + t.dim d - t.coord a d) % t.dim d
        n + min x (t.dim d - x)) 0 + hop
    else
      let far := port.bind (fun p => if 16 ≤ p then some (eChip (t.entry p)) else none)
      if t.shape = 5 then
        (if far.any (fun c => chipGroup c == b) then 1 + hop else min 15 (2 + hop + (Config.freeWord s.free).toNat % 13))
      else match far with
        | some c => 1 + b2n (chipMember c != chipMember dst)
        | none => 2 + b2n (Config.freeBool s.free)

/-- VALUE of a circuit descriptor that ends OK. [DEDUCED: log 86] -/
def State.cktValue (s : State) (c : Ckt) : Nat := c.cid.toNat + fieldAt (s.linkCount c.dst.toNat c.out) 12 4

/-- CIRCUIT_SET_UP (07 R228): OP 0. -/
def execCircuitSetUp (key : DescKey) (s : State) : Host.Outcome State Fault Refusal :=
  .next (match s.readyDesc key 4 with
    | none => s
    | some d =>
      let dst := fieldLE d.bytes 0x14 2
      let bind := fieldLE d.bytes 0x12 1 % 2 == 1
      if fieldLE d.bytes 0x10 1 ≠ 0 then s
      else if dst = s.ownChip.toNat ∨ !(s.router.topo.any (fun t => t.lists dst)) then s.complete key 0xD 3 0
      else if bind && s.ownCkts.any (fun c => c.bind && c.tenant == d.tenant && c.dst.toNat == dst) then s.complete key 0xD 4 0
      else match s.startCkt d.tenant dst (fieldLE d.bytes 0x11 1) bind 0 (some key) with
        | (s, some (code, chip)) => s.complete key 0xD code chip
        | (s, none) => s.setDesc key { d with busy := true })

/-- CIRCUIT_TEAR_DOWN (07 R225, R228): OP 1. -/
def execCircuitTearDown (key : DescKey) (s : State) : Host.Outcome State Fault Refusal :=
  .next (match s.readyDesc key 4 with
    | none => s
    | some d =>
      if fieldLE d.bytes 0x10 1 ≠ 1 then s
      else match s.ownCkt (fieldLE d.bytes 0x16 2 % 4096) with
        | some c =>
          if c.tenant != d.tenant || !c.up || c.closing || c.broken || decide (4096 ≤ fieldLE d.bytes 0x16 2) then
            s.complete key 0xD 5 0
          else (s.setDesc key { d with busy := true }).tearDown c (some key) none
        | none => s.complete key 0xD 5 0)

/-! ### Answers to the circuit agent -/

/-- The end of a wait for a descriptor: a circuit descriptor completes, a dissolve completes once nothing is awaited. -/
def State.cktWaitEnd (s : State) (c : Ckt) (code chip : Nat) : State :=
  match c.key with
  | none => s
  | some k =>
    match s.desc? k with
    | none => s
    | some d =>
      if fieldLE d.bytes 1 1 = 4 then
        (if code = 0 then s.draw.complete k 0 0 (s.cktValue c) else s.complete k 0xD code chip)
      else if s.staging.forming.any (fun f => f.key == k) || s.awaits k then s
      else s.complete k 0 0 0

/-- A circuit of the owner ends: its entry is free, and whoever waits goes on. -/
def State.cktGone (s : State) (c : Ckt) (code chip : Nat) : State :=
  let s := s.dropCkt c.owner.toNat c.cid.toNat
  let s := if 0 < c.refs ∧ code ≠ 0 then
      { s with staging := { s.staging with forming := s.staging.forming.map (fun f =>
          if f.fail.isNone && f.tenant == c.tenant && f.taken.contains c.dst.toNat then { f with fail := some (6, chip) } else f) } }
    else s
  (s.cktWaitEnd c code chip).formAll

/-- The ACK of a CSU, of a CRL, or of an END (R223 to R225); after a Retry it is sent again (R203). -/
def State.cktReply (s : State) (cid status : Nat) (data : List Byte) : State :=
  match s.ownCkt cid with
  | none => s
  | some c =>
    if status = stRetry then s.setCkt { c with again := some (s.now + 256) }
    else if c.closing then
      match c.why with
      | some (code, chip) => s.cktGone c code chip
      | none => s.cktGone c (if status = stOK then 0 else 6) 0
    else if c.up then s
    else if status = stOK then
      let s := s.setCkt { c with up := true }
      if 0 < c.refs then s.formAll else s.cktWaitEnd { c with up := true } 0 0
    else
      let why := if status = stCircuit then (fieldLE data 0 2, fieldLE data 2 2) else (6, 0)
      (s.setCkt { c with closing := true, why := some why }).sendRelease c

/-- The circuit agent sends again what a Retry turned away: the CSU, the CRL, or the END (R203). -/
def State.cktResend (s : State) (cid : Nat) : State :=
  match s.ownCkt cid with
  | none => s
  | some c =>
    if !c.again.any (fun d => decide (d ≤ s.now)) then s
    else
      let c := { c with again := none }
      let s := s.setCkt c
      if c.closing then (if c.why.isSome then s.sendRelease c else s.sendEnd c)
      else match c.out with
        | some p => s.linkSend p (chanOf tCSU c.phase) ((c.packet tCSU false).onward c.phase) true
        | none => s

/-! ### Broken circuits (R226) -/

/-- A kind 0x04 record (17 R474). [DEDUCED: log 88] -/
def State.brokenRecord (s : State) (c : Ckt) : State :=
  let port := match c.out with
    | some p => if (s.port p).inService then (Config.freeByte s.free) else BitVec.ofNat 8 p
    | none => Config.freeByte s.free
  s.logErr { ErrRec.blank 4 0 s.lay.time with
    tenant := c.tenant.setWidth 8, data := leBytes 2 c.owner.toNat ++ leBytes 2 c.cid.toNat ++ [port] }

/-- Tiles with a chunk sent over a circuit and not yet CHECKED fault with 0x26 (09 R292). -/
def State.breakChunks (s : State) (c : Ckt) : State :=
  if c.refs = 0 then s
  else (s.tiles.map (·.1)).foldl (fun s n =>
    let t := s.tile n
    match t.openRun with
    | none => s
    | some (e, r) =>
      match s.team? t.tenant r.team with
      | none => s
      | some tm =>
        if t.tenant == c.tenant && r.flying.any (fun x => tm.destChip e.op x.1 == c.dst.toNat) then s.memberFault n 0x26 else s) s

/-- CIRCUIT_BROKEN_NOTICE (R226): the owner counts, records, sends END, and frees its entry. -/
def execCircuitBrokenNotice (chip : BitVec 16) (cid : BitVec 12) (s : State) : Host.Outcome State Fault Refusal :=
  .next (if !s.railsOn || chip != s.ownChip then s else
    let s := s.raise 1487
    match s.ownCkt cid.toNat with
    | none => s
    | some c =>
      let s := s.modRouter fun r => { r with cktBroken := satAdd r.cktBroken 1 0xFFFF }
      let s := ((s.brokenRecord c).draw).sendEnd c
      let waiting := c.closing || !c.up
      ((s.dropCkt c.owner.toNat c.cid.toNat).breakChunks c).cktGone c (if waiting then 6 else 0) 0)

/-- TEARDOWN_ACK_TIMEOUT (18 R488): 10 ms without the ACK of a tear-down that a tenant change began. -/
def execTeardownAckTimeout (chip : BitVec 16) (cid : BitVec 12) (s : State) : Host.Outcome State Fault Refusal :=
  .next (if !s.railsOn || chip != s.ownChip then s else
    match s.ownCkt cid.toNat with
    | none => s
    | some c =>
      if c.closing && c.due.any (fun d => decide (d ≤ s.now)) then (s.sendEnd c).cktGone c 0 0 else s)

/-- The ports of this router that serve the same next hop: the same member, group, direction or subtree.
[DEDUCED: log 90] -/
def Topo.sameHop (t : Topo) (p q : Nat) : Bool :=
  let a := t.entry p
  let b := t.entry q
  if p < 16 then decide (q < 16) && chipMember (localPeer t.chip p).1 == chipMember (localPeer t.chip q).1
  else decide (16 ≤ q) && eKind b != 0 &&
    (if t.shape = 4 then eDim a == eDim b && eDir a == eDir b
     else if t.shape = 5 then eUp a == eUp b && (eUp a || (eLo a == eLo b && eHi a == eHi b))
     else chipGroup (eChip a) == chipGroup (eChip b))

/-- A packet that was queued for a port: onto another port of the same next hop and phase, chosen under R210, or dropped as unreachable.
[DEDUCED: log 81, DEDUCED: log 90] -/
def State.reroute (s : State) (p vc : Nat) (q : Queued) : State :=
  let k := q.pkt
  let alts : List Way := if 9 ≤ vc then [] else match s.router.topo with
    | none => []
    | some t => ((List.range 32).filter (fun q => q != p && s.upPort t q && t.sameHop p q)).map (fun q => (chipMember t.chip, q, [q]))
  match s.pickPort k alts with
  | some r => s.enqueue r vc q
  | none => (s.unreachable k).orgLeaves q.org

/-- The circuits of a port that has left service (R226): those it fed are freed, and an END goes onward; those it carried
become Broken, and their owners are told. [DEDUCED: log 88] -/
def State.breakCkts (s : State) (p : Nat) : State :=
  s.router.ckts.foldl (fun s c =>
    if c.inPort = some p then (s.dropCkt c.owner.toNat c.cid.toNat).sendEnd c
    else if c.out = some p ∧ !c.broken then
      (s.setCkt { c with broken := true }).sendPkt .spine (
        { addr := c.owner.setWidth 64 <<< 44 ||| (2 <<< 40), ver := 1, typ := tMSGP, phase := 0, nonmin := false, ext := 0,
          plen := 4, tenant := 0, srcChip := s.ownChip, rid := BitVec.ofNat 16 spineRid, exts := [],
          payload := leBytes 2 c.owner.toNat ++ leBytes 2 c.cid.toNat, tail := .good })
    else s) s

/-- The packets of other ports' queues that are still in a receive buffer of this port. -/
def State.dropHeld (s : State) (p : Nat) : State :=
  let mine (k : Queued) : Bool := k.org.any (fun o => o.port == p)
  let n := s.ports.foldl (fun a e => let x : Port := e.2
    a + x.txq.toList.foldl (fun a q => a + q.countP mine) 0) 0
  let s := { s with ports := s.ports.map (fun e => let x : Port := e.2
    (e.1, { x with txq := x.txq.map (fun q => q.filter (fun k => !mine k)) })) }
  (List.range n).foldl (fun s _ => s.cntUnreach) s

/-- What a port that left service held is dealt with (R211, R226): what lies in its buffers is discarded and counted, what was queued for
it goes another way. [DEDUCED: log 81, DEDUCED: log 91] -/
def State.portLeft (s : State) (p : Nat) : State :=
  let x := s.port p
  if !x.leaving then s
  else
    let s := s.setPort p { x with leaving := false, txq := .replicate 12 [], replay := [], outq := [], rxq := [], rxPart := .replicate 12 [], rxUsed := .replicate 12 0, rewind := false }
    let s := (List.range (x.inside + x.rxq.length)).foldl (fun s _ => s.cntUnreach) s
    let s := s.dropHeld p
    let s := ((List.range 12).flatMap (fun vc => (x.txq.toList.getD vc []).map (fun k => (vc, k)))).foldl
      (fun s e => s.reroute p e.1 e.2) s
    s.breakCkts p

/-- PORT_LEAVE_SERVICE (R211). -/
def execPortLeaveService (p : PortNo) (s : State) : Host.Outcome State Fault Refusal :=
  .next (if !s.railsOn then s else s.portLeft p.val)

end Sys2Proof.Machine
end

