-- ==== Sys2Proof/Machine/Targets.lean ====
section
/-!
DEFINITION. Packets at their targets (07 R194, R202): requests and writes at a stack (04 R111), at a tile through the partition port
(05 R145, R151; 02 R62, R63) and in the control complex's SRAM (01 R25), and replies at their requesters.
-/

namespace Sys2Proof.Machine

/-- An access to the control complex's SRAM: tag 0 only (01 R25, R26). [DEDUCED: log 80] -/
def State.sramAccess (s : State) (k : Packet) : State :=
  let o := gaOffset k.addr
  if k.tenant ≠ 0 then s.cntRefused.answer k stRefused []
  else if k.typ == tRD || k.typ == tPUSH then s.readDone k (s.ccSram.readN o (Packet.len k))
  else if k.typ == tATM then
    let old := s.ccSram.readN o 8
    match atomNew k.payload (BitVec.ofNat 64 (leNat old)) with
    | none => s.answer k stMalformed []
    | some v => ({ s with ccSram := s.ccSram.writeN o (leBytes 8 v.toNat) }).answer k stOK old
  else ({ s with ccSram := s.ccSram.writeN o k.payload }).answer k stOK []

/-- The partition port, for packets from a link port or from the control complex (05 R145): a moving id answers acknowledged
requests with Retry and holds posted writes, in a buffer of 256 flits (05 R151); once that is full the rotation is abandoned
before anything more comes (R152). -/
def State.partPort (s : State) (k : Packet) : State :=
  let l := gaLtid k.addr
  let n := l / 70
  if s.barred n then s.bar n k
  else if s.moving l then
    (if k.hasReply then s.answer k stRetry []
     else match (s.part n).rot with
      | some r => if 256 ≤ r.heldFlits then s else s.setPart n { s.part n with rot := some { r with held := r.held ++ [k] } }
      | none => s)
  else match s.physOf l with
    | some t =>
      let p := s.part n
      let used := SMap.get 0 p.portUsed (t % 72)
      (s.setPart n { p with portUsed := SMap.set p.portUsed (t % 72) (used ||| 2 ^ meshChan k.typ) }).tileInbound t k
    | none => s.answer k stNoStack []

/-- A request or a write at its target; one that the mesh has brought to a tile port is served there. -/
def State.target (s : State) (at? : Option MPort) (k : Packet) : State :=
  if gaFault k.addr (k.typ == tRD || k.typ == tATM) || gaRangeFault k.addr (Packet.len k) then s.cntAddress.answer k stAddress []
  else match gaRegion k.addr with
    | 0 => s.stackAdmit (s.stackOfAddr k.addr) k
    | 1 => match at? with
      | some (.tile t) => s.tileInbound t k
      | _ => s.partPort k
    | _ => s.sramAccess k

/-- A packet of one type is served at its target, once the mesh has brought it there (05 R138) and its tail has been checked (R201). -/
def State.targetOf (s : State) (t : BitVec 4) (k : Packet) : Host.Outcome State Fault Refusal :=
  .next (if !s.railsOn || k.typ != t || !k.lengthOk || k.tail != .good then s else
    match s.arrive (fun d => !d.isSeam) k with
    | some (s, d) => s.target d k
    | none => s)

/-- RD (R194). [DESIGN CHOICE: log 77] -/
def execRd (pkt : Packet) (s : State) : Host.Outcome State Fault Refusal := s.targetOf tRD pkt
/-- WR (R194). [DESIGN CHOICE: log 77] -/
def execWr (pkt : Packet) (s : State) : Host.Outcome State Fault Refusal := s.targetOf tWR pkt
/-- WRP (R194). [DESIGN CHOICE: log 77] -/
def execWrp (pkt : Packet) (s : State) : Host.Outcome State Fault Refusal := s.targetOf tWRP pkt
/-- ATM (R194). [DESIGN CHOICE: log 77] -/
def execAtm (pkt : Packet) (s : State) : Host.Outcome State Fault Refusal := s.targetOf tATM pkt
/-- PUSH (R194): the bytes are read and sent on as one FWR. [DESIGN CHOICE: log 77] -/
def execPush (pkt : Packet) (s : State) : Host.Outcome State Fault Refusal := s.targetOf tPUSH pkt
/-- FWR (R194). [DESIGN CHOICE: log 77] -/
def execFwr (pkt : Packet) (s : State) : Host.Outcome State Fault Refusal := s.targetOf tFWR pkt

/-- A reply at the agent that its RID names: a tile's port, the engines of the control complex, or the agent of a circuit.
[DEDUCED: log 28] -/
def State.replyAt (s : State) (k : Packet) : State :=
  let rid := k.replyRid.toNat
  if rid / 64 < 840 then
    match s.physOf (rid / 64) with
    | some n => if k.typ == tACK then s.slotReply n k else s.tileReply n k
    | none => s
  else if isCcRid rid then s.ccReply k.replyRid k.status
  else if 850 * 64 ≤ rid ∧ rid < 850 * 64 + 4096 then s.cktReply (rid - 850 * 64) k.status k.payload
  else s

/-- A reply comes, once the mesh has brought it. -/
def State.replyComes (s : State) (k : Packet) : State :=
  if !s.railsOn then s else
  match s.arrive (fun d => !d.isSeam) k with
  | some (s, _) => s.replyAt k
  | none => s

/-- RETRY_RESEND (R203): 256 fc after a Retry the request goes out again, without a limit. -/
def execRetryResend (a : RetryAgent) (tag : BitVec 6) (write : Bool) (s : State) : Host.Outcome State Fault Refusal :=
  .next (if !s.railsOn then s else match a with
    | .tile t => s.tileResend t.val tag write
    | .spine unit =>
      let rid := unit.toNat * 64 + tag.toNat
      if isCcRid rid then s.ccResend (BitVec.ofNat 16 rid) else s.cktResend (rid - 850 * 64))

/-- RDR (R202). [DESIGN CHOICE: log 77] -/
def execRdr (pkt : Packet) (s : State) : Host.Outcome State Fault Refusal :=
  .next (if pkt.typ != tRDR then s else s.replyComes pkt)

/-- ACK (R202). [DESIGN CHOICE: log 77] -/
def execAck (pkt : Packet) (s : State) : Host.Outcome State Fault Refusal :=
  .next (if pkt.typ != tACK then s else s.replyComes pkt)

end Sys2Proof.Machine
end

