-- ==== Sys2Proof/Machine/Links.lean ====
section
/-!
DEFINITION. Training of a link port (spec 08 R243 to R250, R252, R255, R265 to R267) and the record's effect on the ports (07 R190,
R191; 01 R28, R29).
-/

namespace Sys2Proof.Machine

/-! ### Training sequences (R244) -/

/-- The capability set alone. -/
def tsKey (t : TrainSeq) : TrainSeq := { t with typ := 0, lane := 0, check := 0 }

/-- A counter of one transmit lane goes up. [DEDUCED: log 93] -/
def bumpLane (v : Vector Nat 8) (k : Nat) : Vector Nat 8 := v.setIfInBounds k (v.toList.getD k 0 + 1)

/-- Every transmit lane of a mask has counted eight. [DEDUCED: log 93] -/
def eightOn (v : Vector Nat 8) (m : BitVec 8) : Bool := (maskList m.toNat 8).all (fun k => decide (8 ≤ v.toList.getD k 0))

def goodLanes (m : BitVec 8) : Nat := (maskList m.toNat 8).length

/-! ### Holding (R246, R247) -/

/-- The record marks the port unused, or leads it to an absent member. [DEDUCED: log 94] -/
def State.unusedPort (s : State) (p : Nat) : Bool :=
  match s.router.topo with
  | some t => (t.peer p).isNone
  | none => false

/-- The first cause of R246 that holds; 0 for none. [DEDUCED: log 94] -/
def State.holdCauseOf (s : State) (p : Nat) : Nat :=
  let x := s.port p
  match s.router.topo with
  | none => 1
  | some t =>
    match t.peer p with
    | none => if s.offline p then 7 else 8
    | some want =>
      if (x.peerChip.toNat, x.peerPort.toNat) ≠ want then 2
      else if x.peerChip = s.ownChip then 3
      else match x.lastTs with
        | some ts =>
          if 2 < ts.ver.toNat % 16 ∨ ts.ver.toNat / 16 < 2 then 4
          else if ts.rate.toNat % 8 < 2 then 5
          else if ts.flags.getLsbD 0 then 6
          else if s.offline p then 7 else 0
        | none => if s.offline p then 7 else 0

/-- The port is held for a cause; 0x2 and 0x3 are reported as miswired. -/
def State.setHold (s : State) (p c : Nat) : State :=
  let mis := c == 2 || c == 3
  let was := s.router.miswired.getLsbD p
  let s := (s.setPort p { s.port p with holdCause := BitVec.ofNat 4 c }).miswire p mis
  let s := if mis && !was then s.report 2 p else s
  let s := if (s.port p).stage = .hold then s else s.toStage p .hold
  s.sendTs p tyTSB 2 (c != 6)

/-- A rate step begins: RATE sequences naming the new rate (R248). -/
def State.toAdapt (s : State) (p step : Nat) : State :=
  let x := { s.port p with rateStep := step, adaptSub := 0, rateGot := .replicate 8 0, swept := 0, checked := 0, holdCause := 0 }
  (((s.setPort p x).miswire p false).toStage p .adapt).sendTs p tyRATE step false

/-- The cause of a held port is checked again (R247). A port held without an exchange starts one. -/
def State.recheckHold (s : State) (p : Nat) : State :=
  let x := s.port p
  if x.stage != .hold then s
  else
    let c := s.holdCauseOf p
    if x.usable = 0 then (if c = 7 ∨ c = 8 then s.setHold p c else s.toAlign p)
    else if c ≠ 0 then s.setHold p c
    else s.toAdapt p 1

/-! ### Align (R245) -/

/-- A port that starts training: one that the record marks unused is held at once (R246 cause 0x8).
[DEDUCED: log 95] -/
def State.startTraining (s : State) (p : Nat) : State := if s.unusedPort p then s.setHold p (if s.offline p then 7 else 8) else s.toAlign p

/-- LINK_RELEASE (R245; 16 R447): from step 6 of the start on a port that is not kept back leaves Down. -/
def execLinkRelease (p : PortNo) (s : State) : Host.Outcome State Fault Refusal :=
  let x := s.port p.val
  .next (if !s.railsOn || x.state != .down || x.held || !(s.boot.ready || decide (6 ≤ s.boot.step)) then s
    else (s.setPort p.val { x with anew := true, badLanes := 0, spliceBad := 0 }).startTraining p.val)

/-- Receive lanes of a mask carry distinct transmit lanes. -/
def mapOk (map : BitVec 32) (rx : BitVec 8) : Bool := decide (((maskList rx.toNat 8).map (laneTx map)).Nodup)

/-- The CHIP and PORT that more lanes name than any other; none on a tie (R245). -/
def mostNamed (l : List (BitVec 16 × Byte)) : Option (BitVec 16 × Byte) :=
  l.find? (fun n => l.all (fun m => m == n || decide (l.countP (· == m) < l.countP (· == n))))

/-- The receive lanes with symbol lock, with what each hears and whether it is inverted (R233, R245). -/
def lanesHeard (plus : BitVec 8) (lanes : List LaneRx) : List (Nat × TrainSeq × Bool) :=
  (lanes.mapIdx (fun l r => (l, laneHeard (plus.getLsbD l) r))).filterMap (fun e => e.2.map (fun h => (e.1, h)))

/-- The usable ones among them: they name the CHIP and PORT that most name. -/
def lanesUsable (h : List (Nat × TrainSeq × Bool)) : List (Nat × TrainSeq × Bool) :=
  h.filter (fun e => some (e.2.1.chip, e.2.1.port) == mostNamed (h.map (fun e => (e.2.1.chip, e.2.1.port))))

/-- The lane map of lanes heard (R245, R265). -/
def mapHeard (h : List (Nat × TrainSeq × Bool)) : BitVec 32 :=
  BitVec.ofNat 32 (h.foldl (fun a e => a + (e.2.1.lane.toNat % 8 + 8 * b2n e.2.2) * 16 ^ e.1) 0)

/-- The rate code of the tests, 3 acting as 2 (LNK_CTL_p.RATE). -/
def State.testRate (s : State) (p : Nat) : Nat := min 2 (bits (s.lnkCtl p) 10 9)

/-- A port that trains against itself (R264) has aligned: at rate 0 that is all, at a higher rate every lane adapts. -/
def State.selfAligned (s : State) (p : Nat) (u : BitVec 8) (map : BitVec 32) : State :=
  let x := { s.port p with usable := u, laneMap := map, rxGood := txMask map u }
  let r := s.testRate p
  s.setPort p (if r = 0 then { x with under := .loopback }
    else { x with under := .adapt, adaptSub := 1, rateStep := r, rate := r, swept := 0, checked := 0, stored := false })

/-- ALIGN_DONE (R233, R245): what the eight receive lanes have brought. [DEDUCED: log 191] -/
def execAlignDone (p : PortNo) (plus : BitVec 8) (lanes : List LaneRx) (s : State) : Host.Outcome State Fault Refusal :=
  let x := s.port p.val
  let h := lanesUsable (lanesHeard plus lanes)
  let usable : BitVec 8 := BitVec.ofNat 8 (listMask (h.map (·.1)))
  let map := mapHeard h
  let n := h.length
  let self := x.state == .loopback && x.under == .align
  let u := usable &&& ~~~x.badLanes
  if lanes.length ≠ 8 then .fault .illFormed
  else .next (if !s.railsOn || !(x.stage == .align || self) || !mapOk map usable then s
    else if n = 8 ∨ (4 ≤ n ∧ x.sinceTrain + 2 * fcPerMs ≤ s.now) then
      (if self then s.selfAligned p.val usable map
       else if goodLanes u < 4 then s.portFail p.val
       else (s.setPort p.val { x with usable := u, laneMap := map, tsaCount := .replicate 8 0, tsbGot := .replicate 8 0,
                                      seenPeer := (h.head?).map (fun e => (e.2.1.chip, e.2.1.port)),
                                      lastTs := none }).toStage p.val .exchange |>.sendTs p.val tyTSA 2 false)
    else if 1 ≤ n ∧ n < 4 ∧ x.sinceTrain + 10 * fcPerMs ≤ s.now ∧ !self then s.portFail p.val
    else s)

/-! ### The maquette (R265 to R267) -/

def codesAt (b : List Byte) (o : Nat) : Vector (BitVec 5) 8 := Vector.ofFn (fun i => (b.getD (o + i.val) 0).setWidth 5)

/-- The entry that the port would write now. -/
def State.maqEntry (s : State) (p : Nat) : List Byte :=
  let x := s.port p
  let spliced := b2n (decide (goodLanes x.rxGood < 8))
  let b := [BitVec.ofNat 8 (1 + 2 * spliced), BitVec.ofNat 8 p] ++ leBytes 2 x.peerChip.toNat ++ [x.peerPort.setWidth 8, x.rxGood, x.txGood, 0] ++
    leBytes 4 x.laneMap.toNat ++ [0, 0, 0, 0] ++ x.eq1.toList.map (·.setWidth 8) ++ x.eq2.toList.map (·.setWidth 8) ++
    x.emm.toList ++ leBytes 8 s.lay.time.toNat ++ List.replicate 12 0
  b ++ leBytes 4 (crc32c b).toNat

/-- The record of 2,064 bytes: header and 32 entries; an entry that is not valid is zero. -/
def State.maqRecord (s : State) : List Byte :=
  let h : List Byte := 1 :: List.replicate 11 0
  h ++ leBytes 4 (crc32c h).toNat ++ (List.range 32).flatMap (fun p => ((s.port p).maq).getD (List.replicate 64 0))

/-- The entry's part that R267 compares: the peer, the masks, the map and the codes. -/
def maqSame (a b : List Byte) : Bool := (a.take 0x20).drop 2 == (b.take 0x20).drop 2

/-- R267: an entry that differs is written anew, and the record goes to the journal. -/
def State.maqSave (s : State) (p : Nat) : State :=
  let e := s.maqEntry p
  if ((s.port p).maq).any (fun o => maqSame o e) then s
  else
    let s := s.setPort p { s.port p with maq := some e }
    s.journal 3 s.maqRecord

/-- R266: the entry's peer and map are those found, the peer says MAQ, and the maquette is allowed. -/
def State.maqUsable (s : State) (p : Nat) (ts : TrainSeq) : Bool :=
  let x := s.port p
  bitAt s.lnkCfg 8 && !s.fullAdapt p && ts.flags.getLsbD 1 && x.maq.any (fun e =>
    fieldLE e 2 2 == ts.chip.toNat && fieldLE e 4 1 == ts.port.toNat && fieldLE e 8 4 == x.laneMap.toNat)

/-! ### Exchange (R246, R248) -/

/-- A change of peer: sequence numbers and credits start afresh, and what the replay buffer held is counted as unreachable
(R250, R252, R259). [DEDUCED: log 95] -/
def State.newPeer (s : State) (p : Nat) : State :=
  let x := s.port p
  let lost := x.inside
  let s := s.setPort p { x with anew := true, replay := [], outq := [], rewind := false }
  if x.anew then s else (List.range lost).foldl (fun s _ => s.cntUnreach) s

/-- The first exchange of a training ends: the peer's set is recorded and checked. -/
def State.exchanged (s : State) (p : Nat) (ts : TrainSeq) : State :=
  let x := s.port p
  let port : BitVec 5 := ts.port.setWidth 5
  let same := x.peerChip == ts.chip && x.peerPort == port
  let s := if same || x.anew then s else s.newPeer p
  let x := s.port p
  let retrain := x.state == .retrain && !x.anew
  let use := if retrain then !s.fullAdapt p else s.maqUsable p ts
  let e := x.maq.getD []
  let x := { x with peerChip := ts.chip, peerPort := port, peerVer := BitVec.ofNat 4 (ts.ver.toNat / 16), peerRate := ts.rate.setWidth 3, peerHold := ts.flags.getLsbD 0, peerMaq := ts.flags.getLsbD 1, txGood := ts.good, stored := use, maqUsed := use && !retrain, eq1 := if use && !retrain then codesAt e 0x10 else x.eq1, eq2 := if use && !retrain then codesAt e 0x18 else x.eq2 }
  let s := s.setPort p x
  let c := s.holdCauseOf p
  if c = 0 then s.toAdapt p 1 else s.setHold p c

/-- The second exchange, at code 1, ends with the peer's new GOOD mask. -/
def State.exchanged1 (s : State) (p : Nat) (ts : TrainSeq) : State :=
  let s := s.setPort p { s.port p with txGood := ts.good }
  if goodLanes ts.good < 4 then s.portFail p else s.toAdapt p 2

/-- The exchange ends once eight identical TSA and eight TSB have come on every usable lane, and 16 TSB have been sent. -/
def State.exchangeEnd (s : State) (p : Nat) : State :=
  let x := s.port p
  match x.lastTs, x.tsbAt with
  | some ts, some a =>
    if !(eightOn x.tsaCount x.usableTx && eightOn x.tsbGot x.usableTx) || decide (seqsSent s.now a x.rate < 16) then s
    else if x.stage = .exchange then s.exchanged p ts
    else s.exchanged1 p ts
  | _, _ => s

/-- Stages in which capability sequences are exchanged. -/
def Port.exchanging (x : Port) : Bool := x.stage == .exchange || (x.stage == .adapt && x.adaptSub == 2)

/-- A held port hears its peer's capability set (R247). -/
def State.heldTs (s : State) (p : Nat) (ts : TrainSeq) : State :=
  let x := s.port p
  if x.usable = 0 then s
  else
    let x := { x with lastTs := some (tsKey ts), peerChip := ts.chip, peerPort := ts.port.setWidth 5, peerVer := BitVec.ofNat 4 (ts.ver.toNat / 16), peerRate := ts.rate.setWidth 3, peerHold := ts.flags.getLsbD 0, peerMaq := ts.flags.getLsbD 1 }
    (s.setPort p x).recheckHold p

/-- TSA (R246). -/
def execTsa (p : PortNo) (ts : TrainSeq) (s : State) : Host.Outcome State Fault Refusal :=
  let x := s.port p.val
  let k := ts.lane.toNat
  .next (if !s.railsOn || !tsValid ts 0x5A then s
    else if x.stage = .hold then s.heldTs p.val ts
    else if !x.exchanging || !x.usableTx.getLsbD k then s
    else
      let same := x.lastTs == some (tsKey ts)
      let cnt := bumpLane (if same then x.tsaCount else .replicate 8 0) k
      let done := eightOn cnt x.usableTx && !eightOn x.tsaCount x.usableTx
      let s := s.setPort p.val { x with lastTs := some (tsKey ts), tsaCount := cnt }
      let s := if done && x.tsbAt.isNone then (s.setPort p.val { s.port p.val with tsbAt := some s.now }).sendTs p.val tyTSB 2 false else s
      s.exchangeEnd p.val)

/-- TSB (R246). -/
def execTsb (p : PortNo) (ts : TrainSeq) (s : State) : Host.Outcome State Fault Refusal :=
  let x := s.port p.val
  let k := ts.lane.toNat
  .next (if !s.railsOn || !tsValid ts 0xA5 then s
    else if x.stage = .hold then s.heldTs p.val ts
    else if !x.exchanging || !x.usableTx.getLsbD k then s
    else (s.setPort p.val { x with tsbGot := bumpLane x.tsbGot k }).exchangeEnd p.val)

/-! ### Rate steps (R248, R249) -/

/-- The rate changes once eight RATE have come on every usable lane, on the step to code 2 once 32 have been sent as well; there the
transmitters go on with a compensation round and null frames with RDY = 0. -/
def State.rateGo (s : State) (p : Nat) : State :=
  let x := s.port p
  if x.stage != .adapt || x.adaptSub != 0 || !eightOn x.rateGot x.usableTx ||
      (x.rateStep == 2 && decide (seqsSent s.now x.sinceTrain x.rate < 32)) then s
  else
    let eq := if x.stored then (if x.rateStep = 1 then x.eq1 else x.eq2) else x.eq
    let s := s.setPort p { x with adaptSub := 1, eq := eq, rate := x.rateStep }
    if x.rateStep = 2 then (s.sendCmp p).sendFrame p [] x.txSeq (List.replicate 12 0) false else s

/-- RATE (R248): a sequence naming the step's rate on a usable lane. One that comes before the exchange has ended here ends it, where 16
TSB have been sent since. -/
def execRate (p : PortNo) (ts : TrainSeq) (s : State) : Host.Outcome State Fault Refusal :=
  .next (if !s.railsOn || !tsValid ts tyRATE then s
    else
      let s := if (s.port p.val).exchanging then s.exchangeEnd p.val else s
      let x := s.port p.val
      let k := ts.lane.toNat
      if x.stage != .adapt || x.adaptSub != 0 || !x.usableTx.getLsbD k || ts.rate.toNat != x.rateStep then s
      else (s.setPort p.val { x with rateGot := bumpLane x.rateGot k }).rateGo p.val)

/-- Every usable lane's adaptation has ended: lanes below EMM_MIN are bad; fewer than four good lanes fail the port. -/
def State.adapted (s : State) (p : Nat) : State :=
  let x := s.port p
  let good : BitVec 8 := BitVec.ofNat 8 (listMask ((maskList x.usable.toNat 8).filter (fun l =>
    decide (s.emmMin ≤ (x.emm.toList.getD l 0).toNat))))
  let x := { x with rxGood := txMask x.laneMap good, usable := good, eq1 := if x.rateStep = 1 then x.eq else x.eq1, eq2 := if x.rateStep = 1 then x.eq2 else x.eq }
  let s := s.setPort p x
  if x.state = .loopback then s.setPort p { x with under := .loopback }
  else if goodLanes good < 4 then s.portFail p
  else if x.rateStep = 1 then
    (s.setPort p { x with adaptSub := 2, tsaCount := .replicate 8 0, tsbGot := .replicate 8 0, lastTs := none, tsbAt := none }).sendTs p tyTSA 2
      false
  else (s.setPort p { x with aligned := false, goodTrail := 0, blockLock := 0 }).toStage p .lock

/-- A lane's adaptation has shown its margins: a stored code is checked once, and a lane that falls short of EMM_MIN is swept; a sweep
keeps the best of the 32 codes (R249, R252, R266). -/
def State.laneSwept (s : State) (p l : Nat) (codes : List Sweep) : State :=
  let x := s.port p
  let bit : BitVec 8 := BitVec.ofNat 8 (2 ^ l)
  let check := x.stored && !x.checked.getLsbD l
  if codes.length ≠ (if check then 1 else 32) then s
  else match bestCode 0 codes with
    | none => s
    | some (code, m) =>
      let pass := decide (s.emmMin ≤ m)
      let x := { x with emm := x.emm.setIfInBounds l (BitVec.ofNat 8 m), eq := if check then x.eq else x.eq.setIfInBounds l (BitVec.ofNat 5 code), swept := if check && !pass then x.swept else x.swept ||| bit, checked := if check then x.checked ||| bit else x.checked }
      let s := s.setPort p x
      if x.usable &&& ~~~x.swept = 0 then s.adapted p else s

/-- ADAPT_SWEEP_DONE (R249; R252, R264, R266). -/
def execAdaptSweepDone (p : PortNo) (lane : Fin 8) (codes : List Sweep) (s : State) : Host.Outcome State Fault Refusal :=
  .next (if !s.railsOn then s
    else
      let s := s.rateGo p.val
      let x := s.port p.val
      let self := x.state == .loopback && x.under == .adapt
      if !(x.stage == .adapt || self) || x.adaptSub != 1 || !x.usable.getLsbD lane.val || x.swept.getLsbD lane.val then s
      else s.laneSwept p.val lane.val codes)

/-- A pass through Lock without success: training starts again with the remaining lanes; three passes fail the port (R250). -/
def State.lockFail (s : State) (p : Nat) (late : BitVec 8) : State :=
  let x := s.port p
  let left := x.usable &&& ~~~late
  let s := s.setPort p { x with lockPasses := x.lockPasses + 1, badLanes := ~~~left }
  if 3 ≤ x.lockPasses + 1 ∨ goodLanes left < 4 then s.portFail p else s.toAlign p

/-- TRAINING_TIMEOUT (R246, R248, R250): Exchange 1 ms, a rate step 2 ms, Lock 200 µs. -/
def execTrainingTimeout (p : PortNo) (s : State) : Host.Outcome State Fault Refusal :=
  let x := s.port p.val
  let since (d : Nat) : Bool := decide (x.sinceTrain + d ≤ s.now)
  .next (if !s.railsOn then s else match x.stage with
    | .exchange => if since fcPerMs then s.toAlign p.val else s
    | .adapt =>
      if !since (2 * fcPerMs) then s
      else
        let one := x.rateStep == 1
        let a := (if one then x.attempts else x.attempts2) + 1
        let s := s.setPort p.val { x with attempts := if one then a else x.attempts, attempts2 := if one then x.attempts2 else a }
        if 3 ≤ a then s.portFail p.val else s.toAlign p.val
    | .lock => if since (200 * fcPerUs) then s.lockFail p.val 0 else s
    | _ => s)

/-- FAILED_RESTART (R243). -/
def execFailedRestart (p : PortNo) (s : State) : Host.Outcome State Fault Refusal :=
  let x := s.port p.val
  .next (if !s.railsOn || x.state != .failed || decide (s.now < x.sinceTrain + fcPerS) then s else s.startTraining p.val)

/-- A receive lane is in use: good, and, where the direction is spliced, one of the four lowest (R255). -/
def Port.laneUsed (x : Port) (l : Nat) : Bool := x.rxGood.getLsbD (laneTx x.laneMap l) && (lanesOf x.rxGood).contains (laneTx x.laneMap l)

/-- The scramblers of the receiver are loaded, and the next data round begins a frame (R234, R236). -/
def Port.reload (x : Port) : Port := { x with rxScr := Vector.ofFn (fun l => scrLoad l.val), rxPos := 0 }

/-- A compensation round in Lock (R235, R250): once every usable lane has block lock and the round's block, the lanes are aligned; a lane
whose block comes more than 16 ns after the earliest is bad. -/
def State.cmpLock (s : State) (p : Nat) (lanes : List CmpLane) : State :=
  let x := s.port p
  let l := (lanes.mapIdx (fun i c => (i, c)))
  let lock := x.blockLock ||| BitVec.ofNat 8 (listMask ((l.filter (fun e => e.2.valid == BitVec.allOnes 64)).map (·.1)))
  let s := s.setPort p { x with blockLock := lock }
  let use := l.filter (fun e => x.usable.getLsbD e.1)
  if !use.all (fun e => lock.getLsbD e.1 && isCmp e.2.bytes) then s
  else
    let late := use.filter (fun e => use.any (fun f => decide (f.2.time + 16000 < e.2.time)))
    if late.isEmpty then s.setPort p { (s.port p).reload with aligned := true }
    else s.lockFail p (BitVec.ofNat 8 (listMask (late.map (·.1))))

/-- CMP (R234, R236, R250): in operation it loads the scramblers again. -/
def execCmp (p : PortNo) (lanes : List CmpLane) (s : State) : Host.Outcome State Fault Refusal :=
  let x := s.port p.val
  if lanes.length ≠ 8 then .fault .illFormed
  else .next (if !s.railsOn then s
    else if x.stage = .lock then s.cmpLock p.val lanes
    else if x.live && (lanes.mapIdx (fun i c => !x.laneUsed i || isCmp c.bytes)).all id then s.setPort p.val x.reload
    else s)

/-! ### Into operation (R250, R252 to R255) -/

/-- Flits up to an acknowledged sequence number leave the replay buffer. -/
def Port.ackTo (x : Port) (now : Nat) (ack : BitVec 11) : Port :=
  let i := x.replay.findIdx (fun (e : Sent) => e.seq == ack)
  if i < x.replay.length then { x with replay := x.replay.drop (i + 1), ackAt := now } else x

/-- Resends what the replay buffer holds, or records it while a pause holds the transmitter (R240, R260). -/
def State.resend (s : State) (p : Nat) : State :=
  let x := s.port p
  if x.replay.isEmpty then s
  else if x.paused then s.setPort p { x with rewind := true }
  else s.sendAgain p x.replay

/-- The ECHO of R261. -/
def State.sendEcho (s : State) (p : Nat) : State :=
  (s.setPort p { s.port p with echoAt := s.now }).ctlSend p 0x10 [(8, leBytes 8 s.lay.time.toNat)]

/-- The port enters Up or Spliced. -/
def State.enterUp (s : State) (p : Nat) : State :=
  let s := s.portLeft p
  let x := s.port p
  let afresh := x.anew
  let x := match x.lastTs with
    | some ts => if ts.flags.getLsbD 2 && !afresh then x.ackTo s.now (ts.ack.setWidth 11) else x
    | none => x
  let x := if afresh then { x with txSeq := 0, rxSeq := 0, replay := [], outq := [], credits := fullCredits p, rxUsed := .replicate 12 0, rxPart := .replicate 12 [], credRet := .replicate 12 0, credSeen := [], rewind := false } else x
  let bad := if goodLanes x.rxGood < 8 then ~~~(rxMask x.laneMap x.rxGood) else 0
  let x := { x with inService := true, anew := false, nakSent := none, waitResend := false, ackAt := s.now, attempts := 0, attempts2 := 0, lockPasses := 0, goodTrail := 0, badLanes := bad, spliceBad := bad }
  let s := (s.setPort p x).portState p (if goodLanes x.rxGood < 8 ∨ goodLanes x.txGood < 8 then .spliced else .up)
  let s := if s.fullAdapt p then s.setReg (offLnkCtl p) lnkCtlReset (s.lnkCtl p - 4) else s
  let s := if afresh then s else s.resend p
  ((s.sendEcho p).maqSave p).pump p

/-! ### The record and the ports (07 R190, R191; R247) -/

/-- A new record takes effect on a port. -/
def State.recheckPort (s : State) (p : Nat) : State :=
  let x := s.port p
  if x.state == .down || x.state == .test || x.state == .loopback || x.state == .window then s
  else if s.unusedPort p then (if x.inService then (s.leaveService p).portState p .hold else s).setHold p (if s.offline p then 7 else 8)
  else s.recheckHold p

/-- A record replaces the one in force, in one step (R191). -/
def State.activate (s : State) (t : Topo) : State :=
  let s := s.modRouter fun r => { r with topo := some t, nextTopos := r.nextTopos.filter (fun u => u.epoch != t.epoch) }
  (List.range 32).foldl (fun s p => s.recheckPort p) s

/-- A record is checked; a rejection is recorded and reported; an accepted one takes effect at ACT_LT, or at once (R190, R191).
The answer says whether it was accepted. [DEDUCED: log 78] -/
def State.topoSubmit (s : State) (rec_ : List Byte) : State × Bool :=
  let t : Topo := { bytes := rec_, actLt := BitVec.ofNat 64 (fieldLE rec_ 0x18 8) }
  let c := s.topoReject t
  if c ≠ 0 then (((s.modRouter fun r => { r with reject := BitVec.ofNat 8 c }).raise 1486).report 1 c, false)
  else
    let s := s.raise 1486
    if t.actLt = 0 ∨ t.actLt.ule s.lay.time then (s.activate t, true)
    else match s.armPkg t.actLt .topology with
      | (s, true) => (s.modRouter fun r => { r with nextTopos := r.nextTopos ++ [t] }, true)
      | (s, false) => (s, true)

/-- TOPOLOGY_ACCEPT (R190, R191). -/
def execTopologyAccept (rec_ : List Byte) (s : State) : Host.Outcome State Fault Refusal :=
  if rec_.length ≠ 4928 then .fault .illFormed
  else .next (if s.railsOn then (s.topoSubmit rec_).1 else s)

end Sys2Proof.Machine
end

