-- ==== Sys2Proof/Machine/LinkRun.lean ====
section
/-!
DEFINITION. A link in operation (spec 08): frames with their retries and credits (R237 to R242), retrains (R251 to R253), pauses and
windows (R258 to R260), the control packets ECHO and LANE_QUERY (R261), and LNK_CTL_p with its tests (R262 to R264).
-/

namespace Sys2Proof.Machine

/-! ### Retry (R239, R240) -/

/-- NAK with the last good flit, in one frame; the eighth in a row for one ACK value retrains the link. [DEDUCED: log 98] -/
def State.sendNak (s : State) (p : Nat) : State :=
  let x := s.port p
  let ack := x.rxSeq - 1
  let n := match x.nakSent with
    | some (v, n) => if v = ack then n + 1 else 1
    | none => 1
  let s := (s.setPort p { x with nakSent := some (ack, n), nakAt := s.now, waitResend := true, nakDue := true }).nullFrame p true
  if 8 ≤ n then s.beginRetrain p true else s

/-- A failure under R239 counts once. [DEDUCED: log 98] -/
def State.crcFail (s : State) (p : Nat) : State :=
  let x := s.port p
  s.setPort p { x with crcErr := satAdd x.crcErr 1 0xFFFF }

/-- The packet that a channel's flits now make up goes to the router. -/
def State.assemble (s : State) (p vc : Nat) : State :=
  let x := s.port p
  match packetOf (x.rxPart.toList.getD vc []) with
  | none => s
  | some k => (s.setPort p { x with rxPart := x.rxPart.setIfInBounds vc [], rxq := x.rxq ++ [(x.rxNo, vc, k)], rxNo := x.rxNo + 1 }).emit
      (.toRouter p k)

/-- A good flit in its turn takes a place of its channel's buffer. A flit beyond the buffer is a link error, and is not taken (07
R205). -/
def State.flitIn (s : State) (p vc : Nat) (bytes : List Byte) : State :=
  let x := s.port p
  let used := x.rxUsed.toList.getD vc 0 + 1
  if bufFlits p vc < used then s.beginRetrain p true
  else (s.setPort p { x with rxSeq := x.rxSeq + 1, waitResend := false, nakSent := none, rxUsed := x.rxUsed.setIfInBounds vc used,
                             rxPart := x.rxPart.setIfInBounds vc (x.rxPart.toList.getD vc [] ++ bytes) }).assemble p vc

/-- The flits of a frame in order (R238, R239). While a resend is awaited, flits after the expected one are discarded; the expected one,
with a bad CRC, fails anew. -/
def State.flitsIn (s : State) (p : Nat) (seq : BitVec 11) : List LinkFlit → State
  | [] => s
  | f :: r =>
    if !(s.port p).live then s
    else if f.vc = 15 then (if f.bytes.all (· == 0) && f.crcOk then s.flitsIn p seq r else s.beginRetrain p true)
    else if 12 ≤ f.vc.toNat then s.beginRetrain p true
    else if !f.crcOk then
      (if (s.port p).waitResend && seq != (s.port p).rxSeq then s.flitsIn p (seq + 1) r else (s.crcFail p).sendNak p)
    else if seq ≠ (s.port p).rxSeq then s.flitsIn p (seq + 1) r
    else (s.flitIn p f.vc.toNat f.bytes).flitsIn p (seq + 1) r

/-- Returned credits, counted once for each frame (R242): a frame of null flits only has no number, and one that lies behind the next
flit has been counted. A channel above its buffer size is a link error. [DESIGN CHOICE: log 194] -/
def State.creditsIn (s : State) (p : Nat) (f : LinkFrame) : State :=
  let x := s.port p
  let numbered := f.flits.any (fun g => g.vc != 15)
  let ahead (q : BitVec 11) : Bool := decide ((q - x.rxSeq).toNat < 1024)
  if numbered && (!ahead f.seq || x.credSeen.contains f.seq) then s
  else
    let l := (List.range 12).map (fun vc => x.credits.toList.getD vc 0 + f.cred.getD vc 0)
    if (List.range 12).any (fun vc => decide (bufFlits p vc < l.getD vc 0)) then s.beginRetrain p true
    else s.setPort p { x with credits := Vector.ofFn (fun i => l.getD i.val 0),
                              credSeen := x.credSeen.filter ahead ++ (if numbered then [f.seq] else []) }

/-- A frame whose trailer is good: ACK, NAK, credits, flits, in this order; what has come is acknowledged. -/
def State.frameIn (s : State) (p : Nat) (f : LinkFrame) : State :=
  let x := (s.port p).ackTo s.now f.ack
  let s := s.setPort p x
  let s := if f.nak then (s.setPort p { x with replays := satAdd x.replays 1 0xFFFF }).resend p else s
  let s := (s.creditsIn p f).flitsIn p f.seq f.flits
  let s := if (s.port p).live && (s.port p).rxSeq != x.rxSeq then s.nullFrame p true else s
  s.pump p

/-- A frame while the port locks: this end's own trailers now say RDY; eight good trailers in a row with RDY take it into operation
(R250). [DEDUCED: log 97] -/
def State.frameLock (s : State) (p : Nat) (f : LinkFrame) : State :=
  let x := s.port p
  let n := if f.tcrcOk && f.rdy then x.goodTrail + 1 else 0
  let s := s.setPort p { x with goodTrail := n }
  let s := if f.tcrcOk then s.sendFrame p [] x.txSeq (List.replicate 12 0) true else s
  if n < 8 then s else (s.enterUp p).frameIn p f

/-- The transmitter of a port in a window stops once every flit is acknowledged, or 8 µs after the start (R259 step 3). -/
def State.windowTick (s : State) (p : Nat) : State :=
  let x := s.port p
  if x.state == .window && x.winOpen &&
      ((x.replay.isEmpty && x.outq.isEmpty) || x.window.any (fun w => decide (w.1.toNat + 8000 ≤ s.lay.time.toNat))) then
    s.setPort p { x with winOpen := false }
  else s

/-- The bytes of a frame as the lanes brought them, through the scramblers of the lanes that carry them (R234, R236). -/
def State.rxFrame (s : State) (p : Nat) (raw : List Byte) : State × LinkFrame :=
  let x := s.port p
  let lanes := lanesOf x.rxGood
  let n := max 1 lanes.length
  let (scr, out) := (raw.mapIdx (fun i b => (i, b))).foldl (fun (a : List (BitVec 31) × List Byte) e =>
    let l := lanes.getD ((x.rxPos + e.1) % n) 0
    let (r, b) := scrByte (a.1.getD l 0) e.2
    (a.1.set l r, b :: a.2)) (x.rxScr.toList, [])
  (s.setPort p { x with rxScr := Vector.ofFn (fun i => scr.getD i.val 0), rxPos := (x.rxPos + raw.length) % (16 * n) }, parseFrame out.reverse)

/-- LINK_FRAME (R234, R236 to R242): the 208 bytes of a frame, as the data rounds bring them. -/
def execLinkFrame (p : PortNo) (raw : List Byte) (s : State) : Host.Outcome State Fault Refusal :=
  if raw.length ≠ 208 then .fault .illFormed
  else .next (if !s.railsOn then s
    else
      let s := s.windowTick p.val
      let x := s.port p.val
      if !(x.live || (x.stage == .lock && x.aligned)) then s
      else
        let (s, f) := s.rxFrame p.val raw
        if x.stage == .lock then s.frameLock p.val f
        else if !f.tcrcOk then (s.crcFail p.val).sendNak p.val
        else (s.frameIn p.val f).windowTick p.val)

/-- NAK_TIMEOUT (R240): 4 µs after a NAK without the expected flit. -/
def execNakTimeout (p : PortNo) (s : State) : Host.Outcome State Fault Refusal :=
  let x := s.port p.val
  .next (if s.railsOn && x.live && x.waitResend && decide (x.nakAt + 4 * fcPerUs ≤ s.now) then s.sendNak p.val else s)

/-! ### Retrains (R251 to R253) -/

/-- ACK_STALL_TIMEOUT (R251): 64 µs without ACK progress. -/
def execAckStallTimeout (p : PortNo) (s : State) : Host.Outcome State Fault Refusal :=
  let x := s.port p.val
  .next (if s.railsOn && x.state.running && !x.replay.isEmpty && decide (x.ackAt + 64 * fcPerUs ≤ s.now) then
    s.beginRetrain p.val true else s)

/-- RETRAIN (R251): the ordered set of the peer, a block for each lane by rank (R257). -/
def execRetrain (o : OsRead) (s : State) : Host.Outcome State Fault Refusal :=
  .next (if s.railsOn && (osIn o.blocks).any (fun b => b.head? == some osRETRAIN) then s.beginRetrain o.port.val false else s)

/-- RETRAIN_TIMEOUT (R253): a retrain of 10 ms takes the port out of service; STATE shows the stage reached. -/
def execRetrainTimeout (p : PortNo) (s : State) : Host.Outcome State Fault Refusal :=
  let x := s.port p.val
  .next (if s.railsOn && x.state == .retrain && decide (x.retrainStart + 10 * fcPerMs ≤ s.now) then
    (s.leaveService p.val).portState p.val x.under else s)

/-- BLOCK_LOCK_LOSS (R235, R251): 16 of a lane's last 64 headers were invalid. Counted while in service; in a window it has no effect
(R259). -/
def execBlockLockLoss (p : PortNo) (heads : LaneHeads) (s : State) : Host.Outcome State Fault Refusal :=
  let lane := heads.lane
  let x := s.port p.val
  let lost := x.blockLock &&& ~~~(BitVec.ofNat 8 (2 ^ lane.val))
  .next (if !s.railsOn || decide (ones 64 heads.invalid.toNat < 16) then s
    else if x.stage == .lock then s.setPort p.val { x with blockLock := lost, aligned := x.aligned && !x.usable.getLsbD lane.val }
    else if !x.state.running || !x.laneUsed lane.val then s
    else (s.setPort p.val { x with lockLoss := satAdd x.lockLoss 1 0xFFF, blockLock := lost }).beginRetrain p.val true)

/-! ### Pauses (R254, R258) -/

/-- PAUSE (R258): the ordered set of the peer (R257); a count holds, replaces or, at 0, releases. -/
def execPause (p : PortNo) (blocks : List (List Byte)) (s : State) : Host.Outcome State Fault Refusal :=
  let x := s.port p.val
  .next (match osIn blocks with
    | none => s
    | some b =>
      let count := fieldLE b 1 2
      if !s.railsOn || b.head? != some osPAUSE || !(x.state.running || x.state == .retrain) then s
      else if count = 0 then (if x.paused then s.unpause p.val else s)
      else
        let till := if count = 0xFFFF then none else some (s.lay.time + BitVec.ofNat 64 (1000 * count))
        s.setPort p.val { x with pauseEnd := some till })

/-- PAUSE_EXPIRY (R258). -/
def execPauseExpiry (p : PortNo) (s : State) : Host.Outcome State Fault Refusal :=
  .next (match (s.port p.val).pauseEnd with
    | some (some t) => if s.railsOn && t.ule s.lay.time then s.unpause p.val else s
    | _ => s)

/-- A write of LNK_PAUSE_p: with SEND, a PAUSE leaves where the link runs (R258). -/
def State.writePause (s : State) (p v : Nat) : State :=
  let n := v % 65536
  let s := s.setReg (offLnkPause p) 0 n
  if bitAt v 16 && (s.port p).state.running then s.sendOs p 1 (osBytes osPAUSE (leBytes 2 n)) else s

/-- SEND (R258). -/
def execSend (p : PortNo) (v : Word) (s : State) : Host.Outcome State Fault Refusal :=
  .next (if s.barLive && v.getLsbD 16 then s.barAccess.writePause p.val v.toNat else s)

/-! ### Windows (R259, R260) -/

/-- WINDOW_QUIET (R259 step 1): from 20 µs before the start no new packet starts. -/
def execWindowQuiet (p : PortNo) (s : State) : Host.Outcome State Fault Refusal :=
  let x := s.port p.val
  .next (match x.window with
    | some (a, _) => if s.railsOn && decide (a.toNat ≤ s.lay.time.toNat + 20000) then s.setPort p.val { x with quiet := true } else s
    | none => s)

/-- A packet in progress is completed with zero flits up to its length, and its tail is stomped (R259 step 2, R201). -/
def zeroRest (k : Started) : Started :=
  let b := k.sent.flatten ++ List.replicate (64 * k.todo.length - 4) 0
  let c := crc32c (placeBytes b 8 (leBytes 8 (k.pkt.word1 0 0))) ^^^ 0xFFFFFFFF
  { k with todo := flitsFrom k.todo.length (List.replicate (64 * k.todo.length - 4) 0 ++ leBytes 4 c.toNat), pkt := { k.pkt with tail := .stomped } }

/-- LT_START on an armed port (R259 steps 2 and 3, R260): a retrain is abandoned, a pause cleared, WINDOW sent in 4 rounds; null frames
leave as long as flits are not acknowledged. A port that bring-up keeps back takes no part. [DEDUCED: log 197] -/
def State.enterWindow (s : State) (p : Nat) : State :=
  let x := s.port p
  match x.window with
  | none => s
  | some (a, b) =>
    if s.lay.time.ult a || x.state == .window || x.held then s
    else
      let run := x.state.running
      let x := { x with pauseEnd := none, rewind := false, quiet := true, holdCause := 0, outq := if run then x.outq.map zeroRest else x.outq, winOpen := run }
      let s := (s.setPort p x).miswire p false
      let s := if run then s.sendOs p 4 (osBytes osWINDOW (leBytes 8 b.toNat)) else s
      let s := s.portState p .window
      if run then ((s.nullFrame p true).pump p).windowTick p else s

/-- LINK_WINDOW (R259). -/
def execLinkWindow (p : PortNo) (s : State) : Host.Outcome State Fault Refusal :=
  .next (if s.railsOn then s.enterWindow p.val else s)

/-- WINDOW_END (R259 step 4): at LT_END the port trains from Align, checked against the record in force; a port in service has 10 ms, as
in a retrain. One that the record then marks unused leaves service and is held (01 R29, R246). -/
def execWindowEnd (p : PortNo) (s : State) : Host.Outcome State Fault Refusal :=
  let x := s.port p.val
  .next (match x.window with
    | none => s
    | some (_, b) =>
      if !s.railsOn || s.lay.time.ult b then s
      else
        let x := { x with window := none, quiet := false, winOpen := false }
        let s := s.setPort p.val x
        if x.state != .window then s.pump p.val
        else if x.inService && !s.unusedPort p.val then
          ((s.setPort p.val { x with retrainStart := s.now, badLanes := if s.fullAdapt p.val then 0 else x.spliceBad }).portState p.val
            .retrain).toAlign p.val
        else (s.leaveService p.val).startTraining p.val)

/-! ### Control packets (R261) -/

/-- ECHO. -/
def execEcho (p : PortNo) (t1 : Word) (s : State) : Host.Outcome State Fault Refusal :=
  let t := leBytes 8 s.lay.time.toNat
  .next (if s.railsOn && (s.port p.val).state.running then
    s.ctlSend p.val 0x11 [(8, leBytes 8 t1.toNat), (16, t), (24, t)] else s)

/-- ECHO_REPLY: RTT, saturating at 8,191. [DEDUCED: log 100] -/
def execEchoReply (p : PortNo) (t1 t2 t3 : Word) (s : State) : Host.Outcome State Fault Refusal :=
  let x := s.port p.val
  let r : Int := ((s.lay.time.toNat : Int) - t1.toNat) - ((t3.toNat : Int) - t2.toNat)
  .next (if s.railsOn && x.state.running then s.setPort p.val { x with rtt := min 8191 r.toNat } else s)

/-- ECHO_TIMER: every 1 s in operation. -/
def execEchoTimer (p : PortNo) (s : State) : Host.Outcome State Fault Refusal :=
  let x := s.port p.val
  .next (if s.railsOn && x.state.running && decide (x.echoAt + fcPerS ≤ s.now) then s.sendEcho p.val else s)

/-- LANE_QUERY: the answer carries GOOD, the EMM and the codes. [DEDUCED: log 101] -/
def execLaneQuery (p : PortNo) (s : State) : Host.Outcome State Fault Refusal :=
  let x := s.port p.val
  .next (if s.railsOn && x.state.running then
    s.ctlSend p.val 0x13 [(1, [x.rxGood]), (8, x.emm.toList), (16, x.eq.toList.map (·.setWidth 8))] else s)

/-- LANE_REPORT: the report answers the driver's query; it changes no state of the port. [DEDUCED: log 101] -/
def execLaneReport (_ : PortNo) (_ : List Byte) (s : State) : Host.Outcome State Fault Refusal := .next s

/-! ### LNK_CTL_p (R262 to R264) -/

/-- The fields of LNK_CTL_p that read back. -/
def lnkCtlMask : Nat := 0xFF3FFD

/-- OFFLINE changes: 1 takes the port out of service into Hold with cause 0x7, 0 returns it to Align. -/
def State.setOffline (s : State) (p : Nat) (v : Bool) : State :=
  if (s.port p).state = .down then s
  else if v then ((s.leaveService p).portState p .hold).setHold p 7
  else s.startTraining p

/-- The generators of every lane start, from a free value that is not zero, and the checkers load (R262). [DESIGN CHOICE: log 203] -/
def State.prbsStart (s : State) (p : Nat) : State :=
  let c := s.lnkCtl p
  let seed (l : Nat) : BitVec 31 := BitVec.ofNat 31 ((Config.freeWord s.free).toNat / 2 ^ l) ||| 1
  let x := s.port p
  ((s.setPort p { x with prbsGen := Vector.ofFn (fun l => seed l.val), prbsChk := .replicate 8 .start, prbsSync := 0, rate := s.testRate p,
                         under := .test }).emit (.linkSet p kPRBS (bits c 8 7))).draw

/-- TEST is written (R264): taken only while OFFLINE is 1; 0 returns the port to Align. Near bight, a port with PATTERN 0 trains against
itself at RATE, with another it runs PRBS; far bight, it asks its peer for the loop with LB. [DEDUCED: log 99] -/
def State.setTest (s : State) (p t : Nat) : State :=
  let st := (s.port p).state
  let c := s.lnkCtl p
  let go (s : State) (u : LState) (r : Nat) : State := s.setPort p { s.port p with under := u, rate := r, loopPeer := false, sinceTrain := s.now }
  if !s.offline p ∨ st = .down then s
  else if t = 1 then
    (if bits c 8 7 = 0 then (go (s.portState p .loopback) .align (s.testRate p)).sendTs p tyTSA 2 false
     else (go (s.portState p .loopback) .test 0).prbsStart p)
  else if t = 2 then (go ((s.portState p .loopback).prbsStart p) .test 0).sendTs p tyLB (s.testRate p) false
  else if t = 3 then (s.portState p .test).prbsStart p
  else if st = .loopback ∨ st = .test then s.toAlign p
  else s

/-- Bits inverted on the selected lane (R263): a burst, of one bit at the least, wins over a single bit. Where blocks leave, they are
bits of the next blocks, from a free one on; in the other states, of the next symbols. [DESIGN CHOICE: log 203] -/
def State.inject (s : State) (p v : Nat) : State :=
  let x := s.port p
  let lane := bits v 13 11
  let n := if bitAt v 15 then max 1 (bits v 23 16) else if bitAt v 14 then 1 else 0
  if n = 0 then s
  else if x.live || x.stage == .lock || (x.stage == .adapt && x.rate == 2) then
    (s.setPort p { x with inject := some (lane, (Config.freeWord s.free).toNat % 130, n) }).draw
  else s.emit (.linkSet p kINJECT (n * 8 + lane))

/-- TEST, PATTERN and RATE, which a write of the same values leaves running. -/
def testFields (c : Nat) : Nat := bits c 10 4

/-- A write of LNK_CTL_p: the fields, ERR_CLR, an injection, OFFLINE, TEST, RETRAIN. -/
def State.writeLnkCtl (s : State) (p v : Nat) : State :=
  let old := s.lnkCtl p
  let s := s.setReg (offLnkCtl p) lnkCtlReset (v &&& lnkCtlMask)
  let x := s.port p
  let s := if bitAt v 24 then s.setPort p { x with crcErr := 0, replays := 0, retrains := 0, lockLoss := 0, ctlDrop := 0, prbsErr := .replicate 8 0 } else s
  let s := s.inject p v
  let s := if bitAt old 0 != bitAt v 0 then s.setOffline p (bitAt v 0) else s
  let s := if testFields old = testFields v ∧ bitAt old 0 = bitAt v 0 then s else s.setTest p (bits v 6 4)
  if bitAt v 1 then s.beginRetrain p true else s

/-- A write whose named bits are set. -/
def State.lnkCtlRow (s : State) (p : PortNo) (v : Word) (hit : Bool) : Host.Outcome State Fault Refusal :=
  .next (if s.barLive && hit then s.barAccess.writeLnkCtl p.val v.toNat else s)

/-- OFFLINE (R246): LNK_CTL_p.OFFLINE is written; the other fields keep their values. -/
def execOffline (p : PortNo) (v : Bool) (s : State) : Host.Outcome State Fault Refusal :=
  .next (if s.barLive && s.offline p.val != v then
    (s.barAccess.setReg (offLnkCtl p.val) lnkCtlReset (s.lnkCtl p.val / 2 * 2 + b2n v)).setOffline p.val v else s)

/-- LNK_CTL_RETRAIN (R251). -/
def execLnkCtlRetrain (p : PortNo) (v : Word) (s : State) : Host.Outcome State Fault Refusal := s.lnkCtlRow p v (v.getLsbD 1)
/-- NEAR_BIGHT_LOOPBACK (R264): TEST = 1. -/
def execNearBightLoopback (p : PortNo) (v : Word) (s : State) : Host.Outcome State Fault Refusal :=
  s.lnkCtlRow p v (bits v.toNat 6 4 == 1)
/-- FAR_BIGHT_LOOPBACK (R264): TEST = 2. -/
def execFarBightLoopback (p : PortNo) (v : Word) (s : State) : Host.Outcome State Fault Refusal :=
  s.lnkCtlRow p v (bits v.toNat 6 4 == 2)
/-- INJ_SINGLE (R263). -/
def execInjSingle (p : PortNo) (v : Word) (s : State) : Host.Outcome State Fault Refusal := s.lnkCtlRow p v (v.getLsbD 14)
/-- INJ_BURST (R263). -/
def execInjBurst (p : PortNo) (v : Word) (s : State) : Host.Outcome State Fault Refusal := s.lnkCtlRow p v (v.getLsbD 15)
/-- ERR_CLR (R502). -/
def execErrClr (p : PortNo) (v : Word) (s : State) : Host.Outcome State Fault Refusal := s.lnkCtlRow p v (v.getLsbD 24)

/-- The checker of a lane takes received bits. -/
def State.prbsLane (s : State) (p l : Nat) (b : List Bool) : State :=
  let x := s.port p
  let (c, n) := (x.prbsChk.toList.getD l .start).run' (bits (s.lnkCtl p) 8 7) b
  s.setPort p { x with prbsChk := x.prbsChk.setIfInBounds l c,
                       prbsSync := if c.sync then x.prbsSync ||| BitVec.ofNat 8 (2 ^ l) else x.prbsSync &&& ~~~(BitVec.ofNat 8 (2 ^ l)),
                       prbsErr := x.prbsErr.setIfInBounds l (satAdd (x.prbsErr.toList.getD l 0) n 0xFFFFFFFF) }

/-- The generator of a lane sends `n` bits; in the near bight they are the receiver's too. -/
def State.prbsSend (s : State) (p l n : Nat) : State × List Bool :=
  let x := s.port p
  let (r, b) := prbsGo (bits (s.lnkCtl p) 8 7) (x.prbsGen.toList.getD l 0) n
  ((s.setPort p { x with prbsGen := x.prbsGen.setIfInBounds l r }).emit (.linkBits p l b), b)

/-- PRBS_TEST (R262, R264): TEST = 3, or a loopback that runs PRBS; each lane sends `n` bits, and its checker takes what it
receives. -/
def execPrbsTest (p : PortNo) (v : Word) (n : Nat) (rx : List (List Bool)) (s : State) : Host.Outcome State Fault Refusal :=
  let t := bits v.toNat 6 4
  if rx.length ≠ 8 then .fault .illFormed
  else .next (if !s.barLive || !(t == 1 || t == 2 || t == 3) then s
    else
      let s := s.barAccess.writeLnkCtl p.val v.toNat
      let x := s.port p.val
      if !(x.state == .test || x.state == .loopback) || x.under != .test then s
      else (rx.mapIdx (fun l b => (l, b))).foldl (fun s e =>
        let (s, sent) := s.prbsSend p.val e.1 n
        s.prbsLane p.val e.1 (if t = 1 then sent else e.2)) s)

/-- LB (R264): a peer that holds OFFLINE and allows the loop retunes to the rate named, at most code 2 (R232), and loops each lane.
[DEDUCED: log 99] -/
def execLb (p : PortNo) (ts : TrainSeq) (s : State) : Host.Outcome State Fault Refusal :=
  let x := s.port p.val
  .next (if !s.railsOn || !tsValid ts 0xC3 || !s.offline p.val || !bitAt (s.lnkCtl p.val) 3 ||
      !(x.state == .hold || x.state == .align || x.state == .exchange) then s
    else
      let s := s.portState p.val .loopback
      let r := min 2 ts.rate.toNat
      (s.setPort p.val { s.port p.val with loopPeer := true, under := .loopback, rate := r }).emit (.linkSet p.val kLOOP r))

/-- FAR_BIGHT_LOOPBACK_END (R264): the requester has stopped for 1 µs. -/
def execFarBightLoopbackEnd (p : PortNo) (s : State) : Host.Outcome State Fault Refusal :=
  let x := s.port p.val
  .next (if s.railsOn && x.state == .loopback && x.loopPeer then s.toAlign p.val else s)

end Sys2Proof.Machine
end

