-- ==== Sys2Proof/Machine/Power.lean ====
section
/-!
DEFINITION. Power (spec 12): the limit in force, operating points and windows, duty, ramp, droop, the regulator alert, the
energy model and the throttle reasons.
-/

namespace Sys2Proof.Machine

/-! ### Grades and the limit in force (R350, R357) -/

/-- The fused power limit of R1. -/
def State.gradeW (s : State) : Nat := match s.fuses.grade with | 0 => 1200 | 1 => 1000 | _ => 720

/-- The floor limit of R350. -/
def State.floorW (s : State) : Nat := if s.fuses.grade ≤ 1 then 300 else 250

/-- The rating of a regulator, in A (20 R510). -/
def State.regRating (s : State) (r : Nat) : Nat :=
  if r < 4 then (match s.fuses.grade with | 0 => 140 | 1 => 120 | _ => 90)
  else if r = 4 then 55 else if s.fuses.grade ≤ 1 then 400 else 340

/-- The current limit of a regulator (R353): 0 as set means the rating. [DEDUCED: log 147] -/
def State.regLimitA (s : State) (r : Nat) : Nat := if s.pwr.regLimit.toList.getD r 0 = 0 then s.regRating r else s.pwr.regLimit.toList.getD r 0

/-- The thermal model's proposal: the floor limit while HOT (13 R372), else the cap. [DEDUCED: log 137] -/
def State.thermProposal (s : State) : Nat := if s.thm.hot then s.floorW else s.pwr.thermW

/-- The proposals with their reason codes, in rising order of code. -/
def State.proposals (s : State) : List (Nat × Nat) :=
  [(s.thermProposal, 1), (s.pwr.hostW, 2), (s.pwr.rackW, 3), (s.gradeW, 4), (s.pwr.rampW, 8)]

/-- The limit in force and its reason (R350): the lowest nonzero proposal, none below the floor limit; of equals the lower
code. -/
def State.limit (s : State) : Nat × Nat :=
  (s.proposals.filter (fun e => e.1 != 0)).foldl
    (fun b e => if max e.1 s.floorW < b.1 then (max e.1 s.floorW, e.2) else b)
    (match s.proposals.filter (fun e => e.1 != 0) with | e :: _ => (max e.1 s.floorW, e.2) | [] => (s.gradeW, 4))

/-- A change of the limit or its reason raises source 1,491 and, with no window open, opens one of 10 ms (R357). -/
def State.limitCheck (s : State) : State :=
  if s.limit = s.pwr.lastLimit then s
  else
    let w := match s.pwr.noticeEnd with | some t => some t | none => some (s.now + 10 * fcPerMs)
    ({ s with pwr := { s.pwr with lastLimit := s.limit, noticeEnd := w } }).raise 1491

/-- LIMIT_NOTICE_WINDOW (R357): the window ends with one notice, unless the last one sent said the same. -/
def execLimitNoticeWindow (s : State) : Host.Outcome State Fault Refusal :=
  .next (match s.pwr.noticeEnd with
    | none => s
    | some t =>
      if s.now < t ∨ !s.railsOn then s
      else
        let l := s.limit
        let s := { s with pwr := { s.pwr with noticeEnd := none } }
        if s.pwr.noticed = some l then s
        else ({ s with pwr := { s.pwr with noticed := some l } }).notice0 6 l.2 l.1)

/-! ### Windows (R351) -/

def State.effCeil (s : State) (n : Nat) : Nat := min (s.part n).ceil (min s.gradeCeil (s.part n).ageCeil)
def State.effFloor (s : State) (n : Nat) : Nat := min (s.part n).floor (s.effCeil n)
def State.pinned (s : State) (n : Nat) : Bool := s.effFloor n == s.effCeil n

/-! ### Voltages and rails (R343, 15 R416) -/

/-- The voltage of a partition at an operating point: nominal, trim and ageing offset, in mV. -/
def State.partMv (s : State) (n op : Nat) : Int :=
  (opMilliVolt op : Int) + s.fuses.trimMv.toList.getD n 0 + 5 * ((s.part n).ageOffset.toList.getD op 0 : Int)

/-- Partitions that a regulator feeds (R344). -/
def fedBy (r : Nat) : List Nat := if r < 4 then [3 * r, 3 * r + 1, 3 * r + 2] else []

/-- The rail of a core regulator that answers takes the highest voltage of its partitions, plus 50 mV. -/
def State.setRail (s : State) (r : Nat) : State :=
  if 4 ≤ r ∨ (fedBy r).any (fun n => (s.part n).regDown) then s
  else
    let v := (fedBy r).foldl (fun m n => max m (s.part n).volt) 0
    { s with pwr := { s.pwr with railSet := s.pwr.railSet.setIfInBounds r (v + 50).toNat } }

/-- The partition's voltage takes the value of an operating point; its rail follows. -/
def State.setVolt (s : State) (n op : Nat) : State :=
  (s.setPart n { s.part n with volt := s.partMv n op }).setRail (n / 3)

/-! ### Steps of the operating point (R345, 10 R314) -/

/-- The first Lay time after the counter that lies in the step slot. -/
def Lay.slotTime (l : Lay) : Word :=
  let t := l.time.toNat + 1
  let p := l.period.toNat
  if p = 0 then BitVec.ofNat 64 t
  else
    let off := l.slotOff.toNat % p
    let u := t / 1000
    if u % p = off then BitVec.ofNat 64 t else BitVec.ofNat 64 ((u + (off + p - u % p) % p) * 1000)

/-- A partition whose operating point the loop may move. -/
def State.loopPart (s : State) (n : Nat) : Bool := (s.psw n).state == .idle || (s.psw n).state == .active

/-- A lowering switches the clock at once; the voltage follows (R345). [DEDUCED: log 126] -/
def State.opLower (s : State) (n : Nat) : State :=
  let p := s.part n
  s.setPart n { p with opPt := p.opPt - 1, stepDue := some false }

/-- A raise is armed on the partition calendar at the step slot, one at a time; a regulator that does not answer lets none
through (15 R418). [DEDUCED: log 126] -/
def State.armRaise (s : State) (n : Nat) : State :=
  let p := s.part n
  if p.raiseArmed || p.regDown || s.pwr.alerting then s
  else (s.setPart n { p with raiseArmed := true }).armPart n s.lay.slotTime .opRaise

/-- Where the partition must go: the target of a return from an alert (18 R493), else into its window. -/
def State.opGoal (s : State) (n : Nat) : Nat :=
  let p := s.part n
  max (s.effFloor n) (min (s.effCeil n) (p.target.getD p.opPt))

/-- The next step toward the goal, where no step is in progress. [DEDUCED: log 126] -/
def State.opDrive (s : State) (n : Nat) : State :=
  let p := s.part n
  let g := s.opGoal n
  if s.pwr.alerting || p.stepDue.isSome || !s.loopPart n then s
  else if g < p.opPt then s.opLower n
  else if p.opPt < g then s.armRaise n
  else s.setPart n { p with target := none, alertOp := none, dutyWhy := if p.duty = 16 ∧ s.effCeil n ≤ p.opPt then [] else p.dutyWhy }

/-- An armed raise falls due (R345, R363): dropped under an alert, in a step, at the ceiling or with a regulator that does
not answer; else the voltage rises first. -/
def State.raiseDue (s : State) (n : Nat) : State :=
  let p := s.part n
  let s := s.setPart n { p with raiseArmed := false }
  if s.pwr.alerting || p.stepDue.isSome || p.regDown || !s.loopPart n || decide (s.effCeil n ≤ p.opPt) then s
  else (s.setPart n { s.part n with stepDue := some true }).setVolt n (p.opPt + 1)

/-- OP_STEP (R345): the step in progress completes. -/
def execOpStep (n : PartNo) (s : State) : Host.Outcome State Fault Refusal :=
  let p := s.part n.val
  .next (match p.stepDue with
    | none => s
    | some true => (s.setPart n.val { p with opPt := p.opPt + 1, stepDue := none }).opDrive n.val
    | some false =>
      let s := s.setPart n.val { p with stepDue := none }
      (if p.regDown then s else s.setVolt n.val p.opPt).opDrive n.val)

/-! ### The loops (R352, R353) -/

/-- The sum of the newest `k` entries. [DEDUCED: log 123] -/
def sumNewest (l : List Nat) (k : Nat) : Nat := (l.take k).foldl (· + ·) 0

/-- Modelled power of a rail over the last 10 µs, summed. [DEDUCED: log 123] -/
def State.railSum (s : State) (r : Nat) : Nat := sumNewest (s.pwr.railW.map (fun l => l.getD r 0)) 10

/-- The modelled current of a regulator exceeds `pct` percent of its limit. -/
def State.regOver (s : State) (r pct : Nat) : Bool :=
  decide (pct * s.regLimitA r * s.pwr.railSet.toList.getD r 0 < s.railSum r * 100 * 100)

/-- Some regulator that feeds the partition is above `pct` percent of its limit; regulators 4 and 5 feed them all. -/
def State.partOver (s : State) (n pct : Nat) : Bool := s.regOver (n / 3) pct || s.regOver 4 pct || s.regOver 5 pct

/-- A pending rack limit whose Lay time has come takes effect (15 R414). -/
def State.pendingLimit (s : State) : State :=
  match s.pwr.rackPend with
  | some (w, lt) => if lt.ule s.lay.time then { s with pwr := { s.pwr with rackW := w, rackPend := none } } else s
  | none => s

/-- The duty of a partition after an evaluation. [DEDUCED: log 125] -/
def State.dutyStep (s : State) (n : Nat) : State :=
  let p := s.part n
  let sum := sumNewest s.pwr.usW 10
  let (w, why) := s.limit
  let high := decide (10 * w < sum)
  let hot := s.partOver n 100
  let fall := p.psw.state == .active && (high || hot)
  let d := if fall then max 1 (p.duty - 2) else if sum * 100 ≤ 98 * 10 * w ∧ !hot then min 16 (p.duty + 1) else p.duty
  let new := if !fall then [] else (if high then [why] else []) ++ (if hot then [7] else [])
  s.setPart n { p with duty := d, dutyLow := p.dutyLow || decide (d < 16),
                       dutyWhy := if d = 16 ∧ s.effCeil n ≤ p.opPt then [] else p.dutyWhy ++ new.filter (fun c => !p.dutyWhy.contains c) }

/-- The management settings record (15 R405, R414, R420): its layout is the model's own. [DESIGN CHOICE: log 130] -/
def State.settingsBytes (s : State) : List Byte :=
  leBytes 2 s.pwr.rackW ++ (s.pwr.regLimit.toList.flatMap (leBytes 4)) ++ leBytes 2 s.thm.inlet ++
    [BitVec.ofNat 8 (b2n s.mgmt.settingsRole)] ++ leBytes 4 s.lay.period.toNat ++ leBytes 4 s.lay.slotOff.toNat ++ List.replicate 27 0

def State.saveSettings (s : State) : State := s.journal 1 s.settingsBytes

/-- DUTY_EVALUATION (R352, R353): every 10 µs. -/
def execDutyEvaluation (s : State) : Host.Outcome State Fault Refusal :=
  .next (if !s.railsOn then s else
    let t := s.pendingLimit
    let t := if t.pwr.rackPend = s.pwr.rackPend then t else t.saveSettings
    (List.range 12).foldl (fun s n => if (s.psw n).state == .off then s else s.dutyStep n) t.limitCheck)

/-- One partition's share of the operating-point loop (R352, R361). -/
def State.opLoop (s : State) (n : Nat) : State :=
  let p := s.part n
  let clear := s.setPart n { p with dutyLow := decide (p.duty < 16), stretched := 0 }
  if !s.loopPart n || s.pwr.alerting then clear
  else if s.pinned n || p.regDown then clear.opDrive n
  else
    let droop := decide (16000 < p.stretched)
    let floor := decide (s.effFloor n < p.opPt)
    if p.stepDue.isSome then clear
    else if (p.dutyLow || droop) && floor then
      let q := clear.part n
      let why := if droop && !q.dutyWhy.contains 6 then q.dutyWhy ++ [6] else q.dutyWhy
      (clear.setPart n { q with target := none, dutyWhy := why }).opLower n
    else if !p.dutyLow && decide (sumNewest s.pwr.usW 1000 * 100 ≤ 95 * 1000 * s.limit.1) && !s.partOver n 95 && decide (p.opPt < s.effCeil n) then
      clear.armRaise n
    else clear.opDrive n

/-- OP_EVALUATION (R352): every 1 ms. -/
def execOpEvaluation (s : State) : Host.Outcome State Fault Refusal :=
  .next (if !s.railsOn then s else (List.range 12).foldl State.opLoop s)

/-! ### Power hints (R358) -/

/-- The ready hint of a kind. -/
def State.readyHint (s : State) (k : DescKey) (kind : Nat) : Option Desc :=
  match s.readyDesc k 6 with
  | some d => if fieldLE d.bytes 0x10 1 = kind then some d else none
  | none => none

/-- HINT_WINDOW (R351, R358): recorded until the release while an alert holds. -/
def execHintWindow (key : DescKey) (s : State) : Host.Outcome State Fault Refusal :=
  .next (match s.readyHint key 0 with
    | none => s
    | some d =>
      let l := psetList (BitVec.ofNat 12 (fieldLE d.bytes 0x12 2))
      let lo := fieldLE d.bytes 0x14 1
      let hi := fieldLE d.bytes 0x15 1
      let s := l.foldl (fun s n =>
        if s.pwr.alerting then s.setPart n { s.part n with newWindow := some (lo, hi) }
        else s.setPart n { s.part n with floor := lo, ceil := hi }) s
      (l.foldl State.opDrive s).complete key 0 0 0)

/-- HINT_HOST_LIMIT (R350, R358): VALUE is the limit in force after the change. -/
def execHintHostLimit (key : DescKey) (s : State) : Host.Outcome State Fault Refusal :=
  .next (match s.readyHint key 1 with
    | none => s
    | some d =>
      let w := fieldLE d.bytes 0x16 2
      let s := if s.pwr.alerting then { s with pwr := { s.pwr with newHostW := some w } } else { s with pwr := { s.pwr with hostW := w } }
      (s.complete key 0 0 s.limit.1).limitCheck)

/-! ### Ramp (R355, R356) -/

/-- The multiple of 500,000,000 lt that the counter last reached (R355). -/
def Lay.rampNo (l : Lay) : Nat := l.time.toNat / 500000000

/-- RAMP_STEP (R355): once for each multiple of 500,000,000 lt; a rack manager change that is due is applied first (R357).
[DEDUCED: log 123] -/
def execRampStep (s : State) : Host.Outcome State Fault Refusal :=
  .next (if !s.railsOn || s.lay.rampNo == s.pwr.rampAt then s else
    let t := s.pendingLimit
    let t := if t.pwr.rackPend = s.pwr.rackPend then t else t.saveSettings
    let peak := if t.pwr.rampFirst then t.floorW else t.pwr.rampPeak
    ({ t with pwr := { t.pwr with rampW := peak + 150, rampPeak := 0, rampFirst := false, rampAt := t.lay.rampNo } }).limitCheck)

/-- The hottest of a partition's working sensors, in 0.25 °C (13 R368). -/
def State.partTemp (s : State) (n : Nat) : Nat :=
  (List.range 4).foldl (fun m k => if s.thm.failed.contains (4 * n + k) then m else max m (SMap.get 0 s.thm.temps (4 * n + k))) 0

/-- Modelled package power of the last µs plus the partition's modelled Active power lies at or below the ramp ceiling.
[DEDUCED: log 124] -/
def State.fitsRamp (s : State) (n : Nat) : Bool :=
  decide (s.pwr.usW.headD 0 + Config.activePower n (s.part n).opPt (s.partTemp n) ≤ s.pwr.rampW)

/-- RAMP_ADMISSION (R356): the lowest waiting partition of a set, 10 µs after the last one, where the ramp has room.
[DEDUCED: log 73] -/
def execRampAdmission (key : DescKey) (n : PartNo) (s : State) : Host.Outcome State Fault Refusal :=
  let p := s.part n.val
  let lower := (List.range n.val).any (fun m => (s.part m).waiting.contains key)
  .next (if !s.railsOn || !p.waiting.contains key || lower || decide (s.now < s.pwr.admitLast + 10 * fcPerUs) then s
    else if !s.fitsRamp n.val then s.setPart n.val { p with rampWait := true }
    else
      let s := s.setPart n.val { p with rampWait := false, waiting := p.waiting.filter (fun k => !(k == key)) }
      ({ s with pwr := { s.pwr with admitLast := s.now } }).admitTiles key n.val)

/-! ### Droop (R361) -/

/-- DROOP_TRIP (R361): the tile clock halves. A step in progress is abandoned (R345), but not in the return from an alert
(18 R493). [DEDUCED: log 127] -/
def execDroopTrip (n : PartNo) (s : State) : Host.Outcome State Fault Refusal :=
  let p := s.part n.val
  .next (if !s.railsOn || !p.psw.state.clocked then s else
    let s := s.setPart n.val { p with stretch := .half }
    match p.stepDue, p.alertOp with
    | some up, none =>
      let s := s.setPart n.val { s.part n.val with stepDue := none }
      if up then s.setVolt n.val p.opPt else s
    | _, _ => s)

/-- DROOP_RECOVERY (R361): every detector has been above the threshold for 64 tc; three quarters for 32 tc, then full. -/
def execDroopRecovery (n : PartNo) (s : State) : Host.Outcome State Fault Refusal :=
  let p := s.part n.val
  .next (if p.stretch = .half then s.setPart n.val { p with stretch := .threeQuarter, stretchEnd := p.tcAcc / 640 + 32 } else s)

/-! ### Regulator alert (R362, R363, 18 R493) -/

/-- An armed raise is withdrawn. -/
def Part.dropRaise (p : Part) : Part :=
  { p with raiseArmed := false, cal := p.cal.filter (fun e => match e.2.2.2 with | .opRaise => false | _ => true) }

/-- Every partition goes to OP0; the pre-alert point is the one before the first alert of the sequence.
[DEDUCED: log 127] -/
def State.alertEnter (s : State) : State :=
  (List.range 12).foldl (fun s n =>
    let p := (s.part n).dropRaise
    if p.psw.state = .off then s
    else s.setPart n { p with opPt := 0, target := none, alertOp := some (p.alertOp.getD p.opPt),
                              stepDue := if p.opPt = 0 ∧ p.stepDue.isNone then none else some false })
    { s with pwr := { s.pwr with alerting := true } }

/-- VRALERT (R362). While a shutdown self-test runs, the partitions that the regulator feeds are left untested (16 R443). -/
def execVralert (reg : Fin 6) (s : State) : Host.Outcome State Fault Refusal :=
  let r := reg.val
  .next (if s.pwr.alerts.getLsbD r then s else
    let s := ({ s with pwr := { s.pwr with alerts := s.pwr.alerts ||| BitVec.ofNat 6 (2 ^ r) } }).raise (1474 + r)
    let s := if s.boot.shutdown then { s with boot := { s.boot with untested := s.boot.untested ||| BitVec.ofNat 16 (listMask (fedBy r)) } } else s
    if s.railsOn && !s.pwr.alerting then s.alertEnter else s)

/-- VRALERT_RELEASE (R363, 18 R493): all six lands have been high for 1 ms. [DEDUCED: log 127] -/
def execVralertRelease (s : State) : Host.Outcome State Fault Refusal :=
  .next (
    let was := s.pwr.alerting
    let s := { s with pwr := { s.pwr with alerts := 0, alerting := false, hostW := s.pwr.newHostW.getD s.pwr.hostW, newHostW := none } }
    if !was then s
    else
      ((List.range 12).foldl (fun s n =>
        let p := s.part n
        let p := match p.newWindow with
          | some (lo, hi) => { p with floor := lo, ceil := hi, newWindow := none }
          | none => p
        let s := s.setPart n p
        let pre := p.alertOp.getD p.opPt
        let t := if s.pinned n then s.effCeil n else max (s.effFloor n) (min pre (s.effCeil n))
        (s.setPart n { p with target := if p.psw.state = .off then none else some t }).opDrive n) s).limitCheck)

/-! ### Throttle reasons (R366) -/

/-- Reason `c` holds on a partition. [DEDUCED: log 128] -/
def State.reasonOn (s : State) (c n : Nat) : Bool :=
  let p := s.part n
  let low := decide (p.duty < 16 ∨ p.opPt < s.effCeil n)
  p.psw.state != .off && (match c with
    | 5 => s.pwr.alerting
    | 6 => p.stretch != .none || (p.dutyWhy.contains 6 && decide (p.opPt < s.effCeil n))
    | 7 => p.dutyWhy.contains 7 && low
    | 9 => decide (p.ageCeil < p.ceil ∧ p.ageCeil < s.gradeCeil)
    | 8 => p.rampWait || (p.dutyWhy.contains 8 && low && s.limit.2 == 8)
    | _ => p.dutyWhy.contains c && low && s.limit.2 == c)

/-- [DEDUCED: log 128] -/
def State.reasonHolds (s : State) (c : Nat) : Bool := s.railsOn && (List.range 12).any (s.reasonOn c)

/-! ### The energy model (R364, R365) -/

/-- The sum of a list. -/
def sumAll (l : List Nat) : Nat := l.foldl (· + ·) 0

/-- Shares of `e` in proportion to weights, rounded down. [DEDUCED: log 129] -/
def shares (e : Nat) (w : List Nat) : List Nat :=
  let t := sumAll w
  w.map (fun x => if t = 0 then 0 else e * x / t)

/-- tc the job ran on a partition within the µs. -/
def Part.ranTc (p : Part) (j : Job) (n : Nat) : Nat := p.tcAcc - max p.tcMark (SMap.get 0 j.since n)

/-- Jobs that ran on a partition. -/
def State.jobsOn (s : State) (n : Nat) : List (DescKey × Job) := s.jobs.filter (fun e => e.2.admitted.contains n)

/-- Tensor-busy tc of a job's tiles on a partition. -/
def State.busyOf (s : State) (busy : List (TileNo × Nat)) (k : DescKey) (n : Nat) : Nat :=
  (busy.filter (fun b => b.1.val / 72 == n && (s.tile b.1.val).key == k)).foldl (fun a b => a + b.2) 0

/-- Adds energy to a job; one that a partition reset ends keeps its energy up to step 1 (17 R462). -/
def State.charge (s : State) (k : DescKey) (pj : Nat) : State :=
  match s.job? k with
  | some j => if j.aborted.isSome then s else s.setJob k { j with energyPj := j.energyPj + pj }
  | none => s

/-- What partition `n`'s energy of the µs charges to each job (step 2 of R365), in pJ. -/
def State.partCharges (s : State) (e : EnergyUs) (n : Nat) : List (DescKey × Nat) :=
  let js := s.jobsOn n
  let busy := js.map (fun j => s.busyOf e.busy j.1 n)
  let w := if sumAll busy = 0 then js.map (fun j => (s.part n).ranTc j.2 n) else busy
  (js.map (·.1)).zip (shares ((e.coreUj.getD n 0 + e.phyUj.getD n 0) * 1000000) w)

/-- What was charged to a job in this µs. -/
def chargedTo (l : List (DescKey × Nat)) (k : DescKey) : Nat := (l.filter (fun x => x.1 == k)).foldl (fun a x => a + x.2) 0

/-- The charges of the µs (R365). [DEDUCED: log 129] -/
def State.chargeJobs (s : State) (e : EnergyUs) : State :=
  let l := (List.range 12).flatMap (s.partCharges e)
  let js := s.jobs.filter (fun j => !j.2.admitted.isEmpty)
  let w := js.map (fun j => chargedTo l j.1)
  let w := if sumAll w = 0 then js.map (fun j => j.2.admitted.foldl (fun a n => a + (s.part n).ranTc j.2 n) 0) else w
  let spine := (js.map (·.1)).zip (shares ((e.spineUj + e.linkUj) * 1000000) w)
  (l ++ spine).foldl (fun s x => s.charge x.1 x.2) s

/-- ENERGY_MODEL (R364, R365): one µs is evaluated; the averages, the ramp's peak and the throttle times follow.
[DEDUCED: log 134] -/
def execEnergyModel (e : EnergyUs) (s : State) : Host.Outcome State Fault Refusal :=
  if e.coreUj.length ≠ 12 ∨ e.phyUj.length ≠ 12 then .fault .illFormed
  else .next (if !s.railsOn then s else
    let s := s.chargeJobs e
    let total := sumAll e.coreUj + sumAll e.phyUj + e.spineUj + e.linkUj
    let s := (List.range 12).foldl (fun s n =>
      let p := s.part n
      let w := e.coreUj.getD n 0 + e.phyUj.getD n 0
      s.setPart n { p with energyUj := p.energyUj + w, usW := (w :: p.usW).take 1000, tcMark := p.tcAcc }) s
    let rails := (List.range 4).map (fun r => (fedBy r).foldl (fun a n => a + e.coreUj.getD n 0) 0) ++
      [e.spineUj, sumAll e.phyUj + e.linkUj]
    let us := (total :: s.pwr.usW).take 1000
    let thr := Vector.ofFn (fun i : Fin 9 => s.pwr.thrTime.get i + b2n (s.reasonHolds (i.val + 1)))
    { s with pwr := { s.pwr with usW := us, railW := (rails :: s.pwr.railW).take 10, energyUj := s.pwr.energyUj + total, spineUj := s.pwr.spineUj + e.spineUj + e.linkUj, rampPeak := max s.pwr.rampPeak (sumNewest us 1000 / 1000), thrTime := thr } })

end Sys2Proof.Machine
end

