-- ==== Sys2Proof/Machine/Calendar.lean ====
section
/-!
DEFINITION. The firing of calendar events (10 R309 to R311), phase releases (R310), counter samples (15 R415), and the park and
unpark of partitions (12 R348, R349).
-/

namespace Sys2Proof.Machine

/-! ### Park and unpark (12 R348, R349) -/

/-- A power-state change or a zeroization is in progress, or the start has not reached step 11 (12 R358, 18 R497). -/
def State.powerBusy (s : State) : Bool := s.zeroizing || !s.boot.ready || s.boot.shutdown

/-- The ready park or unpark descriptor. -/
def State.readyPark (s : State) (k : DescKey) (op : Nat) : Option Desc :=
  match s.readyDesc k 7 with
  | some d => if fieldLE d.bytes 0x12 1 = op then some d else none
  | none => none

/-- The partitions a park or unpark descriptor names. -/
def Desc.parkSet (d : Desc) : List Nat := psetList (BitVec.ofNat 12 (fieldLE d.bytes 0x10 2))

/-- PARK (R348, R349): the set is checked and parked in one read of the words; it waits for a rotation or a tenant change.
[DEDUCED: log 131] -/
def execPark (key : DescKey) (s : State) : Host.Outcome State Fault Refusal :=
  .next (match s.readyPark key 0 with
    | none => s
    | some d =>
      if s.powerBusy then s.complete key 0xD 2 0
      else if s.setHeld d.parkSet then s
      else match d.parkSet.filter (fun n => (s.psw n).state != .idle) with
        | n :: _ => s.complete key 6 n 0
        | [] =>
          let s := d.parkSet.foldl (fun s n =>
            let s := s.pswChange n (fun q => { q with state := .parked })
            (s.setStack n { s.stack n with selfRef := true, lastUse := s.now }).partEvent n 5) s
          s.complete key 0 0 (s.lay.time.toNat % 2 ^ 32))

/-- The step slot is open (10 R314). -/
def Lay.inSlot (l : Lay) : Bool :=
  l.period == 0 || decide ((l.time.toNat / 1000) % l.period.toNat = l.slotOff.toNat % l.period.toNat)

/-- The partition leaves Parked (R349): its stack leaves self-refresh, the charge budget is full (R359). -/
def State.unparkPart (s : State) (n : Nat) : State :=
  let s := s.setStack n { s.stack n with selfRef := false, lastUse := s.now }
  let s := s.setPart n { s.part n with charge := 4096, rampWait := false, becameIdle := false, idleSince := s.now }
  ((s.pswChange n (fun q => { q with state := .idle })).partEvent n 5)

/-- The next partition of an unpark, arms its stagger. -/
def State.armUnpark (s : State) (k : DescKey) (n : Nat) : State := s.armPart n s.lay.slotTime (.unparkStep k)

/-- UNPARK (R348): every partition of the set must be Parked; the first stagger is armed. -/
def execUnpark (key : DescKey) (s : State) : Host.Outcome State Fault Refusal :=
  .next (match s.readyPark key 1 with
    | none => s
    | some d =>
      if s.powerBusy then s.complete key 0xD 2 0
      else match d.parkSet.filter (fun n => (s.psw n).state != .parked) with
        | n :: _ => s.complete key 6 n 0
        | [] => match d.parkSet with
          | [] => s
          | n :: _ => (s.setDesc key { d with busy := true, aux := 0 }).armUnpark key n)

/-- One partition leaves Parked, where slot, stagger and headroom allow it (R349); a partition that is no longer Parked ends
the unpark with status 0x06. [DEDUCED: log 131] -/
def State.unparkTry (s : State) (key : DescKey) : State :=
  match s.desc? key with
  | none => s
  | some d =>
    if !s.railsOn || !d.busy || fieldLE d.bytes 1 1 != 7 then s
    else match d.parkSet.drop d.aux with
      | [] => s
      | n :: rest =>
        if (s.psw n).state ≠ .parked then s.complete key 6 n 0
        else if !s.lay.inSlot || (decide (0 < d.aux) && decide (s.now < s.pwr.unparkLast + 10 * fcPerUs)) then s
        else if !s.fitsRamp n then s.setPart n { s.part n with rampWait := true }
        else
          let s := s.unparkPart n
          let s := { s with pwr := { s.pwr with unparkLast := s.now } }
          match rest with
          | [] => s.complete key 0 0 (s.lay.time.toNat % 2 ^ 32)
          | m :: _ => (s.setDesc key { d with aux := d.aux + 1 }).armUnpark key m

/-- UNPARK_STEP (R349). -/
def execUnparkStep (key : DescKey) (s : State) : Host.Outcome State Fault Refusal := .next (s.unparkTry key)

/-! ### Counter samples (15 R415) -/

/-- The 200 bytes of a sample. -/
def State.sampleBytes (s : State) (late : Bool) : List Byte :=
  leBytes 8 s.lay.time.toNat ++ leBytes 8 (b2n late) ++
    (List.range 12).flatMap (fun n => leBytes 8 (s.part n).energyUj) ++ leBytes 8 s.pwr.spineUj ++ leBytes 8 s.pwr.energyUj ++
    s.pwr.thrTime.toList.flatMap (leBytes 8)

def State.takeSample (s : State) (buf : Nat) (late : Bool) : State :=
  { s with mgmt := { s.mgmt with samples := SMap.set s.mgmt.samples buf (s.sampleBytes late) } }

/-! ### Firing (10 R309 to R311) -/

/-- A due event: package entry, or partition entry. -/
inductive Due where
  | pkg (e : CalEntry)
  | part (n : Nat) (lt : Word) (no : Nat) (late : Bool) (ev : PCal)
deriving DecidableEq, Repr

def dueKey : Due → Nat × Nat × Nat
  | .pkg e => (e.lt.toNat, e.ev.order, e.no)
  | .part _ lt no _ ev => (lt.toNat, ev.order, no)

/-- Lay time first, then the order of R309, then arming order. -/
def keyLt (a b : Nat × Nat × Nat) : Bool :=
  decide (a.1 < b.1) || (a.1 == b.1 && (decide (a.2.1 < b.2.1) || (a.2.1 == b.2.1 && decide (a.2.2 < b.2.2))))

/-- Every event whose time the counter has reached. -/
def State.dues (s : State) : List Due :=
  (s.lay.cal.filter (fun e => e.lt.ule s.lay.time)).map .pkg ++
    (List.range 12).flatMap (fun n => ((s.part n).cal.filter (fun e => e.1.ule s.lay.time)).map (fun e => .part n e.1 e.2.1 e.2.2.1 e.2.2.2))

def firstDue (l : List Due) : Option Due :=
  l.foldl (fun b d => match b with | none => some d | some c => if keyLt (dueKey d) (dueKey c) then some d else some c) none

/-- A late firing is counted. [DEDUCED: log 111] -/
def State.countLate (s : State) (late : Bool) : State :=
  if late then { s with lay := { s.lay with lateCnt := satAdd s.lay.lateCnt 1 0xFFFF } } else s

/-- Six hours of Lay time (13 R376). [DEDUCED: log 132] -/
def ageingLt : Word := 21600000000000

/-- The event of a package entry. -/
def State.firePkg (s : State) (e : CalEntry) : State :=
  match e.ev with
  | .linkWindow mask _ => (maskList mask.toNat 32).foldl State.enterWindow s
  | .topology => match s.router.nextTopos.find? (fun t => t.actLt == e.lt) with
    | some t => s.activate t
    | none => s
  | .sample buf => s.takeSample buf e.late
  | .desc k => match s.desc? k with
    | some d => s.setDesc k { d with ready := true, late := e.late, aux := s.lay.time.toNat }
    | none => s

/-- A phase release (R310): the word of every tile of the job on the partition takes the value. -/
def State.firePhase (s : State) (n : Nat) (k : DescKey) (off : Nat) (v : Word) : State :=
  match s.job? k with
  | none => s
  | some j => (j.tiles.filter (fun t => t / 72 == n && (s.tile t).tenant == j.tenant)).foldl (fun s t => s.spWrite t off (leBytes 8 v.toNat)) s

/-- The event of a partition entry. An ageing measurement that finds the one before still waiting has skipped that one
(13 R376). -/
def State.firePart (s : State) (n : Nat) (lt : Word) : PCal → State
  | .opRaise => s.raiseDue n
  | .unparkStep k => s.unparkTry k
  | .ageing =>
    let p := s.part n
    (s.setPart n { p with ageDue := true, ageSkipped := if p.ageDue then satAdd p.ageSkipped 1 0xFFFF else p.ageSkipped }).armPart n (lt + ageingLt) .ageing
  | .phase k off v => s.firePhase n k off v

/-- The entry leaves its calendar, a late firing is counted, and the event fires. [DEDUCED: log 132] -/
def State.fireDue (s : State) : Due → State
  | .pkg e =>
    let s := { s with lay := { s.lay with cal := s.lay.cal.filter (fun x => x.slot != e.slot) } }
    ((s.countLate e.late).raise (1121 + e.slot)).firePkg e
  | .part n lt no late ev =>
    let s := s.setPart n { s.part n with cal := (s.part n).cal.filter (fun x => x.2.1 != no) }
    (s.countLate late).firePart n lt ev

/-- CALENDAR_FIRE (R311): the first due event fires. [DEDUCED: log 111] -/
def execCalendarFire (s : State) : Host.Outcome State Fault Refusal :=
  .next (if !s.railsOn then s else match firstDue s.dues with
    | none => s
    | some d => s.fireDue d)

/-- PHASE_RELEASE (R310, R311): the first due release of the partition, unless an event of its Lay time goes before it. -/
def execPhaseRelease (n : PartNo) (s : State) : Host.Outcome State Fault Refusal :=
  let mine := s.dues.filter (fun d => match d with | .part m _ _ _ (.phase ..) => m == n.val | _ => false)
  .next (if !s.railsOn then s else match firstDue mine with
    | none => s
    | some d =>
      if s.dues.any (fun x => (dueKey x).1 == (dueKey d).1 && decide ((dueKey x).2.1 < (dueKey d).2.1)) then s
      else s.fireDue d)

/-- TOPOLOGY_ACTIVATION (07 R191): the activation that is first due. -/
def execTopologyActivation (s : State) : Host.Outcome State Fault Refusal :=
  .next (if !s.railsOn then s else match firstDue s.dues with
    | some (.pkg e) => (match e.ev with
      | .topology => s.fireDue (.pkg e)
      | _ => s)
    | _ => s)

end Sys2Proof.Machine
end

