-- ==== Sys2Proof/Machine/TileControl.lean ====
section
/-!
DEFINITION. Core control: branches, window calls (02 R31, R32), the trap return (R37), control registers (R34), firmware
calls (R42, 10 R310), DONE and HALT (R61), and the spill area (R33).
-/

namespace Sys2Proof.Machine

/-- [DEDUCED: log 24] -/
def execBr (t : TileNo) (cond : Reg) (rs1 : Reg) (imm : BitVec 16) (s : State) : Host.Outcome State Fault Refusal :=
  .next (s.runInstr t.val (fun x =>
    if cond = 6 ∧ rs1 ≠ 0 then .trap s vecIllegal 0 x.pc else
    match branchTaken cond.toNat (x.reg rs1).toInt with
    | some true => .jump s (dispTarget x.pc imm)
    | some false => .next s
    | none => .trap s vecIllegal 0 x.pc))

/-- A window call (R32): DEP 6 overflows; else FRM advances, DEP rises, p7 of the new window takes the return address. Window
7 has no next program window, so a call there is illegal. [DEDUCED: log 22] -/
def State.windowCall (s : State) (n : Nat) (x : Tile) (target : Word) : IRes :=
  if x.cst.dep = 6 then .trap s vecOverflow 0 x.pc
  else if x.cst.frm = 7 then .trap s vecIllegal 0 x.pc
  else
    let g := (x.cst.frm.toNat + 1) % 7
    let x' := { x with cst := { x.cst with frm := BitVec.ofNat 3 g, dep := x.cst.dep + 1 } }
    .jump (s.setTile n (x'.setGroupReg g 7 (x.pc + 4))) target

def execCall (t : TileNo) (disp : BitVec 26) (s : State) : Host.Outcome State Fault Refusal :=
  .next (s.runInstr t.val (fun x => s.windowCall t.val x (dispTarget x.pc disp)))

def execCallr (t : TileNo) (rs1 : Reg) (s : State) : Host.Outcome State Fault Refusal :=
  .next (s.runInstr t.val (fun x => s.windowCall t.val x (x.reg rs1)))

/-- RET (R32): to the address in p7, the window retreats; DEP 1 underflows. [DEDUCED: log 22] -/
def execRet (t : TileNo) (s : State) : Host.Outcome State Fault Refusal :=
  .next (s.runInstr t.val (fun x =>
    if x.cst.dep = 1 then .trap s vecUnderflow 0 x.pc
    else if x.cst.frm = 7 then .trap s vecIllegal 0 x.pc
    else
      .jump (s.setTile t.val { x with
        cst := { x.cst with frm := BitVec.ofNat 3 ((x.cst.frm.toNat + 6) % 7), dep := x.cst.dep - 1 } }) (x.reg 23)))

def execJmpl (t : TileNo) (rd rs1 : Reg) (imm : BitVec 16) (s : State) : Host.Outcome State Fault Refusal :=
  .next (s.runInstr t.val (fun x => .jump (s.writeReg t.val rd (x.pc + 4)) (x.reg rs1 + simm imm)))

/-- The return from an event trap ends the events it found (R36). [DESIGN CHOICE: log 7] -/
def Tile.eventsSeen (x : Tile) : Tile :=
  if x.xcause.toNat % 256 = vecEvent then { x with event := x.event &&& ~~~x.evSeen, evSeen := 0 } else x

/-- XRET (R37): CST from XCST, which undoes the implicit window advance, and on at XPC. Firmware only. -/
def execXret (t : TileNo) (s : State) : Host.Outcome State Fault Refusal :=
  .next (s.runInstr t.val (fun x =>
    if !x.cst.pl then .trap s vecPrivileged 0 x.pc
    else .jump (s.setTile t.val { x.eventsSeen with cst := x.xcst }) x.xpc))

/-- The control register at an index, as CRR reads it (R34). -/
def State.ctlRead (s : State) (n : Nat) (x : Tile) (i : Nat) : Word :=
  match i with
  | 0 => x.cst.word
  | 1 => x.xcst.word
  | 2 => x.xpc
  | 3 => x.xcause
  | 4 => x.xval
  | 5 => x.xbase
  | 6 => BitVec.ofNat 64 x.spp
  | 7 => x.wto
  | 8 => BitVec.ofNat 64 ((s.ltidOf n).getD 0)
  | 9 => x.tenant.setWidth 64
  | 10 => x.job.setWidth 64
  | 11 => x.ring.setWidth 64
  | 12 => BitVec.ofNat 64 (s.tcOf n - x.cycle0)
  | 13 => s.lay.time
  | 14 => x.astat
  | _ => x.eventBits.setWidth 64

/-- A tenant may read indices 7 to 15 and write 7 and 14 (R34). -/
def ctlTenantRead (i : Nat) : Bool := decide (7 ≤ i)
def ctlTenantWrite (i : Nat) : Bool := decide (i = 7 ∨ i = 14)

/-- A control register write (R34); a read-only index ignores it. [DEDUCED: log 25] -/
def Tile.ctlWrite (x : Tile) (i : Nat) (v : Word) : Tile :=
  match i with
  | 0 => { x with cst := Cst.ofWord v }
  | 1 => { x with xcst := Cst.ofWord v }
  | 2 => { x with xpc := v }
  | 3 => { x with xcause := v &&& 0xFFFF }
  | 4 => { x with xval := v }
  | 5 => { x with xbase := v &&& 0xFFFFFFFFFFFFFC00 }
  | 6 => { x with spp := v.toNat }
  | 7 => { x with wto := v }
  | 14 => { x with astat := v &&& astatMask }
  | _ => x

def execCrr (t : TileNo) (rd : Reg) (idx : BitVec 4) (s : State) : Host.Outcome State Fault Refusal :=
  .next (s.runInstr t.val (fun x =>
    if !x.cst.pl && !ctlTenantRead idx.toNat then .trap s vecPrivileged 0 x.pc
    else .next (s.writeReg t.val rd (s.ctlRead t.val x idx.toNat))))

/-- [DEDUCED: log 25] -/
def execCrw (t : TileNo) (rs1 : Reg) (idx : BitVec 4) (s : State) : Host.Outcome State Fault Refusal :=
  .next (s.runInstr t.val (fun x =>
    if !x.cst.pl && !ctlTenantWrite idx.toNat then .trap s vecPrivileged 0 x.pc
    else .next (s.setTile t.val (x.ctlWrite idx.toNat (x.reg rs1)))))

/-- A firmware call served by the tile firmware (R42): the trap of vector 0x0E is taken, the firmware serves it and
returns past the TRAPI with a value in q0. In window 7 it is a double trap; at DEP 6 the overflow comes first (R37).
XCAUSE.detail holds the call number and XVAL the address of the TRAPI. [DEDUCED: log 29, DESIGN CHOICE: log 174] -/
def State.fwCall (s : State) (n : Nat) (x : Tile) (num : Nat) (v : Word) : IRes :=
  if x.cst.frm = 7 ∨ x.cst.dep = 6 then .trap s vecFirmware num x.pc
  else
    .next (s.setTile n { x.setReg 24 v with
      xcst := x.cst, xpc := x.pc + 4, xcause := BitVec.ofNat 64 (vecFirmware + 256 * num), xval := x.pc })

/-- Phase releases on a partition's calendar (10 R308): entries 4 to 15. -/
def Part.phaseCount (p : Part) : Nat :=
  (p.cal.filter (fun e => match e.2.2.2 with | .phase .. => true | _ => false)).length

/-- Arms a phase release (10 R310, R311): q0 Lay time, q1 word offset, q2 value; answers 0, 1 or 2. -/
def State.armPhase (s : State) (n : Nat) (x : Tile) : State × Word :=
  let lt := x.reg 24
  let off := (x.reg 25).toNat
  let p := s.part (n / 72)
  if off % 8 ≠ 0 ∨ !inProg off 8 then (s, 2)
  else if 12 ≤ p.phaseCount then
    ({ s with lay := { s.lay with fullCnt := satAdd s.lay.fullCnt 1 0xFFFF } }, 1)
  else
    let e := (lt, s.lay.armNo, lt.ule s.lay.time, PCal.phase x.key off (x.reg 26))
    ({ s with lay := { s.lay with armNo := s.lay.armNo + 1 } }.setPart (n / 72) { p with cal := p.cal ++ [e] }, 0)

/-- The phase release call; a call that traps first arms nothing. -/
def State.phaseCall (s : State) (n : Nat) (x : Tile) : IRes :=
  if x.cst.frm = 7 ∨ x.cst.dep = 6 then .trap s vecFirmware 0x10 x.pc
  else
    let (s', v) := s.armPhase n x
    s'.fwCall n x 0x10 v

/-- [DEDUCED: log 29] -/
def execTrapi (t : TileNo) (num : Byte) (s : State) : Host.Outcome State Fault Refusal :=
  .next (s.runInstr t.val (fun x =>
    if num = 0x10 then s.phaseCall t.val x else s.fwCall t.val x num.toNat 0xFFFFFFFFFFFFFFFF))

def execPhaseReleaseArm (t : TileNo) (s : State) : Host.Outcome State Fault Refusal :=
  .next (s.runInstr t.val (fun x => s.phaseCall t.val x))

/-- BRK raises the breakpoint trap; a word that no instruction claims raises the illegal-instruction trap (R36, R41). A word
that another instruction claims is that instruction's and not this command's: nothing happens. [DESIGN CHOICE: log 185] -/
def execBrk (w : CoreWord) (s : State) : Host.Outcome State Fault Refusal :=
  .next (if w.word == brkWord then s.runInstr w.tile.val (fun x => .trap s vecBreak 0 x.pc)
    else if claimed w.word then s
    else s.runInstr w.tile.val (fun x => .trap s vecIllegal 0 x.pc))

/-- DONE (R61): takes effect when the queues are empty and every handle and acknowledged access has completed.
[DEDUCED: log 37] -/
def execDone (t : TileNo) (s : State) : Host.Outcome State Fault Refusal :=
  .next (s.runInstr t.val (fun x => .hold ((s.setTile t.val { x with wait := .done }).settle t.val)))

/-- HALT (R61): stops the core at once; a tile fault with cause 0x06. Firmware only. -/
def execHalt (t : TileNo) (s : State) : Host.Outcome State Fault Refusal :=
  .next (s.runInstr t.val (fun x =>
    if !x.cst.pl then .trap s vecPrivileged 0 x.pc
    else .hold ((s.setTile t.val { x with running := false, halted := true }).tileFault t.val 6
      ([0, 0, 0, 0] ++ leBytes 4 x.pc.toNat))))

/-- SPILL (R33): group (c + 2) mod 7 to the 64 bytes at SPP. At tenant level outside window 7 the privilege trap comes first.
[DEDUCED: log 23, DESIGN CHOICE: log 175] -/
def execSpill (t : TileNo) (s : State) : Host.Outcome State Fault Refusal :=
  .next (s.runInstr t.val (fun x =>
    if !x.cst.pl then .trap s vecPrivileged 0 x.pc
    else if x.cst.frm ≠ 7 then .trap s vecIllegal 0 x.pc
    else if spadEnd < x.spp + 64 then .trap s vecAddress 1 x.pc
    else
      let g := (x.xcst.frm.toNat + 2) % 7
      let b := (List.range 8).flatMap (fun i => leBytes 8 (x.groupReg g i).toNat)
      let s' := s.spWrite t.val x.spp b
      .next (s'.setTile t.val { s'.tile t.val with
        spp := x.spp + 64, xcst := { x.xcst with dep := x.xcst.dep - 1 } })))

/-- FILL (R33): the 64 bytes below SPP to group (c + 6) mod 7; a double-bit word met there takes vector 0x07.
[DEDUCED: log 23, DESIGN CHOICE: log 175, DESIGN CHOICE: log 176] -/
def execFill (t : TileNo) (s : State) : Host.Outcome State Fault Refusal :=
  .next (s.runInstr t.val (fun x =>
    if !x.cst.pl then .trap s vecPrivileged 0 x.pc
    else if x.cst.frm ≠ 7 then .trap s vecIllegal 0 x.pc
    else if x.spp ≤ spillBase ∨ spadEnd < x.spp then .trap s vecAddress 2 x.pc
    else
      match s.spRead t.val (x.spp - 64) 64 with
      | (s', .error w) => .trap s' vecScratchpad 0 (BitVec.ofNat 64 (8 * w))
      | (s', .ok b) =>
        let g := (x.xcst.frm.toNat + 6) % 7
        let x' := (List.range 8).foldl (fun y i => y.setGroupReg g i (BitVec.ofNat 64 (fieldLE b (8 * i) 8)))
          (s'.tile t.val)
        .next (s'.setTile t.val { x' with spp := x.spp - 64, xcst := { x.xcst with dep := x.xcst.dep + 1 } })))

end Sys2Proof.Machine
end

