-- ==== Sys2Proof/Machine/Reset.lean ====
section
/-!
DEFINITION. Resets of tiles, clusters and partitions, the sample and the reconciliation of a partition (17 R451 to R476,
18 R479 to R482, R496).
-/

namespace Sys2Proof.Machine

/-! ### Records and orders (R452, R475, R476) -/

/-- A reset record (R474). -/
def State.resetRecord (s : State) (part scope status cause jobs quar slot retired : Nat) : State :=
  s.logErr { ErrRec.blank 2 cause s.lay.time with
    part := BitVec.ofNat 8 part, gen := if part < 12 then (s.psw part).gen else 0,
    tenant := if part < 12 then (s.psw part).tenant.setWidth 8 else 0xFF,
    data := [BitVec.ofNat 8 scope, BitVec.ofNat 8 status, 0, 0] ++ leBytes 4 jobs ++ leBytes 2 quar ++ [BitVec.ofNat 8 slot, BitVec.ofNat 8 retired] }

def offPrtRst : Nat := 0x300300

/-- The veto of the plinth supervisor (R453). -/
def State.vetoed (s : State) : Bool := s.zeroizing || !s.boot.ready || s.boot.shutdown

/-- A refused order: STATUS and its record. -/
def State.rstRefuse (s : State) (scope status : Nat) : State :=
  ({ s with rst := { s.rst with status := BitVec.ofNat 4 status } }).resetRecord 0xFF scope status (if status = 3 then 3 else 1) 0 0 0xFF 0

/-- The driver's order in progress ends when nothing of it is left. -/
def State.rstDone (s : State) : State :=
  if s.rst.busy && s.rst.tiles.isEmpty && s.rst.waiting.isEmpty then { s with rst := { s.rst with busy := false } } else s

/-! ### Tiles (R457, R458) -/

/-- Entries of the outstanding table that are not old. -/
def State.liveEntries (s : State) (t : Nat) (m : SMap Outst) : Nat := (m.filter (fun e => !s.isOld t e.2)).length

/-- Nothing of the tile port is outstanding. -/
def State.drained (s : State) (t : Nat) : Bool := s.liveEntries t (s.tile t).reads == 0 && s.liveEntries t (s.tile t).writes == 0

/-- The tile's streams leave the pointing engines. -/
def State.dropTileStreams (s : State) (t : Nat) : State :=
  (List.range 12).foldl (fun s n => ((s.stack n).streams.filter (fun x => x.tile == t)).foldl (fun s x => s.dropStream n x.sid) s) s

/-- Steps 1 and 2 of R457, and of step 3 the retried requests, which are not sent again. -/
def State.tileStop (s : State) (t : Nat) (fromDriver crcOk : Bool) : State :=
  let s := s.dropTileStreams t
  let x := s.tile t
  s.setTile t { x with running := false, tq := [], vq := [], tfault := none, vfault := none, lateErr := none,
                       reads := x.reads.filter (fun e => !e.2.retry || s.isOld t e.2),
                       writes := x.writes.filter (fun e => !e.2.retry || s.isOld t e.2), drain := some (fromDriver, crcOk) }

/-- What the drain limit leaves stays as old (R465). -/
def Tile.allOld (x : Tile) : Tile :=
  { x with reads := x.reads.map (fun e => (e.1, { e.2 with old := true })), writes := x.writes.map (fun e => (e.1, { e.2 with old := true })) }

/-- Steps 4 and 5 of R457: program region and spill area zero, every register zero but TENANT, which follows the partition's
(02 R63), and CYCLE, which counts from here (02 R34); every handle free; with the firmware bad twice the tile stays halted and
is marked. [DEDUCED: log 165] -/
def Tile.cleared (x : Tile) (crcOk : Bool) (tc : Nat) (ten : BitVec 7) : Tile :=
  { x.allOld with
    common := .replicate 16 0, groups := .replicate 64 0, pc := 0, cst := .zero, xcst := .zero, xpc := 0, xcause := 0, xval := 0,
    xbase := 0, spp := 0, wto := 0, tenant := ten, job := 0, ring := 0, cycle0 := tc, astat := 0, event := 0, evSeen := 0, running := false,
    halted := !crcOk, marked := x.marked || !crcOk, wait := .none, bars := 0, scratch := Memory.clear x.scratch progBase spadEnd,
    upsets := x.upsets.filter (fun e => decide (8 * e.1 < progBase)), tq := [], vq := [], tfault := none, vfault := none, lateErr := none,
    tAst := [], vAst := [], drain := none, handles := .replicate 8 .free }

/-- The firmware region is checked against the image and reloaded where it differs (R457 step 5); nothing has been broadcast yet
where there is no image. -/
def State.fwReload (s : State) (t : Nat) : State :=
  if s.fwImage.isEmpty || (s.tile t).scratch.readN 0 progBase == s.fwImage then s else s.putFirmware s.fwImage t

/-- A tile at the end of its reset. -/
def State.clearTile (s : State) (t : Nat) (crcOk : Bool) : State :=
  let s := s.fwReload t
  s.setTile t ((s.tile t).cleared crcOk (s.tcOf t) (s.psw (t / 72)).tenant)

/-- A job that a partition reset ended completes once every partition reset and tile reset it waits for is over (R462). -/
def State.abortTry (s : State) (k : DescKey) : State :=
  match s.job? k with
  | none => s
  | some j => match j.aborted with
    | none => s
    | some n =>
      if !j.resets.isEmpty || (List.range 12).any (fun m => match (s.part m).reset with
        | some r => r.jobs.contains k
        | none => false) then s
      else s.jobEnd k 8 n

/-- Jobs whose end waits for a reset of the tile. -/
def State.resetFor (s : State) (t : Nat) : List (DescKey × Job) := s.jobs.filter (fun e => e.2.resets.contains t)

/-- The reset of a tile is over: the order, the jobs that waited for it, the next launch. [DEDUCED: log 163] -/
def State.tileResetEnd (s : State) (t : Nat) (fromDriver crcOk : Bool) : State :=
  let waits := s.resetFor t
  let s := s.clearTile t crcOk
  let s := waits.foldl (fun s e => s.setJob e.1 { e.2 with resets := e.2.resets.filter (· != t) }) s
  let s := if fromDriver && s.rst.tiles.contains t then
      let scope := s.reg offPrtRst 0 % 4
      let s := { s with rst := { s.rst with tiles := s.rst.tiles.filter (· != t), status := if crcOk then s.rst.status else 5 } }
      if s.rst.tiles.isEmpty then (s.resetRecord (t / 72) scope s.rst.status.toNat 1 0 0 0xFF 0).rstDone else s
    else if fromDriver then s
    else
      let cut := waits.any (fun e => e.2.aborted.isSome)
      (if cut then s else s.draw).resetRecord (t / 72) 0 (if crcOk then 0 else 5)
        (if cut then 6 else 1 + (Config.freeByte s.free).toNat % 6) 0 0 0xFF 0
  let s := waits.foldl (fun s e => s.abortTry e.1) s
  if crcOk then s.nextOnTile t else s

/-- A tile reset begins; with nothing outstanding it ends at once. [DEDUCED: log 164] -/
def State.tileResetStart (s : State) (t : Nat) (fromDriver crcOk : Bool) : State :=
  let s := s.tileStop t fromDriver crcOk
  if s.drained t then s.tileResetEnd t fromDriver crcOk else s

/-- The condition of R456 for a tile that the driver names. [DEDUCED: log 60] -/
def State.mayResetTile (s : State) (t : Nat) : Bool :=
  let st := (s.psw (t / 72)).state
  st != .off && st != .resetting && ((s.tile t).halted || (s.ltidOf t).isNone || st == .idle || st == .fenced)

/-- The four tiles of a tile's cluster (01 R10). -/
def clusterOf (t : Nat) : List Nat :=
  let b := 72 * (t / 72)
  let r := 2 * ((t % 72) / 24)
  let c := 2 * ((t % 12) / 2)
  [b + 12 * r + c, b + 12 * r + c + 1, b + 12 * (r + 1) + c, b + 12 * (r + 1) + c + 1]

/-- The driver's order for tiles passes R456 and R453 or is refused. -/
def State.orderTiles (s : State) (scope : Nat) (l : List Nat) (crcOk : Bool) : State :=
  if !l.all s.mayResetTile then s.rstRefuse scope 2
  else if s.vetoed then s.rstRefuse scope 3
  else
    let s := { s with rst := { s.rst with busy := true, status := 0, tiles := l, waiting := [] } }
    l.foldl (fun s t => s.tileResetStart t true crcOk) s

/-! ### Partition reset: beginning (R459 step 1, R482) -/

/-- The jobs of a partition are marked as ended by its reset; their tiles elsewhere are to be reset (R462).
[DEDUCED: log 166] -/
def State.abortJob (s : State) (n : Nat) (k : DescKey) : State :=
  match s.job? k with
  | none => s
  | some j =>
    let other := j.tiles.filter (fun t => t / 72 != n && (s.psw (t / 72)).state != .resetting)
    let busy := other.filter (fun t => ((s.tile t).running || (s.tile t).halted) && (s.tile t).key == k)
    let s := s.setJob k { j with aborted := some (j.aborted.getD n),
                                 resets := (if j.aborted.isSome ∨ j.fault.isSome then j.resets else busy).filter (fun t => t / 72 != n) }
    other.foldl (fun s t => s.setTile t { s.tile t with jobs := (s.tile t).jobs.filter (fun x => !(x == k)) }) s

/-- The reset of a partition begins. -/
def State.resetBegin (s : State) (n : Nat) (cause : BitVec 8) (driver holds : Bool) : State :=
  let s := s.endRotation n
  let p := s.part n
  let w := p.psw
  let entered := if w.state = .fenced ∨ w.fencePend then w.fenceCause else 0
  let jobs := p.jobs
  let s := s.setPart n { p with waiting := [], rampWait := false, stepDue := none, reset := some { step := 2, cause := cause, entered := entered, recorded := [], standing := [], jobs := jobs, driver := driver, sample := none, retired := 0, holds := holds, overfull := [] } }
  let s := s.pswChange n (fun q => { q with state := .resetting, fencePend := false, gen := q.gen + 1 })
  jobs.foldl (fun s k => s.abortJob n k) s

/-- The order waits for a tenant change (11 R319) or for the release of a rotation's new record (05 R152). -/
def State.resetWaits (s : State) (n : Nat) : Bool :=
  s.changing n || s.zeroizing || (match (s.part n).rot with | some r => decide (5 ≤ r.step) | none => false)

/-- An order for the reset of a partition: carried out, or held. A partition that is Off takes none; one that is Resetting
notes only that a hard trip holds. [DEDUCED: log 171] -/
def State.resetOrder (s : State) (n : Nat) (cause : BitVec 8) (driver holds : Bool) : State :=
  let p := s.part n
  match p.psw.state with
  | .off => if driver then ({ s with rst := { s.rst with waiting := s.rst.waiting.filter (· != n) } }).rstDone else s
  | .resetting => match p.reset with
    | some r => s.setPart n { p with reset := some { r with holds := r.holds || holds } }
    | none => s
  | _ =>
    if s.resetWaits n then s.setPart n { p with resetsHeld := p.resetsHeld ++ [(cause, driver, holds)] }
    else s.resetBegin n cause driver holds

/-- The driver's order for partitions (R452). -/
def State.orderParts (s : State) (mask : Nat) : State :=
  if mask = 0 ∨ 4096 ≤ mask then s.rstRefuse 2 1
  else
    let l := maskList mask 12
    if l.any (fun n => (s.psw n).state == .off || (s.psw n).state == .resetting) then s.rstRefuse 2 2
    else if s.vetoed then s.rstRefuse 2 3
    else l.foldl (fun s n => s.resetOrder n 1 true false) { s with rst := { s.rst with busy := true, status := 0, tiles := [], waiting := l } }

/-- The writable fields of PRT_RST. -/
def prtRstMask : Nat := 0x3FFFFF3

/-- A write of PRT_RST with GO, for the units below a package (R452): a write while BUSY is ignored and reads Busy.
[DEDUCED: log 113] -/
def State.prtRst (s : State) (v : Nat) (crcOk : Bool) : State :=
  if s.rst.busy then { s with rst := { s.rst with status := 4 } }
  else
    let s := s.setReg offPrtRst 0 (v &&& prtRstMask)
    let lt := bits v 25 16
    match v % 4 with
    | 0 | 1 =>
      if 840 ≤ lt then s.rstRefuse (v % 4) 1
      else match s.physOf lt with
        | none => s.rstRefuse (v % 4) 2
        | some t => s.orderTiles (v % 4) (if v % 4 = 0 then [t] else clusterOf t) crcOk
    | _ => s.orderParts (bits v 15 4)

/-- TILE_RESET (R457): the driver's order for a logical tile, or the control complex's for a tile of a job it ends. -/
def execTileReset (t : TileNo) (fromDriver crcOk : Bool) (s : State) : Host.Outcome State Fault Refusal :=
  .next (if fromDriver then
      match s.ltidOf t.val with
      | some l => if s.barLive then s.barAccess.prtRst (fieldAt 1 2 1 + fieldAt l 16 10) crcOk else s
      | none => s
    else if s.railsOn && !(s.resetFor t.val).isEmpty && (s.tile t.val).drain.isNone then s.tileResetStart t.val false crcOk
    else s)

/-- CLUSTER_RESET (R458). -/
def execClusterReset (v : Word) (crcOk : Bool) (s : State) : Host.Outcome State Fault Refusal :=
  .next (if s.barLive && v.getLsbD 2 && v.toNat % 4 == 1 then s.barAccess.prtRst v.toNat crcOk else s)

/-- PARTITION_RESET (R459). -/
def execPartitionReset (v : Word) (s : State) : Host.Outcome State Fault Refusal :=
  .next (if s.barLive && v.getLsbD 2 && v.toNat % 4 == 2 then s.barAccess.prtRst v.toNat true else s)

/-- HARD_TRIP (R454): the reset is forced; whether the condition still holds at step 7 comes with it. -/
def execHardTrip (n : PartNo) (holds : Bool) (s : State) : Host.Outcome State Fault Refusal :=
  .next (if s.railsOn then s.resetOrder n.val 2 false holds else s)

/-- DRAIN_LIMIT (R457): the drain of a tile's reset ends, at the latest at 100 µs; what is unanswered stays as old.
[DEDUCED: log 164] -/
def execDrainLimit (t : TileNo) (s : State) : Host.Outcome State Fault Refusal :=
  .next (match (s.tile t.val).drain with
    | none => s
    | some (d, ok) => if (s.psw (t.val / 72)).state = .resetting then s else s.tileResetEnd t.val d ok)

/-! ### The sample (R467, R468) -/

def sampleKib (c : Nat) : Nat := min 16 (bits c 4 0)
def State.sampleCfg (s : State) : Nat := s.reg 0x300600 0x30

/-- One core block; a control-only one leaves the registers of the core out. -/
def State.coreBlock (s : State) (t : Nat) (all : Bool) : List Byte :=
  let x := s.tile t
  let w (v : Word) := leBytes 8 v.toNat
  let flags := b2n x.halted + 2 * b2n (match x.wait with | .waitv .. => true | .bar => true | .layw .. => true | _ => false)
  let dma := listMask ((List.range 8).filter (fun h => (x.handles.toList.getD h .free).isRunning))
  let regs := (x.common.toList.drop 1).flatMap w ++ List.replicate 8 0 ++ x.groups.toList.flatMap w ++ List.replicate 128 0
  (List.range 16).flatMap (fun i => w (s.ctlRead t x i)) ++ w x.pc ++ [BitVec.ofNat 8 x.tq.length, BitVec.ofNat 8 x.vq.length, BitVec.ofNat 8 dma, BitVec.ofNat 8 flags] ++
    List.replicate 116 0 ++ (if all then regs else List.replicate 768 0)

/-- The sample of a partition (R467); SEQ of the reset record follows when that is written. [DEDUCED: log 168] -/
def State.sampleOf (s : State) (n : Nat) : List Byte :=
  let w := s.psw n
  let full := w.tenant == 0
  let kib := sampleKib s.sampleCfg
  let head : List Byte := [1, BitVec.ofNat 8 n, w.gen, w.tenant.setWidth 8, BitVec.ofNat 8 kib, BitVec.ofNat 8 (b2n !full), 0, 0] ++
    leBytes 8 s.lay.time.toNat ++ List.replicate 48 0
  head ++ ((s.tilesOf n).flatMap (fun t => s.coreBlock t full ++ (if full then Memory.readN (s.tile t).scratch 0 (1024 * kib) else [])))

/-- The slot a sample takes: the lowest free one, else the oldest. [DEDUCED: log 168] -/
def Rst.slotFor (r : Rst) : Nat × Bool :=
  match (List.range 4).find? (fun i => (SMap.find? r.samples i).isNone) with
  | some i => (i, false)
  | none => ((r.samples.foldl (fun (b : Nat × Nat) e => if e.2.2 < b.2 then (e.1, e.2.2) else b) (0, r.sampleNo)).1, true)

/-- Step 3 of R459. -/
def State.sampleStep (s : State) (n : Nat) : State × Option Nat :=
  if !bitAt s.sampleCfg 5 then (s, none)
  else
    let (i, lost) := s.rst.slotFor
    ({ s with rst := { s.rst with samples := SMap.set s.rst.samples i (s.sampleOf n, s.rst.sampleNo), sampleNo := s.rst.sampleNo + 1,
                                  overwr := if lost then satAdd s.rst.overwr 1 0xFF else s.rst.overwr } }, some i)

/-! ### Partition reset: the steps (R459 to R461, R463) -/

def partTiles (n : Nat) : List Nat := (List.range 72).map (· + 72 * n)

/-- Step 2: a smaller order is taken over (R471), open fused steps end with ABORT, and every tile stops. -/
def State.resetStop (s : State) (n : Nat) : State :=
  let mine := s.rst.tiles.any (fun t => t / 72 == n)
  let s := if mine then
      let scope := s.reg offPrtRst 0 % 4
      (({ s with rst := { s.rst with tiles := [], status := 6 } }).resetRecord n scope 6 1 0 0 0xFF 0).rstDone else s
  let s := (partTiles n).foldl (fun s t => if ((s.tile t).openRun).isSome then s.memberFault t 0x24 else s) s
  (partTiles n).foldl (fun s t => (s.tileStop t false true).setTile t { (s.tileStop t false true).tile t with jobs := [] }) s

/-- Step 4: what is unanswered becomes old, the staging slots of the partition's tiles are freed, and the slot requests for them
are answered with SLOT 0x1FF (R463). -/
def State.resetDrain (s : State) (n : Nat) : State :=
  let s := (partTiles n).foldl (fun s t => s.setTile t (s.tile t).allOld) s
  let full := (partTiles n).filter (fun t => decide (32 < (s.tile t).reads.length + (s.tile t).writes.length))
  let s := match (s.part n).reset with
    | some r => s.setPart n { s.part n with reset := some { r with overfull := full } }
    | none => s
  let hit (k : Slot) := k.tiles.any (fun t => t / 72 == n)
  let gone := s.staging.reqs.filter (fun r => match s.team? r.tenant r.team.toNat with
    | some tm => (s.recipients tm r.kind r.srcRank r.dst).any (fun t => t / 72 == n)
    | none => false)
  let s := { s with staging := { s.staging with slots := s.staging.slots.filter (fun e => !hit e.2), reqs := s.staging.reqs.filter (fun r => !gone.contains r) } }
  gone.foldl (fun s r => match colMsg r.pkt 1 tMSG with
    | some c => s.noSlot r.pkt c
    | none => s) s

/-- A seam port of the partition, of the 24 of its die, is in service. -/
def State.seamLeft (s : State) (n : Nat) : Bool :=
  (List.range 24).any (fun q => seamOwner (decide (6 ≤ n)) q == n && s.router.seamUp (decide (6 ≤ n)) q)

/-- Seam ports that passed their test return to service (R460). -/
def State.seamsBack (s : State) (n : Nat) (l : List (Fin 24)) : State :=
  let east := decide (6 ≤ n)
  let m := BitVec.ofNat 24 (listMask ((l.map (·.val)).filter (fun q => seamOwner east q == n)))
  s.modRouter fun r => if east then { r with seamEast := r.seamEast ||| m } else { r with seamWest := r.seamWest ||| m }

/-- Step 5: the tile firmware is reloaded by broadcast (05 R154), tiles cleared, the stack controller's queues and banks emptied, the calendar cleared, the cause entered with repaired
or left standing (R460). A stream of another partition's tile ends as a refusal of R463 (DEDUCED). The plinth supervisor arms the ageing measurement anew (10 R312).
[DEDUCED: log 167] -/
def State.resetClear (s : State) (n : Nat) (r : ResetRun) (crcBad : List TileNo) (channelBad : Bool) (seamsOk : List (Fin 24)) : State :=
  let s := if s.fwImage.isEmpty then s else
    ((s.liveTiles n).foldl (fun s t => s.putFirmware s.fwImage t) s).cast (2 ^ n) (.firmware s.fwImage)
  let s := (partTiles n).foldl (fun s t =>
    let s := s.clearTile t (!crcBad.any (fun b => b.val == t))
    s.setTile t { s.tile t with scrubPos := 0 }) s
  let k := s.stack n
  let s := s.setStack n { k with queue := [], streams := [], banks := .replicate 2 .empty, selfRef := false, retrains := [] }
  let s := k.streams.foldl (fun s x => if x.tile / 72 = n then s else s.dmaEnd x.tile x.handle 5) s
  let ageing := (s.part n).cal.filter (fun e => match e.2.2.2 with | .ageing => true | _ => false)
  let s := s.setPart n { (s.part n).dropRaise with cal := ageing }
  let s := if r.entered = 4 then s.seamsBack n seamsOk else s
  let left : List (BitVec 8) := (if r.entered = 3 ∧ channelBad then [3] else []) ++ (if r.entered = 4 ∧ !s.seamLeft n then [4] else [])
  s.setPart n { s.part n with reset := some { r with standing := r.standing ++ left } }

/-- Step 6: marked tiles and tiles with more than 32 old entries retire, and the record is built with the next EPOCH (R461); with
three retired there is none, and EPOCH keeps its value (05 R146). -/
def State.resetRetire (s : State) (n : Nat) (r : ResetRun) : State :=
  let p := s.part n
  let out := (List.range 72).filter (fun x => !p.retired.contains x &&
    ((s.tile (72 * n + x)).marked || r.overfull.contains (72 * n + x)))
  let all := p.retired ++ out
  let r := { r with retired := out.length, standing := if 2 < all.length then r.standing ++ [1] else r.standing }
  let s := s.setPart n { p with retired := all, reset := some r }
  if out.isEmpty then s
  else match buildArm all (p.epoch + 1) with
    | some a => s.setArm n a
    | none => s.setPart n { s.part n with arm := none }

/-- RESET_STEP (R459): the step in progress completes and the next begins; a held order whose wait is over begins. -/
def execResetStep (n : PartNo) (crcBad : List TileNo) (channelBad : Bool) (seamsOk : List (Fin 24)) (s : State) :
    Host.Outcome State Fault Refusal :=
  let p := s.part n.val
  .next (if !s.railsOn then s else match p.reset with
    | none => match p.resetsHeld with
      | (c, d, h) :: rest => if s.resetWaits n.val then s else (s.setPart n.val { p with resetsHeld := rest }).resetOrder n.val c d h
      | [] => s
    | some r =>
      let next (s : State) : State := match (s.part n.val).reset with
        | some r => s.setPart n.val { s.part n.val with reset := some { r with step := r.step + 1 } }
        | none => s
      match r.step with
      | 2 => next (s.resetStop n.val)
      | 3 =>
        let (s, slot) := s.sampleStep n.val
        next (s.setPart n.val { s.part n.val with reset := some { r with sample := slot } })
      | 4 => next (s.resetDrain n.val)
      | 5 => next (s.resetClear n.val r crcBad channelBad seamsOk)
      | 6 => next (s.resetRetire n.val r)
      | _ => s)

/-- Quarantined reply spaces of a partition (R465). -/
def State.quarantined (s : State) (n : Nat) : Nat :=
  (partTiles n).foldl (fun a t => a + ((s.tile t).reads.filter (fun e => s.isOld t e.2)).length + ((s.tile t).writes.filter (fun e => s.isOld t e.2)).length) 0

/-- The SEQ of the reset record goes into the sample's header (R467). [DEDUCED: log 168] -/
def State.stampSample (s : State) (slot : Option Nat) (seq : BitVec 32) : State :=
  match slot with
  | none => s
  | some i => match SMap.find? s.rst.samples i with
    | none => s
    | some (b, k) => { s with rst := { s.rst with samples := SMap.set s.rst.samples i (placeBytes b 0x10 (leBytes 4 seq.toNat), k) } }

/-- The tiles of a partition leave reset: CYCLE counts from here (02 R34). -/
def State.startCycle (s : State) (n : Nat) : State :=
  let c := s.tcOf (72 * n)
  (partTiles n).foldl (fun s t => if (s.tile t).cycle0 = c then s else s.setTile t { s.tile t with cycle0 := c }) s

/-- Step 7 of R459: STATE becomes Idle or Fenced (01 R22, R496, R482), the record is written, the jobs end.
[DEDUCED: log 166] -/
def State.resetFinish (s : State) (n : Nat) (r : ResetRun) : State :=
  let p := s.part n
  let causes := r.standing ++ r.recorded ++ (if r.holds then [1] else [])
  let oos := decide (p.psw.verdict = .outOfService)
  let s := s.startCycle n
  let s := s.setPart n { p with reset := none, jobs := [], resets := satAdd p.resets 1 0xFFF, lastCause := r.cause, charge := 4096,
                                becameIdle := false, idleSince := s.now }
  let s := if !causes.isEmpty then s.pswChange n (fun q => { q with state := .fenced, fenceCause := topCause causes })
    else if oos then s.pswChange n (fun q => { q with state := .fenced, fenceCause := 2 })
    else s.pswChange n (fun q => { q with state := .idle, fenceCause := 0 })
  let seq := s.rst.nextSeq
  let s := s.resetRecord n 2 0 r.cause.toNat r.jobs.length (s.quarantined n) (r.sample.getD 0xFF) r.retired
  let s := s.stampSample r.sample seq
  let s := { s with rst := { s.rst with waiting := s.rst.waiting.filter (· != n) } }
  (r.jobs.foldl (fun s k => s.abortTry k) s).rstDone

/-- PARTITION_RESET_DONE (R459 step 7). -/
def execPartitionResetDone (n : PartNo) (s : State) : Host.Outcome State Fault Refusal :=
  .next (match (s.part n.val).reset with
    | some r => if s.railsOn && r.step == 7 then s.resetFinish n.val r else s
    | none => s)

/-- A whole partition reset at once, with nothing found wrong (16 R442 step 1). -/
def State.resetWhole (s : State) (n : Nat) (cause : BitVec 8) : State :=
  let s := match (s.part n).reset with
    | some _ => s
    | none => s.resetBegin n cause false false
  let s := s.resetStop n
  let (s, slot) := s.sampleStep n
  let s := s.resetDrain n
  match (s.part n).reset with
  | none => s
  | some r =>
    let s := s.resetClear n { r with sample := slot, cause := cause } [] false []
    match (s.part n).reset with
    | none => s
    | some r =>
      let s := s.resetRetire n r
      match (s.part n).reset with
      | none => s
      | some r => s.resetFinish n r

/-! ### Reconciliation (18 R479 to R481) -/

def offPrtRecon : Nat := 0x300700

/-- A write of PRT_RECON: with GO, the order and its STATUS (18 R480). -/
def State.writeRecon (s : State) (w : Nat) : State :=
  let n := w % 16
  let s := s.setReg offPrtRecon 0 (w &&& 0xFFFF0F)
  if !bitAt w 4 then s
  else
    let st (s : State) (c : Nat) : State := { s with rst := { s.rst with recon := BitVec.ofNat 4 c } }
    let q := s.psw n
    if 12 ≤ n then st s 1
    else if bits w 23 8 ≠ q.seq.toNat then st s 2
    else if q.state ≠ .fenced ∨ q.fencePend ∨ q.fenceCause ≠ 2 then st s 3
    else if q.verdict ≠ .inService then st s 4
    else if (s.part n).reset.isSome ∨ (s.part n).rot.isSome ∨ s.changing n then st s 5
    else
      let s := s.setPart n { s.part n with becameIdle := false, idleSince := s.now }
      st (s.pswChange n (fun q => { q with state := .idle, fenceCause := 0 })) 0

/-- PRT_RECON (18 R480). -/
def execPrtRecon (v : Word) (s : State) : Host.Outcome State Fault Refusal :=
  .next (if s.barLive then s.barAccess.writeRecon v.toNat else s)

def offSmpSel : Nat := 0x300608

/-- A write of PRT_SMP_SEL: with FREE, the slot it names is freed (R468). -/
def State.writeSmpSel (s : State) (v : Nat) : State :=
  let s := s.setReg offSmpSel 0 (v &&& 0xFFFFF)
  if bitAt v 20 then { s with rst := { s.rst with samples := SMap.del s.rst.samples (v % 4) } } else s

/-- FREE (R468). -/
def execFree (v : Word) (s : State) : Host.Outcome State Fault Refusal :=
  .next (if s.barLive then s.barAccess.writeSmpSel v.toNat else s)

/-- A write of TIL_ERR_COUNT: with CLEAR, its three counts are cleared (19 R502). -/
def State.writeTilErr (s : State) (v : Nat) : State := if bitAt v 63 then { s with tilCorr := 0, tilUnc := 0, tilDtrap := 0 } else s

/-- CLEAR (19 R502). -/
def execClear (v : Word) (s : State) : Host.Outcome State Fault Refusal :=
  .next (if s.barLive then s.barAccess.writeTilErr v.toNat else s)

end Sys2Proof.Machine
end

