-- ==== Sys2Proof/Machine/Thermal.lean ====
section
/-!
DEFINITION. Temperatures, the thermal cap, and ageing (spec 13): sensors (R367 to R369), the resistances and the cap (R370, R371),
HOT (R372), measurements and the patina (R376 to R381).
-/

namespace Sys2Proof.Machine

/-! ### Limits in 0.25 °C (R371, R372, R382) -/

/-- The die target: 95 °C in the L grades, 90 °C in A7. -/
def State.targetDie (s : State) : Nat := if s.fuses.grade ≤ 1 then 380 else 360
/-- The stack target, 88 °C. -/
def targetStack : Nat := 352
/-- The grade's maximum inlet: 40 °C, or 35 °C in A7. -/
def State.maxInlet (s : State) : Nat := if s.fuses.grade ≤ 1 then 160 else 140

/-- The inlet in use (R369). -/
def State.inletUsed (s : State) : Nat := if s.thm.inletSrc = 1 ∨ s.thm.inletSrc = 2 then s.thm.inlet else s.maxInlet

/-! ### Sensors (R367, R368, 04 R126) -/

/-- Die sensors that work, with their readings. [DEDUCED: log 135] -/
def State.working (s : State) (l : List Nat) : List (Nat × Nat) :=
  (l.filter (fun i => !s.thm.failed.contains i)).map (fun i => (i, SMap.get 0 s.thm.temps i))

/-- The hottest of a list of readings: its place and value, the first of equals. -/
def hottestOf (l : List (Nat × Nat)) : Nat × Nat :=
  l.foldl (fun b e => if b.2 < e.2 then e else b) (l.headD (0, 0))

/-- The hottest die sensor; a failed one takes the value of a working one (R368), so it adds nothing. -/
def State.dieMax (s : State) : Nat × Nat := hottestOf (s.working (List.range 54))

/-- A stack's reading: 86 °C while its sensor fails (R368). -/
def State.stackReading (s : State) (n : Nat) : Nat := if 3 ≤ (s.stack n).sensFails then 344 else SMap.get 0 s.thm.stackT n

/-- The hottest stack. -/
def State.stackMax (s : State) : Nat × Nat := hottestOf ((List.range 12).map (fun n => (n, s.stackReading n)))

/-- HOT sets (R372), and the time since which everything has been at or below its target is kept. -/
def State.hotCheck (s : State) : State :=
  let d := s.dieMax.2
  let k := s.stackMax.2
  let cool := decide (d ≤ s.targetDie ∧ k ≤ targetStack)
  let since := if !cool then none else (match s.thm.coolSince with | some t => some t | none => some s.now)
  let s := { s with thm := { s.thm with coolSince := since } }
  if decide (s.targetDie + 20 < d ∨ targetStack + 20 < k) && !s.thm.hot then
    (({ s with thm := { s.thm with hot := true } }).raise 1492).limitCheck
  else s

/-- A die sensor has failed (R368); with all four of a partition the verdict follows (15 R406). -/
def State.sensorFails (s : State) (i : Nat) : State :=
  let s := (({ s with thm := { s.thm with failed := s.thm.failed ++ [i] } }).report 4 i).raise 1493
  let n := i / 4
  if i < 48 ∧ (List.range 4).all (fun k => s.thm.failed.contains (4 * n + k)) then
    (s.setPart n { s.part n with sensorDead := true }).writeVerdict n true
  else s

/-- One read of a die sensor, in 0.25 °C: below 0 °C, above 150 °C, or failed three times in a row is failed. -/
def State.dieRead (s : State) (i : Nat) (r : SensorRead) : State :=
  if s.thm.failed.contains i then s else
  match r with
  | none =>
    let f := SMap.get 0 s.thm.fails i + 1
    let s := { s with thm := { s.thm with fails := SMap.set s.thm.fails i f } }
    if f < 3 then s else s.sensorFails i
  | some t =>
    if t < 0 ∨ 600 < t then s.sensorFails i
    else { s with thm := { s.thm with fails := SMap.del s.thm.fails i, temps := SMap.set s.thm.temps i t.toNat } }

/-- THERMAL_SENSOR_READ (R367, R368): the 54 die sensors, every 100 µs. -/
def execThermalSensorRead (reads : List SensorRead) (s : State) : Host.Outcome State Fault Refusal :=
  if reads.length ≠ 54 then .fault .illFormed
  else .next (if !s.railsOn then s
    else ((List.range 54).foldl (fun s i => s.dieRead i (reads.getD i none)) s).hotCheck)

/-- STACK_TEMP_READ (04 R126): above 85 °C the refresh interval halves until 82 °C or below; three failed reads in a row count as
above 85 °C and are reported. Readings are in 0.25 °C. -/
def execStackTempRead (n : PartNo) (r : SensorRead) (s : State) : Host.Outcome State Fault Refusal :=
  let k := s.stack n.val
  .next (if !s.railsOn then s else
    match r with
    | some t =>
      let hot := if 340 < t then true else if t ≤ 328 then false else k.hot
      let s := s.setStack n.val { k with tempC := t.toNat / 4, sensFails := 0, hot := hot }
      ({ s with thm := { s.thm with stackT := SMap.set s.thm.stackT n.val t.toNat } }).hotCheck
    | none =>
      let f := k.sensFails + 1
      let s := s.setStack n.val { k with sensFails := f, hot := if 3 ≤ f then true else k.hot }
      (if f = 3 then s.report 4 (64 + n.val) else s).hotCheck)

/-- HOT_CLEAR (R372): every sensor has been at or below its target for 100 ms. -/
def execHotClear (s : State) : Host.Outcome State Fault Refusal :=
  .next (match s.thm.coolSince with
    | some t =>
      if s.railsOn && s.thm.hot && decide (t + 100 * fcPerMs ≤ s.now) then ({ s with thm := { s.thm with hot := false } }).limitCheck
      else s
    | none => s)

/-- INLET_AGE (R369): the source of the inlet follows the age of the last update; a change is reported. -/
def execInletAge (s : State) : Host.Outcome State Fault Refusal :=
  .next (match s.thm.inletAt with
    | none => s
    | some t =>
      let src := if s.now ≤ t + 10 * fcPerS then 1 else if s.now ≤ t + 60 * fcPerS then 2 else 3
      if !s.mgmt.standby || s.thm.inletSrc == src then s
      else ({ s with thm := { s.thm with inletSrc := src } }).report 5 src)

/-! ### Resistances and the cap (R370, R371) -/

/-- The nearest integer to `a / b`; which of two equally near ones stays free. [DEDUCED: log 136] -/
def nearest (d a b : Nat) : Nat :=
  if (2 * a) % (2 * b) = b then a / b + b2n (Config.freeBool d) else (2 * a + b) / (2 * b)

/-- A resistance in 0.00001 °C/W: the difference of two means of readings in 0.25 °C over the mean of powers in W. One that the 16-bit
field cannot hold, or that is not positive, is free. [DEDUCED: log 136] -/
def theta (d : Nat) (t tin pw : List Nat) : Nat :=
  let up := t.sum * tin.length
  let down := tin.sum * t.length
  let v := nearest d (25000 * (up - down) * pw.length) (t.length * tin.length * pw.sum)
  if up < down ∨ pw.sum = 0 ∨ 0xFFFF < v then (Config.freeWord d).toNat % 65536 else v

/-- Every value lies within `1/k` of the mean. -/
def nearMean (k : Nat) (l : List Nat) : Bool :=
  l.all (fun x => decide (k * (x * l.length) ≤ (k + 1) * l.sum ∧ (k - 1) * l.sum ≤ k * (x * l.length)))

/-- Every reading lies within 0.5 °C of the mean. -/
def inletSteady (l : List Nat) : Bool :=
  l.all (fun x => decide (x * l.length ≤ l.sum + 2 * l.length ∧ l.sum ≤ x * l.length + 2 * l.length))

/-- The steady conditions of R370 on a window's 1 ms averages of power and on the inlet. -/
def State.steady (s : State) (pw inlet : List Nat) : Bool :=
  nearMean 20 pw && decide (3 * s.gradeW * pw.length ≤ 10 * pw.sum) && inletSteady inlet && s.thm.inletSrc == 1 && !s.pwr.alerting

/-- STEADY_WINDOW (R370): a window of 1 s ends, with its 1 ms averages of power in W, and its inlet, hottest die and hottest stack
readings in 0.25 °C. Within it a trip fell, an alert, or a power-state change or another inlet source. -/
def execSteadyWindow (pw inlet die stack : List Nat) (tripped alerted changed : Bool) (s : State) : Host.Outcome State Fault Refusal :=
  if pw.isEmpty || inlet.isEmpty || die.isEmpty || stack.isEmpty then .fault .illFormed
  else
    let ok := s.steady pw inlet && !(tripped || alerted || changed)
    let setDie := ok || die.all (fun t => decide (s.targetDie < t))
    let setStack := ok || stack.all (fun t => decide (targetStack < t))
    .next (if !s.railsOn || !(setDie || setStack) then s
      else
        let h := s.thm
        ({ s with thm := { h with
          thetaDie := if setDie then theta s.free die inlet pw else h.thetaDie,
          thetaStk := if setStack then theta (s.free + 1) stack inlet pw else h.thetaStk,
          windows := satAdd h.windows 1 0xFFFF } }).draw.draw)

/-- One cap of R371, in W: `x` is target − 3 °C − inlet in 0.25 °C. [DEDUCED: log 137] -/
def capOf (floor : Nat) (x : Int) (th : Nat) : Nat := if x ≤ 0 then floor else x.toNat * 25000 / th

/-- The thermal cap of R371; nothing is proposed until both estimates exist. -/
def State.thermalCap (s : State) : Nat :=
  if s.thm.thetaDie = 0 ∨ s.thm.thetaStk = 0 then 0
  else min (capOf s.floorW ((s.targetDie : Int) - 12 - s.inletUsed) s.thm.thetaDie)
    (capOf s.floorW ((targetStack : Int) - 12 - s.inletUsed) s.thm.thetaStk)

/-- THERMAL_CAP (R371): every 10 ms. -/
def execThermalCap (s : State) : Host.Outcome State Fault Refusal :=
  .next (if !s.railsOn then s else ({ s with thm := s.thm, pwr := { s.pwr with thermW := s.thermalCap } }).limitCheck)

/-! ### Ageing (R376 to R379) -/

/-- The median of at most three codes; of two, the value between them that counts as their median stays free.
[DEDUCED: log 139] -/
def median (d : Nat) (l : List (BitVec 6)) : Nat :=
  match l.map (·.toNat) with
  | [] => 63
  | [a] => a
  | [a, b] => min a b + (Config.freeWord d).toNat % (max a b - min a b + 1)
  | a :: b :: c :: _ => max (min a b) (min (max a b) c)

/-- The patina of a partition (R380). -/
def Part.patina (p : Part) (ceil : Nat) : List Byte :=
  let b : List Byte := [BitVec.ofNat 8 (min p.ageCeil ceil), BitVec.ofNat 8 (1 + 2 * b2n p.ageHeld), 0, 0] ++ leBytes 4 p.ageCount ++
    leBytes 8 p.ageLastLt.toNat ++ p.ageOffset.toList.map (BitVec.ofNat 8) ++
    p.slack.toList.flatMap (fun l => (List.range 3).map (fun i => match l[i]? with | some x => x.setWidth 8 | none => 0xFF)) ++
    List.replicate 12 0
  b ++ leBytes 4 (crc32c b).toNat

/-- The 1,168 bytes of the patina record. -/
def State.patinaRecord (s : State) : List Byte :=
  let h : List Byte := 1 :: List.replicate 11 0
  h ++ leBytes 4 (crc32c h).toNat ++ (List.range 12).flatMap (fun n => (s.part n).patina s.gradeCeil)

/-- The ageing ceiling drops (R379): by one step, to the OP below the measured one where that is lower still to come, and never
below OP8; each drop is reported, recorded and counted, and the held ceiling is a finding. [DEDUCED: log 139] -/
def State.ageDrop (s : State) (n op m : Nat) : State :=
  let p := s.part n
  let cur := min p.ageCeil s.gradeCeil
  let want := max (cur - 1) (min cur (op - 1))
  if want = cur then s
  else if want < 8 then
    if p.ageHeld then s else (s.setPart n { p with ageHeld := true }).writeVerdict n true
  else
    let s := (s.setPart n { p with ageCeil := want, ageDrops := satAdd p.ageDrops 1 0xFF }).report 0x0D (n + 256 * op + 65536 * m)
    (s.logErr { ErrRec.blank 6 0 s.lay.time with
      part := BitVec.ofNat 8 n, tenant := (s.psw n).tenant.setWidth 8, gen := (s.psw n).gen, data := [BitVec.ofNat 8 op, BitVec.ofNat 8 m] }).opDrive n

/-- A measurement at an operating point (R376, R378). -/
def State.ageMeasure (s : State) (n op : Nat) (slack : BitVec 6) : State :=
  let p := s.part n
  let l := (slack :: p.slack.toList.getD op []).take 3
  let m := median s.free l
  let s := if l.length = 2 then s.draw else s
  let off := p.ageOffset.toList.getD op 0
  let p := { p with slack := p.slack.setIfInBounds op l, ageCount := satAdd p.ageCount 1 0xFFFFFFFF, ageMeas := satAdd p.ageMeas 1 0xFFFF,
                    ageLastLt := if s.lay.state = 0 then 0 else s.lay.time }
  if 6 ≤ m then s.setPart n p
  else if 8 ≤ off then (s.setPart n p).ageDrop n op m
  else
    let s := s.setPart n { p with ageOffset := p.ageOffset.setIfInBounds op (min (off + (6 - m)) 8) }
    if (s.psw n).state = .idle ∧ p.opPt = op ∧ p.stepDue.isNone then s.setVolt n op else s

/-- AGEING_MEASUREMENT (R376, R377): a due measurement of an Idle partition; one whose OP was not steady is discarded and taken
again at the next Idle entry. [DEDUCED: log 132] -/
def execAgeingMeasurement (n : PartNo) (slack : BitVec 6) (disturbed : Bool) (s : State) : Host.Outcome State Fault Refusal :=
  let p := s.part n.val
  .next (if !s.railsOn || !p.ageDue || p.psw.state != .idle || p.rot.isSome || disturbed || s.pwr.alerting ||
      p.stretch != .none || p.stepDue.isSome then s
    else
      let s := (s.setPart n.val { p with ageDue := false }).ageMeasure n.val p.opPt slack
      s.journal 4 s.patinaRecord)

/-! ### Reading the patina (R380, R381) -/

/-- What an entry holds, where it is valid. -/
def Part.fromPatina (p : Part) (b : List Byte) : Option Part :=
  let f := fieldLE b
  let off := (List.range 16).map (fun k => f (0x10 + k) 1)
  let slk := (List.range 16).map (fun k => ((List.range 3).map (fun i => f (0x20 + 3 * k + i) 1)).filter (fun x => x != 0xFF))
  if f 0x5C 4 ≠ (crc32c (b.take 0x5C)).toNat ∨ f 0 1 ≥ 16 ∨ f 1 1 ≥ 4 ∨ f 1 1 % 2 = 0 ∨ f 2 2 ≠ 0 ∨ ((b.drop 0x50).take 12).any (· != 0) ∨
      off.any (fun x => decide (8 < x)) ∨ slk.any (fun l => l.any (fun x => decide (63 < x))) then none
  else some { p with ageCeil := f 0 1, ageHeld := bitAt (f 1 1) 1, ageCount := f 4 4, ageLastLt := BitVec.ofNat 64 (f 8 8),
                     ageOffset := Vector.ofFn (fun i : Fin 16 => off.getD i.val 0),
                     slack := Vector.ofFn (fun i : Fin 16 => (slk.getD i.val []).map (BitVec.ofNat 6)) }

/-- The patina is read at standby power-on; what is invalid is reported, and its partitions start anew. -/
def State.loadPatina (s : State) (b : List Byte) : State :=
  if b.getD 0 0 ≠ 1 ∨ ((b.drop 1).take 11).any (· != 0) ∨ fieldLE b 0x0C 4 ≠ (crc32c (b.take 12)).toNat then s.report 0x0E 0xFF
  else (List.range 12).foldl (fun s n =>
    match (s.part n).fromPatina ((b.drop (16 + 96 * n)).take 96) with
    | some p => s.setPart n p
    | none => s.report 0x0E n) s

end Sys2Proof.Machine
end

