-- ==== Sys2Proof/Machine/Rails.lean ====
section
/-!
DEFINITION. What the plinth does around the core rails: flash records and their journal (15 R420 to R423, 18 R483 to R485), the rails
rising and falling (20 R513 to R515, 16 R442), zeroization (11 R339, R340), the Belay's watch (14 R395, R396), and package reset
(17 R469).
-/

namespace Sys2Proof.Machine

/-! ### Records (15 R420 to R423) -/

/-- The slot that holds the valid copy of a record: the valid one with the higher SEQ. -/
def Mgmt.validSlot (m : Mgmt) (id : Nat) : Option (Bool × FSlot) :=
  match SMap.find? m.slots id with
  | none => none
  | some (a, b) =>
    if a.valid && b.valid then (if a.seq < b.seq then some (true, b) else some (false, a))
    else if a.valid then some (false, a) else if b.valid then some (true, b) else none

/-- The valid copy of a record. -/
def Mgmt.record (m : Mgmt) (id : Nat) : Option (List Byte) := (m.validSlot id).map (·.2.data)

def FSlot.blank : FSlot := ⟨0, false, []⟩

/-- A record's write commits (R421): into the slot without the valid copy, with the next SEQ. -/
def Mgmt.commit (m : Mgmt) (id : Nat) (data : List Byte) : Mgmt :=
  let (a, b) := SMap.get (FSlot.blank, FSlot.blank) m.slots id
  let (a, b) := match m.validSlot id with
    | none => ((⟨1, true, data⟩ : FSlot), b)
    | some (true, v) => (⟨v.seq + 1, true, data⟩, b)
    | some (false, v) => (a, ⟨v.seq + 1, true, data⟩)
  { m with slots := SMap.set m.slots id (a, b) }

/-- The slot being written no longer holds a copy (R421 step 1). -/
def Mgmt.erased (m : Mgmt) (id : Nat) : Mgmt :=
  let (a, b) := SMap.get (FSlot.blank, FSlot.blank) m.slots id
  match m.validSlot id with
  | some (true, _) => { m with slots := SMap.set m.slots id (FSlot.blank, b) }
  | some (false, _) => { m with slots := SMap.set m.slots id (a, FSlot.blank) }
  | none => { m with slots := SMap.set m.slots id (FSlot.blank, b) }

/-- A write is abandoned: it is counted and reported (R421, 18 R483, R484). -/
def State.writeLost (s : State) (id : Nat) : State :=
  ({ s with mgmt := { s.mgmt with jfail := satAdd s.mgmt.jfail 1 0xFF } }).report 0x13 id

/-- Every queued write of the given records is abandoned; the write in progress leaves its slot erased. -/
def State.abandonWrites (s : State) (drop : Nat → Bool) : State :=
  let lost := (s.mgmt.writes.filter (fun w => drop w.1)).map (·.1)
  let s := match s.mgmt.writes with
    | w :: _ => if drop w.1 then { s with mgmt := s.mgmt.erased w.1 } else s
    | [] => s
  lost.foldl State.writeLost { s with mgmt := { s.mgmt with writes := s.mgmt.writes.filter (fun w => !drop w.1) } }

/-- FLASH_WRITE (R421 to R423): the write at the head of the queue ends; one that failed three times is abandoned. A commit raises
source 1,535. -/
def execFlashWrite (ok : Bool) (s : State) : Host.Outcome State Fault Refusal :=
  .next (match s.mgmt.writes with
    | [] => s
    | (id, data) :: rest =>
      if !s.mgmt.standby || s.mgmt.overheat then s
      else
        let m := { s.mgmt with writes := rest }
        if ok then ({ s with mgmt := m.commit id data }).raise 1535
        else ({ s with mgmt := m.erased id }).writeLost id)

/-! ### The shutdown record (16 R444, R445) -/

/-- The 16 bytes of an entry. -/
def defectBytes (d : Defect) : List Byte :=
  [d.unit, d.die, d.row, d.col] ++ leBytes 4 d.addr.toNat ++ [d.bit, d.test, d.op] ++ List.replicate 5 0

/-- An entry from its bytes. -/
def defectOf (e : List Byte) : Defect :=
  ⟨e.getD 0 0, e.getD 1 0, e.getD 2 0, e.getD 3 0, BitVec.ofNat 32 (fieldLE e 4 4), e.getD 8 0, e.getD 9 0, e.getD 10 0⟩

/-- The partition an entry names, if any (R447; 01 R10). -/
def defectPart (d : Defect) : Option Nat :=
  let w := d.die.toNat * 6
  match d.unit.toNat with
  | 1 => some (w + d.row.toNat / 6 * 3 + d.col.toNat / 12)
  | 2 => some (w + d.row.toNat / 3 * 3 + d.col.toNat / 6)
  | 3 => some (seamOwner (d.die.toNat == 1) d.col.toNat)
  | 4 => some d.col.toNat
  | _ => none

/-- Distinct places of a unit that name a partition. -/
def placesOf (l : List Defect) (n u : Nat) : Nat :=
  ((l.filter (fun d => d.unit.toNat == u && defectPart d == some n)).map (fun d => (d.die.toNat, d.row.toNat, d.col.toNat))).dedup.length

/-- Record 0x06: header and entries. -/
def shutdownRecord (status cause step : Nat) (lt : Word) (slice : Nat) (ovf : Bool) (untested ms : Nat) (l : List Defect) : List Byte :=
  let unit (u : Nat) : List Byte := leBytes 4 (l.filter (fun d => d.unit.toNat == u)).length
  [1, BitVec.ofNat 8 status, BitVec.ofNat 8 cause, BitVec.ofNat 8 step] ++ leBytes 4 l.length ++ leBytes 8 lt.toNat ++
    [BitVec.ofNat 8 slice, BitVec.ofNat 8 (b2n ovf)] ++ leBytes 2 untested ++ leBytes 4 ms ++ List.replicate 24 0 ++
    (List.range 12).flatMap (fun n => [BitVec.ofNat 8 (placesOf l n 1), BitVec.ofNat 8 (placesOf l n 2), BitVec.ofNat 8 (placesOf l n 3), 0] ++
      leBytes 4 (l.filter (fun d => defectPart d == some n)).length) ++
    unit 5 ++ unit 7 ++ unit 8 ++ unit 6 ++ unit 9 ++ List.replicate 12 0 ++ l.flatMap defectBytes

/-- The record as a start reads it: a copy whose VERSION, STATUS or length is wrong counts as absent. -/
def State.shutRecord (s : State) : Option (List Byte) :=
  match s.mgmt.record 6 with
  | none => none
  | some b =>
    let st := fieldLE b 1 1
    if fieldLE b 0 1 = 1 ∧ (st = 1 ∨ st = 2 ∨ st = 3) ∧ b.length = 176 + 16 * fieldLE b 4 4 then some b else none

def recEntries (b : List Byte) : List Defect :=
  (List.range (fieldLE b 4 4)).map (fun i => defectOf ((b.drop (176 + 16 * i)).take 16))

/-- The warm conditions of R431. [DEDUCED: log 157] -/
def State.warmOk (s : State) (b : List Byte) : Bool :=
  fieldLE b 1 1 == 1 && !bitAt (fieldLE b 0x11 1) 0 && (recEntries b).all (fun d => decide (1 ≤ d.unit.toNat ∧ d.unit.toNat ≤ 9)) &&
    (s.mgmt.record 5).isSome

/-! ### Debug state and measurements (11 R333, R336) -/

def Debug.code : Debug → Nat
  | .locked => 0 | .unlocked => 1 | .manufacturing => 2

/-- A measurement register is extended; what it was extended with is kept in order (11 R333). -/
def State.extend (s : State) (idx v : Nat) : State := { s with sec := { s.sec with measures := s.sec.measures ++ [(idx, v)] } }

/-- The debug state and SCOPE; a change extends index 8. -/
def State.setDebug (s : State) (d : Debug) (scope : BitVec 3) : State :=
  if s.sec.debug = d ∧ s.sec.scope = scope then s
  else ({ s with sec := { s.sec with debug := d, scope := scope } }).extend 8 (d.code + 4 * scope.toNat)

/-- The debug state of a cold or warm start (11 R336). [DEDUCED: log 122] -/
def State.startDebug (s : State) : State := s.setDebug (if s.fuses.prod then .locked else .manufacturing) 0

/-! ### What the core rails hold (14 R393, 17 R469, 19 R506) -/

/-- A partition at its reset values; the patina, the rack verdict and the regulator's answer are the plinth's, and a failed
sensor stays failed until the core rails next come up. -/
def Part.anew (p : Part) (ceil : Nat) (rails : Bool) : Part :=
  { Part.fresh ceil with
    ageOffset := p.ageOffset, slack := p.slack, ageCeil := p.ageCeil, ageHeld := p.ageHeld, ageCount := p.ageCount, ageLastLt := p.ageLastLt,
    ageDrops := p.ageDrops, ageMeas := if rails then p.ageMeas else 0, rackVerdict := p.rackVerdict, sensorDead := rails && p.sensorDead,
    regDown := p.regDown }

/-- Every core-rail register, queue and store takes its reset value. `rails` says that the rails stay up. -/
def State.coreReset (s : State) (rails : Bool) : State :=
  let c := s.cleat
  { s with
    setup := [], shadow := none, hifErr := 0, cxlOn := false, cxlDown := false, pollAt := 0, pollNext := 0, launchLast := 0, ccReqs := [], ccWait := [],
    lastOff := 0, lines := [], rings := [], descs := [], jobs := [], msix := [], msixTab := [], msixAt := [], ccSram := [], fwImage := [], mesh := [], tilCorr := 0, tilUnc := 0, tilDtrap := 0, tiles := [],
    parts := s.parts.map (fun e => (e.1, e.2.anew s.gradeCeil rails)),
    stks := s.stks.map (fun e => (e.1, { Stack.fresh with mem := e.2.mem, keyOf := e.2.keyOf, poison := e.2.poison, badRows := e.2.badRows, watch := e.2.watch, suspects := e.2.suspects, selfRef := true })),
    router := .fresh, ports := s.ports.map (fun e => (e.1, { Port.fresh with maq := e.2.maq })), staging := .fresh,
    lay := { Lay.fresh with period := s.lay.period, slotOff := s.lay.slotOff },
    sec := { s.sec with keys := [], fabKeys := [], nonce := none, keyStatus := 0, winErr := [], tenChange := none, tenStatus := 0 },
    pwr := { s.pwr with hostW := 0, newHostW := none, thermW := 0, rampW := 0, rampPeak := 0, rampFirst := true, rampAt := 0, usW := [], railW := [],
                        energyUj := 0, spineUj := 0, thrTime := .replicate 9 0, noticeEnd := none, noticed := none, lastLimit := (0, 0),
                        modelErr := 0, unparkLast := 0, admitLast := 0, alerting := rails && s.pwr.alerting },
    thm := if rails then s.thm else { s.thm with temps := [], fails := [], failed := [], stackT := [], hot := false, coolSince := none },
    cleat := { c with src := c.src.filter (fun e => plinthSource e.1), morfort := 0, badCompl := 0, wasHigh := 0, lastMask := [] },
    mgmt := { s.mgmt with samples := [] }, rst := .fresh }

/-! ### Zeroization (11 R339, R340) -/

/-- Stores of R339 that lie on the core rails are cleared. Stack contents stay, as ciphertext under erased keys. -/
def State.clearStores (s : State) : State :=
  { s with
    sec := { s.sec with keys := [], fabKeys := [], sessions := [] },
    tiles := s.tiles.map (fun e => (e.1, { e.2 with scratch := [], upsets := [], tq := [], vq := [] })),
    stks := s.stks.map (fun e => (e.1, { e.2 with queue := [], banks := .replicate 2 .empty, streams := [] })),
    router := { s.router with ckts := [], mc := [] },
    ports := s.ports.map (fun e => (e.1, { e.2 with replay := [], txq := .replicate 12 [], outq := [], rxPart := .replicate 12 [], rxq := [], txBuf := [] })),
    parts := s.parts.map (fun e => (e.1, { e.2 with rot := e.2.rot.map (fun r => { r with held := [] }) })),
    staging := { s.staging with slots := [], reqs := [], teams := [], forming := [] }, ccSram := [], mesh := [], ccReqs := [], ccWait := [],
    fwImage := [] }

/-- A zeroization: the stores are cleared, the key store too, it is counted, and it is in progress for 2 ms. A tenant change is
abandoned and leaves TENANT 0 (R342). [DEDUCED: log 118] -/
def State.zeroize (s : State) : State :=
  let s := s.clearStores
  let s := { s with sec := { s.sec with keyStore := none, zeroCount := satAdd s.sec.zeroCount 1 0xFFFF, zeroEnd := some (s.now + 2 * fcPerMs) } }
  match s.sec.tenChange with
  | some c => ({ s with sec := { s.sec with tenChange := none } }).pswChange c.part (fun q => { q with tenant := 0 })
  | none => s

/-! ### Lands (20 R513, R514, R517) -/

def landsUp : List String := ["STK_PP_EN", "STK_DD_EN", "VR_EN_4", "VR_EN_5", "VR_EN_0", "VR_EN_1", "VR_EN_2", "VR_EN_3", "PWR_OK"]

def State.lands (s : State) (l : List String) (v : Bool) : State := l.foldl (fun s n => s.emit (.land n v)) s

/-! ### The rails rise (20 R513, 12 R355, 15 R416) -/

/-- Step 2 of a start: stack rails and core rails rise in order; a restart finds them up, a resume the stack rails. -/
def State.railsUp (s : State) : State :=
  let s := if s.boot.kind = 3 then s else s.lands (if s.boot.kind = 2 then landsUp.drop 2 else landsUp) true
  let s := { s with pwr := { s.pwr with rails := .on, pwrOk := true, railSet := (s.pwr.railSet.setIfInBounds 4 800).setIfInBounds 5 750, rampW := s.floorW + 150, rampFirst := true, rampPeak := 0 } }
  let s := (List.range 12).foldl (fun s n => s.setVolt n 0) s
  { s with pwr := { s.pwr with lastLimit := s.limit } }

/-! ### The rails fall -/

/-- An entry of the maquette is valid: CRC, VALID, and nothing reserved set (08 R265). -/
def maqValid (e : List Byte) : Bool :=
  fieldLE e 0x3C 4 == (crc32c (e.take 0x3C)).toNat && decide (fieldLE e 0 1 = 1 ∨ fieldLE e 0 1 = 3) && fieldLE e 7 1 == 0 &&
    fieldLE e 0x0C 4 == 0 && ((e.drop 0x30).take 12).all (· == 0)

/-- Record 0x03: the maquette. -/
def State.loadMaq (s : State) (b : List Byte) : State :=
  if b.length ≠ 2064 ∨ fieldLE b 0 1 ≠ 1 ∨ ((b.drop 1).take 11).any (· != 0) ∨ fieldLE b 0x0C 4 ≠ (crc32c (b.take 12)).toNat then s
  else (List.range 32).foldl (fun s p =>
    let e := (b.drop (16 + 64 * p)).take 64
    if maqValid e then s.setPort p { s.port p with maq := some e } else s) s

/-- The maquette is taken again from its committed record (08 R267): a write that was lost leaves the previous entries. -/
def State.reloadMaq (s : State) : State :=
  let s := { s with ports := s.ports.map (fun (e : Nat × Port) => (e.1, { e.2 with maq := none })) }
  match s.mgmt.record 3 with
  | some b => s.loadMaq b
  | none => s

/-- Why the core rails fall: an orderly removal to PS5, PS3 entry, a thermal trip, a regulator fault, or the loss of standby. -/
inductive Fall where
  | orderly | sleep | trip | fault | standby
deriving DecidableEq, Repr

def landsDown : List String := ["PWR_OK", "VR_EN_0", "VR_EN_1", "VR_EN_2", "VR_EN_3", "VR_EN_5", "VR_EN_4", "STK_DD_EN", "STK_PP_EN"]

/-- Enables that are high fall, in the reverse order of their rise; PS3 entry leaves the stack rails on (20 R514, R515). -/
def State.dropLands (s : State) (f : Fall) : State :=
  let s := if f = .trip then s.lands ["THERMTRIP_N"] false else s
  match s.pwr.rails with
  | .on => s.lands (if f = .sleep then landsDown.take 7 else landsDown) false
  | .ps3 => s.lands (landsDown.drop 7) false
  | .ps5 => s

/-- TEN_ registers, which retention memory keeps (16 R432). -/
def State.tenSetup (s : State) : SMap Word := s.setup.filter (fun e => decide (0x200100 ≤ e.1 ∧ e.1 < 0x204000))

/-- What PS3 entry keeps in the plinth: the keys (11 R327) and retention memory (16 R432). -/
def State.keepForSleep (s : State) : State :=
  let arms := s.parts.filterMap (fun e => e.2.arm.map (fun a => (e.1, a)))
  let tens := s.parts.filterMap (fun e => if e.2.psw.tenant = 0 then none else some (e.1, e.2.psw.tenant))
  { s with sec := { s.sec with keyStore := some (s.sec.keys, s.sec.fabKeys) }, boot := { s.boot with retain := some (arms, tens, s.tenSetup) } }

/-- A pending rack limit is discarded when the core rails fall (15 R414). -/
def State.dropPending (s : State) : State :=
  match s.pwr.rackPend with
  | some (w, _) => ({ s with pwr := { s.pwr with rackPend := none } }).report 0x15 w
  | none => s

/-- Rows that a stack keeps only while its rails stay up: contents, keys of lines, poison. -/
def State.stacksLost (s : State) : State := { s with stks := [] }

/-- The Belay's edges are discarded, and its watch ends (14 R397). -/
def State.dropWatch (s : State) : State := { s with cleat := { s.cleat with watching := false, latched := 0, rackWake := false } }

/-- The core rails fall. [DEDUCED: log 118, DEDUCED: log 122] -/
def State.railsFall (s : State) (f : Fall) : State :=
  let sleep := decide (f = .sleep)
  let s := if s.zeroizing then { s with sec := { s.sec with zeroPend := true } } else s
  let s := { s with sec := { s.sec with zeroEnd := none, resetDue := false } }
  let s := s.dropLands f
  let s := if sleep then s.keepForSleep else { s with sec := { s.sec with keyStore := none }, boot := { s.boot with retain := none } }
  let s := s.coreReset false
  let s := if sleep then s else s.stacksLost
  let s := { s with
    pwr := { s.pwr with rails := if sleep then .ps3 else .ps5, pwrOk := false, alerting := false, railSet := .replicate 6 0 },
    boot := { s.boot with step := 0, ready := false, shutdown := false, testLeft := [], bad := [], read := false } }
  let s := s.dropPending
  let s := if f = .trip ∨ f = .fault then (s.abandonWrites (fun id => id == 3 || id == 4 || id == 5)).reloadMaq else s
  if sleep then s
  else s.startDebug.dropWatch

end Sys2Proof.Machine
end

