-- ==== Sys2Proof/Machine/Start.lean ====
section
/-!
DEFINITION. Starts (16 R431 to R441, R448, R450): the steps, the memory test, the armature write and the verdicts; package reset
(17 R469), PS3 entry and the wake (12 R347, 14 R394 to R397), the orderly shutdown (16 R442 to R446), and what removes the core rails.
-/

namespace Sys2Proof.Machine

/-! ### Firmware banks (15 R424, R427) -/

def Mgmt.bank (m : Mgmt) (b1 : Bool) : FwBank := if b1 then m.fw1 else m.fw0
def Mgmt.setBank (m : Mgmt) (b1 : Bool) (b : FwBank) : Mgmt := if b1 then { m with fw1 := b } else { m with fw0 := b }

/-- The bank that is Staged. -/
def Mgmt.stagedBank (m : Mgmt) : Option Bool :=
  if m.fw0.state = .staged then some false else if m.fw1.state = .staged then some true else none

/-- SVNs of a bank's components, by class. -/
def FwBank.svns (b : FwBank) : Vector Nat 6 := Vector.ofFn (fun i : Fin 6 => (SMap.get (0, []) b.comps (i.val + 1)).1)

/-- The boot ROM's choice (R427): a Staged bank whose components verify becomes Active, and the other Retired; one that fails
becomes Failed, with FALLBACK and report 0x0012. -/
def State.chooseBank (s : State) (bad : BitVec 3) : State :=
  let m := s.mgmt
  let s := match m.stagedBank with
    | none => s
    | some b =>
      if bad = 0 then
        { s with mgmt := { (m.setBank b { m.bank b with state := .active }).setBank (!b) { m.bank (!b) with state := .retired } with
          activeB1 := b, fallback := false } }
      else ({ s with mgmt := { m.setBank b { m.bank b with state := .failed } with fallback := true } }).report 0x12 bad.toNat
  { s with sec := { s.sec with running := (s.mgmt.bank s.mgmt.activeB1).svns } }

/-- SEC_SVN as one number (11 R332). -/
def State.svnWord (s : State) : Nat := (List.range 6).foldl (fun a i => a + s.fuses.svn.toList.getD i 0 * 64 ^ i) 0

/-- The image of a class in the running bank. -/
def Mgmt.image (m : Mgmt) (c : Nat) : List Byte := (SMap.get (0, []) (m.bank m.activeB1).comps c).2

/-- An image as one number, which stands for its digest (11 R333). -/
def Mgmt.imageNum (m : Mgmt) (c : Nat) : Nat := leNat (m.image c ++ [1])

/-- The signer keys of the running images, in class order, as one number. -/
def Mgmt.signerNum (m : Mgmt) : Nat := leNat ((List.range 6).flatMap (fun i => ((m.image (i + 1)).drop 0x10).take 96) ++ [1])

/-- What bring-up measures (11 R333). -/
def State.measureStart (s : State) : State :=
  let s := [3, 4, 5, 6].foldl (fun s i => s.extend i (s.mgmt.imageNum i)) s
  ((s.extend 8 (Debug.code s.sec.debug + 4 * s.sec.scope.toNat)).extend 9 s.svnWord).extend 10 s.mgmt.signerNum

/-! ### Beginning and ending a start (R431, R448) -/

/-- A start begins with step 1; a power-state change spends the nonce (11 R337). -/
def State.beginStart (s : State) (kind : Nat) : State :=
  { s with
    sec := { s.sec with nonce := none, storeBad := false, unlockFail := 0 },
    boot := { s.boot with step := 1, kind := kind, ready := false, starts := satAdd s.boot.starts 1 0xFFFF, startAt := s.now,
                          read := decide (2 ≤ kind), testLeft := [], bad := [], untested := 0 } }

/-- A start is in progress. -/
def State.starting (s : State) : Bool := decide (s.boot.step ≠ 0 ∧ s.boot.step < 11)

/-- The Lay time a record carries: 0 in Free or with the core rails off (R444). -/
def State.recordLt (s : State) : Word := if s.railsOn && s.lay.state != 0 then s.lay.time else 0

/-- A failed start (R448): the rails fall, and record 6 says Start failed. [DEDUCED: log 159] -/
def State.startFail (s : State) (cause : Nat) (f : Fall) : State :=
  let st := s.boot.step
  let lt := s.recordLt
  let s := s.railsFall f
  let s := { s with boot := { s.boot with cause := BitVec.ofNat 8 cause, failStep := st } }
  s.journal 6 (shutdownRecord 3 cause st lt s.boot.slice false 0 0 [])

/-! ### Package reset (17 R469) -/

/-- Rows the watch tables hold become the suspect rows of the restart (R439). -/
def Stack.toSuspects (k : Stack) : Stack := { k with suspects := k.watch.map (·.1), watch := [] }

/-- Package reset: everything on the core rails at its reset value, and a restart begins; during a zeroization it is due, and waits
(18 R495). [DEDUCED: log 119, DEDUCED: log 169] -/
def State.packageReset (s : State) : State :=
  if !s.railsOn || s.boot.shutdown || s.sec.boundary then s
  else if s.zeroizing then { s with sec := { s.sec with resetDue := true } }
  else
    let st : BitVec 4 := if s.rst.busy then 6 else 0
    let s := { s with stks := s.stks.map (fun (e : Nat × Stack) => (e.1, e.2.toSuspects)),
                      sec := { s.sec with zeroEnd := none, resetDue := false, keyStore := none } }
    let s := (s.coreReset true).beginStart 3
    { s with rst := { s.rst with status := st }, boot := { s.boot with retain := none } }

/-- PACKAGE_RESET (17 R469): a PF write of PRT_RST with SCOPE 3, or the reset that is due: after an unlock, or after the
zeroization it waited for (18 R495). [DEDUCED: log 119, DEDUCED: log 169] -/
def execPackageReset (v : Word) (s : State) : Host.Outcome State Fault Refusal :=
  .next (if s.sec.resetDue || (s.barLive && v.getLsbD 2 && v.toNat % 4 == 3) then s.packageReset else s)

/-- PKG_RST_N (20 R517): held low for 1 µs. -/
def execPkgRstN (s : State) : Host.Outcome State Fault Refusal := .next s.packageReset

/-! ### The Belay (14 R394 to R397) -/

/-- A latched edge in PS3 starts the exit (R396). [DEDUCED: log 162] -/
def State.wakeTry (s : State) : State :=
  if s.mgmt.standby && decide (s.pwr.rails = .ps3) && decide (s.boot.step = 0) && !s.sec.boundary && (decide (s.cleat.latched ≠ 0) || s.cleat.rackWake) then
    s.beginStart 2
  else s

/-- A source rises, and may wake the package. -/
def State.raiseWake (s : State) (n : Nat) : State := (s.raise n).wakeTry

/-- A source that can rise while the core rails are off (R395). [DEDUCED: log 141] -/
def risesOff (n : Nat) : Bool := plinthSource n || decide (1497 ≤ n ∧ n ≤ 1528)

/-- BELAY_LATCH (R395): a watched source rises. -/
def execBelayLatch (src : Fin 2048) (s : State) : Host.Outcome State Fault Refusal :=
  .next (if !s.mgmt.standby || !s.cleat.watching || !(s.railsOn || risesOff src.val) then s else s.raiseWake src.val)

/-- Once the Cleat runs again (R396): every latched source is pending, and CLT_WAKE holds the lowest-numbered entry's source. -/
def State.belayWake (s : State) : State :=
  if !s.cleat.watching then s
  else
    let c := s.cleat
    let hits := (List.range 64).filter (fun i => c.latched.getLsbD i)
    let srcOf (i : Nat) : BitVec 11 := match SMap.find? c.belay i with
      | some (x, _) => x
      | none => 0
    let c := hits.foldl (fun c i => c.setSource (srcOf i).toNat { c.source (srcOf i).toNat with pend := true }) { c with watching := false }
    let c := match hits with
      | i :: _ => { c with wakeSrc := srcOf i, wakeOk := true, wakeCnt := hits.length }
      | [] => { c with wakeSrc := 1530, wakeOk := true, wakeCnt := 0 }
    { s with cleat := c.settle }

/-- BELAY_WAKE (R396): before firmware enables any source, the control complex of a resume being up. -/
def execBelayWake (s : State) : Host.Outcome State Fault Refusal :=
  .next (if s.railsOn && decide (s.boot.kind = 2) && decide (4 ≤ s.boot.step) then s.belayWake else s)

/-! ### PS3 entry (12 R347) -/

/-- A condition of R347 that forbids PS3 entry, as a code of R358; `own` descriptors are the SLEEP hint itself.
[DEDUCED: log 131] -/
def State.sleepBar (s : State) (own : Option DescKey) : Nat :=
  if s.powerBusy then 2
  else if (List.range 12).any (fun n => (s.psw n).state == .active || (s.psw n).state == .resetting) then 1
  else if s.descs.any (fun e => some e.1 != own) then 1
  else 0

/-- PS3 entry: a rotation that has reached its fifth step completes (05 R152), fetching stops, every partition goes to Off, the keys are sealed, the stacks enter self-refresh, the core rails
fall; the Belay watches from the start, and an edge it latches is taken when the entry is over (14 R397).
[DEDUCED: log 162] -/
def State.enterPs3 (s : State) : State :=
  let s := { s with cleat := { s.cleat with watching := true, latched := 0, rackWake := false } }
  let s := (List.range 12).foldl State.endRotation s
  let s := (List.range 12).foldl (fun s n => s.pswChange n (fun q => { q with state := .off, fencePend := false })) s
  let s := { s with stks := s.stks.map (fun (e : Nat × Stack) => (e.1, { e.2 with selfRef := true })) }
  (s.railsFall .sleep).wakeTry

/-- HINT_SLEEP (12 R347, R358). -/
def execHintSleep (key : DescKey) (s : State) : Host.Outcome State Fault Refusal :=
  .next (match s.readyHint key 2 with
    | none => s
    | some _ =>
      match s.sleepBar (some key) with
      | 0 => (s.complete key 0 0 0).enterPs3
      | c => s.complete key 0xD c 0)

/-! ### The steps of a start (R433) -/

/-- Step 1 of a cold or warm start (R435): the record is read, once a write of it has committed, and its Consumed copy is requested.
[DEDUCED: log 157] -/
def State.stepRecord (s : State) (bad : BitVec 3) : State :=
  if s.mgmt.writes.any (fun w => w.1 == 6) then s
  else
    let s := (s.chooseBank bad).startDebug
    let b := match s.shutRecord with
      | none => { s.boot with kind := 0, defects := [] }
      | some r =>
        let b := { s.boot with slice := fieldLE r 0x10 1 % 64, kind := 0, defects := [] }
        if s.warmOk r then { b with kind := 1, defects := recEntries r, untested := BitVec.ofNat 16 (fieldLE r 0x12 2) } else b
    let s := { s with boot := { b with read := true } }
    s.journal 6 (shutdownRecord 2 0 0 0 s.boot.slice false 0 0 [])

/-- The Consumed copy has committed (18 R485). [DEDUCED: log 156] -/
def State.consumed (s : State) : Bool :=
  !s.mgmt.writes.any (fun w => w.1 == 6) && (match s.shutRecord with
    | some r => fieldLE r 1 1 == 2
    | none => false)

def State.nextStep (s : State) : State := { s with boot := { s.boot with step := s.boot.step + 1 } }

/-- Step 1. A resume whose retention memory fails its check goes on as a cold start (R432). [DEDUCED: log 156] -/
def State.step1 (s : State) (rep : StepReport) : State :=
  if s.boot.kind = 2 then
    if rep.retainOk then s.measureStart.nextStep
    else
      let s := { s with boot := { s.boot with kind := 0, defects := [], retain := none }, sec := { s.sec with keyStore := none } }
      s.startDebug.measureStart.nextStep
  else if s.boot.kind = 3 then s.measureStart.nextStep
  else if !s.boot.read then s.stepRecord rep.stagedBad
  else if s.consumed then s.measureStart.nextStep
  else s

/-- Step 3: the Lay counter starts at 0 in the role that the rack manager set, a master Locked (10 R299, R300); an alert that holds is
in force (12 R362). [DEDUCED: log 112] -/
def State.step3 (s : State) : State :=
  let s := { s with lay := { s.lay with time := 0, frac := 0, role := s.mgmt.settingsRole } }
  let s := if s.mgmt.settingsRole then s.layState 2 else s
  if s.pwr.alerts ≠ 0 then s.alertEnter else s

/-- Step 4: a zeroization that the rails cut off is carried out (11 R340). -/
def State.clearPend (s : State) : State := if s.sec.zeroPend then { s.clearStores with sec := { s.clearStores.sec with zeroPend := false } } else s

/-- A new system key (11 R324). -/
def State.newSystemKey (s : State) : State :=
  { s with sec := { s.sec with keys := SMap.set s.sec.keys 0 s.sec.nextKey, nextKey := s.sec.nextKey + 1, keyStore := none } }

/-- Step 6: the key store of a resume (11 R327). -/
def State.restoreKeys (s : State) (sealOk : Bool) : State :=
  match s.boot.kind, s.sec.keyStore with
  | 2, some (k, f) =>
    if sealOk then { s with sec := { s.sec with keys := k, fabKeys := f, keyStore := none } }
    else (({ s with sec := { s.sec with storeBad := true } }).report 0x0B 0).newSystemKey
  | _, _ => s.newSystemKey

/-- Step 6: what retention memory gives back (R432). -/
def State.restoreTenants (s : State) : State :=
  match s.boot.kind, s.boot.retain with
  | 2, some (_, tens, regs) =>
    let s := regs.foldl (fun s e => { s with setup := SMap.set s.setup e.1 e.2 }) s
    tens.foldl (fun s e => s.pswChange e.1 (fun q => { q with tenant := e.2 })) s
  | _, _ => s

/-- The bad-row list of stack `n` in record 5. -/
def rowsFrom (b : List Byte) (n : Nat) : SMap (BitVec 32) :=
  (List.range 1024).filterMap (fun e =>
    let w := BitVec.ofNat 32 (fieldLE b (4096 * n + 4 * e) 4)
    if w = 0 then none else some (e, w))

/-- The plinth takes its copy of the bad-row lists from record 0x05 (04 R125). -/
def State.readRows (s : State) : State :=
  let b := (s.mgmt.record 5).getD []
  { s with mgmt := { s.mgmt with rowCopy := (List.range 12).map (fun n => (n, rowsFrom b n)) } }

/-- Step 6: the lists are loaded from the plinth's copy (04 R125). -/
def State.loadRows (s : State) : State :=
  (List.range 12).foldl (fun s n =>
    let l := SMap.get [] s.mgmt.rowCopy n
    if l = (s.stack n).badRows then s else s.setStack n { s.stack n with badRows := l }) s

/-- Step 6. -/
def State.step6 (s : State) (rep : StepReport) : State :=
  let s := ((s.restoreKeys rep.sealOk).restoreTenants).loadRows
  let s := match s.mgmt.record 2 with
    | some b => if b.length = 4928 then (s.topoSubmit b).1 else s
    | none => s
  s.boot.defects.foldl (fun s d => if d.unit = 6 then s.setPort d.col.toNat { s.port d.col.toNat with held := true } else s) s

/-- Step 7: stacks that fail to train fence their partitions (R434). -/
def State.step7 (s : State) (fail : List Nat) : State :=
  let bad := fail.map (fun n => (n, (3 : BitVec 8)))
  let s := (List.range 12).foldl (fun s n => s.setStack n { s.stack n with selfRef := false, lastUse := s.now }) s
  { s with boot := { s.boot with bad := s.boot.bad ++ bad,
                                 testLeft := if s.boot.kind = 2 then [] else (List.range 12).filter (fun n => !fail.contains n) } }

/-- Step 8 is over: SLICE advances after a slice test (R439). -/
def State.step8 (s : State) : State :=
  { s with boot := { s.boot with slice := if s.boot.kind = 1 ∨ s.boot.kind = 3 then (s.boot.slice + 1) % 64 else s.boot.slice } }

/-- Staging slots withheld for defects of UNIT 0x07: 64 KiB each (R447). -/
def withheldOf (l : List Defect) : List Nat := ((l.filter (fun d => d.unit == 7)).map (fun d => d.addr.toNat / 65536)).dedup

/-- A defect the record names is a spine failure (R447). -/
def spineFails (l : List Defect) : Bool := l.any (fun d => d.unit == 5 || d.unit == 8) || decide (32 < (withheldOf l).length)

/-- The units that a step 9 report adds to the defects (R437). -/
def newDefects (rep : StepReport) : List Defect :=
  let d (u die row col : Nat) : Defect := ⟨BitVec.ofNat 8 u, BitVec.ofNat 8 die, BitVec.ofNat 8 row, BitVec.ofNat 8 col, 0, 0, 0, 0⟩
  rep.tileFail.map (fun t => d 1 (dieOf t.val) (rowOf t.val) (colOf t.val)) ++ rep.stopFail.map (fun e => d 2 (b2n e) 0 0) ++
    rep.seamFail.map (fun x => d 3 (b2n x.1) 0 x.2.val) ++ rep.portFail.map (fun n => d 4 2 0 n.val)

/-- Seam ports of a die that no defect names. -/
def seamsLeft (l : List Defect) (east : Bool) : BitVec 24 :=
  (List.range 24).foldl (fun m q => if l.any (fun d => d.unit == 3 && d.die.toNat == b2n east && d.col.toNat == q) then m else m ||| BitVec.ofNat 24 (2 ^ q)) 0

/-- Step 9: defects, seam ports, withheld slots, and the start measurement (13 R376). [DEDUCED: log 158] -/
def State.step9 (s : State) (rep : StepReport) : State :=
  let l := s.boot.defects ++ newDefects rep
  let s := { s with boot := { s.boot with defects := l }, staging := { s.staging with withheld := withheldOf l } }
  let s := s.modRouter fun r => { r with seamWest := seamsLeft l false, seamEast := seamsLeft l true }
  let s := rep.slacks.foldl (fun s e => ((List.range (s.gradeCeil + 1)).zip e.2).foldl (fun s x => s.ageMeasure e.1.val x.1 x.2) s) s
  if rep.slacks.isEmpty then s else s.journal 4 s.patinaRecord

/-- Physical indices of a partition that are retired at the armature write (05 R146): tiles the defects name, tiles whose firmware
differs twice (05 R155), and for a resume those of the retained record. [DEDUCED: log 158] -/
def State.retiredAt (s : State) (n : Nat) : List Nat :=
  let kept := match s.boot.kind, s.boot.retain with
    | 2, some (arms, _, _) => (match SMap.find? arms n with
      | some a => (a.spares.filter (fun (x : Nat × Bool) => x.2)).map (fun (x : Nat × Bool) => x.1)
      | none => [])
    | _, _ => []
  let named := (s.boot.defects.filter (fun d => d.unit == 1 && defectPart d == some n)).map (fun d => 12 * (d.row.toNat % 6) + d.col.toNat % 12)
  (List.range 72).filter (fun x => kept.contains x || named.contains x || (s.tile (72 * n + x)).marked)

/-- The record of a partition: the retained one of a resume where it still fits, else built anew (05 R146).
[DEDUCED: log 158] -/
def State.armAt (s : State) (n : Nat) (ret : List Nat) : Option Armature :=
  match s.boot.kind, s.boot.retain with
  | 2, some (arms, _, _) => (match SMap.find? arms n with
    | some a => if ret.all (fun x => !a.lmap.contains x) then some { a with epoch := 1 } else buildArm ret 1
    | none => buildArm ret 1)
  | _, _ => buildArm ret 1

/-- The causes for which a partition comes up Fenced (01 R22, 05 R146). -/
def State.upCauses (s : State) (n : Nat) (ret : List Nat) : List (BitVec 8) :=
  let die := decide (6 ≤ n)
  (if 2 < ret.length then [1] else []) ++ (s.boot.bad.filter (fun e => e.1 == n)).map (·.2) ++
    (if s.boot.defects.any (fun d => (d.unit == 2 && d.die.toNat == b2n die) || (d.unit == 4 && d.col.toNat == n)) || !s.seamLeft n then [4] else [])

/-- A partition leaves Off (step 10). -/
def State.leaveOff (s : State) (n : Nat) : State :=
  let s := s.writeVerdict n false
  let ret := s.retiredAt n
  let s := s.setPart n { s.part n with retired := ret }
  let s := match s.armAt n ret with
    | some a => s.setArm n a
    | none => s
  let t := (s.psw n).tenant
  let s := if t = 0 then s else (partTiles n).foldl (fun s x => s.setTile x { s.tile x with tenant := t }) s
  let s := s.setPart n { s.part n with charge := 4096, becameIdle := false, portUsed := [], heat := [], rotLast := s.now, idleSince := s.now }
  let s := s.startCycle n
  let cs := s.upCauses n ret
  let s := if cs.isEmpty then s.pswChange n (fun q => { q with state := .idle }) else s.pswChange n (fun q => { q with state := .fenced, fenceCause := topCause cs })
  s.armPart n (s.lay.time + ageingLt) .ageing

/-- Step 11 (R433). -/
def State.step11 (s : State) : State :=
  { s with boot := { s.boot with ready := true, cause := 0, failStep := 0, lastS := min ((s.now - s.boot.startAt) / fcPerS) 0xFFFF, retain := none } }

/-- The cause for which a step's report ends the start (R448). -/
def State.stepCause (s : State) (rep : StepReport) : Option Nat :=
  match s.boot.step, rep.fail with
  | 1, some c => if c = 1 ∨ c = 2 then some c.toNat else none
  | 2, some c => if c = 3 ∧ s.boot.kind ≠ 3 then some 3 else none
  | 3, some c => if c = 4 then some 4 else none
  | 4, some c => if c = 5 ∨ spineFails s.boot.defects then some 5 else none
  | 4, none => if spineFails s.boot.defects then some 5 else none
  | _, _ => none

/-- The report that goes with a cause (R448). -/
def State.causeReport (s : State) (c : Nat) (detail : BitVec 32) : State :=
  if c = 1 then s.report 0x12 detail.toNat
  else if c = 3 then s.report (if detail.toNat < 65536 then 0x11 else 0x10) detail.toNat
  else s

/-- START_STEP (R433): the step in progress completes. -/
def execStartStep (rep : StepReport) (s : State) : Host.Outcome State Fault Refusal :=
  .next (if !s.mgmt.standby || !s.starting || s.sec.boundary then s
    else match s.stepCause rep with
      | some c => (s.causeReport c rep.detail).startFail c .orderly
      | none => match s.boot.step with
        | 1 => s.step1 rep
        | 2 => s.railsUp.nextStep
        | 3 => s.step3.nextStep
        | 4 => s.clearPend.nextStep
        | 5 => s.belayWake.nextStep
        | 6 => (s.step6 rep).nextStep
        | 7 => (s.step7 (rep.stackFail.map (·.val))).nextStep
        | 8 => if s.boot.testLeft.isEmpty then s.step8.nextStep else s
        | 9 => (s.step9 rep).nextStep
        | _ => ((List.range 12).foldl State.leaveOff s).step11.nextStep)

/-- START_STEP_TIMEOUT (R434): a stack late at step 7 or 8 fences its partition; any other step ends the start.
[DEDUCED: log 159] -/
def execStartStepTimeout (stks : List PartNo) (s : State) : Host.Outcome State Fault Refusal :=
  .next (if !s.mgmt.standby || !s.starting || s.sec.boundary then s
    else if s.boot.step = 7 ∧ ¬ stks.isEmpty then (s.step7 (stks.map (·.val))).nextStep
    else if s.boot.step = 8 ∧ ¬ s.boot.testLeft.isEmpty then
      let bad := s.boot.testLeft.map (fun n => (n, (3 : BitVec 8)))
      ({ s with boot := { s.boot with bad := s.boot.bad ++ bad, testLeft := [] } }).step8.nextStep
    else s.startFail 6 .orderly)

end Sys2Proof.Machine
end

