-- ==== Sys2Proof/Machine/CleatOps.lean ====
section
/-!
DEFINITION. The Cleat's register block (14 R385 to R394): edges, claims, completions, and the reads and writes of its registers.
-/

namespace Sys2Proof.Machine

/-- The register of a source answers: in the plinth always, on the core rails while they are up (R393).
[DEDUCED: log 141] -/
def State.srcLive (s : State) (n : Nat) : Bool :=
  s.mgmt.standby && (s.railsOn || plinthSource n) && decide (0 < n ∧ n < 2047)

/-- SOURCE_EDGE (R386): a source rises. -/
def execSourceEdge (src : Fin 2048) (s : State) : Host.Outcome State Fault Refusal :=
  .next (if s.srcLive src.val then s.raiseWake src.val else s)

/-- SET (R387, R395): acts as an edge; while the core rails are off only a SET of the Hukirvo controller counts. -/
def execSet (src : Fin 2048) (byHukirvo : Bool) (s : State) : Host.Outcome State Fault Refusal :=
  .next (if s.mgmt.standby && (s.railsOn || (byHukirvo && risesOff src.val)) then s.raiseWake src.val else s)

/-- PEND_CLEAR (R387): PEND clears, and the source stops being deliverable. -/
def execPendClear (src : Fin 2048) (s : State) : Host.Outcome State Fault Refusal :=
  .next (if s.srcLive src.val then
      { s with cleat := s.cleat.setSource src.val { s.cleat.source src.val with pend := false } }
    else s)

/-- A write of CLT_SRC_s (R387, R390, R391, R392): TARGET only while EN and INSVC are both 0; a mask of the highest deliverable
source of a target in Morfort mode is remembered; PEND clears before an edge of the same write sets it. -/
def State.writeSource (s : State) (n v : Nat) : State :=
  let c := s.cleat
  let x := c.source n
  let t := x.target.toNat
  let masks := x.en && !bitAt v 3 && c.best t == some n && c.morfort.getLsbD t
  let x' := { x with target := if x.en || x.insvc then x.target else BitVec.ofNat 3 (v % 8), en := bitAt v 3, pend := x.pend && !bitAt v 4 }
  let c := { c.setSource n x' with lastMask := if masks then SMap.set c.lastMask t (n, s.now) else c.lastMask }
  let s := { s with cleat := c.settle }
  if bitAt v 6 then s.raiseWake n else s

/-- SOURCE_ENABLE (R390). -/
def execSourceEnable (src : Fin 2048) (v : Word) (s : State) : Host.Outcome State Fault Refusal :=
  .next (if s.srcLive src.val then s.writeSource src.val v.toNat else s)

/-- A claim takes a source into service. -/
def Cleat.take (c : Cleat) (n : Nat) : Cleat := c.setSource n { c.source n with pend := false, insvc := true }

/-- The masked source that a claim of a Morfort target may still return (R391). [DEDUCED: log 140] -/
def State.masked (s : State) (t : Nat) : Option Nat :=
  match SMap.find? s.cleat.lastMask t with
  | some (n, at_) =>
    let x := s.cleat.source n
    if s.cleat.morfort.getLsbD t && !x.en && x.pend && !x.insvc && decide (s.now ≤ at_ + Config.maskWindow) then some n else none
  | none => none

/-- What the claim of target `t` returns (R388, R391): the highest deliverable source; with none, the spurious number where the
line has been high since the last claim, else 0. The choice that Morfort mode leaves is free. [DEDUCED: log 140] -/
def State.claimOf (s : State) (t : Nat) : State × Nat :=
  let c := s.cleat
  let normal := match c.best t with
    | some n => ({ s with cleat := c.take n }, n)
    | none => (s, if c.wasHigh.getLsbD t then 2047 else 0)
  match s.masked t with
  | none => normal
  | some n =>
    if Config.freeBool s.free then (({ s with cleat := { c.take n with lastMask := SMap.del c.lastMask t } }).draw, n)
    else (normal.1.draw, normal.2)

/-- A read of CLT_CLAIM_t (R388): the request line's history starts anew. While the core rails are off, target 4 alone has sources. -/
def State.claimRead (s : State) (t : Nat) : State :=
  if !s.mgmt.standby || !(s.railsOn || t == 4) then s
  else
    let (s, n) := s.claimOf t
    let bit := BitVec.ofNat 5 (2 ^ t)
    let s := { s with cleat := { s.cleat with wasHigh := (s.cleat.wasHigh &&& ~~~bit) ||| (s.cleat.req &&& bit) } }
    s.emit (.claim t (BitVec.ofNat 11 n))

/-- CLAIM (R388). -/
def execClaim (tgt : Fin 5) (s : State) : Host.Outcome State Fault Refusal := .next (s.claimRead tgt.val)

/-- A write of CLT_CLAIM_t.COMPLETE (R389): INSVC of a source in service whose TARGET is the writer clears; any other write is
counted. -/
def State.completeWrite (s : State) (t : Nat) (src : BitVec 11) : State :=
  let c := s.cleat
  let x := c.source src.toNat
  if !s.mgmt.standby || !(s.railsOn || t == 4) then s
  else if src.toNat ≠ 0 ∧ src.toNat ≠ 2047 ∧ x.insvc ∧ x.target.toNat = t then
    { s with cleat := (c.setSource src.toNat { x with insvc := false }).settle }
  else if s.railsOn then { s with cleat := { c with badCompl := satAdd c.badCompl 1 0xFFFF } }
  else s

/-- COMPLETE (R389). -/
def execComplete (tgt : Fin 5) (src : BitVec 11) (s : State) : Host.Outcome State Fault Refusal := .next (s.completeWrite tgt.val src)

/-! ### The register block (R393, R394) -/

/-- What a read of the block returns, but for the claim registers: a register held on the core rails reads zero while they are off. -/
def State.readCleat (s : State) (off : Nat) : Nat :=
  let c := s.cleat
  if off < 0x4000 then
    let x := c.source (off / 8)
    if s.srcLive (off / 8) then pack [(x.target.toNat, 0, 3), (b2n x.en, 3, 1), (b2n x.pend, 4, 1), (b2n x.insvc, 5, 1)] else 0
  else if off = 0x4100 then
    (if s.railsOn then pack [(c.morfort.toNat, 0, 5), (c.req.toNat, 8, 5), (c.badCompl, 16, 16)] else 0)
  else if 0x4200 ≤ off ∧ off < 0x4400 then
    (match SMap.find? c.belay ((off - 0x4200) / 8) with
     | some (src, en) => pack [(src.toNat, 0, 11), (b2n en, 15, 1)]
     | none => 0)
  else if off = 0x4400 then c.latched.toNat
  else 0

/-- A write of a register of the block; the watch table is written by the control cores only while the core rails are up (R394). -/
def State.writeCleat (s : State) (byHukirvo : Bool) (off v : Nat) : State :=
  let c := s.cleat
  if off < 0x4000 then
    (if s.srcLive (off / 8) then s.writeSource (off / 8) v
     else if bitAt v 6 && byHukirvo && risesOff (off / 8) then s.raiseWake (off / 8) else s)
  else if off = 0x4100 then (if s.railsOn then { s with cleat := { c with morfort := BitVec.ofNat 5 (v % 32) } } else s)
  else if 0x4200 ≤ off ∧ off < 0x4400 then
    (if s.railsOn || byHukirvo then
      let e : BitVec 11 × Bool := (BitVec.ofNat 11 (v % 2048), bitAt v 15)
      { s with cleat := { c with belay := if e = (0, false) then SMap.del c.belay ((off - 0x4200) / 8) else SMap.set c.belay ((off - 0x4200) / 8) e } }
     else s)
  else s

/-- A read of the block: of a claim register, it claims (R388). -/
def State.cleatRead (s : State) (off : Nat) (w : Width) : State :=
  if !s.mgmt.standby then s
  else if 0x4000 ≤ off ∧ off < 0x4028 then s.claimRead ((off - 0x4000) / 8)
  else s.emit (.setupData (barPart off w (s.readCleat (off / 8 * 8))))

/-- A write of the block: of a claim register's upper half, it completes (R389). A half that is not written keeps its bits. -/
def State.cleatWrite (s : State) (byHukirvo : Bool) (off : Nat) (w : Width) (v : Word) : State :=
  let base := off / 8 * 8
  let old := if base < 0x4000 ∨ (0x4000 ≤ base ∧ base < 0x4028) then 0 else s.readCleat base
  match barMerge off w old v.toNat with
  | none => s
  | some x =>
    if !s.mgmt.standby then s
    else if 0x4000 ≤ base ∧ base < 0x4028 then
      (if w = .w32 ∧ off % 8 = 0 then s else s.completeWrite ((base - 0x4000) / 8) (BitVec.ofNat 11 (bits x 42 32)))
    else if base < 0x4000 ∧ w = .w32 ∧ off % 8 = 4 then s
    else s.writeCleat byHukirvo base x

end Sys2Proof.Machine
end

