-- ==== Sys2Proof/Machine/Orders.lean ====
section
/-!
DEFINITION. The start-up memory test (16 R438 to R441), the power orders of the management port (15 R409 to R413, R449, R450), the
shutdown record (16 R442 to R446), thermal trips (13 R373, R374), and what else takes the rails away (15 R418, 20 R511 to R518).
-/

namespace Sys2Proof.Machine

/-! ### The memory test (16 R438 to R441) -/

/-- A row is among those a test covers (R438, R439). [DEDUCED: log 160] -/
def State.rowTested (s : State) (n pc bank row : Nat) : Bool :=
  let k := s.stack n
  let named := s.boot.defects.any (fun d => d.unit == 9 && d.row.toNat == n && decide (d.addr.toNat = pc + 64 * bank + 2048 * row))
  let held := decide (16 ≤ bank ∧ row = 24575) && brValid (SMap.get 0 k.badRows (16 * pc + (bank - 16)))
  s.boot.kind == 0 || row % 64 == s.boot.slice || held ||
    (if s.boot.kind = 1 then named else k.suspects.contains (rowKey pc bank row))

/-- The entry word of a row that the test lists: SOURCE 1, REMAPPED, VALID (04 R122). -/
def testEntry (bank row : Nat) : BitVec 32 := BitVec.ofNat 32 (row + fieldAt bank 15 5 + fieldAt 1 21 1 + fieldAt 1 22 1 + 2 ^ 31)

/-- A failing spare is marked, and the row it served needs another (R440). [DEDUCED: log 160] -/
def Stack.failSpare (k : Stack) (e : Nat) : Stack × Option (Nat × Nat) :=
  let w := SMap.get 0 k.badRows e
  ({ k with badRows := SMap.set k.badRows e (BitVec.ofNat 32 (2 ^ 21)) }, if brValid w then some (brBank w, brRow w) else none)

/-- A failing row takes the lowest free spare; the answer says whether one was left. -/
def Stack.testList (k : Stack) (pc bank row : Nat) : Stack × Bool :=
  if k.badRows.any (fun e => brValid e.2 && e.1 / 16 == pc && brBank e.2 == bank && brRow e.2 == row) then (k, true)
  else match k.freeSpares pc with
    | [] => (k, false)
    | i :: _ => ({ k with badRows := SMap.set k.badRows (16 * pc + i) (testEntry bank row) }, true)

/-- Every failing row is entered: spares first, so that no row takes a failing one. [DEDUCED: log 160] -/
def Stack.testRows (k : Stack) (rows : List (Nat × Nat × Nat)) : Stack × Bool :=
  let spare (r : Nat × Nat × Nat) : Bool := decide (16 ≤ r.2.1 ∧ r.2.2 = 24575)
  let (k, more) := (rows.filter spare).foldl (fun (a : Stack × List (Nat × Nat × Nat)) r =>
    match a.1.failSpare (16 * r.1 + (r.2.1 - 16)) with
    | (k, some (b, w)) => (k, a.2 ++ [(r.1, b, w)])
    | (k, none) => (k, a.2)) (k, [])
  (more ++ rows.filter (fun r => !spare r)).foldl (fun (a : Stack × Bool) r =>
    match a.1.testList r.1 r.2.1 r.2.2 with
    | (k, ok) => (k, a.2 && ok)) (k, true)

/-- Entries still to be remapped are remapped without a copy (R440). -/
def Stack.remapAll (k : Stack) : Stack :=
  { k with badRows := k.badRows.map (fun (e : Nat × BitVec 32) => (e.1, if brValid e.2 then e.2 ||| 0x400000 else e.2)) }

/-- MEMORY_TEST_DONE (R438 to R441): the test of a stack ends with its failing rows; every line is then initialised. -/
def execMemoryTestDone (n : PartNo) (rows : List (Fin 64 × Fin 32 × Fin 24576)) (s : State) : Host.Outcome State Fault Refusal :=
  .next (if !s.mgmt.standby || s.boot.step != 8 || !s.boot.testLeft.contains n.val then s
    else
      let rs := (rows.map (fun r => (r.1.val, r.2.1.val, r.2.2.val))).filter (fun r => s.rowTested n.val r.1 r.2.1 r.2.2)
      let old := (s.stack n.val).badRows
      let (k, ok) := (s.stack n.val).testRows rs
      let k := { k.remapAll with mem := [], keyOf := [], poison := [], suspects := [] }
      let s := s.setStack n.val k
      let s := { s with boot := { s.boot with testLeft := s.boot.testLeft.filter (· != n.val), bad := if ok then s.boot.bad else s.boot.bad ++ [(n.val, 3)] } }
      if k.badRows = old then s else s.journalRows)

/-! ### Messages of the management paths (15 R402, R409, R429, R449) -/

/-- The path reaches the controller: the host path only while the core rails are up. -/
def State.reach (s : State) (p : MgmtPath) : Bool := s.mgmt.standby && (match p with | .tray => true | .host => s.railsOn)

/-- A message on the tray path: the BMC is present (R429). -/
def State.heard (s : State) (p : MgmtPath) : State :=
  match p with
  | .tray => { s with mgmt := { s.mgmt with bmc := true, bmcAt := some s.now } }
  | .host => s

/-- A Denxon command marked R: served on both paths, but not by the boot ROM. [DEDUCED: log 146] -/
def State.readCmd (s : State) (p : MgmtPath) (f : State → State × Nat × Nat × List Byte) : State :=
  if !s.reach p then s
  else
    let s := s.heard p
    if s.mgmt.romRecov then s
    else
      let (s, code, detail, data) := f s
      s.emit (.response p code detail data)

/-- A Denxon command marked O: completion code 0x03 on the host path (R402). -/
def State.orderCmd (s : State) (p : MgmtPath) (f : State → State × Nat × Nat × List Byte) : State :=
  s.readCmd p (fun s => if p = .host then (s, 3, 0, []) else f s)

/-- A power order given outside its states (R413): State, and report 0x000F. [DEDUCED: log 161] -/
def State.orderState (s : State) (order : Nat) : State × Nat × Nat × List Byte := (s.report 0x0F order, 4, 0, [])

/-- Gates of every power order (R412, R413): an orderly shutdown still runs; THERMTRIP_N is low. -/
def State.powerOrder (s : State) (order : Nat) (ok : Bool) (f : State → State × Nat × Nat × List Byte) : State × Nat × Nat × List Byte :=
  if s.boot.shutdown then (s, 5, 0, [])
  else if s.thm.tripLow || !ok || s.sec.boundary then s.orderState order
  else f s

/-- PA0 to PA2: the start has reached step 11. -/
def State.inPa (s : State) : Bool := s.railsOn && s.boot.ready

/-- ON (R413): from PS5; in ROM recovery it completes with State (16 R449). [DEDUCED: log 152] -/
def execOn (path : MgmtPath) (s : State) : Host.Outcome State Fault Refusal :=
  .next (if s.mgmt.romRecov ∧ path = .tray ∧ s.mgmt.standby then
      let (s, c, d, b) := (s.heard path).orderState 0
      s.emit (.response path c d b)
    else s.orderCmd path (fun s => s.powerOrder 0 (s.pwr.rails == .ps5 && !s.starting) (fun s => (s.beginStart 0, 0, 0, []))))

/-! ### OFF (16 R442, R450; 14 R397) -/

/-- Step 1 of the orderly shutdown: fetching stops, and every partition not Off is reset. -/
def State.shutdownBegin (s : State) : State :=
  let s := { s with boot := { s.boot with shutdown := true, untested := 0 } }
  let s := (List.range 12).foldl (fun s n => if (s.psw n).state = .off then s else s.resetWhole n 5) s
  { s with boot := { s.boot with shutLt := s.recordLt } }

/-- OFF (R413, R442): the orderly shutdown in PA0 to PA2; a start stops at once, PS3 goes to PS5, and neither runs a test. On the
host path the order is refused and recorded (01 R14). -/
def execOff (path : MgmtPath) (s : State) : Host.Outcome State Fault Refusal :=
  let s := if path = .host ∧ s.reach path ∧ !s.mgmt.romRecov then s.refusedOrder 3 1 else s
  .next (s.orderCmd path (fun s => s.powerOrder 1 (s.inPa || s.starting || s.pwr.rails == .ps3) (fun s =>
    if s.inPa then (s.shutdownBegin, 0, 0, []) else (s.railsFall .orderly, 0, 0, []))))

/-- SLEEP (R413; 12 R347): refused, and reported, while a condition of R347 holds. [DEDUCED: log 131] -/
def execSleep (path : MgmtPath) (s : State) : Host.Outcome State Fault Refusal :=
  .next (s.orderCmd path (fun s => s.powerOrder 2 s.inPa (fun s =>
    if s.sleepBar none = 0 then (s.enterPs3, 0, 0, []) else (s.report 0x0F 2, 6, 2, []))))

/-- WAKE (R413): acts as Cleat source 1,530. -/
def execWake (path : MgmtPath) (s : State) : Host.Outcome State Fault Refusal :=
  .next (s.orderCmd path (fun s => s.powerOrder 3 (s.pwr.rails == .ps3 && !s.starting) (fun s => (s.raiseWake 1530, 0, 0, []))))

/-! ### The shutdown self-test (16 R443 to R446) -/

/-- Suspect rows (R446): the watch table of a stack, as UNIT 0x09 entries. -/
def State.suspectRows (s : State) (n : Nat) : List Defect :=
  ((s.stack n).watch.filter (fun w => decide (1 ≤ w.2))).map (fun w =>
    let row := w.1 % 24576
    let bank := (w.1 / 24576) % 32
    let pc := w.1 / 24576 / 32
    ⟨9, BitVec.ofNat 8 (n / 6), BitVec.ofNat 8 n, 0, BitVec.ofNat 32 (pc + 64 * bank + 2048 * row), BitVec.ofNat 8 (min w.2 255), 0, 0xFF⟩)

/-- Partitions that the test left out: an alert held, or a regulator does not answer (R443). -/
def State.untestedNow (s : State) : Nat :=
  listMask ((List.range 12).filter (fun n => (s.part n).regDown || s.pwr.alerting || s.boot.untested.getLsbD n))

/-- SHUTDOWN_SELFTEST_DONE (R442 steps 2 to 4): the record is built, the rails fall, and the record is written. -/
def execShutdownSelftestDone (defects : List Defect) (untested : BitVec 16) (ms : BitVec 32) (s : State) : Host.Outcome State Fault Refusal :=
  .next (if !s.mgmt.standby || !s.boot.shutdown then s
    else
      let u := (untested.toNat ||| s.untestedNow) % 2 ^ 13
      let kept := defects.filter (fun d => decide (1 ≤ d.unit.toNat ∧ d.unit.toNat ≤ 8) && !bitAt u ((defectPart d).getD 12))
      let l := kept ++ (List.range 12).flatMap s.suspectRows
      let lt := s.boot.shutLt
      let sl := s.boot.slice
      (s.railsFall .orderly).journal 6 (shutdownRecord 1 0 0 lt sl (decide (64500 < l.length)) u ms.toNat (l.take 64500)))

/-! ### Thermal trips (13 R373 to R375) -/

/-- A reading that trips: 110 °C of a die sensor, 105 °C of a stack. -/
def trips (sensor temp : Nat) : Bool := (decide (sensor < 54) && decide (440 ≤ temp)) || (decide (64 ≤ sensor) && decide (420 ≤ temp))

/-- The trip record (R373 step 4). -/
def State.tripRecord (s : State) (sensor temp : Nat) : State :=
  { s with thm := { s.thm with tripValid := true, tripId := sensor, tripTemp := temp, tripUp := (s.now - s.mgmt.since) / fcPerS,
                               tripCount := satAdd s.thm.tripCount 1 0x3FFF, tripAt := s.now, tripLow := true } }

/-- THERMAL_TRIP (R373): THERMTRIP_N falls, the rails fall, the record is written. A second sensor within 10 µs only gives the
record the lower id (R375); a start in progress fails with cause 0x07 (16 R448). [DEDUCED: log 138] -/
def execThermalTrip (sensor : Fin 76) (temp : Nat) (s : State) : Host.Outcome State Fault Refusal :=
  .next (if !s.mgmt.standby || !trips sensor.val temp then s
    else if s.thm.tripLow then
      if decide (s.now ≤ s.thm.tripAt + 10 * fcPerUs ∧ sensor.val < s.thm.tripId) then { s with thm := { s.thm with tripId := sensor.val, tripTemp := temp } } else s
    else if !(s.railsOn || (s.starting && decide (2 ≤ s.boot.step))) then s
    else
      let s := if s.starting then s.startFail 7 .trip else s.railsFall .trip
      ((s.tripRecord sensor.val temp).raise 1536).report 6 sensor.val)

/-- TRIP_RELEASE (R374): refused, and reported, within 60 s of the trip. -/
def execTripRelease (path : MgmtPath) (s : State) : Host.Outcome State Fault Refusal :=
  .next (s.orderCmd path (fun s =>
    if !s.thm.tripLow then (s, 4, 0, [])
    else
      let secs := (s.now - s.thm.tripAt) / fcPerS
      if s.now < s.thm.tripAt + 60 * fcPerS then (s.report 7 secs, 6, secs, [])
      else (({ s with thm := { s.thm with tripLow := false } }).lands ["THERMTRIP_N"] true, 0, 0, [])))

/-! ### Faults of the supplies (15 R418; 20 R511, R513) -/

/-- A regulator fault takes the core rails away, without THERMTRIP_N (R418). [DEDUCED: log 159] -/
def State.supplyFault (s : State) (detail : Nat) : State :=
  let s := s.report 0x10 detail
  if s.starting && decide (2 ≤ s.boot.step) then s.startFail 3 .fault else s.railsFall .fault

/-- STATUS_WORD of the last telemetry of a regulator, as DETAIL of report 0x0010 carries it. -/
def State.faultDetail (s : State) (r : Nat) : Nat :=
  r + 65536 * (match SMap.find? s.pwr.regData r with
    | some t => t.status.toNat
    | none => 0)

/-- RAIL_RANGE_TIMEOUT (20 R513): a rail is not in range 5 ms after its enable: cause 0x03. -/
def execRailRangeTimeout (rail : Nat) (s : State) : Host.Outcome State Fault Refusal :=
  .next (if s.mgmt.standby && s.boot.step == 2 && s.boot.kind != 3 && decide (rail < 8) then (s.report 0x10 rail).startFail 3 .fault else s)

/-- STACK_RAIL_FAULT (20 R511): a stack rail below 90% for 1 ms: regulator 6 (VSTK_DD) or 7 (VSTK_PP). -/
def execStackRailFault (pp : Bool) (s : State) : Host.Outcome State Fault Refusal :=
  .next (if s.mgmt.standby && (s.railsOn || s.pwr.rails == .ps3) then s.supplyFault (if pp then 7 else 6) else s)

/-- OUTPUT_BELOW_SETTING (R418): the output of a regulator lies below 90% of its setting for 1 ms. -/
def execOutputBelowSetting (reg : Fin 6) (s : State) : Host.Outcome State Fault Refusal :=
  .next (if s.mgmt.standby && s.railsOn then s.supplyFault (s.faultDetail reg.val) else s)

/-- Reads of STATUS_WORD and telemetry feed the sensors; MODEL_ERR follows from them and the model by a formula that the spec does
not give, so its value is free (R417, 12 R364). -/
def State.regTelemetry (s : State) (r : Nat) (t : RegTelemetry) : State :=
  let s := { s with pwr := { s.pwr with regData := SMap.set s.pwr.regData r t, regMiss := s.pwr.regMiss.setIfInBounds r 0, modelErr := (Config.freeWord s.free).setWidth 16 } }
  s.draw

/-- REGULATOR_POLL (R417, R418): a reading, or no answer; the third in a row is reported, and the regulator's partitions take no
raising step until it answers. [DEDUCED: log 133] -/
def execRegulatorPoll (reg : Fin 6) (r : Option RegTelemetry) (s : State) : Host.Outcome State Fault Refusal :=
  let n := reg.val
  .next (if !s.mgmt.standby then s else match r with
    | some t =>
      let s := s.regTelemetry n t
      let s := (fedBy n).foldl (fun s p => if (s.part p).regDown then s.setPart p { s.part p with regDown := false } else s) s
      let s := if s.railsOn then (s.setRail n) else s
      if t.faulted && s.railsOn then s.supplyFault (n + 65536 * t.status.toNat) else s
    | none =>
      let k := s.pwr.regMiss.toList.getD n 0 + 1
      let s := { s with pwr := { s.pwr with regMiss := s.pwr.regMiss.setIfInBounds n k } }
      if k = 3 then
        ((fedBy n).foldl (fun s p => s.setPart p { s.part p with regDown := true }) s).report 0x11 n
      else s)

/-! ### Reset lands (20 R517, R518) -/

/-- PCIE_PERST_N (R518): its fall resets the functions, as R159 does for the PF and every VF; its rise is Cleat source 1,529. -/
def execPciePerstN (level : Bool) (s : State) : Host.Outcome State Fault Refusal :=
  let was := s.boot.perst
  let s := { s with boot := { s.boot with perst := level } }
  .next (if !s.mgmt.standby || was == level then s
    else if level then s.raiseWake 1529
    else if s.railsOn then s.flrAll else s)

/-! ### Events of the plinth (14 R385) -/

/-- IN_BAND_INTERRUPT: Cleat source 1,531. -/
def execInBandInterrupt (s : State) : Host.Outcome State Fault Refusal := .next (if s.mgmt.standby then s.raiseWake 1531 else s)

/-- PLINTH_TEMPERATURE_115 (15 R399): Cleat source 1,532. -/
def execPlinthTemperature115 (s : State) : Host.Outcome State Fault Refusal := .next (if s.mgmt.standby then s.raiseWake 1532 else s)

/-- TEST_LOGIC_RESET_EXIT: Cleat source 1,534. -/
def execTestLogicResetExit (s : State) : Host.Outcome State Fault Refusal := .next (if s.mgmt.standby then s.raiseWake 1534 else s)

end Sys2Proof.Machine
end

