-- ==== Sys2Proof/Machine/Tenants.lean ====
section
/-!
DEFINITION. Tenants, keys and debug (spec 11): tenant changes (R317 to R319), memory windows (R323), key commands (R325, R326, R330),
fid tokens (R337, R338), the JTAG classes (R336), and the SVN commit (R332).
-/

namespace Sys2Proof.Machine

/-! ### Tenant changes (R317 to R319) -/

def offTenAssign : Nat := 0x200000

/-- The first failing check of R317, 0 for none. [DEDUCED: log 113] -/
def State.assignCheck (s : State) (n t : Nat) : Nat :=
  let st := (s.psw n).state
  if 12 ≤ n then 1
  else if 64 < t then 2
  else if st = .active ∨ st = .fenced ∨ st = .resetting then 3
  else if t ≠ 0 ∧ s.sec.debug ≠ .locked then 4
  else 0

/-- Teams of a tenant that list a tile of the partition. -/
def State.teamsOn (s : State) (t : BitVec 7) (n : Nat) : List Team :=
  s.staging.teams.filter (fun m => m.tenant == t && m.tlist.any (fun l => l / 70 == n))

/-- Step 1 of R318: teams dissolved, streams ended, the tiles of no tenant. -/
def State.changeBegin (s : State) (n : Nat) (t : BitVec 7) : State :=
  let due := s.now + 10 * fcPerMs
  let old := s.ownCkts.filter (·.closing)
  let s := (s.teamsOn (s.psw n).tenant n).foldl (fun s m => (s.endOpen m).dissolve m none (some due)) s
  let s := s.cutStreams n
  let s := (partTiles n).foldl (fun s x => s.setTile x { s.tile x with tenant := 0 }) s
  let new := (s.ownCkts.filter (fun c => c.closing && !old.any (fun o => o.cid == c.cid))).map (·.cid)
  { s with sec := { s.sec with tenChange := some ⟨n, t, new⟩ } }

/-- A write of TEN_ASSIGN: one with GO while BUSY is ignored. -/
def State.tenAssign (s : State) (v : Nat) : State :=
  let go := bitAt v 11
  if go && s.sec.tenChange.isSome then { s with sec := { s.sec with tenStatus := 5 } }
  else
    let s := s.setReg offTenAssign 0 (v % 2048)
    if !go then s
    else match s.assignCheck (v % 16) (bits v 10 4) with
      | 0 => s.changeBegin (v % 16) (BitVec.ofNat 7 (bits v 10 4))
      | c => { s with sec := { s.sec with tenStatus := BitVec.ofNat 4 c } }

/-- TEN_ASSIGN (R317). -/
def execTenAssign (v : Word) (s : State) : Host.Outcome State Fault Refusal :=
  .next (if s.barLive && v.getLsbD 11 then s.barAccess.tenAssign v.toNat else s)

/-- Step 2 of R318 on a tile: program region and spill area zero. -/
def Tile.wiped (x : Tile) : Tile :=
  { x with scratch := Memory.clear x.scratch progBase spadEnd, upsets := x.upsets.filter (fun e => decide (8 * e.1 < progBase)) }

/-- TENANT_CHANGE_DONE (R318 steps 2 and 3): after the tear-downs; fencing orders that waited are carried out (R319). -/
def execTenantChangeDone (s : State) : Host.Outcome State Fault Refusal :=
  .next (match s.sec.tenChange with
    | none => s
    | some c =>
      if !s.railsOn || s.ownCkts.any (fun k => k.closing && c.closing.contains k.cid) then s
      else
        let n := c.part
        let off := decide ((s.psw n).state = .off)
        let s := (partTiles n).foldl (fun s x => s.setTile x { (if off then s.tile x else (s.tile x).wiped) with tenant := c.tenant }) s
        let s := s.pswChange n (fun q => { q with tenant := c.tenant })
        let s := ({ s with sec := { s.sec with tenChange := none, tenStatus := 0 } }).raise 1495
        let held := (s.part n).fencesHeld
        held.foldl (fun s x => s.fence n x) (s.setPart n { s.part n with fencesHeld := [] }))

/-! ### Memory windows (R323) -/

def winMask : Nat := 0x7FFFF07FFFF07

def winBase (v : Nat) : Nat := bits v 26 8
def winSize (v : Nat) : Nat := bits v 50 32

/-- An enabled window of another tenant overlaps the range. -/
def State.winOverlap (s : State) (t v : Nat) : Bool :=
  (List.range 64).any (fun i => i + 1 != t && (List.range 16).any (fun w =>
    let o := s.reg (offTenWin (i + 1) w) 0
    bitAt o 0 && decide (winBase v < winBase o + winSize o ∧ winBase o < winBase v + winSize v)))

/-- The first failing check of R323, 0 for none. -/
def State.winCheck (s : State) (t v : Nat) : Nat :=
  if winSize v = 0 ∨ 294912 < winBase v + winSize v then 1
  else if !bitAt v 1 && !bitAt v 2 then 2
  else if s.winOverlap t v then 3
  else 0

/-- A write of TEN_WIN_t_w. While EN is 1 only EN can change. [DEDUCED: log 117] -/
def State.writeWindow (s : State) (t w v : Nat) : State :=
  let o := offTenWin t w
  let cur := s.reg o 0
  let v := v &&& winMask
  if bitAt cur 0 then (if bitAt v 0 then s else s.setReg o 0 (cur - 1))
  else if !bitAt v 0 then s.setReg o 0 v
  else match s.winCheck t v with
    | 0 => s.setReg o 0 v
    | e => ({ s with sec := { s.sec with winErr := SMap.set s.sec.winErr t (BitVec.ofNat 2 e) } }).setReg o 0 (v - 1)

/-- WINDOW_ENABLE (R323). -/
def execWindowEnable (ten : Fin 64) (w : Fin 16) (v : Word) (s : State) : Host.Outcome State Fault Refusal :=
  .next (if s.barLive && v.getLsbD 0 then s.barAccess.writeWindow (ten.val + 1) w.val v.toNat else s)

/-! ### Key commands (R325, R326, R330) -/

def offKeyCmd : Nat := 0x4C0008
def offKeyBlob : Nat := 0x4C0010
def keyCmdMask : Nat := 0xFFFFFFFFFFFF03FF

/-- Fabric keys of a tenant, newest first. -/
def State.fabOf (s : State) (t : Nat) : List FabKey := SMap.get [] s.sec.fabKeys t

def State.setFab (s : State) (t : Nat) (l : List FabKey) : State :=
  { s with sec := { s.sec with fabKeys := if l.isEmpty then SMap.del s.sec.fabKeys t else SMap.set s.sec.fabKeys t l } }

/-- A blob passes R330. [DEDUCED: log 116] -/
def State.blobOk (s : State) (t id session : Nat) (blob : HostRead) (gcmOk : Bool) : Bool :=
  match blob with
  | .ok b =>
    b.length == 80 && gcmOk && s.sec.sessions.any (fun e => e.1.toNat == session && e.2) && fieldLE b 0 1 == 1 && fieldLE b 1 1 == 0 &&
      fieldLE b 2 1 == t && fieldLE b 3 1 == 0 && fieldLE b 4 2 == id && ((b.drop 6).take 10).all (· == 0) && (b.drop 0x4C).all (· == 0)
  | _ => false

/-- The first failing check of R325, 0 for none. [DEDUCED: log 113, DEDUCED: log 115] -/
def State.keyCheck (s : State) (op t id session : Nat) (blob : HostRead) (gcmOk : Bool) : Nat :=
  let mem := (SMap.find? s.sec.keys t).isSome
  let fab := s.fabOf t
  let has := fab.any (fun e => e.id.toNat == id)
  if t = 0 ∨ 64 < t ∨ 4 ≤ op then 1
  else if (op = 0 ∧ mem) ∨ (op = 2 ∧ (2 ≤ fab.length ∨ has)) then 2
  else if (op = 1 ∧ !mem) ∨ (op = 3 ∧ !has) then 3
  else if (op = 0 ∨ op = 2) ∧ s.sec.debug ≠ .locked then 4
  else if s.powerBusy then 5
  else if op = 2 ∧ !s.blobOk t id session blob gcmOk then 6
  else 0

/-- The lowest free fabric slot. [DEDUCED: log 116] -/
def freeFab (l : List FabKey) : Nat := if l.any (fun e => e.slot == 0) then 1 else 0

/-- The effect of an accepted command. [DEDUCED: log 114] -/
def State.keyRun (s : State) (op t id : Nat) : State :=
  match op with
  | 0 => { s with sec := { s.sec with keys := SMap.set s.sec.keys t s.sec.nextKey, nextKey := s.sec.nextKey + 1 } }
  | 1 => { s with sec := { s.sec with keys := SMap.del s.sec.keys t } }
  | 2 => ({ s with sec := { s.sec with nextKey := s.sec.nextKey + 1 } }).setFab t (⟨BitVec.ofNat 16 id, s.sec.nextKey, freeFab (s.fabOf t)⟩ :: s.fabOf t)
  | _ => s.setFab t ((s.fabOf t).filter (fun e => e.id.toNat != id))

/-- A write of SEC_KEY_CMD; the command completes, with source 1,494, whether it is carried out or refused.
[DEDUCED: log 114] -/
def State.keyCmd (s : State) (v : Nat) (blob : HostRead) (gcmOk : Bool) : State :=
  let s := s.setReg offKeyCmd 0 (v &&& keyCmdMask)
  if !bitAt v 10 then s
  else
    let (op, t, id) := (v % 8, bits v 9 3, bits v 31 16)
    let c := s.keyCheck op t id (bits v 63 32) blob gcmOk
    let s := if op = 2 ∧ (c = 0 ∨ c = 6) then s.emit (.hostRead ⟨0, none⟩ (s.reg offKeyBlob 0) 80) else s
    let s := if c = 0 then s.keyRun op t id else s
    ({ s with sec := { s.sec with keyStatus := BitVec.ofNat 4 c } }).raise 1494

/-- A write of SEC_KEY_CMD with GO and the named operation. -/
def State.keyWrite (s : State) (op : Nat) (v : Word) (blob : HostRead) (gcmOk : Bool) : State :=
  if s.barLive && v.getLsbD 10 && v.toNat % 8 == op then s.barAccess.keyCmd v.toNat blob gcmOk else s

/-- GENERATE (R325). -/
def execGenerate (v : Word) (s : State) : Host.Outcome State Fault Refusal := .next (s.keyWrite 0 v .error false)
/-- ERASE (R325, R326). -/
def execErase (v : Word) (s : State) : Host.Outcome State Fault Refusal := .next (s.keyWrite 1 v .error false)
/-- IMPORT (R330): the blob that the PF read at SEC_KEY_BLOB, and whether its GCM tag is good. -/
def execImportKey (v : Word) (blob : HostRead) (gcmOk : Bool) (s : State) : Host.Outcome State Fault Refusal := .next (s.keyWrite 2 v blob gcmOk)
/-- ERASE_FABRIC (R325). -/
def execEraseFabric (v : Word) (s : State) : Host.Outcome State Fault Refusal := .next (s.keyWrite 3 v .error false)

/-! ### Fid tokens (R336 to R338) -/

/-- Serves a fid command on the JTAG port (none) or as a Denxon order. -/
def State.fidCmd (s : State) (path : Option MgmtPath) (f : State → State × Nat × Nat × List Byte) : State :=
  match path with
  | some p => s.orderCmd p f
  | none =>
    if !s.mgmt.standby then s
    else
      let (s, _, _, data) := f s
      if data.isEmpty then s else s.emit (.jtag data)

/-- FID_CHAL (R337): DEVICE_ID and a fresh nonce; an earlier nonce is discarded. No effect in Manufacturing (R336). -/
def execFidChal (path : Option MgmtPath) (s : State) : Host.Outcome State Fault Refusal :=
  .next (s.fidCmd path (fun s =>
    if s.sec.debug = .manufacturing then (s, 0, 0, [])
    else
      let n := freeBytes s.free 16
      (({ s with sec := { s.sec with nonce := some (n, s.now) } }).draw, 0, 0, leBytes 8 s.fuses.deviceId.toNat ++ n)))

/-- Step 2 of R338. [DEDUCED: log 121] -/
def State.tokenOk (s : State) (b : List Byte) : Bool :=
  let valid := fieldLE b 0x1C 4
  fieldLE b 0 1 == 1 && decide (fieldLE b 1 1 < 8) && fieldLE b 4 8 == s.fuses.deviceId.toNat && decide (1 ≤ valid ∧ valid ≤ 600) &&
    (match s.sec.nonce with
     | some (n, t) => n == (b.drop 0x0C).take 16 && decide (s.now ≤ t + valid * fcPerS)
     | none => false)

/-- Step 3 of R338 on a partition: it enters Resetting, with TENANT 0 in the same change; one that is Off stays Off (01 R16). -/
def State.unlockPart (s : State) (n : Nat) : State :=
  if (s.psw n).state = .off then s.pswChange n (fun q => { q with tenant := 0 })
  else
    let s := s.endRotation n
    let s := s.setPart n { s.part n with reset := none, waiting := [], rampWait := false, stepDue := none }
    let s := s.pswChange n (fun q => { q with state := .resetting, fencePend := false, gen := if q.state = .resetting then q.gen else q.gen + 1, tenant := 0 })
    (partTiles n).foldl (fun s t => s.setTile t { s.tile t with running := false, jobs := [], tenant := 0 }) s

/-- Step 3: running jobs complete with status 0x08. -/
def State.unlockJobs (s : State) : State :=
  s.jobs.foldl (fun s (e : DescKey × Job) => s.jobEnd e.1 8 ((psetList e.2.pset).headD 0)) s

/-- Steps 3 to 5 of R338: an accepted token. Step 6, the package reset, follows as PACKAGE_RESET.
[DEDUCED: log 119] -/
def State.unlock (s : State) (scope : BitVec 3) : State :=
  let s := ((List.range 12).foldl State.unlockPart s).unlockJobs
  let s := s.zeroize
  let s := { s with boot := { s.boot with retain := s.boot.retain.map (fun (r : SMap Armature × SMap (BitVec 7) × SMap Word) => (r.1, [], r.2.2)) } }
  let s := (s.setDebug .unlocked scope).raise 1496
  { s with sec := { s.sec with resetDue := s.railsOn } }

/-- A refused token. [DEDUCED: log 121] -/
def State.tokenRefused (s : State) : State × Nat × Nat × List Byte :=
  (({ s with sec := { s.sec with unlockFail := satAdd s.sec.unlockFail 1 0xFF } }).draw, 6, (Config.freeWord s.free).toNat % 65536, [])

/-- FID_LOAD (R338): step 1 comes with the command; after 8 refusals a token is refused unchecked.
[DEDUCED: log 121] -/
def execFidLoad (path : Option MgmtPath) (token : List Byte) (ok : Verdicts) (s : State) : Host.Outcome State Fault Refusal :=
  .next (s.fidCmd path (fun s =>
    if token.length ≠ 224 then (s, 2, 4, [])
    else if s.sec.debug = .manufacturing then (s, 0, 0, [])
    else if 8 ≤ s.sec.unlockFail ∨ !ok.keyHashOk ∨ !ok.signatureOk then s.tokenRefused
    else
      let good := s.tokenOk token
      let s := { s with sec := { s.sec with nonce := none } }
      if good then (s.unlock (BitVec.ofNat 3 (fieldLE token 1 1)), 0, 0, []) else s.tokenRefused))

/-! ### The JTAG classes (R336) -/

/-- BOUNDARY_DRIVE (R336): zeroization, and the core domain is held in reset. [DEDUCED: log 161] -/
def execBoundaryDrive (s : State) : Host.Outcome State Fault Refusal :=
  .next (if !s.mgmt.standby || s.sec.boundary then s
    else
      let s := s.zeroize
      let s := { s with sec := { s.sec with boundary := true } }
      if s.railsOn then { s.coreReset true with boot := { s.boot with step := 0, ready := false, shutdown := false, testLeft := [] } } else s)

/-- BOUNDARY_DRIVE_EXIT (R336): the core domain leaves reset, and a package reset follows. [DEDUCED: log 161] -/
def execBoundaryDriveExit (s : State) : Host.Outcome State Fault Refusal :=
  .next (if !s.mgmt.standby || !s.sec.boundary then s else ({ s with sec := { s.sec with boundary := false } }).packageReset)

/-- INTERNAL_SCAN (R336): acts as BYPASS while Locked or outside SCOPE; else zeroization, and a package reset follows.
[DEDUCED: log 119, DEDUCED: log 120] -/
def execInternalScan (scope : BitVec 3) (s : State) : Host.Outcome State Fault Refusal :=
  let may := s.sec.debug == .manufacturing || (s.sec.debug == .unlocked && scope &&& s.sec.scope == scope)
  .next (if !s.mgmt.standby || s.sec.boundary || !may then s else s.zeroize.packageReset)

/-! ### Anti-rollback (R332) -/

/-- SVN_COMMIT (R332): every count rises to the SVN of its running image; refused, and reported, while FALLBACK is 1 (15 R427) or
where a count would pass 63. -/
def execSvnCommit (path : MgmtPath) (s : State) : Host.Outcome State Fault Refusal :=
  .next (s.orderCmd path (fun s =>
    let run := s.sec.running.toList
    if s.mgmt.fallback then (s.report 0x0C 0xFF, 6, 0xFF, [])
    else match (List.range 6).find? (fun i => decide (63 < run.getD i 0)) with
      | some i => (s.report 0x0C (i + 1), 6, i + 1, [])
      | none =>
        let s := { s with fuses := { s.fuses with svn := Vector.ofFn (fun i : Fin 6 => max (s.fuses.svn.get i) (s.sec.running.get i)) } }
        (s.extend 9 s.svnWord, 0, 0, leBytes 8 s.svnWord)))

end Sys2Proof.Machine
end

