-- ==== Sys2Proof/Machine/Pldm.lean ====
section
/-!
DEFINITION. MCTP, SPDM and PLDM types 0 and 2 (15 R400 to R408; 11 R333, R334). The completion codes, command numbers and layouts of
these standards are not in the spec, which cites them by name: those used here are PRESUMED from DSP0240, DSP0248, DSP0267 and
DSP0274, and what the standards let an implementation choose is free.
-/

namespace Sys2Proof.Machine

/-! ### Codes of the standards -/

/-- [PRESUMED: log 142] -/
def pInvalidData : Nat := 0x02
/-- [PRESUMED: log 142] -/
def pUnsupported : Nat := 0x05
/-- [PRESUMED: log 142] -/
def pInvalidType : Nat := 0x20
/-- [PRESUMED: log 142] -/
def pInvalidId : Nat := 0x80
def pTypeInData : Nat := 0x83
def pInvalidHandle : Nat := 0x82
/-- [PRESUMED: log 142] -/
def spdmInvalid : Nat := 0x01
def spdmUnexpected : Nat := 0x04
def spdmDecrypt : Nat := 0x06
def spdmSessions : Nat := 0x0A

/-- What a served message answers: completion code, detail, data. -/
abbrev Answer := State × Nat × Nat × List Byte

/-- Data that the standards leave to the implementation. [DEDUCED: log 144] -/
def State.freeAnswer (s : State) (n : Nat) : Answer := (s.draw, 0, 0, freeBytes s.free n)

/-! ### MCTP (R400, R401) -/

/-- A message that the controller serves in every state with standby present, ROM recovery included (16 R449).
[DEDUCED: log 146] -/
def State.served (s : State) (p : MgmtPath) (f : State → Answer) : State :=
  if !s.reach p then s
  else
    let (s, code, detail, data) := f (s.heard p)
    s.emit (.response p code detail data)

/-- SET_ENDPOINT_ID (R401): each binding has its own endpoint id. -/
def execSetEndpointId (path : MgmtPath) (eid : Byte) (s : State) : Host.Outcome State Fault Refusal :=
  .next (s.served path (fun s => (match path with
    | .tray => if s.mgmt.i3c then { s with mgmt := { s.mgmt with eidI3c := eid } } else { s with mgmt := { s.mgmt with eidTray := eid } }
    | .host => { s with mgmt := { s.mgmt with eidHost := eid } }, 0, 0, [])))

/-- SETDASA (R401): the port changes to I3C. -/
def execSetdasa (addr : BitVec 7) (s : State) : Host.Outcome State Fault Refusal :=
  .next (if s.mgmt.standby then { s with mgmt := { s.mgmt with i3c := true, i3cAddr := addr } } else s)

/-- RSTDAA (R401): the port returns to SMBus. -/
def execRstdaa (s : State) : Host.Outcome State Fault Refusal :=
  .next (if s.mgmt.standby then { s with mgmt := { s.mgmt with i3c := false, i3cAddr := 0 } } else s)

/-- The message types that are taken (R401). -/
def mctpTypes : List Nat := [0x00, 0x01, 0x05, 0x06, 0x7E]

/-- MCTP_DROP (R400, R401): a message of another type, or longer than 1,024 B, is dropped and counted. -/
def execMctpDrop (path : MgmtPath) (typ : Byte) (len : Nat) (s : State) : Host.Outcome State Fault Refusal :=
  .next (if !s.reach path || (mctpTypes.contains typ.toNat && decide (len ≤ 1024)) then s
    else
      let s := s.heard path
      { s with mgmt := { s.mgmt with dropped := satAdd s.mgmt.dropped 1 0xFF } })

/-! ### SPDM (11 R333, R334) -/

/-- GET_VERSION: SPDM 1.3. -/
def execGetVersion (path : MgmtPath) (s : State) : Host.Outcome State Fault Refusal :=
  .next (s.served path (fun s => (s, 0, 0, leBytes 2 0x1300)))

/-- GET_CAPABILITIES. -/
def execGetCapabilities (path : MgmtPath) (s : State) : Host.Outcome State Fault Refusal :=
  .next (s.served path (fun s => s.freeAnswer 12))

/-- NEGOTIATE_ALGORITHMS: served where the requester offers the algorithms of R334. -/
def execNegotiateAlgorithms (path : MgmtPath) (supported : Bool) (s : State) : Host.Outcome State Fault Refusal :=
  .next (s.served path (fun s => if supported then s.freeAnswer 32 else (s, spdmInvalid, 0, [])))

/-- GET_DIGESTS: the SHA-384 digest of slot 0's chain. -/
def execGetDigests (path : MgmtPath) (s : State) : Host.Outcome State Fault Refusal :=
  .next (s.served path (fun s => s.freeAnswer 48))

/-- GET_CERTIFICATE: slot 0 only; the chain's length is not in the spec. [DEDUCED: log 144] -/
def execGetCertificate (path : MgmtPath) (slot : Byte) (s : State) : Host.Outcome State Fault Refusal :=
  .next (s.served path (fun s => if slot = 0 then s.freeAnswer ((Config.freeWord s.free).toNat % 1017) else (s, spdmInvalid, 0, [])))

/-- A 96-byte ECDSA P-384 signature, r then s. -/
def State.sign (s : State) : List Byte := freeBytes s.free 96

/-- CHALLENGE: slot 0's key signs. -/
def execChallenge (path : MgmtPath) (slot : Byte) (_nonce : List Byte) (s : State) : Host.Outcome State Fault Refusal :=
  .next (s.served path (fun s => if slot = 0 then (s.draw, 0, 0, s.sign) else (s, spdmInvalid, 0, [])))

/-- The value of a measurement register: zero until it is first extended (R333). -/
def State.measurement (s : State) (i : Nat) : List Byte :=
  let l := (s.sec.measures.filter (fun e => e.1 == i)).map (·.2)
  (List.range 48).map (fun k => if l.isEmpty then 0 else Config.measured l k)

/-- GET_MEASUREMENTS (R333, R334): index 0 asks for their number, 1 to 10 for one register, 0xFF for all; signed.
[DEDUCED: log 145] -/
def execGetMeasurements (path : MgmtPath) (idx : Byte) (_nonce : List Byte) (s : State) : Host.Outcome State Fault Refusal :=
  .next (s.served path (fun s =>
    let i := idx.toNat
    if i = 0 then (s.draw, 0, 0, 10 :: s.sign)
    else if i ≤ 10 then (s.draw, 0, 0, s.measurement i ++ s.sign)
    else if i = 0xFF then (s.draw, 0, 0, (List.range 10).flatMap (fun k => s.measurement (k + 1)) ++ s.sign)
    else (s, spdmInvalid, 0, [])))

/-- KEY_EXCHANGE: at most four sessions at once. The number that names a session is the model's own.
[DEDUCED: log 143] -/
def execKeyExchange (path : MgmtPath) (s : State) : Host.Outcome State Fault Refusal :=
  .next (s.served path (fun s =>
    if 4 ≤ s.sec.sessions.length then (s, spdmSessions, 0, [])
    else
      let n := s.sec.nextSess
      ({ s with sec := { s.sec with sessions := s.sec.sessions ++ [(n, false)], nextSess := n + 1 } }, 0, 0, leBytes 4 n.toNat)))

/-- The session exists, established or still in its handshake. [DEDUCED: log 143] -/
def State.session (s : State) (n : BitVec 32) (up : Bool) : Bool := s.sec.sessions.contains (n, up)

/-- A session ends. -/
def State.endSession (s : State) (n : BitVec 32) : State :=
  { s with sec := { s.sec with sessions := s.sec.sessions.filter (fun e => e.1 != n) } }

/-- FINISH: the handshake completes; one whose check fails ends the session. [DEDUCED: log 143] -/
def execFinish (path : MgmtPath) (session : BitVec 32) (ok : Bool) (s : State) : Host.Outcome State Fault Refusal :=
  .next (s.served path (fun s =>
    if !s.session session false then (s, spdmUnexpected, 0, [])
    else if ok then
      ({ s with sec := { s.sec with sessions := s.sec.sessions.map (fun e => if e.1 = session then (session, true) else e) } }, 0, 0, [])
    else (s.endSession session, spdmDecrypt, 0, [])))

/-- END_SESSION. -/
def execEndSession (path : MgmtPath) (session : BitVec 32) (s : State) : Host.Outcome State Fault Refusal :=
  .next (s.served path (fun s => if s.session session true then (s.endSession session, 0, 0, []) else (s, spdmUnexpected, 0, [])))

/-- HEARTBEAT: the session stays. -/
def execHeartbeat (path : MgmtPath) (session : BitVec 32) (s : State) : Host.Outcome State Fault Refusal :=
  .next (s.served path (fun s => if s.session session true then (s, 0, 0, []) else (s, spdmUnexpected, 0, [])))

/-- KEY_UPDATE: the session's keys, whose bits are nowhere in the model, are renewed. -/
def execKeyUpdate (path : MgmtPath) (session : BitVec 32) (s : State) : Host.Outcome State Fault Refusal :=
  .next (s.served path (fun s => if s.session session true then (s, 0, 0, []) else (s, spdmUnexpected, 0, [])))

/-! ### PLDM type 0 (R403) -/

/-- GetTID. [DEDUCED: log 144] -/
def execGettid (path : MgmtPath) (s : State) : Host.Outcome State Fault Refusal := .next (s.served path (fun s => s.freeAnswer 1))

/-- The types served: 0, 2 and 5, in ROM recovery 0 and 5 (16 R449). [DEDUCED: log 146] -/
def State.pldmTypes (s : State) : List Nat := if s.mgmt.romRecov then [0, 5] else [0, 2, 5]

/-- GetPLDMVersion. -/
def execGetpldmversion (path : MgmtPath) (typ : Byte) (s : State) : Host.Outcome State Fault Refusal :=
  .next (s.served path (fun s => if s.pldmTypes.contains typ.toNat then s.freeAnswer 4 else (s, pTypeInData, 0, [])))

/-- GetPLDMTypes: a mask of 8 bytes. -/
def execGetpldmtypes (path : MgmtPath) (s : State) : Host.Outcome State Fault Refusal :=
  .next (s.served path (fun s => (s, 0, 0, leBytes 8 (listMask s.pldmTypes))))

/-- Command numbers of the commands that R403 and R426 name. -/
def pldmCommands (typ : Nat) : List Nat :=
  match typ with
  | 0 => [2, 3, 4, 5]
  | 2 => [0x04, 0x0A, 0x0B, 0x11, 0x21, 0x31, 0x32, 0x39, 0x3A, 0x50, 0x51]
  | _ => [0x01, 0x02, 0x10, 0x13, 0x14, 0x15, 0x16, 0x17, 0x18, 0x1A, 0x1B, 0x1C, 0x1D]

/-- GetPLDMCommands: a mask of 32 bytes. -/
def execGetpldmcommands (path : MgmtPath) (typ : Byte) (s : State) : Host.Outcome State Fault Refusal :=
  .next (s.served path (fun s =>
    if s.pldmTypes.contains typ.toNat then (s, 0, 0, leBytes 32 ((pldmCommands typ.toNat).foldl (fun a i => a + 2 ^ i) 0))
    else (s, pTypeInData, 0, [])))

/-! ### PLDM type 2 (R402 to R405) -/

/-- A type 2 command: the boot ROM does not serve the type (16 R449). -/
def State.type2 (s : State) (p : MgmtPath) (f : State → Answer) : State :=
  s.served p (fun s => if s.mgmt.romRecov then (s, pInvalidType, 0, []) else f s)

/-- An effecter write or the receiver's set-up: on the tray path alone (R402). -/
def State.type2Tray (s : State) (p : MgmtPath) (f : State → Answer) : State :=
  s.type2 p (fun s => if p = .host then (s, pUnsupported, 0, []) else f s)

/-- GetPDRRepositoryInfo: the repository is not in the spec. -/
def execGetpdrrepositoryinfo (path : MgmtPath) (s : State) : Host.Outcome State Fault Refusal :=
  .next (s.type2 path (fun s => s.freeAnswer 42))

/-- GetPDR: handle 0 asks for the first record; which other handles exist, and what a record holds, is free.
[DEDUCED: log 144] -/
def execGetpdr (path : MgmtPath) (handle : BitVec 32) (s : State) : Host.Outcome State Fault Refusal :=
  .next (s.type2 path (fun s =>
    if handle = 0 ∨ Config.freeBool s.free then s.freeAnswer ((Config.freeWord s.free).toNat % 1000) else (s.draw, pInvalidHandle, 0, [])))

/-- Package power, in W: the average of the last 1 ms (12 PWR_STAT). -/
def State.powerW (s : State) : Nat := min (sumNewest s.pwr.usW 1000 / 1000) 0xFFFF

/-- Partition power, in W. -/
def State.partW (s : State) (n : Nat) : Nat := min (sumNewest (s.part n).usW 1000 / 1000) 0xFF

/-- The package power state that the partitions give (12 R346). -/
def State.paState (s : State) : Nat :=
  if (List.range 12).any (fun n => (s.psw n).state == .parked) then 2
  else if (List.range 12).any (fun n => (s.psw n).state == .active) then 0
  else 1

/-- The die sensors that stand in for one another (13 R368). -/
def sensorGroup (i : Nat) : List Nat := if i < 48 then (List.range 4).map (· + 4 * (i / 4)) else (List.range 6).map (· + 48)

/-- A die sensor as it is used: a failed one takes the hottest working sensor of its group, if there is one.
[DEDUCED: log 135] -/
def State.dieValue (s : State) (i : Nat) : Option Nat :=
  if s.thm.failed.contains i then (match s.working (sensorGroup i) with
    | [] => none
    | l => some (hottestOf l).2)
  else some (SMap.get 0 s.thm.temps i)

/-- A numeric sensor of R404 whose source lies on the core rails. -/
def State.coreSensor (s : State) (i : Nat) : Option (Option Nat) :=
  if i = 1 then some (some s.powerW)
  else if i = 2 then some (some s.limit.1)
  else if i = 4 then some (some (s.pwr.energyUj / 1000000 % 2 ^ 32))
  else if 0x10 ≤ i ∧ i ≤ 0x1B then some (some (s.partW (i - 0x10)))
  else if 0x20 ≤ i ∧ i ≤ 0x55 then some (s.dieValue (i - 0x20))
  else if 0x60 ≤ i ∧ i ≤ 0x6B then some (some (s.stackReading (i - 0x60)))
  else if 0xE1 ≤ i ∧ i ≤ 0xE9 then some (some (s.pwr.thrTime.toList.getD (i - 0xE1) 0 / 1000000))
  else none

/-- A regulator's last reading (R417). -/
def State.regSensor (s : State) (i : Nat) : Option (Option Nat) :=
  let get (r : Nat) (f : RegTelemetry → Nat) : Option (Option Nat) := some ((SMap.find? s.pwr.regData r).map f)
  if 0x80 ≤ i ∧ i ≤ 0x85 then get (i - 0x80) (·.voutMv)
  else if 0x88 ≤ i ∧ i ≤ 0x8D then get (i - 0x88) (·.ioutA)
  else if 0x90 ≤ i ∧ i ≤ 0x95 then get (i - 0x90) (·.tempC)
  else none

/-- A numeric sensor: none where the id names none; none inside where it is unavailable. [DEDUCED: log 147] -/
def State.numSensor (s : State) (i : Nat) : Option (Option Nat) :=
  if i = 0x70 then some (some s.inletUsed)
  else match s.coreSensor i with
    | some v => some (if s.railsOn then v else none)
    | none => s.regSensor i

/-- A reading: DETAIL 0 in operation, 2 unavailable. [DEDUCED: log 147] -/
def sensorAnswer (s : State) (w : Nat) : Option (Option Nat) → Answer
  | none => (s, pInvalidId, 0, [])
  | some none => (s, 0, 2, [])
  | some (some v) => (s, 0, 0, leBytes w v)

/-- GetSensorReading (R404). The plinth's own temperature is nowhere in the state: its reading is free. -/
def execGetsensorreading (path : MgmtPath) (sid : BitVec 16) (s : State) : Host.Outcome State Fault Refusal :=
  .next (s.type2 path (fun s => if sid = 0xF0 then s.freeAnswer 4 else sensorAnswer s 4 (s.numSensor sid.toNat)))

/-- A state sensor of R404. -/
def State.stateSensor (s : State) (i : Nat) : Option (Option Nat) :=
  let core (v : Nat) : Option (Option Nat) := some (if s.railsOn then some v else none)
  if i = 3 then core s.limit.2
  else if 0xA0 ≤ i ∧ i ≤ 0xAB then core (s.psw (i - 0xA0)).state.code
  else if 0xB0 ≤ i ∧ i ≤ 0xCF then core (s.port (i - 0xB0)).state.code
  else if i = 0xD0 then core s.lay.state
  else if i = 0xD1 then some (some (if s.thm.tripLow then 6 else match s.pwr.rails with
    | .on => s.paState
    | .ps3 => 3
    | .ps5 => 5))
  else none

/-- GetStateSensorReadings (R404). -/
def execGetstatesensorreadings (path : MgmtPath) (sid : BitVec 16) (s : State) : Host.Outcome State Fault Refusal :=
  .next (s.type2 path (fun s => sensorAnswer s 1 (s.stateSensor sid.toNat)))

/-- GetNumericEffecterValue (R403, R405): a current limit never set is the regulator's rating (20 R510).
[DEDUCED: log 148] -/
def execGetnumericeffectervalue (path : MgmtPath) (eid : BitVec 16) (s : State) : Host.Outcome State Fault Refusal :=
  .next (s.type2 path (fun s =>
    let i := eid.toNat
    sensorAnswer s 4 (if i = 0x101 then some (some s.pwr.rackW)
      else if i = 0x102 then some (some s.thm.inlet)
      else if 0x120 ≤ i ∧ i ≤ 0x125 then some (some (s.regLimitA (i - 0x120)))
      else none)))

/-- A rack verdict as a state: 0 none yet, 1 In service, 2 Out of service. -/
def verdictByte (v : Option Bool) : Byte :=
  match v with
  | none => 0
  | some true => 1
  | some false => 2

/-- GetStateEffecterStates (R403, R405). -/
def execGetstateeffecterstates (path : MgmtPath) (eid : BitVec 16) (s : State) : Host.Outcome State Fault Refusal :=
  .next (s.type2 path (fun s =>
    let i := eid.toNat
    if 0x110 ≤ i ∧ i ≤ 0x11B then (s, 0, 0, [verdictByte (s.part (i - 0x110)).rackVerdict]) else (s, pInvalidId, 0, [])))

/-! ### Events (R407) -/

/-- The event data of a report. -/
def reportBytes (e : Nat × Nat × Word) : List Byte := leBytes 2 e.1 ++ leBytes 4 e.2.1 ++ leBytes 8 e.2.2.toNat

/-- Events that wait, the count of those lost before them. -/
def State.events (s : State) : List (Nat × Nat × Word) :=
  (if s.mgmt.lostNew = 0 then [] else [(0x14, s.mgmt.lostNew, s.eventLt)]) ++ s.mgmt.queue

/-- SETEVENTRECEIVER (R407): reports go to the receiver from now on, those that waited first. [DEDUCED: log 149] -/
def execSeteventreceiver (path : MgmtPath) (eid : Byte) (s : State) : Host.Outcome State Fault Refusal :=
  .next (s.type2Tray path (fun s =>
    let l := s.events
    let s := { s with mgmt := { s.mgmt with receiver := some eid, queue := [], lostNew := 0 } }
    (l.foldl (fun s e => s.emit (.report e.1 e.2.1 e.2.2)) s, 0, 0, [])))

/-- POLLFORPLATFORMEVENTMESSAGE (R407): the next event, if one waits. -/
def execPollforplatformeventmessage (path : MgmtPath) (s : State) : Host.Outcome State Fault Refusal :=
  .next (s.type2 path (fun s =>
    match s.events with
    | [] => (s, 0, 0, [])
    | e :: _ =>
      let m := s.mgmt
      ({ s with mgmt := { m with queue := if m.lostNew = 0 then m.queue.drop 1 else m.queue, lostNew := 0 } }, 0, 0, reportBytes e)))

/-! ### Effecter writes (R405, R406, R414, R417; 13 R369) -/

/-- EFFECTER_RACK_LIMIT (R405, R414): at once; a pending value is discarded. -/
def execEffecterRackLimit (path : MgmtPath) (watts : BitVec 16) (s : State) : Host.Outcome State Fault Refusal :=
  .next (s.type2Tray path (fun s =>
    let s := ({ s with pwr := { s.pwr with rackW := watts.toNat, rackPend := none } }).saveSettings
    (if s.railsOn then s.limitCheck else s, 0, 0, [])))

/-- EFFECTER_INLET (R405; 13 R369): the inlet in 0.25 °C; source 1 is in use at once, and a change of source is reported. -/
def execEffecterInlet (path : MgmtPath) (temp : BitVec 10) (s : State) : Host.Outcome State Fault Refusal :=
  .next (s.type2Tray path (fun s =>
    let old := s.thm.inletSrc
    let s := ({ s with thm := { s.thm with inlet := temp.toNat, inletAt := some s.now, inletSrc := 1 } }).saveSettings
    (if old = 1 then s else s.report 5 1, 0, 0, [])))

/-- Record 0x07: one byte per partition (R420). [DESIGN CHOICE: log 130] -/
def State.verdictRecord (s : State) : List Byte := (List.range 12).map (fun n => verdictByte (s.part n).rackVerdict)

/-- EFFECTER_RACK_VERDICT (R405, R406): the host may not give it, and its attempt is recorded (01 R14).
[DEDUCED: log 148] -/
def execEffecterRackVerdict (path : MgmtPath) (n : PartNo) (v : Byte) (s : State) : Host.Outcome State Fault Refusal :=
  let s := if path = .host ∧ s.reach path ∧ !s.mgmt.romRecov then s.refusedOrder 1 1 else s
  .next (s.type2Tray path (fun s =>
    if v ≠ 1 ∧ v ≠ 2 then (s, pInvalidData, 0, [])
    else
      let s := s.setPart n.val { s.part n.val with rackVerdict := some (v == 1) }
      ((s.journal 7 s.verdictRecord).writeVerdict n.val false, 0, 0, [])))

/-- EFFECTER_CURRENT_LIMIT (R405, R417; 12 R353): the regulator's IOUT_OC_WARN_LIMIT takes the value too. -/
def execEffecterCurrentLimit (path : MgmtPath) (reg : Fin 6) (amps : BitVec 32) (s : State) : Host.Outcome State Fault Refusal :=
  .next (s.type2Tray path (fun s =>
    (({ s with pwr := { s.pwr with regLimit := s.pwr.regLimit.setIfInBounds reg.val amps.toNat } }).saveSettings, 0, 0, [])))

end Sys2Proof.Machine
end

