-- ==== Sys2Proof/Machine/Denxon.lean ====
section
/-!
DEFINITION. The Denxon commands other than power orders, fid tokens and the SVN commit (15 R409 to R411, R414, R415, R526; 10 R299, R300,
R314, R315), and the BMC's absence (R429, R430).
-/

namespace Sys2Proof.Machine

/-- Completion code Field; DETAIL is the byte offset in the message, whose payload begins at byte 4 (R409, R411).
[DEDUCED: log 150] -/
def fieldBad (s : State) (off : Nat) : Answer := (s, 2, off, [])

/-! ### Commands marked R (R410, R526) -/

/-- READ_PSW: the partition state word; with the core rails off the partition is Off. -/
def execReadPsw (path : MgmtPath) (part : Byte) (s : State) : Host.Outcome State Fault Refusal :=
  .next (s.readCmd path (fun s => if 12 ≤ part.toNat then fieldBad s 4 else (s, 0, 0, leBytes 8 (s.psw part.toNat).word)))

/-- READ_RECORD: up to 512 B of the valid copy from the offset on; an absent record, and a place past its end, give no data. The
layout of record 0x01 is not in the spec: its bytes are free. [DESIGN CHOICE: log 130, DEDUCED: log 150] -/
def execReadRecord (path : MgmtPath) (rec_ : Byte) (off : BitVec 32) (s : State) : Host.Outcome State Fault Refusal :=
  .next (s.readCmd path (fun s =>
    let id := rec_.toNat
    if id = 0 ∨ 7 < id then fieldBad s 4
    else match s.mgmt.record id with
      | none => (s, 0, 0, [])
      | some b =>
        let d := (b.drop off.toNat).take 512
        if id = 1 then s.freeAnswer d.length else (s, 0, 0, d)))

/-- The records from SEQ = index on, oldest first, at most 15 (R526). -/
def State.logFrom (s : State) (index : BitVec 32) : List ErrRec := (s.rst.log.filter (fun r => index.ule r.seq)).take 15

/-- READ_ERRLOG (R526). -/
def execReadErrlog (path : MgmtPath) (idx : BitVec 32) (s : State) : Host.Outcome State Fault Refusal :=
  .next (s.readCmd path (fun s => (s, 0, (s.logFrom idx).length, (s.logFrom idx).flatMap ErrRec.bytes)))

/-- READ_SAMPLE (R415): an empty buffer gives no data. -/
def execReadSample (path : MgmtPath) (buf : Byte) (s : State) : Host.Outcome State Fault Refusal :=
  .next (s.readCmd path (fun s => if 4 ≤ buf.toNat then fieldBad s 4 else (s, 0, 0, SMap.get [] s.mgmt.samples buf.toNat)))

/-! ### The rack limit (R414) -/

/-- RACK_LIMIT (R414): in force at once, or pending until a later Lay time. -/
def execRackLimit (path : MgmtPath) (watts : BitVec 16) (lt : Word) (s : State) : Host.Outcome State Fault Refusal :=
  .next (s.orderCmd path (fun s =>
    if !s.railsOn && lt != 0 then (s, 4, 0, [])
    else if lt = 0 ∨ lt.ule s.lay.time then
      let s := ({ s with pwr := { s.pwr with rackW := watts.toNat, rackPend := none } }).saveSettings
      (if s.railsOn then s.limitCheck else s, 0, 0, [])
    else ({ s with pwr := { s.pwr with rackPend := some (watts.toNat, lt) } }, 0, 0, [])))

/-! ### The topology record (R410; 07 R190) -/

/-- Places a part; bytes that no part has given yet are free. [DEDUCED: log 151] -/
def placePart (d : Nat) (l : List Byte) (off : Nat) (b : List Byte) (len : Nat) : List Byte :=
  (List.range (max len (max l.length (off + b.length)))).map (fun i =>
    if off ≤ i ∧ i < off + b.length then b.getD (i - off) 0 else l.getD i (Config.freeByte (d * 65536 + i)))

/-- The whole record is submitted: with the core rails off it is checked alike, and takes effect at the next start (16 R433).
[DEDUCED: log 151] -/
def State.submitTopo (s : State) (r : List Byte) : Answer :=
  let c := s.topoReject { bytes := r, actLt := BitVec.ofNat 64 (fieldLE r 0x18 8) }
  if s.railsOn then
    let s := (s.topoSubmit r).1
    if c = 0 then (s.journal 2 r, 0, 0, []) else (s, 6, c, [])
  else if c = 0 then (s.journal 2 r, 0, 0, []) else (s.report 1 c, 6, c, [])

/-- TOPOLOGY_WRITE: a part of the 4,928-byte record. [DEDUCED: log 151] -/
def execTopologyWrite (path : MgmtPath) (off : BitVec 16) (last : Byte) (bytes : List Byte) (s : State) : Host.Outcome State Fault Refusal :=
  .next (s.orderCmd path (fun s =>
    let o := off.toNat
    if 4928 < o + bytes.length then fieldBad s 4
    else if 2 ≤ last.toNat then fieldBad s 6
    else if 512 < bytes.length then fieldBad s 7
    else
      let old := if o = 0 then [] else match s.mgmt.topoPart with
        | some (l, _) => l
        | none => []
      let new := placePart s.free old o bytes (if last = 1 then 4928 else 0)
      let s := s.draw
      if last = 1 then ({ s with mgmt := { s.mgmt with topoPart := none } }).submitTopo new
      else ({ s with mgmt := { s.mgmt with topoPart := some (new, s.now) } }, 0, 0, [])))

/-- TOPOLOGY_PART_TIMEOUT (R430): no part for 60 s. -/
def execTopologyPartTimeout (s : State) : Host.Outcome State Fault Refusal :=
  .next (match s.mgmt.topoPart with
    | some (_, t) => if s.mgmt.standby && decide (t + 60 * fcPerS ≤ s.now) then { s with mgmt := { s.mgmt with topoPart := none } } else s
    | none => s)

/-! ### Lay time (10 R299, R300, R314, R315) -/

/-- LAY_ROLE (R299): kept in the settings, and applied at step 3 of every start. -/
def execLayRole (path : MgmtPath) (role : Byte) (s : State) : Host.Outcome State Fault Refusal :=
  .next (s.orderCmd path (fun s =>
    if 2 ≤ role.toNat then fieldBad s 4
    else (({ s with mgmt := { s.mgmt with settingsRole := role == 1 } }).saveSettings, 0, 0, [])))

/-- LAY_SECOND (R300): the whole second of the next pulse, for a master whose counter runs. [DEDUCED: log 152] -/
def execLaySecond (path : MgmtPath) (v : Word) (s : State) : Host.Outcome State Fault Refusal :=
  .next (s.orderCmd path (fun s =>
    if !s.railsOn || !s.isMaster then (s, 4, 0, []) else ({ s with lay := { s.lay with second := some v } }, 0, 0, [])))

/-- STEP_SLOT (R314). -/
def execStepSlot (path : MgmtPath) (period offset : BitVec 32) (s : State) : Host.Outcome State Fault Refusal :=
  .next (s.orderCmd path (fun s => (({ s with lay := { s.lay with period := period, slotOff := offset } }).saveSettings, 0, 0, [])))

/-- An arming that R315 refuses: too soon, empty, or overlapping an armed window of a shared port. -/
def State.windowRefused (s : State) (mask : BitVec 32) (a b : Word) : Bool :=
  decide (a.toNat < s.lay.time.toNat + 100000) || b.ule a ||
    (maskList mask.toNat 32).any (fun p => match (s.port p).window with
      | some (c, d) => a.ult d && c.ult b
      | none => false)

/-- WINDOW_ARM (R315): refused and reported, or armed on the package calendar for every port of the mask.
[DEDUCED: log 152] -/
def execWindowArm (path : MgmtPath) (mask : BitVec 32) (ltStart ltEnd : Word) (s : State) : Host.Outcome State Fault Refusal :=
  .next (s.orderCmd path (fun s =>
    if !s.railsOn then (s, 4, 0, [])
    else if s.windowRefused mask ltStart ltEnd then (s.report 0x0A 1, 6, 1, [])
    else match s.armPkg ltStart (.linkWindow mask ltEnd) with
      | (s, true) => ((maskList mask.toNat 32).foldl (fun s p => s.setPort p { s.port p with window := some (ltStart, ltEnd) }) s, 0, 0, [])
      | (s, false) => (s, 7, 0, [])))

/-! ### Counter samples (R415) -/

/-- The armed entry of a buffer, armed anew. -/
def Lay.rearm (l : Lay) (buf : Nat) (lt : Word) : Lay :=
  { l with cal := l.cal.map (fun e => if e.ev = .sample buf then ⟨lt, l.armNo, lt.ule l.time, .sample buf, e.slot⟩ else e), armNo := l.armNo + 1 }

/-- SAMPLE_ARM (R415): an arming of an armed buffer reuses its entry. [DEDUCED: log 152] -/
def execSampleArm (path : MgmtPath) (buf : Byte) (lt : Word) (s : State) : Host.Outcome State Fault Refusal :=
  .next (s.orderCmd path (fun s =>
    let n := buf.toNat
    if 4 ≤ n then fieldBad s 4
    else if !s.railsOn then (s, 4, 0, [])
    else
      let empty (s : State) : Answer := ({ s with mgmt := { s.mgmt with samples := SMap.del s.mgmt.samples n } }, 0, 0, [])
      if s.lay.cal.any (fun e => e.ev = .sample n) then empty { s with lay := s.lay.rearm n lt }
      else match s.armPkg lt (.sample n) with
        | (s, true) => empty s
        | (s, false) => (s, 7, 0, [])))

/-! ### The BMC (R429, R430) -/

/-- BMC_PRESENCE_TIMEOUT (R429): no message on the tray path for 10 s; nothing else changes. -/
def execBmcPresenceTimeout (s : State) : Host.Outcome State Fault Refusal :=
  .next (match s.mgmt.bmcAt with
    | some t => if s.mgmt.standby && decide (t + 10 * fcPerS < s.now) then { s with mgmt := { s.mgmt with bmc := false } } else s
    | none => s)

end Sys2Proof.Machine
end

