-- ==== Sys2Proof/Machine/Firmware.lean ====
section
/-!
DEFINITION. Firmware update by PLDM type 5 (15 R424 to R428). The update's states and completion codes follow DSP0267, which the spec
names (PRESUMED). A message that the package itself sends in the update leaves as a response whose DETAIL is its command number.
-/

namespace Sys2Proof.Machine

/-! ### States and codes of DSP0267 -/

/-- [PRESUMED: log 142] -/
def fdLearn : Nat := 1
def fdReady : Nat := 2
def fdDownload : Nat := 3
def fdVerify : Nat := 4
def fdApply : Nat := 5
/-- [PRESUMED: log 142] -/
def pNotInUpdate : Nat := 0x80
def pAlreadyInUpdate : Nat := 0x81
def pInvalidState : Nat := 0x84
def pIncomplete : Nat := 0x85
def pSelfContained : Nat := 0x8C
def pError : Nat := 0x01

/-! ### Banks and slots (R424, R425) -/

/-- Slot size of a component class, in bytes. -/
def slotBytes (c : Nat) : Nat :=
  match c with
  | 1 => 252 * 1024
  | 2 => 4096 * 1024
  | 3 => 16384 * 1024
  | 4 => 256 * 1024
  | 5 => 8192 * 1024
  | 6 => 4096 * 1024
  | _ => 0

/-- The bank that does not run. -/
def Mgmt.idleBank (m : Mgmt) : FwBank := m.bank (!m.activeB1)
def Mgmt.setIdle (m : Mgmt) (b : FwBank) : Mgmt := m.setBank (!m.activeB1) b

/-! ### Serving (R402, R426, R428) -/

/-- A type 5 command: not on the host path; one that belongs to an update is counted as its latest. -/
def State.type5 (s : State) (p : MgmtPath) (f : State → Answer) : State :=
  s.served p (fun s =>
    if p = .host then (s, pUnsupported, 0, [])
    else f { s with mgmt := { s.mgmt with update := s.mgmt.update.map (fun u => { u with lastCmd := s.now }) } })

/-- A command of a running update. -/
def State.inUpdate (s : State) (p : MgmtPath) (f : State → FwUpdate → Answer) : State :=
  s.type5 p (fun s => match s.mgmt.update with
    | none => (s, pNotInUpdate, 0, [])
    | some u => f s u)

def State.setUpdate (s : State) (u : FwUpdate) : State := { s with mgmt := { s.mgmt with update := some u } }

/-- QUERYDEVICEIDENTIFIERS: the identifiers are not in the spec. -/
def execQuerydeviceidentifiers (path : MgmtPath) (s : State) : Host.Outcome State Fault Refusal :=
  .next (s.type5 path (fun s => s.freeAnswer 16))

/-- GETFIRMWAREPARAMETERS (R426): SVNs of the active bank, then those of a Staged bank as pending versions. -/
def execGetfirmwareparameters (path : MgmtPath) (s : State) : Host.Outcome State Fault Refusal :=
  .next (s.type5 path (fun s =>
    let m := s.mgmt
    let svns (b : FwBank) : List Byte := b.svns.toList.map (BitVec.ofNat 8)
    (s, 0, 0, svns (m.bank m.activeB1) ++ (match m.stagedBank with
      | some b => svns (m.bank b)
      | none => []))))

/-- REQUESTUPDATE (R426 step 1, R428): the inactive bank is Staging, with SEQ one above the active bank's. -/
def execRequestupdate (path : MgmtPath) (s : State) : Host.Outcome State Fault Refusal :=
  .next (s.type5 path (fun s =>
    let m := s.mgmt
    if m.update.isSome then (s, pAlreadyInUpdate, 0, [])
    else
      let b : FwBank := { m.idleBank with state := .staging, seq := (m.bank m.activeB1).seq + 1 }
      (({ s with mgmt := m.setIdle b }).setUpdate { table := [], comp := none, got := [], done := [], state := fdLearn, lastCmd := s.now }, 0, 0, [])))

/-- PASSCOMPONENTTABLE. -/
def execPasscomponenttable (path : MgmtPath) (comps : List (BitVec 16)) (s : State) : Host.Outcome State Fault Refusal :=
  .next (s.inUpdate path (fun s u =>
    if u.state ≠ fdLearn then (s, pInvalidState, 0, [])
    else (s.setUpdate { u with table := comps, state := fdReady }, 0, 0, [])))

/-- The package asks for the next piece of the image: 256 B on SMBus, 1,024 B on I3C (R426). -/
def State.pullMax (s : State) : Nat := if s.mgmt.i3c then 1024 else 256

def State.pull (s : State) (u : FwUpdate) : State :=
  match u.comp with
  | none => s
  | some (_, size) =>
    if size ≤ u.got.length then s
    else s.emit (.response .tray 0 0x15 (leBytes 4 u.got.length ++ leBytes 4 (min s.pullMax (size - u.got.length))))

/-- UPDATECOMPONENT (R426 step 2): the class's slot in the inactive bank is erased, and the pull of the image begins. -/
def execUpdatecomponent (path : MgmtPath) (comp : BitVec 16) (size : Nat) (s : State) : Host.Outcome State Fault Refusal :=
  .next (s.inUpdate path (fun s u =>
    let c := comp.toNat
    if u.state ≠ fdReady then (s, pInvalidState, 0, [])
    else if !u.table.contains comp || slotBytes c == 0 || decide (size = 0 ∨ slotBytes c < size) then (s, pInvalidData, 0, [])
    else
      let b := s.mgmt.idleBank
      let u := { u with comp := some (c, size), got := [], done := u.done.filter (· != c), state := fdDownload }
      let s := ({ s with mgmt := s.mgmt.setIdle { b with comps := SMap.del b.comps c } }).setUpdate u
      (s.pull u, 0, 0, [])))

/-- REQUESTFIRMWAREDATA: the piece asked for arrives and is programmed; an overheated plinth programs nothing (18 R484).
[DEDUCED: log 153] -/
def execRequestfirmwaredata (path : MgmtPath) (off : Nat) (bytes : List Byte) (s : State) : Host.Outcome State Fault Refusal :=
  .next (s.inUpdate path (fun s u =>
    match u.comp with
    | none => (s, pInvalidState, 0, [])
    | some (_, size) =>
      if u.state ≠ fdDownload then (s, pInvalidState, 0, [])
      else if s.mgmt.overheat || decide (off ≠ u.got.length ∨ bytes.length ≠ min s.pullMax (size - u.got.length)) then (s, pInvalidData, 0, [])
      else
        let u := { u with got := u.got ++ bytes }
        ((s.setUpdate u).pull u, 0, 0, [])))

/-- TRANSFERCOMPLETE: the image is whole, or the transfer has failed. [DEDUCED: log 153] -/
def execTransfercomplete (path : MgmtPath) (ok : Bool) (s : State) : Host.Outcome State Fault Refusal :=
  .next (s.inUpdate path (fun s u =>
    match u.comp with
    | none => (s, pInvalidState, 0, [])
    | some (_, size) =>
      if u.state ≠ fdDownload then (s, pInvalidState, 0, [])
      else if ok && decide (u.got.length = size) then (s.setUpdate { u with state := fdVerify }, 0, 0x16, [])
      else (s.setUpdate { u with state := fdReady, comp := none, got := [] }, pError, 0x16, [])))

/-- The component satisfies R331 against the fuses, and its CLASS matches (R426 step 3). -/
def State.verifies (s : State) (c : Nat) (b : List Byte) (v : Verdicts) : Bool :=
  v.keyHashOk && v.signatureOk && decide (fieldLE b 1 1 = c ∧ fieldLE b 2 1 ≤ 63 ∧ s.fuses.svn.toList.getD (c - 1) 0 ≤ fieldLE b 2 1)

/-- VERIFYCOMPLETE (R426 step 3): otherwise the result is VerifyFailure. -/
def execVerifycomplete (path : MgmtPath) (ok : Verdicts) (s : State) : Host.Outcome State Fault Refusal :=
  .next (s.inUpdate path (fun s u =>
    match u.comp with
    | none => (s, pInvalidState, 0, [])
    | some (c, _) =>
      if u.state ≠ fdVerify then (s, pInvalidState, 0, [])
      else if s.verifies c u.got ok then (s.setUpdate { u with state := fdApply }, 0, 0x17, [])
      else (s.setUpdate { u with state := fdReady, comp := none, got := [] }, pError, 0x17, [])))

/-- APPLYCOMPLETE: the component stands in its slot. -/
def execApplycomplete (path : MgmtPath) (ok : Bool) (s : State) : Host.Outcome State Fault Refusal :=
  .next (s.inUpdate path (fun s u =>
    match u.comp with
    | none => (s, pInvalidState, 0, [])
    | some (c, _) =>
      if u.state ≠ fdApply then (s, pInvalidState, 0, [])
      else if ok then
        let b := s.mgmt.idleBank
        let s := { s with mgmt := s.mgmt.setIdle { b with comps := SMap.set b.comps c (fieldLE u.got 2 1, u.got) } }
        (s.setUpdate { u with state := fdReady, comp := none, got := [], done := u.done ++ [c] }, 0, 0x18, [])
      else (s.setUpdate { u with state := fdReady, comp := none, got := [] }, pError, 0x18, [])))

/-- ACTIVATEFIRMWARE (R426 step 4): components not passed in this update are copied from the active bank and verified; the bank is
then Staged. [DEDUCED: log 153] -/
def execActivatefirmware (path : MgmtPath) (selfContained copyOk : Bool) (s : State) : Host.Outcome State Fault Refusal :=
  .next (s.inUpdate path (fun s u =>
    let m := s.mgmt
    if u.state ≠ fdReady then (s, pInvalidState, 0, [])
    else if selfContained then (s, pSelfContained, 0, [])
    else if u.table.any (fun c => !u.done.contains c.toNat) then (s, pIncomplete, 0, [])
    else if !copyOk then (s, pError, 0, [])
    else
      let own := m.idleBank.comps.filter (fun e => u.done.contains e.1)
      let rest := (m.bank m.activeB1).comps.filter (fun e => !u.done.contains e.1)
      let b : FwBank := { m.idleBank with state := .staged, comps := rest.foldl (fun a e => SMap.set a e.1 e.2) own }
      ({ s with mgmt := { m.setIdle b with update := none } }, 0, 0, [])))

/-- GETSTATUS: the state of the update, 0 with none. -/
def execGetstatus (path : MgmtPath) (s : State) : Host.Outcome State Fault Refusal :=
  .next (s.type5 path (fun s => (s, 0, 0, [BitVec.ofNat 8 (match s.mgmt.update with
    | some u => u.state
    | none => 0)])))

/-- CANCELUPDATECOMPONENT. -/
def execCancelupdatecomponent (path : MgmtPath) (s : State) : Host.Outcome State Fault Refusal :=
  .next (s.inUpdate path (fun s u =>
    if u.comp.isNone then (s, pInvalidState, 0, []) else (s.setUpdate { u with state := fdReady, comp := none, got := [] }, 0, 0, [])))

/-- The update ends; the bank stays Staging (R428). -/
def State.cancelUpdate (s : State) : State := { s with mgmt := { s.mgmt with update := none } }

/-- CANCELUPDATE (R428). -/
def execCancelupdate (path : MgmtPath) (s : State) : Host.Outcome State Fault Refusal :=
  .next (s.inUpdate path (fun s _ => (s.cancelUpdate, 0, 0, [])))

/-- UPDATE_IDLE_TIMEOUT (R428): no command for 120 s. -/
def execUpdateIdleTimeout (s : State) : Host.Outcome State Fault Refusal :=
  .next (match s.mgmt.update with
    | some u => if s.mgmt.standby && decide (u.lastCmd + 120 * fcPerS ≤ s.now) then s.cancelUpdate else s
    | none => s)

end Sys2Proof.Machine
end

