-- ==== Sys2Proof/Machine/Plinth.lean ====
section
/-!
DEFINITION. The plinth's own life: standby power and its loss (15 R398, R399; 20 R513, R515), the records read at power-on (15 R420,
13 R381, 08 R265), ROM recovery (16 R449), and an overheated plinth (18 R484).
-/

namespace Sys2Proof.Machine

/-! ### What outlives standby power -/

/-- The package as standby power-on finds it: flash and fuses, the levels of input lands, the environment's side, and the numbers
that name keys, sessions and free values; everything else is at its reset value. [DEDUCED: log 154] -/
def State.afterLoss (s : State) (standby : Bool) : State :=
  { State.reset with
    pending := s.pending, free := s.free, now := s.now, fuses := s.fuses, hostBad := s.hostBad, out := s.out,
    sec := { Sec.fresh with nextKey := s.sec.nextKey, nextSess := s.sec.nextSess, debug := if s.fuses.prod then .locked else .manufacturing, measures := [] },
    mgmt := { Mgmt.fresh with standby := standby, since := s.now, slots := s.mgmt.slots, fw0 := s.mgmt.fw0, fw1 := s.mgmt.fw1, activeB1 := s.mgmt.activeB1, fallback := s.mgmt.fallback },
    pwr := { Pwr.fresh with alerts := s.pwr.alerts },
    boot := { Boot.fresh with perst := s.boot.perst } }

/-! ### The records (R399, R420) -/

/-- Record 0x01: the settings, in the model's own layout. An inlet kept there is no update of R369.
[DESIGN CHOICE: log 130] -/
def State.loadSettings (s : State) (b : List Byte) : State :=
  if b.length ≠ 64 then s
  else
    { s with
      pwr := { s.pwr with rackW := fieldLE b 0 2, regLimit := Vector.ofFn (fun i : Fin 6 => fieldLE b (2 + 4 * i.val) 4) },
      thm := { s.thm with inlet := fieldLE b 26 2 },
      mgmt := { s.mgmt with settingsRole := fieldLE b 28 1 == 1 },
      lay := { s.lay with period := BitVec.ofNat 32 (fieldLE b 29 4), slotOff := BitVec.ofNat 32 (fieldLE b 33 4) } }

/-- Ceiling drops over the package's life: the ceiling that the patina holds tells them (13 R379). -/
def State.loadDrops (s : State) : State :=
  (List.range 12).foldl (fun s n =>
    let p := s.part n
    if p.ageCeil < s.gradeCeil then s.setPart n { p with ageDrops := s.gradeCeil - p.ageCeil } else s) s

/-- Record 0x07: the rack verdicts. [DESIGN CHOICE: log 130] -/
def State.loadVerdicts (s : State) (b : List Byte) : State :=
  (List.range 12).foldl (fun s n =>
    let v := b.getD n 0
    if v = 1 ∨ v = 2 then s.setPart n { s.part n with rackVerdict := some (v == 1) } else s) s

/-- A record is loaded where it has a valid copy. -/
def State.load (s : State) (id : Nat) (f : State → List Byte → State) : State :=
  match s.mgmt.record id with
  | some b => f s b
  | none => s

/-- The fuse configuration as one number (11 R333, index 7). -/
def Fuses.num (f : Fuses) : Nat := f.grade + 4 * b2n f.prod + 8 * f.deviceId.toNat

/-- STANDBY_POWER_ON (R399, R427; 11 R333): the boot ROM chooses a bank, and the package waits in PS5; where neither bank's patch and
plinth firmware verify, it enters ROM recovery (16 R449). -/
def execStandbyPowerOn (romOk : Bool) (stagedBad : BitVec 3) (s : State) : Host.Outcome State Fault Refusal :=
  .next (if s.mgmt.standby then s
    else
      let s := s.afterLoss true
      let s := if romOk then s.chooseBank stagedBad else { s with mgmt := { s.mgmt with romRecov := true } }
      let s := ((s.extend 1 (s.mgmt.imageNum 1)).extend 2 (s.mgmt.imageNum 2)).extend 7 s.fuses.num
      (((((s.load 1 State.loadSettings).load 3 State.loadMaq).load 4 State.loadPatina).loadDrops).load 7 State.loadVerdicts).readRows)

/-- STANDBY_LOSS (20 R515, 18 R484, R495): source 1,533 rises, every enable falls, flash writes are abandoned and reported, and
everything on the core rails and in the plinth is lost. -/
def execStandbyLoss (s : State) : Host.Outcome State Fault Refusal :=
  .next (if !s.mgmt.standby then s
    else
      let s := if s.pwr.rails = .ps5 then s else (s.raise 1533).railsFall .standby
      (s.abandonWrites (fun _ => true)).afterLoss false)

/-! ### An overheated plinth (R484) -/

/-- PLINTH_OVERHEAT: flash commands stop at once; the write in progress and every queued one are abandoned, and kept to be requested
again. [DEDUCED: log 155] -/
def execPlinthOverheat (s : State) : Host.Outcome State Fault Refusal :=
  .next (if !s.mgmt.standby || s.mgmt.overheat then s
    else
      let w := s.mgmt.writes
      let s := s.abandonWrites (fun _ => true)
      { s with mgmt := { s.mgmt with overheat := true, aborted := w } })

/-- FLASH_RETRY_AFTER_COOL: the temperature has stayed at or below 115 °C for 10 s; every abandoned write is requested again.
[DEDUCED: log 155] -/
def execFlashRetryAfterCool (s : State) : Host.Outcome State Fault Refusal :=
  .next (if !s.mgmt.standby || !s.mgmt.overheat then s
    else
      let w := s.mgmt.aborted
      w.foldl (fun s e => s.journal e.1 e.2) { s with mgmt := { s.mgmt with overheat := false, aborted := [] } })

end Sys2Proof.Machine
end

