-- ==== Sys2Proof/Machine/Setup.lean ====
section
/-!
DEFINITION. The setup register map (spec 19): what a BAR0 access reads and writes (R498 to R508; 00 R5, R8), register by register in
the order of the index R507.
-/

namespace Sys2Proof.Machine

/-! ### Places -/

/-- The instance of a register family at an offset. -/
def fam (off base stride n : Nat) : Option Nat :=
  if base ≤ off ∧ (off - base) % stride = 0 ∧ (off - base) / stride < n then some ((off - base) / stride) else none

/-- A signed field's bits. -/
def intBits (i : Int) : Nat := (BitVec.ofInt 64 i).toNat

/-! ### Reads: host interface and rings -/

def State.readHif (s : State) (off : Nat) : Nat :=
  if off = 0 then pack [(0xB840, 0, 16), (1, 16, 4), (s.fuses.grade, 20, 4), (1, 24, 8), (0x40, 32, 7)]
  else if off = 8 then s.hifCtl
  else if off = 0x10 then pack [(s.hifErr.toNat, 0, 5), (s.lastOff.toNat, 32, 24)]
  else match fam off 0x10000 0x10 1024, fam off 0x10008 0x10 1024 with
    | some n, _ => s.dblAddr n
    | none, some n => s.dblCtl n
    | none, none => 0

def State.readRng (s : State) (off : Nat) : Nat :=
  let r := (off - 0x100000) / 0x20
  let g := s.ring r
  if 8192 ≤ r then 0
  else match off % 0x20 with
    | 0 => s.rngBase r
    | 8 => s.rngCfg r
    | 16 => pack [(g.pkgIndex.toNat, 0, 32), (g.err.toNat, 32, 8), (b2n g.stopped, 40, 1), (g.inflight, 41, 9)]
    | 24 => g.prog
    | _ => 0

/-! ### Reads: tenants, partitions, tiles -/

/-- TEN_CFG_t (11). -/
def State.readTenCfg (s : State) (off t : Nat) : Nat :=
  let f := s.fabOf t
  let idOf (k : Nat) : Nat := match f.find? (fun e => e.slot == k) with
    | some e => e.id.toNat
    | none => 0
  pack [(s.reg off 0, 0, 2), (b2n (SMap.find? s.sec.keys t).isSome, 2, 1), (listMask (f.map (·.slot)), 3, 2),
    (listMask ((List.range 12).filter (fun n => (s.psw n).tenant.toNat == t)), 8, 12), ((SMap.get 0 s.sec.winErr t).toNat, 20, 2),
    (idOf 0, 32, 16), (idOf 1, 48, 16)]

def State.readTen (s : State) (off : Nat) : Nat :=
  if off = offTenAssign then pack [(s.reg off 0, 0, 11), (b2n s.sec.tenChange.isSome, 12, 1), (s.sec.tenStatus.toNat, 16, 4)]
  else match fam off 0x200108 8 64 with
    | some i => s.readTenCfg off (i + 1)
    | none => if 0x201080 ≤ off ∧ off < 0x203080 then s.reg off 0 else 0

/-- PRT_ARM_STAT_n (05). -/
def State.readArmStat (s : State) (n : Nat) : Nat :=
  let p := s.part n
  pack [(p.epoch.toNat, 0, 16), (b2n p.rot.isSome, 16, 1), ((p.arm.map (fun a => a.freeSpares.length)).getD 0, 17, 2),
    (p.lastAbort.toNat, 24, 8), (p.rotations, 32, 32)]

/-- PRT_ARM_DATA (05). -/
def State.readArmData (s : State) : Nat :=
  let sel := s.reg 0x300108 0
  match (s.part (sel % 16)).arm with
  | some a => if 12 ≤ sel % 16 then 0 else fieldLE (a.bytes (sel % 16)) (8 * bits sel 7 4) 8
  | none => 0

/-- PRT_RSTINFO_n (17). -/
def State.readRstInfo (s : State) (n : Nat) : Nat :=
  let p := s.part n
  pack [(p.resets, 0, 12), (p.lastCause.toNat, 12, 4), (s.quarantined n, 16, 14), (p.lateDrops, 30, 16), (p.absorbed, 46, 16)]

/-- PRT_SMP_DATA (17). -/
def State.readSample (s : State) : Nat :=
  let sel := s.reg offSmpSel 0
  match SMap.find? s.rst.samples (sel % 4) with
  | some (b, _) => fieldLE b (8 * bits sel 19 2) 8
  | none => 0

def State.readPrt (s : State) (off : Nat) : Nat :=
  match fam off 0x300000 8 12, fam off 0x300200 8 12, fam off 0x300400 8 12, fam off 0x300500 8 12 with
  | some n, _, _, _ => (s.psw n).word
  | none, some n, _, _ => s.readArmStat n
  | none, none, some n, _ => s.partProg n
  | none, none, none, some n => s.readRstInfo n
  | none, none, none, none => match off with
    | 0x300100 => s.reg off 0x3E801
    | 0x300108 => s.reg off 0
    | 0x300110 => s.readArmData
    | 0x300300 => pack [(s.reg off 0, 0, 26), (b2n s.rst.busy, 3, 1), (s.rst.status.toNat, 32, 4)]
    | 0x300600 => pack [(s.reg off 0x30, 0, 6), (s.rst.overwr, 8, 8), (listMask (s.rst.samples.map (·.1)), 16, 4)]
    | 0x300608 => s.reg off 0
    | 0x300610 => s.readSample
    | 0x300700 => pack [(s.reg off 0, 0, 24), (s.rst.recon.toNat, 32, 4)]
    | _ => 0

def State.readTil (s : State) (off : Nat) : Nat :=
  match off with
  | 0x340000 => s.reg off 0x12
  | 0x340008 => pack [(s.tilCorr, 0, 32), (s.tilUnc, 32, 16), (s.tilDtrap, 48, 12)]
  | _ => 0

/-! ### Reads: memory, fabric, links, collectives -/

/-- MEM_STAT_n (04). -/
def Stack.stat (k : Stack) : Nat :=
  pack [(k.corrected, 0, 28), (k.uncorr, 28, 12), ((k.badRows.filter (fun e => brValid e.2)).length, 40, 11), (b2n k.spareExh, 51, 1),
    (b2n k.hot, 52, 1), (k.refused, 53, 3), (k.tempC, 56, 8)]

/-- PNT_STAT_n (04). -/
def Stack.pnt (k : Stack) : Nat :=
  let b0 := k.banks.toList.getD 0 .empty
  let b1 := k.banks.toList.getD 1 .empty
  pack [(k.bankState 0, 0, 2), (k.bankState 1, 2, 2), (b0.tag.toNat, 4, 16), (b1.tag.toNat, 20, 16), (min 64 k.streams.length, 36, 7),
    (k.streams.length - 64, 43, 9), (k.lastErr.toNat, 52, 8)]

def State.readMem (s : State) (off : Nat) : Nat :=
  match fam off 0x380100 8 12, fam off 0x390000 8 12 with
  | some n, _ => (s.stack n).stat
  | none, some n => (s.stack n).pnt
  | none, none => match off with
    | 0x380000 => s.reg off 0
    | 0x380008 => s.reg off 0x1818
    | 0x380010 => s.reg off 0
    | 0x380018 =>
      let sel := s.reg 0x380010 0
      if 12 ≤ sel % 16 then 0 else (SMap.get 0 (s.stack (sel % 16)).badRows (bits sel 13 4)).toNat
    | _ => 0

/-- FAB_TOPO_STAT (07). -/
def State.readTopo (s : State) : Nat :=
  let r := s.router
  match r.topo with
  | none => fieldAt r.reject.toNat 20 8
  | some t => pack [(s.ownChip.toNat, 0, 16), (t.f 1 1, 16, 3), (1, 19, 1), (r.reject.toNat, 20, 8), (t.f 4 2, 28, 12)]

def State.readFab (s : State) (off : Nat) : Nat :=
  let r := s.router
  match off with
  | 0x3C0000 => pack [(r.seamWest.toNat, 0, 24), (r.seamEast.toNat, 24, 24), (r.seamRetry, 48, 16)]
  | 0x3C0008 => s.readTopo
  | 0x3C0010 => pack [(r.miswired.toNat, 0, 32), (listMask ((List.range 32).filter (fun p => (s.port p).inService)), 32, 32)]
  | 0x3C0018 => s.reg off 0x4001
  | 0x3C0020 => pack [(r.framing, 0, 16), (r.malformed, 16, 16), (r.stomped, 32, 16), (r.misroute, 48, 16)]
  | 0x3C0028 => pack [(r.address, 0, 16), (r.unreach, 16, 16), (r.refused, 32, 16), (r.circuit, 48, 16)]
  | 0x3C0030 => pack [(r.late, 0, 16), (r.mcDrop, 16, 16)]
  | 0x3C0038 => pack [(r.ckts.length, 0, 13), (s.ownCkts.length, 13, 13), (r.cktRefus, 26, 16), (r.cktBroken, 42, 16)]
  | _ => 0

/-- Fields of equal width, the first lowest. -/
def packVec (l : List Nat) (w : Nat) : Nat := pack ((List.range l.length).map (fun i => (l.getD i 0, w * i, w)))

/-- LNK_STAT_p (08). -/
def Port.stat (x : Port) : Nat :=
  pack [(x.state.code, 0, 4), (x.rxGood.toNat, 4, 8), (x.txGood.toNat, 12, 8), (b2n x.maqUsed, 20, 1), (b2n x.paused, 21, 1),
    (x.holdCause.toNat, 22, 4), (x.peerChip.toNat, 26, 16), (x.peerPort.toNat, 42, 5), (x.peerVer.toNat, 47, 4), (min x.rtt 8191, 51, 13)]

/-- Quanta of 1,000 lt left of the pause that holds the transmitter, the one in progress counted; 0xFFFF until release.
[DEDUCED: log 172] -/
def Port.pauseLeft (x : Port) (t : Word) : Nat :=
  match x.pauseEnd with
  | none => 0
  | some none => 0xFFFF
  | some (some e) => (e.toNat - t.toNat + 999) / 1000

def State.readLnk (s : State) (off : Nat) : Nat :=
  let p := (off - 0x400000) / 0x40
  let x := s.port p
  if off = 0x401000 then s.reg off 0x81128
  else if 32 ≤ p then 0
  else match off % 0x40 with
    | 0x00 => s.lnkCtl p
    | 0x08 => x.stat
    | 0x10 => pack [(x.crcErr, 0, 16), (x.replays, 16, 16), (x.retrains, 32, 12), (x.lockLoss, 44, 12), (x.ctlDrop, 56, 8)]
    | 0x18 => packVec (x.eq.toList.map (·.toNat)) 5
    | 0x20 => packVec (x.emm.toList.map (·.toNat)) 8
    | 0x28 => x.laneMap.toNat
    | 0x30 => pack [(x.prbsErr.toList.getD (bits (s.lnkCtl p) 13 11) 0, 0, 32), (x.prbsSync.toNat, 32, 8)]
    | 0x38 => pack [(s.reg off 0, 0, 16), (x.pauseLeft s.lay.time, 32, 16)]
    | _ => 0

def State.readCol (s : State) (off : Nat) : Nat :=
  let c := s.staging
  match off with
  | 0x440000 => s.reg off 0x640810
  | 0x440008 => pack [(c.slots.length, 0, 9), ((s.tiles.filter (fun e => e.2.openRun.isSome)).length, 9, 10), (c.reqs.length, 19, 13),
      (c.teams.length, 32, 15)]
  | 0x440010 => pack [(c.checkFail, 0, 16), (c.resends, 16, 16), (c.aborts, 32, 16), (c.stray, 48, 16)]
  | _ => 0

/-! ### Reads: time and security -/

/-- [DEDUCED: log 172] -/
def State.readLay (s : State) (off : Nat) : Nat :=
  let l := s.lay
  match off with
  | 0x480000 => l.time.toNat
  | 0x480008 => pack [(l.state, 0, 3), (b2n l.role, 3, 1), (b2n l.pps, 4, 1), (l.parent.getD 0, 5, 5), (if l.role then 0 else l.hops, 10, 6),
      ((if l.role then s.ownChip else l.master).toNat, 16, 16), (intBits l.offset, 32, 8), (intBits l.freq, 40, 24)]
  | 0x480010 => pack [(l.cal.length, 0, 9), (l.lateCnt, 16, 16), (l.fullCnt, 32, 16)]
  | 0x480018 => pack [(l.period.toNat, 0, 32), (l.slotOff.toNat, 32, 32)]
  | 0x480020 => pack [(l.ppsIgn, 0, 16), (l.discarded, 16, 16), (l.roleConf, 32, 8), (l.stepRef, 40, 8)]
  | _ => 0

def State.readSec (s : State) (off : Nat) : Nat :=
  let c := s.sec
  match off with
  | 0x4C0000 => pack [(Debug.code c.debug, 0, 2), (b2n s.fuses.prod, 2, 1), (b2n c.storeBad, 3, 1), (b2n c.zeroPend, 4, 1), (c.scope.toNat, 5, 3),
      (c.unlockFail, 8, 8), (c.zeroCount, 16, 16)]
  | 0x4C0008 => s.reg off 0 + fieldAt c.keyStatus.toNat 12 4
  | 0x4C0010 => s.reg off 0
  | 0x4C0018 => s.svnWord
  | _ => 0

/-! ### Reads: power, thermal, Cleat, management, error log -/

/-- PWR_PART_n (12): FLOOR and CEIL as set, those of a window recorded under an alert included. [DEDUCED: log 172] -/
def State.readPwrPart (s : State) (n : Nat) : Nat :=
  let p := s.part n
  let (lo, hi) := p.newWindow.getD (p.floor, p.ceil)
  pack [(p.opPt, 0, 4), (lo, 4, 4), (hi, 8, 4), (s.effCeil n, 12, 4), (p.duty, 16, 5), (b2n (p.stretch != .none), 21, 1),
    (b2n s.pwr.alerting, 22, 1), (b2n (s.pinned n), 23, 1), (s.partW n, 24, 8), (p.halfStarts, 32, 32)]

/-- [DEDUCED: log 172] -/
def State.readPwr (s : State) (off : Nat) : Nat :=
  let w := s.pwr
  match fam off 0x500100 8 12, fam off 0x500200 8 14, fam off 0x500308 8 9 with
  | some n, _, _ => s.readPwrPart n
  | none, some n, _ => if n = 12 then w.spineUj else if n = 13 then w.energyUj else (s.part n).energyUj
  | none, none, some c => w.thrTime.toList.getD c 0
  | none, none, none => match off with
    | 0x500000 => pack [(s.paState, 0, 3), (s.limit.1, 8, 16), (s.limit.2, 24, 8), (s.powerW, 32, 16),
        (listMask ((List.range 9).filter (fun i => s.reasonHolds (i + 1))), 48, 9)]
    | 0x500008 => pack [(w.newHostW.getD w.hostW, 0, 16), (w.rackW, 16, 16), (w.thermW, 32, 16), (w.rampW, 48, 16)]
    | 0x500010 => s.reg off 0x3C
    | 0x500018 => pack [(w.modelErr.toNat, 0, 16), (s.fuses.calId.toNat, 16, 16)]
    | _ => 0

/-- THM_SENS_n (13). A failed sensor with no working one to stand in for it reads a free value.
[DEDUCED: log 135, DEDUCED: log 136] -/
def State.readSens (s : State) (n : Nat) : Nat :=
  (List.range 4).foldl (fun a k =>
    let i := 4 * n + k
    if 54 ≤ i then a
    else a + fieldAt ((s.dieValue i).getD ((Config.freeWord s.free).toNat / 1024 ^ k)) (10 * k) 10 + fieldAt (b2n (s.thm.failed.contains i)) (40 + k) 1) 0

/-- THM_AGE_n (13). -/
def State.readAge (s : State) (n : Nat) : Nat :=
  let p := s.part n
  pack [(min p.ageCeil s.gradeCeil, 0, 4), (5 * p.ageOffset.toList.foldl max 0, 8, 6), (p.ageMeas, 16, 16), (p.ageSkipped, 32, 16), (p.ageDrops, 48, 8)]

def State.readThm (s : State) (off : Nat) : Nat :=
  let h := s.thm
  match fam off 0x540100 8 14, fam off 0x540200 8 12 with
  | some n, _ => s.readSens n
  | none, some n => s.readAge n
  | none, none => match off with
    | 0x540000 => pack [(s.dieMax.2, 0, 10), (s.dieMax.1, 10, 6), (s.stackMax.2, 16, 10), (s.stackMax.1, 26, 4), (s.inletUsed, 32, 10),
        (h.inletSrc, 42, 2), (b2n h.hot, 44, 1), (h.failed.length, 48, 6)]
    | 0x540008 => pack [(h.thetaDie, 0, 16), (h.thetaStk, 16, 16), (h.windows, 32, 16)]
    | 0x540300 => pack [(b2n h.tripValid, 0, 1), (h.tripId, 1, 7), (h.tripTemp, 8, 10), (h.tripUp, 18, 32), (h.tripCount, 50, 14)]
    | _ => 0

def BankState.code : BankState → Nat
  | .empty => 0 | .staging => 1 | .staged => 2 | .active => 3 | .retired => 4 | .failed => 5

def State.readMgt (s : State) (off : Nat) : Nat :=
  let m := s.mgmt
  let b := s.boot
  match off with
  | 0x580000 => pack [(s.cleat.wakeSrc.toNat, 0, 11), (b2n s.cleat.wakeOk, 11, 1), (s.cleat.wakeCnt, 12, 7)]
  | 0x5C0000 => pack [(b2n m.bmc, 0, 1), (b2n m.i3c, 1, 1), ((if m.i3c then m.eidI3c else m.eidTray).toNat, 2, 8), (m.eidHost.toNat, 10, 8), (m.queue.length, 18, 7),
      (m.lost, 25, 16), (m.dropped, 41, 8), (m.jfail, 49, 8)]
  | 0x5C0008 => pack [(b2n m.activeB1, 0, 1), (m.fw0.state.code, 1, 3), (m.fw1.state.code, 4, 3), (b2n m.fallback, 7, 1),
      (b2n m.update.isSome, 8, 1), ((m.bank m.activeB1).seq.toNat, 16, 32)]
  | 0x5C0010 => pack [(b.step, 0, 4), (b.kind, 4, 2), (b2n b.ready, 6, 1), (b.cause.toNat, 8, 8), (b.failStep, 16, 4), (b.starts, 32, 16),
      (b.lastS, 48, 16)]
  | 0x600000 => pack [(s.rst.nextSeq.toNat, 0, 32), (s.rst.log.length, 32, 13), (s.rst.overLog, 45, 16)]
  | _ => 0

/-- The 64 bits of the register at an aligned offset; an unimplemented one reads zero (R499).
[DESIGN CHOICE: log 13] -/
def State.readReg (s : State) (off : Nat) : Word :=
  BitVec.ofNat 64 (
    if off < 0x100000 then s.readHif off
    else if off < 0x200000 then s.readRng off
    else if off < 0x300000 then s.readTen off
    else if off < 0x340000 then s.readPrt off
    else if off < 0x380000 then s.readTil off
    else if off < 0x3C0000 then s.readMem off
    else if off < 0x400000 then s.readFab off
    else if off < 0x440000 then s.readLnk off
    else if off < 0x480000 then s.readCol off
    else if off < 0x4C0000 then s.readLay off
    else if off < 0x500000 then s.readSec off
    else if off < 0x540000 then s.readPwr off
    else if off < 0x580000 then s.readThm off
    else s.readMgt off)

/-! ### Access (R5, R500, R501) -/

/-- Registers that latch their upper half (R501). -/
def latches (off : Nat) : Bool :=
  off == 0x480000 || (fam off 0x300000 8 12).isSome || (fam off 0x500200 8 14).isSome || (fam off 0x500308 8 9).isSome ||
    (fam off 0x100018 0x20 8192).isSome

/-- The access is aligned, and 32 or 64 bits wide (R5). -/
def accessOk (off : Nat) (w : Width) : Bool :=
  match w with
  | .w32 => off % 4 == 0
  | .w64 => off % 8 == 0
  | .other _ => false

/-- An access of another width or alignment: HIF_ERR.ACCESS and LAST_OFFSET. -/
def State.accessFault (s : State) (off : Nat) : State := { s.barAccess.hifSet 0 with lastOff := BitVec.ofNat 24 off }

/-- What an aligned read returns, and the shadow it leaves. -/
def State.setupValue (s : State) (off : Nat) (w : Width) : Word × Option (Nat × BitVec 32) :=
  let base := off / 8 * 8
  let v := s.readReg base
  match w with
  | .w64 => (v, none)
  | .w32 =>
    if off % 8 = 0 then ((v.setWidth 32).setWidth 64, if latches base then some (base, (v >>> 32).setWidth 32) else none)
    else match s.shadow with
      | some (r, h) => if r = base then (h.setWidth 64, none) else (v >>> 32, none)
      | none => (v >>> 32, none)
  | .other _ => (0, none)

/-- SETUP_READ (R499 to R501, R507): a read of the setup space; of a tenant view (06 R160) or of an MSI-X table (06 R157), the word
there. The Cleat register block lies outside BAR0 (spec 14). [DESIGN CHOICE: log 75] -/
def execSetupRead (a : BarAddr) (w : Width) (s : State) : Host.Outcome State Fault Refusal :=
  let off := a.off
  .next (match a.bar with
  | .cleat h => if s.railsOn || h then s.cleatRead off w else s
  | _ => if !s.barLive then s else match a.bar with
    | .cleat _ => s
    | .view ten => s.emit (.setupData (barPart off w (s.readView (ten.val + 1) (off / 8 * 8))))
    | .msix fn => s.emit (.setupData (barPart off w (s.readMsix fn.val (off / 8 * 8))))
    | .setup => if !accessOk off w then (s.accessFault off).emit (.setupData 0)
    else
      let (v, sh) := s.setupValue off w
      let s := { s with shadow := sh }
      let s := if (fam (off / 8 * 8) 0x540100 8 14).isSome then s.draw else s
      s.emit (.setupData v))

/-! ### Writes (R500 to R504, R507) -/

/-- A plain register: its offset, its writable bits, whether they are RWL, and its reset value. -/
def plainReg (off : Nat) : Option (Nat × Bool × Nat) :=
  match off with
  | 0x300100 => some (0xFFFF01, true, 0x3E801)
  | 0x300108 => some (0xFF, false, 0)
  | 0x300600 => some (0x3F, true, 0x30)
  | 0x340000 => some (0x1F, true, 0x12)
  | 0x380000 => some (0xFFFFFFFFFFFF, true, 0)
  | 0x380008 => some (0x1FFF, true, 0x1818)
  | 0x380010 => some (0x3FFF, false, 0)
  | 0x3C0018 => some (0xFF01, true, 0x4001)
  | 0x401000 => some (0xF3FFF, true, 0x81128)
  | 0x440000 => some (0xFF0F1F, true, 0x640810)
  | 0x4C0010 => some (0xFFFFFFFFFFFFFFF0, false, 0)
  | 0x500010 => some (0x7F, true, 0x3C)
  | _ => if (fam off 0x200108 8 64).isSome then some (3, false, 0) else none

/-- A write of a plain register: frozen fields keep their values (R504). -/
def State.writePlain (s : State) (off v : Nat) : State :=
  match plainReg off with
  | some (m, rwl, rst) => if rwl && s.setupLocked then s else s.setReg off rst (v &&& m)
  | none => s

/-- A write of PRT_RST: without GO the fields alone; a tile or cluster order finds no firmware region that stays bad, which the rows
of their own can say. [DEDUCED: log 74] -/
def State.writePrtRst (s : State) (v : Nat) : State :=
  if !bitAt v 2 then s.setReg offPrtRst 0 (v &&& prtRstMask)
  else if v % 4 = 2 then s.prtRst v true
  else if v % 4 = 3 then s.packageReset
  else s.prtRst v true

/-- A write of SEC_KEY_CMD; an IMPORT comes as its own row, with the blob. [DEDUCED: log 74] -/
def State.writeKeyCmd (s : State) (v : Nat) : State := if bitAt v 10 && v % 8 == 2 then s else s.keyCmd v .error false

/-- A write of a register of the host interface or of a ring. RNG_CFG_r with EN = 1 on a ring that is not enabled comes as its own
row, with the slot read. [DEDUCED: log 74] -/
def State.writeHifRng (s : State) (off v : Nat) : State :=
  if off = 8 then s.writeHifCtl v
  else if off = 0x10 then { s with hifErr := s.hifErr &&& ~~~(BitVec.ofNat 5 v) }
  else match fam off 0x10000 0x10 1024, fam off 0x10008 0x10 1024, fam off 0x100000 0x20 8192, fam off 0x100008 0x20 8192 with
    | some n, _, _, _ => if lineEn (s.dblCtl n) then s else s.setReg off 0 (v / 64 * 64)
    | none, some n, _, _ => s.writeDblCtl n v
    | none, none, some r, _ => if cfgEn (s.rngCfg r) then s else s.setReg off 0 (v / 4096 * 4096)
    | none, none, none, some r => if bitAt v 0 then s else s.writeRngCfg r v
    | none, none, none, none => s

/-- A write of any other register. -/
def State.writeRest (s : State) (off v : Nat) : State :=
  match off with
  | 0x200000 => s.tenAssign v
  | 0x300300 => s.writePrtRst v
  | 0x300608 => s.writeSmpSel v
  | 0x300700 => s.writeRecon v
  | 0x340008 => s.writeTilErr v
  | 0x4C0008 => s.writeKeyCmd v
  | _ =>
    if 0x201080 ≤ off ∧ off < 0x203080 then s.writeWindow ((off - 0x201000) / 0x80) ((off / 8) % 16) v
    else match fam off 0x400000 0x40 32, fam off 0x400038 0x40 32 with
      | some p, _ => s.writeLnkCtl p v
      | none, some p => s.writePause p v
      | none, none => s.writePlain off v

/-- The stored bits of a register, action bits and RW1C bits as zero: what the unwritten half of a 32-bit write keeps.
[DEDUCED: log 74] -/
def State.kept (s : State) (off : Nat) : Nat :=
  if off = 0x10 ∨ off = 0x340008 then 0
  else if off = 0x200000 ∨ off = 0x300300 ∨ off = 0x300700 ∨ off = 0x4C0008 ∨ (fam off 0x400038 0x40 32).isSome then s.reg off 0
  else (s.readReg off).toNat

/-- SETUP_WRITE (R499, R500, R502 to R504): the write applies its fields at once; a 32-bit write changes its half alone. A write of a
tenant view is discarded (06 R158). [DESIGN CHOICE: log 173, DESIGN CHOICE: log 75] -/
def execSetupWrite (a : BarAddr) (w : Width) (v : Word) (s : State) : Host.Outcome State Fault Refusal :=
  let off := a.off
  .next (match a.bar with
  | .cleat h => if s.railsOn || h then s.cleatWrite h off w v else s
  | _ => if !s.barLive then s else match a.bar with
    | .cleat _ => s
    | .view _ => s.hifSet 1
    | .msix fn => match barMerge off w (s.readMsix fn.val (off / 8 * 8)) v.toNat with
      | some x => s.writeMsix fn.val (off / 8 * 8) x
      | none => s
    | .setup => if !accessOk off w then s.accessFault off
    else
      let s := s.barAccess
      let base := off / 8 * 8
      let old := s.kept base
      let new := match w with
        | .w32 => if off % 8 = 0 then old / 2 ^ 32 * 2 ^ 32 + v.toNat % 2 ^ 32 else old % 2 ^ 32 + v.toNat % 2 ^ 32 * 2 ^ 32
        | _ => v.toNat
      if base < 0x200000 then s.writeHifRng base new else s.writeRest base new)

end Sys2Proof.Machine
end

