-- ==== Sys2Proof/Machine/TileScalar.lean ====
section
/-! DEFINITION. The scalar operations (02 R43) and the immediate forms (R41). -/

namespace Sys2Proof.Machine

/-- A scalar operation on two registers. -/
def State.runRRR (s : State) (t : TileNo) (rd rs1 rs2 : Reg) (f : Word → Word → Word) :
    Host.Outcome State Fault Refusal :=
  .next (s.runReg t.val rd (fun x => f (x.reg rs1) (x.reg rs2)))

/-- A scalar operation on one register. -/
def State.runRR (s : State) (t : TileNo) (rd rs1 : Reg) (f : Word → Word) : Host.Outcome State Fault Refusal :=
  .next (s.runReg t.val rd (fun x => f (x.reg rs1)))

/-- A divide: a zero divisor traps with vector 0x0C (R36). [DEDUCED: log 33] -/
def State.runDiv (s : State) (t : TileNo) (rd rs1 rs2 : Reg) (f : Word → Word → Word) :
    Host.Outcome State Fault Refusal :=
  .next (s.runInstr t.val (fun x =>
    if x.reg rs2 = 0 then .trap s vecDivide 0 x.pc
    else .next (s.writeReg t.val rd (f (x.reg rs1) (x.reg rs2)))))

/-- [DEDUCED: log 33] -/
def shlW (a b : Word) : Word := a <<< (b.toNat % 64)
def shrW (a b : Word) : Word := a >>> (b.toNat % 64)
def sarW (a b : Word) : Word := a.sshiftRight (b.toNat % 64)
def mulhW (a b : Word) : Word := BitVec.ofInt 64 (a.toInt * b.toInt / 2 ^ 64)
def mulhuW (a b : Word) : Word := BitVec.ofNat 64 (a.toNat * b.toNat / 2 ^ 64)
/-- Rounded toward zero; the most negative value divided by −1 gives itself, remainder 0 (R43). -/
def divW (a b : Word) : Word := BitVec.ofInt 64 (Int.tdiv a.toInt b.toInt)
def remW (a b : Word) : Word := BitVec.ofInt 64 (Int.tmod a.toInt b.toInt)
def divuW (a b : Word) : Word := BitVec.ofNat 64 (a.toNat / b.toNat)
def remuW (a b : Word) : Word := BitVec.ofNat 64 (a.toNat % b.toNat)
/-- Bits that are 1. -/
def popcount (a : Word) : Nat := ((List.range 64).filter (fun i => a.getLsbD i)).length
/-- Zero bits above the highest 1; 64 for zero. -/
def leadingZeros (a : Word) : Nat := ((List.range 64).takeWhile (fun i => !a.getLsbD (63 - i))).length
/-- Zero bits below the lowest 1; 64 for zero. -/
def trailingZeros (a : Word) : Nat := ((List.range 64).takeWhile (fun i => !a.getLsbD i)).length

def execAdd (t : TileNo) (rd rs1 rs2 : Reg) (s : State) : Host.Outcome State Fault Refusal :=
  s.runRRR t rd rs1 rs2 (fun a b => a + b)
def execSub (t : TileNo) (rd rs1 rs2 : Reg) (s : State) : Host.Outcome State Fault Refusal :=
  s.runRRR t rd rs1 rs2 (fun a b => a - b)
def execAnd (t : TileNo) (rd rs1 rs2 : Reg) (s : State) : Host.Outcome State Fault Refusal :=
  s.runRRR t rd rs1 rs2 (fun a b => a &&& b)
def execOr (t : TileNo) (rd rs1 rs2 : Reg) (s : State) : Host.Outcome State Fault Refusal :=
  s.runRRR t rd rs1 rs2 (fun a b => a ||| b)
def execXor (t : TileNo) (rd rs1 rs2 : Reg) (s : State) : Host.Outcome State Fault Refusal :=
  s.runRRR t rd rs1 rs2 (fun a b => a ^^^ b)
def execShl (t : TileNo) (rd rs1 rs2 : Reg) (s : State) : Host.Outcome State Fault Refusal :=
  s.runRRR t rd rs1 rs2 shlW
def execShr (t : TileNo) (rd rs1 rs2 : Reg) (s : State) : Host.Outcome State Fault Refusal :=
  s.runRRR t rd rs1 rs2 shrW
def execSar (t : TileNo) (rd rs1 rs2 : Reg) (s : State) : Host.Outcome State Fault Refusal :=
  s.runRRR t rd rs1 rs2 sarW
def execCmpeq (t : TileNo) (rd rs1 rs2 : Reg) (s : State) : Host.Outcome State Fault Refusal :=
  s.runRRR t rd rs1 rs2 (fun a b => flagWord (a == b))
def execCmplt (t : TileNo) (rd rs1 rs2 : Reg) (s : State) : Host.Outcome State Fault Refusal :=
  s.runRRR t rd rs1 rs2 (fun a b => flagWord (a.slt b))
def execCmpltu (t : TileNo) (rd rs1 rs2 : Reg) (s : State) : Host.Outcome State Fault Refusal :=
  s.runRRR t rd rs1 rs2 (fun a b => flagWord (a.ult b))
def execMul (t : TileNo) (rd rs1 rs2 : Reg) (s : State) : Host.Outcome State Fault Refusal :=
  s.runRRR t rd rs1 rs2 (fun a b => a * b)
def execMulh (t : TileNo) (rd rs1 rs2 : Reg) (s : State) : Host.Outcome State Fault Refusal :=
  s.runRRR t rd rs1 rs2 mulhW
def execMulhu (t : TileNo) (rd rs1 rs2 : Reg) (s : State) : Host.Outcome State Fault Refusal :=
  s.runRRR t rd rs1 rs2 mulhuW
def execDiv (t : TileNo) (rd rs1 rs2 : Reg) (s : State) : Host.Outcome State Fault Refusal :=
  s.runDiv t rd rs1 rs2 divW
def execDivu (t : TileNo) (rd rs1 rs2 : Reg) (s : State) : Host.Outcome State Fault Refusal :=
  s.runDiv t rd rs1 rs2 divuW
def execRem (t : TileNo) (rd rs1 rs2 : Reg) (s : State) : Host.Outcome State Fault Refusal :=
  s.runDiv t rd rs1 rs2 remW
def execRemu (t : TileNo) (rd rs1 rs2 : Reg) (s : State) : Host.Outcome State Fault Refusal :=
  s.runDiv t rd rs1 rs2 remuW
def execPopc (t : TileNo) (rd rs1 : Reg) (s : State) : Host.Outcome State Fault Refusal :=
  s.runRR t rd rs1 (fun a => BitVec.ofNat 64 (popcount a))
def execClz (t : TileNo) (rd rs1 : Reg) (s : State) : Host.Outcome State Fault Refusal :=
  s.runRR t rd rs1 (fun a => BitVec.ofNat 64 (leadingZeros a))
def execCtz (t : TileNo) (rd rs1 : Reg) (s : State) : Host.Outcome State Fault Refusal :=
  s.runRR t rd rs1 (fun a => BitVec.ofNat 64 (trailingZeros a))

def execAddi (t : TileNo) (rd rs1 : Reg) (imm : BitVec 16) (s : State) : Host.Outcome State Fault Refusal :=
  s.runRR t rd rs1 (fun a => a + simm imm)
def execAndi (t : TileNo) (rd rs1 : Reg) (imm : BitVec 16) (s : State) : Host.Outcome State Fault Refusal :=
  s.runRR t rd rs1 (fun a => a &&& zimm imm)
def execOri (t : TileNo) (rd rs1 : Reg) (imm : BitVec 16) (s : State) : Host.Outcome State Fault Refusal :=
  s.runRR t rd rs1 (fun a => a ||| zimm imm)
def execXori (t : TileNo) (rd rs1 : Reg) (imm : BitVec 16) (s : State) : Host.Outcome State Fault Refusal :=
  s.runRR t rd rs1 (fun a => a ^^^ zimm imm)

/-- IMM16[7:6] chooses the shift, IMM16[5:0] the amount; choice 3 and a nonzero IMM16[15:8] are unassigned and raise
an illegal-instruction trap (R41). -/
def shiImm (imm : BitVec 16) (a : Word) : Option Word :=
  let n := imm.toNat % 64
  match imm.toNat / 64 with
  | 0 => some (a <<< n)
  | 1 => some (a >>> n)
  | 2 => some (a.sshiftRight n)
  | _ => none

/-- [DEDUCED: log 24] -/
def execShi (t : TileNo) (rd rs1 : Reg) (imm : BitVec 16) (s : State) : Host.Outcome State Fault Refusal :=
  .next (s.runInstr t.val (fun x =>
    match shiImm imm (x.reg rs1) with
    | some v => .next (s.writeReg t.val rd v)
    | none => .trap s vecIllegal 0 x.pc))

def execLui (t : TileNo) (rd : Reg) (imm : BitVec 16) (s : State) : Host.Outcome State Fault Refusal :=
  .next (s.runReg t.val rd (fun _ => simm imm <<< 16))

end Sys2Proof.Machine
end

