-- ==== Sys2Proof/Machine/Dispatch.lean ====
section
/-! DEFINITION. The dispatch: one arm per command of the table. -/

namespace Sys2Proof.Machine

def exec (i : Instr) (s : State) : Host.Outcome State Fault Refusal :=
  match i with
  | .add t rd rs1 rs2 => Sys2Proof.Machine.execAdd t rd rs1 rs2 s
  | .sub t rd rs1 rs2 => Sys2Proof.Machine.execSub t rd rs1 rs2 s
  | .and t rd rs1 rs2 => Sys2Proof.Machine.execAnd t rd rs1 rs2 s
  | .or t rd rs1 rs2 => Sys2Proof.Machine.execOr t rd rs1 rs2 s
  | .xor t rd rs1 rs2 => Sys2Proof.Machine.execXor t rd rs1 rs2 s
  | .shl t rd rs1 rs2 => Sys2Proof.Machine.execShl t rd rs1 rs2 s
  | .shr t rd rs1 rs2 => Sys2Proof.Machine.execShr t rd rs1 rs2 s
  | .sar t rd rs1 rs2 => Sys2Proof.Machine.execSar t rd rs1 rs2 s
  | .cmpeq t rd rs1 rs2 => Sys2Proof.Machine.execCmpeq t rd rs1 rs2 s
  | .cmplt t rd rs1 rs2 => Sys2Proof.Machine.execCmplt t rd rs1 rs2 s
  | .cmpltu t rd rs1 rs2 => Sys2Proof.Machine.execCmpltu t rd rs1 rs2 s
  | .mul t rd rs1 rs2 => Sys2Proof.Machine.execMul t rd rs1 rs2 s
  | .mulh t rd rs1 rs2 => Sys2Proof.Machine.execMulh t rd rs1 rs2 s
  | .mulhu t rd rs1 rs2 => Sys2Proof.Machine.execMulhu t rd rs1 rs2 s
  | .div t rd rs1 rs2 => Sys2Proof.Machine.execDiv t rd rs1 rs2 s
  | .divu t rd rs1 rs2 => Sys2Proof.Machine.execDivu t rd rs1 rs2 s
  | .rem t rd rs1 rs2 => Sys2Proof.Machine.execRem t rd rs1 rs2 s
  | .remu t rd rs1 rs2 => Sys2Proof.Machine.execRemu t rd rs1 rs2 s
  | .popc t rd rs1 => Sys2Proof.Machine.execPopc t rd rs1 s
  | .clz t rd rs1 => Sys2Proof.Machine.execClz t rd rs1 s
  | .ctz t rd rs1 => Sys2Proof.Machine.execCtz t rd rs1 s
  | .addi t rd rs1 imm => Sys2Proof.Machine.execAddi t rd rs1 imm s
  | .andi t rd rs1 imm => Sys2Proof.Machine.execAndi t rd rs1 imm s
  | .ori t rd rs1 imm => Sys2Proof.Machine.execOri t rd rs1 imm s
  | .xori t rd rs1 imm => Sys2Proof.Machine.execXori t rd rs1 imm s
  | .shi t rd rs1 imm => Sys2Proof.Machine.execShi t rd rs1 imm s
  | .lui t rd imm => Sys2Proof.Machine.execLui t rd imm s
  | .ldd t rd rs1 imm => Sys2Proof.Machine.execLdd t rd rs1 imm s
  | .ldw t rd rs1 imm => Sys2Proof.Machine.execLdw t rd rs1 imm s
  | .ldh t rd rs1 imm => Sys2Proof.Machine.execLdh t rd rs1 imm s
  | .ldb t rd rs1 imm => Sys2Proof.Machine.execLdb t rd rs1 imm s
  | .std t rd rs1 imm => Sys2Proof.Machine.execStd t rd rs1 imm s
  | .stw t rd rs1 imm => Sys2Proof.Machine.execStw t rd rs1 imm s
  | .sth t rd rs1 imm => Sys2Proof.Machine.execSth t rd rs1 imm s
  | .stb t rd rs1 imm => Sys2Proof.Machine.execStb t rd rs1 imm s
  | .br t cond rs1 imm => Sys2Proof.Machine.execBr t cond rs1 imm s
  | .call t disp => Sys2Proof.Machine.execCall t disp s
  | .callr t rs1 => Sys2Proof.Machine.execCallr t rs1 s
  | .ret t => Sys2Proof.Machine.execRet t s
  | .jmpl t rd rs1 imm => Sys2Proof.Machine.execJmpl t rd rs1 imm s
  | .xret t => Sys2Proof.Machine.execXret t s
  | .crr t rd idx => Sys2Proof.Machine.execCrr t rd idx s
  | .crw t rs1 idx => Sys2Proof.Machine.execCrw t rs1 idx s
  | .trapi t num => Sys2Proof.Machine.execTrapi t num s
  | .phaseReleaseArm t => Sys2Proof.Machine.execPhaseReleaseArm t s
  | .brk w => Sys2Proof.Machine.execBrk w s
  | .done t => Sys2Proof.Machine.execDone t s
  | .halt t => Sys2Proof.Machine.execHalt t s
  | .spill t => Sys2Proof.Machine.execSpill t s
  | .fill t => Sys2Proof.Machine.execFill t s
  | .atomSwap t a b c d => Sys2Proof.Machine.execAtomSwap t a b c d s
  | .atomAdd t a b c d => Sys2Proof.Machine.execAtomAdd t a b c d s
  | .atomCas t a b c d => Sys2Proof.Machine.execAtomCas t a b c d s
  | .atomMax t a b c d => Sys2Proof.Machine.execAtomMax t a b c d s
  | .atomMin t a b c d => Sys2Proof.Machine.execAtomMin t a b c d s
  | .gld t rd rs1 => Sys2Proof.Machine.execGld t rd rs1 s
  | .gst t rs1 rs2 => Sys2Proof.Machine.execGst t rs1 rs2 s
  | .dmaGo t a b => Sys2Proof.Machine.execDmaGo t a b s
  | .dmaWait t a b => Sys2Proof.Machine.execDmaWait t a b s
  | .dmaTest t a b => Sys2Proof.Machine.execDmaTest t a b s
  | .fence t => Sys2Proof.Machine.execFence t s
  | .waitvEq t a b c => Sys2Proof.Machine.execWaitvEq t a b c s
  | .waitvGe t a b c => Sys2Proof.Machine.execWaitvGe t a b c s
  | .bar t => Sys2Proof.Machine.execBar t s
  | .twait t a => Sys2Proof.Machine.execTwait t a s
  | .vwait t a => Sys2Proof.Machine.execVwait t a s
  | .layr t a => Sys2Proof.Machine.execLayr t a s
  | .layw t a b => Sys2Proof.Machine.execLayw t a b s
  | .waitvWake t => Sys2Proof.Machine.execWaitvWake t s
  | .waitvTimeout t => Sys2Proof.Machine.execWaitvTimeout t s
  | .barRelease key => Sys2Proof.Machine.execBarRelease key s
  | .laywWake t => Sys2Proof.Machine.execLaywWake t s
  | .tileFaultJobEnd key => Sys2Proof.Machine.execTileFaultJobEnd key s
  | .scratchpadScrub t upsets => Sys2Proof.Machine.execScratchpadScrub t upsets s
  | .dmaComplete n x h => Sys2Proof.Machine.execDmaComplete n x h s
  | .retryResend a tag write => Sys2Proof.Machine.execRetryResend a tag write s
  | .tilePortInbound t pkt => Sys2Proof.Machine.execTilePortInbound t pkt s
  | .tmm t a => Sys2Proof.Machine.execTmm t a s
  | .tmmAg t a b => Sys2Proof.Machine.execTmmAg t a b s
  | .tanc t a b => Sys2Proof.Machine.execTanc t a b s
  | .chargeRequest t => Sys2Proof.Machine.execChargeRequest t s
  | .tensorStart t => Sys2Proof.Machine.execTensorStart t s
  | .halfRateStart t => Sys2Proof.Machine.execHalfRateStart t s
  | .tensorFinish t => Sys2Proof.Machine.execTensorFinish t s
  | .vadd t sub a b c d => Sys2Proof.Machine.execVadd t sub a b c d s
  | .vsub t sub a b c d => Sys2Proof.Machine.execVsub t sub a b c d s
  | .vmul t sub a b c d => Sys2Proof.Machine.execVmul t sub a b c d s
  | .vfma t sub a b c d => Sys2Proof.Machine.execVfma t sub a b c d s
  | .vmax t sub a b c d => Sys2Proof.Machine.execVmax t sub a b c d s
  | .vmin t sub a b c d => Sys2Proof.Machine.execVmin t sub a b c d s
  | .vscl t sub a b c d => Sys2Proof.Machine.execVscl t sub a b c d s
  | .vexp t sub a b d => Sys2Proof.Machine.execVexp t sub a b d s
  | .vrcp t sub a b d => Sys2Proof.Machine.execVrcp t sub a b d s
  | .vrsq t sub a b d => Sys2Proof.Machine.execVrsq t sub a b d s
  | .vrsum t sub a b d => Sys2Proof.Machine.execVrsum t sub a b d s
  | .vrmax t sub a b d => Sys2Proof.Machine.execVrmax t sub a b d s
  | .vsmax t a b d => Sys2Proof.Machine.execVsmax t a b d s
  | .vrmsn t a b c d => Sys2Proof.Machine.execVrmsn t a b c d s
  | .vcvt t sub a b d => Sys2Proof.Machine.execVcvt t sub a b d s
  | .vbse t sub a b c d => Sys2Proof.Machine.execVbse t sub a b c d s
  | .vbsd t sub a b c d => Sys2Proof.Machine.execVbsd t sub a b c d s
  | .vwsanc t a b d => Sys2Proof.Machine.execVwsanc t a b d s
  | .vwsenc t a b c d => Sys2Proof.Machine.execVwsenc t a b c d s
  | .vwsaln t a b d => Sys2Proof.Machine.execVwsaln t a b d s
  | .vwsadd t a b d => Sys2Proof.Machine.execVwsadd t a b d s
  | .vwsrnd t bf16 a b d => Sys2Proof.Machine.execVwsrnd t bf16 a b d s
  | .vwsamx t a b d => Sys2Proof.Machine.execVwsamx t a b d s
  | .vectorFinish t => Sys2Proof.Machine.execVectorFinish t s
  | .tmmxRs t sub a b c d => Sys2Proof.Machine.execTmmxRs t sub a b c d s
  | .tmmxAr t sub a b c d => Sys2Proof.Machine.execTmmxAr t sub a b c d s
  | .tmmxAg t sub a b c d => Sys2Proof.Machine.execTmmxAg t sub a b c d s
  | .tmmxA2a t sub a b c d => Sys2Proof.Machine.execTmmxA2a t sub a b c d s
  | .fusedFinish t => Sys2Proof.Machine.execFusedFinish t s
  | .fusedTimeout t => Sys2Proof.Machine.execFusedTimeout t s
  | .slotReq pkt => Sys2Proof.Machine.execSlotReq pkt s
  | .grant k => Sys2Proof.Machine.execGrant k s
  | .chunk pkt => Sys2Proof.Machine.execChunk pkt s
  | .checked pkt => Sys2Proof.Machine.execChecked pkt s
  | .resend pkt => Sys2Proof.Machine.execResend pkt s
  | .abort pkt => Sys2Proof.Machine.execAbort pkt s
  | .slotTimeout slot => Sys2Proof.Machine.execSlotTimeout slot s
  | .stackRequest n pkt => Sys2Proof.Machine.execStackRequest n pkt s
  | .stackAccess n errs => Sys2Proof.Machine.execStackAccess n errs s
  | .rowRemap n e bad => Sys2Proof.Machine.execRowRemap n e bad s
  | .patrolScrub n err => Sys2Proof.Machine.execPatrolScrub n err s
  | .refresh n bank => Sys2Proof.Machine.execRefresh n bank s
  | .stackTempRead n r => Sys2Proof.Machine.execStackTempRead n r s
  | .selfRefreshExit n => Sys2Proof.Machine.execSelfRefreshExit n s
  | .selfRefreshEntry n => Sys2Proof.Machine.execSelfRefreshEntry n s
  | .expand n sid errs => Sys2Proof.Machine.execExpand n sid errs s
  | .load n sid errs => Sys2Proof.Machine.execLoad n sid errs s
  | .streamEnd n sid => Sys2Proof.Machine.execStreamEnd n sid s
  | .seamResend east q failed => Sys2Proof.Machine.execSeamResend east q failed s
  | .rotation n => Sys2Proof.Machine.execRotation n s
  | .drainMarker t m => Sys2Proof.Machine.execDrainMarker t m s
  | .rotationCopyDone n => Sys2Proof.Machine.execRotationCopyDone n s
  | .rotationRelease n => Sys2Proof.Machine.execRotationRelease n s
  | .rotationAbandon n cause => Sys2Proof.Machine.execRotationAbandon n cause s
  | .firmwareBroadcast mask image => Sys2Proof.Machine.execFirmwareBroadcast mask image s
  | .firmwareCrcCheck n x => Sys2Proof.Machine.execFirmwareCrcCheck n x s
  | .setupWrite a w v => Sys2Proof.Machine.execSetupWrite a w v s
  | .vfWrite ten off v => Sys2Proof.Machine.execVfWrite ten off v s
  | .setupLock v => Sys2Proof.Machine.execSetupLock v s
  | .fetchEn v => Sys2Proof.Machine.execFetchEn v s
  | .ringEnable r v slot => Sys2Proof.Machine.execRingEnable r v slot s
  | .ringDisable r v => Sys2Proof.Machine.execRingDisable r v s
  | .doorbellLineEnable l v => Sys2Proof.Machine.execDoorbellLineEnable l v s
  | .windowEnable ten w v => Sys2Proof.Machine.execWindowEnable ten w v s
  | .pfFlr => Sys2Proof.Machine.execPfFlr s
  | .vfFlr ten => Sys2Proof.Machine.execVfFlr ten s
  | .snoopInvalidation l => Sys2Proof.Machine.execSnoopInvalidation l s
  | .doorbellRead l rd => Sys2Proof.Machine.execDoorbellRead l rd s
  | .doorbellPoll => Sys2Proof.Machine.execDoorbellPoll s
  | .descriptorFetch r rd => Sys2Proof.Machine.execDescriptorFetch r rd s
  | .jobLaunch key => Sys2Proof.Machine.execJobLaunch key s
  | .dma key => Sys2Proof.Machine.execDma key s
  | .hostDmaComplete key r => Sys2Proof.Machine.execHostDmaComplete key r s
  | .teamForm key gmask tlist => Sys2Proof.Machine.execTeamForm key gmask tlist s
  | .teamDissolve key => Sys2Proof.Machine.execTeamDissolve key s
  | .circuitSetUp key => Sys2Proof.Machine.execCircuitSetUp key s
  | .circuitTearDown key => Sys2Proof.Machine.execCircuitTearDown key s
  | .layScheduledEvent key => Sys2Proof.Machine.execLayScheduledEvent key s
  | .hintWindow key => Sys2Proof.Machine.execHintWindow key s
  | .hintHostLimit key => Sys2Proof.Machine.execHintHostLimit key s
  | .hintSleep key => Sys2Proof.Machine.execHintSleep key s
  | .park key => Sys2Proof.Machine.execPark key s
  | .unpark key => Sys2Proof.Machine.execUnpark key s
  | .unparkStep key => Sys2Proof.Machine.execUnparkStep key s
  | .diagEcho key => Sys2Proof.Machine.execDiagEcho key s
  | .diagErrlog key => Sys2Proof.Machine.execDiagErrlog key s
  | .diagProgress key => Sys2Proof.Machine.execDiagProgress key s
  | .diagPrtstate key => Sys2Proof.Machine.execDiagPrtstate key s
  | .moderationTimer r => Sys2Proof.Machine.execModerationTimer r s
  | .topologyAccept rec => Sys2Proof.Machine.execTopologyAccept rec s
  | .topologyActivation => Sys2Proof.Machine.execTopologyActivation s
  | .packetRoute src pkt => Sys2Proof.Machine.execPacketRoute src pkt s
  | .tailCheck src pkt forwarded => Sys2Proof.Machine.execTailCheck src pkt forwarded s
  | .rd pkt => Sys2Proof.Machine.execRd pkt s
  | .wr pkt => Sys2Proof.Machine.execWr pkt s
  | .wrp pkt => Sys2Proof.Machine.execWrp pkt s
  | .atm pkt => Sys2Proof.Machine.execAtm pkt s
  | .push pkt => Sys2Proof.Machine.execPush pkt s
  | .fwr pkt => Sys2Proof.Machine.execFwr pkt s
  | .rdr pkt => Sys2Proof.Machine.execRdr pkt s
  | .ack pkt => Sys2Proof.Machine.execAck pkt s
  | .ckt src pkt => Sys2Proof.Machine.execCkt src pkt s
  | .csu src pkt => Sys2Proof.Machine.execCsu src pkt s
  | .crl src pkt => Sys2Proof.Machine.execCrl src pkt s
  | .circuitEnd src pkt => Sys2Proof.Machine.execCircuitEnd src pkt s
  | .circuitBrokenNotice chip cid => Sys2Proof.Machine.execCircuitBrokenNotice chip cid s
  | .portLeaveService p => Sys2Proof.Machine.execPortLeaveService p s
  | .linkRelease p => Sys2Proof.Machine.execLinkRelease p s
  | .tsa p ts => Sys2Proof.Machine.execTsa p ts s
  | .tsb p ts => Sys2Proof.Machine.execTsb p ts s
  | .rate p ts => Sys2Proof.Machine.execRate p ts s
  | .lb p ts => Sys2Proof.Machine.execLb p ts s
  | .alignDone p plus lanes => Sys2Proof.Machine.execAlignDone p plus lanes s
  | .adaptSweepDone p lane codes => Sys2Proof.Machine.execAdaptSweepDone p lane codes s
  | .trainingTimeout p => Sys2Proof.Machine.execTrainingTimeout p s
  | .failedRestart p => Sys2Proof.Machine.execFailedRestart p s
  | .cmp p lanes => Sys2Proof.Machine.execCmp p lanes s
  | .linkFrame p raw => Sys2Proof.Machine.execLinkFrame p raw s
  | .nakTimeout p => Sys2Proof.Machine.execNakTimeout p s
  | .ackStallTimeout p => Sys2Proof.Machine.execAckStallTimeout p s
  | .retrain o => Sys2Proof.Machine.execRetrain o s
  | .retrainTimeout p => Sys2Proof.Machine.execRetrainTimeout p s
  | .pause p blocks => Sys2Proof.Machine.execPause p blocks s
  | .pauseExpiry p => Sys2Proof.Machine.execPauseExpiry p s
  | .linkWindow p => Sys2Proof.Machine.execLinkWindow p s
  | .windowQuiet p => Sys2Proof.Machine.execWindowQuiet p s
  | .windowEnd p => Sys2Proof.Machine.execWindowEnd p s
  | .echo p t1 => Sys2Proof.Machine.execEcho p t1 s
  | .echoReply p t1 t2 t3 => Sys2Proof.Machine.execEchoReply p t1 t2 t3 s
  | .echoTimer p => Sys2Proof.Machine.execEchoTimer p s
  | .laneQuery p => Sys2Proof.Machine.execLaneQuery p s
  | .laneReport p payload => Sys2Proof.Machine.execLaneReport p payload s
  | .offline p v => Sys2Proof.Machine.execOffline p v s
  | .lnkCtlRetrain p v => Sys2Proof.Machine.execLnkCtlRetrain p v s
  | .nearBightLoopback p v => Sys2Proof.Machine.execNearBightLoopback p v s
  | .farBightLoopback p v => Sys2Proof.Machine.execFarBightLoopback p v s
  | .prbsTest p v n rx => Sys2Proof.Machine.execPrbsTest p v n rx s
  | .injSingle p v => Sys2Proof.Machine.execInjSingle p v s
  | .injBurst p v => Sys2Proof.Machine.execInjBurst p v s
  | .errClr p v => Sys2Proof.Machine.execErrClr p v s
  | .send p v => Sys2Proof.Machine.execSend p v s
  | .layTick => Sys2Proof.Machine.execLayTick s
  | .syncTimer => Sys2Proof.Machine.execSyncTimer s
  | .syncReq p t1 => Sys2Proof.Machine.execSyncReq p t1 s
  | .syncResp p st pps master hops t1 t2 t3 => Sys2Proof.Machine.execSyncResp p st pps master hops t1 t2 t3 s
  | .ppsEdge => Sys2Proof.Machine.execPpsEdge s
  | .ppsTimeout => Sys2Proof.Machine.execPpsTimeout s
  | .parentTimeout => Sys2Proof.Machine.execParentTimeout s
  | .calendarFire => Sys2Proof.Machine.execCalendarFire s
  | .phaseRelease n => Sys2Proof.Machine.execPhaseRelease n s
  | .tenAssign v => Sys2Proof.Machine.execTenAssign v s
  | .tenantChangeDone => Sys2Proof.Machine.execTenantChangeDone s
  | .generate v => Sys2Proof.Machine.execGenerate v s
  | .erase v => Sys2Proof.Machine.execErase v s
  | .importKey v blob gcmOk => Sys2Proof.Machine.execImportKey v blob gcmOk s
  | .eraseFabric v => Sys2Proof.Machine.execEraseFabric v s
  | .fidChal path => Sys2Proof.Machine.execFidChal path s
  | .fidLoad path token ok => Sys2Proof.Machine.execFidLoad path token ok s
  | .boundaryDrive => Sys2Proof.Machine.execBoundaryDrive s
  | .internalScan scope => Sys2Proof.Machine.execInternalScan scope s
  | .getVersion path => Sys2Proof.Machine.execGetVersion path s
  | .getCapabilities path => Sys2Proof.Machine.execGetCapabilities path s
  | .negotiateAlgorithms path supported => Sys2Proof.Machine.execNegotiateAlgorithms path supported s
  | .getDigests path => Sys2Proof.Machine.execGetDigests path s
  | .getCertificate path slot => Sys2Proof.Machine.execGetCertificate path slot s
  | .challenge path slot nonce => Sys2Proof.Machine.execChallenge path slot nonce s
  | .getMeasurements path idx nonce => Sys2Proof.Machine.execGetMeasurements path idx nonce s
  | .keyExchange path => Sys2Proof.Machine.execKeyExchange path s
  | .finish path session ok => Sys2Proof.Machine.execFinish path session ok s
  | .endSession path session => Sys2Proof.Machine.execEndSession path session s
  | .heartbeat path session => Sys2Proof.Machine.execHeartbeat path session s
  | .keyUpdate path session => Sys2Proof.Machine.execKeyUpdate path session s
  | .dutyEvaluation => Sys2Proof.Machine.execDutyEvaluation s
  | .opEvaluation => Sys2Proof.Machine.execOpEvaluation s
  | .opStep n => Sys2Proof.Machine.execOpStep n s
  | .rampStep => Sys2Proof.Machine.execRampStep s
  | .rampAdmission key n => Sys2Proof.Machine.execRampAdmission key n s
  | .limitNoticeWindow => Sys2Proof.Machine.execLimitNoticeWindow s
  | .droopTrip n => Sys2Proof.Machine.execDroopTrip n s
  | .droopRecovery n => Sys2Proof.Machine.execDroopRecovery n s
  | .vralert reg => Sys2Proof.Machine.execVralert reg s
  | .vralertRelease => Sys2Proof.Machine.execVralertRelease s
  | .energyModel e => Sys2Proof.Machine.execEnergyModel e s
  | .thermalSensorRead reads => Sys2Proof.Machine.execThermalSensorRead reads s
  | .steadyWindow pw inlet die stack tripped alerted changed => Sys2Proof.Machine.execSteadyWindow pw inlet die stack tripped alerted changed s
  | .thermalCap => Sys2Proof.Machine.execThermalCap s
  | .hotClear => Sys2Proof.Machine.execHotClear s
  | .inletAge => Sys2Proof.Machine.execInletAge s
  | .thermalTrip sensor temp => Sys2Proof.Machine.execThermalTrip sensor temp s
  | .ageingMeasurement n slack disturbed => Sys2Proof.Machine.execAgeingMeasurement n slack disturbed s
  | .sourceEdge src => Sys2Proof.Machine.execSourceEdge src s
  | .claim tgt => Sys2Proof.Machine.execClaim tgt s
  | .complete tgt src => Sys2Proof.Machine.execComplete tgt src s
  | .set src byHukirvo => Sys2Proof.Machine.execSet src byHukirvo s
  | .pendClear src => Sys2Proof.Machine.execPendClear src s
  | .sourceEnable src v => Sys2Proof.Machine.execSourceEnable src v s
  | .belayLatch src => Sys2Proof.Machine.execBelayLatch src s
  | .belayWake => Sys2Proof.Machine.execBelayWake s
  | .setEndpointId path eid => Sys2Proof.Machine.execSetEndpointId path eid s
  | .setdasa addr => Sys2Proof.Machine.execSetdasa addr s
  | .rstdaa => Sys2Proof.Machine.execRstdaa s
  | .mctpDrop path typ len => Sys2Proof.Machine.execMctpDrop path typ len s
  | .gettid path => Sys2Proof.Machine.execGettid path s
  | .getpldmversion path typ => Sys2Proof.Machine.execGetpldmversion path typ s
  | .getpldmtypes path => Sys2Proof.Machine.execGetpldmtypes path s
  | .getpldmcommands path typ => Sys2Proof.Machine.execGetpldmcommands path typ s
  | .getpdrrepositoryinfo path => Sys2Proof.Machine.execGetpdrrepositoryinfo path s
  | .getpdr path handle => Sys2Proof.Machine.execGetpdr path handle s
  | .getsensorreading path sid => Sys2Proof.Machine.execGetsensorreading path sid s
  | .getstatesensorreadings path sid => Sys2Proof.Machine.execGetstatesensorreadings path sid s
  | .getnumericeffectervalue path eid => Sys2Proof.Machine.execGetnumericeffectervalue path eid s
  | .getstateeffecterstates path eid => Sys2Proof.Machine.execGetstateeffecterstates path eid s
  | .seteventreceiver path eid => Sys2Proof.Machine.execSeteventreceiver path eid s
  | .pollforplatformeventmessage path => Sys2Proof.Machine.execPollforplatformeventmessage path s
  | .effecterRackLimit path watts => Sys2Proof.Machine.execEffecterRackLimit path watts s
  | .effecterInlet path temp => Sys2Proof.Machine.execEffecterInlet path temp s
  | .effecterRackVerdict path n v => Sys2Proof.Machine.execEffecterRackVerdict path n v s
  | .effecterCurrentLimit path reg amps => Sys2Proof.Machine.execEffecterCurrentLimit path reg amps s
  | .readPsw path part => Sys2Proof.Machine.execReadPsw path part s
  | .readRecord path rec off => Sys2Proof.Machine.execReadRecord path rec off s
  | .readErrlog path idx => Sys2Proof.Machine.execReadErrlog path idx s
  | .readSample path buf => Sys2Proof.Machine.execReadSample path buf s
  | .on path => Sys2Proof.Machine.execOn path s
  | .off path => Sys2Proof.Machine.execOff path s
  | .sleep path => Sys2Proof.Machine.execSleep path s
  | .wake path => Sys2Proof.Machine.execWake path s
  | .rackLimit path watts lt => Sys2Proof.Machine.execRackLimit path watts lt s
  | .tripRelease path => Sys2Proof.Machine.execTripRelease path s
  | .topologyWrite path off last bytes => Sys2Proof.Machine.execTopologyWrite path off last bytes s
  | .topologyPartTimeout => Sys2Proof.Machine.execTopologyPartTimeout s
  | .layRole path role => Sys2Proof.Machine.execLayRole path role s
  | .laySecond path sec => Sys2Proof.Machine.execLaySecond path sec s
  | .stepSlot path period offset => Sys2Proof.Machine.execStepSlot path period offset s
  | .windowArm path mask ltStart ltEnd => Sys2Proof.Machine.execWindowArm path mask ltStart ltEnd s
  | .sampleArm path buf lt => Sys2Proof.Machine.execSampleArm path buf lt s
  | .svnCommit path => Sys2Proof.Machine.execSvnCommit path s
  | .regulatorPoll reg r => Sys2Proof.Machine.execRegulatorPoll reg r s
  | .flashWrite ok => Sys2Proof.Machine.execFlashWrite ok s
  | .querydeviceidentifiers path => Sys2Proof.Machine.execQuerydeviceidentifiers path s
  | .getfirmwareparameters path => Sys2Proof.Machine.execGetfirmwareparameters path s
  | .requestupdate path => Sys2Proof.Machine.execRequestupdate path s
  | .passcomponenttable path comps => Sys2Proof.Machine.execPasscomponenttable path comps s
  | .updatecomponent path comp size => Sys2Proof.Machine.execUpdatecomponent path comp size s
  | .requestfirmwaredata path off bytes => Sys2Proof.Machine.execRequestfirmwaredata path off bytes s
  | .transfercomplete path ok => Sys2Proof.Machine.execTransfercomplete path ok s
  | .verifycomplete path ok => Sys2Proof.Machine.execVerifycomplete path ok s
  | .applycomplete path ok => Sys2Proof.Machine.execApplycomplete path ok s
  | .activatefirmware path selfContained copyOk => Sys2Proof.Machine.execActivatefirmware path selfContained copyOk s
  | .getstatus path => Sys2Proof.Machine.execGetstatus path s
  | .cancelupdatecomponent path => Sys2Proof.Machine.execCancelupdatecomponent path s
  | .cancelupdate path => Sys2Proof.Machine.execCancelupdate path s
  | .updateIdleTimeout => Sys2Proof.Machine.execUpdateIdleTimeout s
  | .bmcPresenceTimeout => Sys2Proof.Machine.execBmcPresenceTimeout s
  | .standbyPowerOn romOk stagedBad => Sys2Proof.Machine.execStandbyPowerOn romOk stagedBad s
  | .standbyLoss => Sys2Proof.Machine.execStandbyLoss s
  | .plinthOverheat => Sys2Proof.Machine.execPlinthOverheat s
  | .flashRetryAfterCool => Sys2Proof.Machine.execFlashRetryAfterCool s
  | .startStep rep => Sys2Proof.Machine.execStartStep rep s
  | .startStepTimeout stks => Sys2Proof.Machine.execStartStepTimeout stks s
  | .memoryTestDone n rows => Sys2Proof.Machine.execMemoryTestDone n rows s
  | .shutdownSelftestDone defects untested ms => Sys2Proof.Machine.execShutdownSelftestDone defects untested ms s
  | .tileReset t fromDriver crcOk => Sys2Proof.Machine.execTileReset t fromDriver crcOk s
  | .clusterReset v crcOk => Sys2Proof.Machine.execClusterReset v crcOk s
  | .partitionReset v => Sys2Proof.Machine.execPartitionReset v s
  | .packageReset v => Sys2Proof.Machine.execPackageReset v s
  | .pkgRstN => Sys2Proof.Machine.execPkgRstN s
  | .hardTrip n holds => Sys2Proof.Machine.execHardTrip n holds s
  | .drainLimit t => Sys2Proof.Machine.execDrainLimit t s
  | .resetStep n crcBad channelBad seamsOk => Sys2Proof.Machine.execResetStep n crcBad channelBad seamsOk s
  | .partitionResetDone n => Sys2Proof.Machine.execPartitionResetDone n s
  | .lateReply t pkt => Sys2Proof.Machine.execLateReply t pkt s
  | .free v => Sys2Proof.Machine.execFree v s
  | .clear v => Sys2Proof.Machine.execClear v s
  | .prtRecon v => Sys2Proof.Machine.execPrtRecon v s
  | .teardownAckTimeout chip cid => Sys2Proof.Machine.execTeardownAckTimeout chip cid s
  | .pciePerstN level => Sys2Proof.Machine.execPciePerstN level s
  | .railRangeTimeout rail => Sys2Proof.Machine.execRailRangeTimeout rail s
  | .stackRailFault pp => Sys2Proof.Machine.execStackRailFault pp s
  | .blockLockLoss p heads => Sys2Proof.Machine.execBlockLockLoss p heads s
  | .msixVectorUnmask fn vec => Sys2Proof.Machine.execMsixVectorUnmask fn vec s
  | .setupRead a w => Sys2Proof.Machine.execSetupRead a w s
  | .configurationRequest c => Sys2Proof.Machine.execConfigurationRequest c s
  | .cxlCacheError => Sys2Proof.Machine.execCxlCacheError s
  | .autoRemap v bad => Sys2Proof.Machine.execAutoRemap v bad s
  | .testLogicResetExit => Sys2Proof.Machine.execTestLogicResetExit s
  | .boundaryDriveExit => Sys2Proof.Machine.execBoundaryDriveExit s
  | .inBandInterrupt => Sys2Proof.Machine.execInBandInterrupt s
  | .plinthTemperature115 => Sys2Proof.Machine.execPlinthTemperature115 s
  | .farBightLoopbackEnd p => Sys2Proof.Machine.execFarBightLoopbackEnd p s
  | .outputBelowSetting reg => Sys2Proof.Machine.execOutputBelowSetting reg s

end Sys2Proof.Machine
end

