-- ==== Sys2Proof/WellFormed.lean ====
section
/-!
DEFINITION. Which commands are well formed. Unit numbers, widths and specifiers are right by their types; what a
type cannot say is the length of a report, of an image or of what a host read came back with. A command that is
not well formed is one that the package's surroundings cannot send.
-/

namespace Sys2Proof

/-- A host read that succeeded came back with `n` bytes. -/
def HostRead.sized (r : HostRead) (n : Nat) : Bool :=
  match r with
  | .ok b => b.length == n
  | .translation => true
  | .error => true

/-- One µs of activity names each of the twelve partitions once for each rail part (12 R364). -/
def EnergyUs.sized (e : EnergyUs) : Bool := e.coreUj.length == 12 && e.phyUj.length == 12

/-- The lengths that the spec fixes: the tile firmware image (05 R154), a producer slot (06 R163), a doorbell line
(06 R165), a descriptor (06 R169), the group masks of a team (09 R271), a topology record (07 R190), a link frame (08 R237), what eight
lanes brought (08 R245, R250, R264), the energy report (12 R364) the 54 die sensors (13 R367), and a steady window has readings (13 R370). The operands of every other command
admit no ill-formed value. A sweep tries 32 codes, a check one (08 R249, R252). [DESIGN CHOICE: log 21] -/
def Instr.wf (i : Instr) : Bool :=
  match i with
  | .firmwareBroadcast _ image => image.length == 32768
  | .ringEnable _ _ slot => slot.sized 8
  | .doorbellRead _ r => r.sized 64
  | .descriptorFetch _ r => r.sized 64
  | .teamForm _ gmask _ => gmask.sized 256
  | .topologyAccept rec => rec.length == 4928
  | .linkFrame _ raw => raw.length == 208
  | .prbsTest _ _ _ rx => rx.length == 8
  | .alignDone _ _ lanes => lanes.length == 8
  | .cmp _ lanes => lanes.length == 8
  | .adaptSweepDone _ _ codes => codes.length == 1 || codes.length == 32
  | .energyModel e => e.sized
  | .thermalSensorRead reads => reads.length == 54
  | .steadyWindow pw inlet die stack _ _ _ => !pw.isEmpty && !inlet.isEmpty && !die.isEmpty && !stack.isEmpty
  | _ => true

end Sys2Proof
end

