-- ==== Sys2Proof/Safety.lean ====
section
/-!
DEFINITION. What counts as a safe run, and the invariants of the state that claims use.
-/

namespace Sys2Proof.Machine

/-- A run is safe for `n` steps when none of its first `n` steps stops. -/
def SafeRun (s : State) (n : Nat) : Prop := ∀ k, k ≤ n → ∃ t, core.run k s = .next t

/-- Every waiting command is well formed. -/
def State.queueWf (s : State) : Bool := s.pending.all Instr.wf

/-- Every byte memory of the package is in its canonical form: the tiles' scratchpads, the stacks, the control complex's
SRAM. -/
def State.memWf (s : State) : Bool :=
  s.tiles.all (fun e => Memory.wf e.2.scratch) && s.stks.all (fun e => Memory.wf e.2.mem) && Memory.wf s.ccSram

end Sys2Proof.Machine
end

