-- ==== Sys2Proof/Certificates/Slice0/Obligations.lean ====
section
/-!
DEFINITION. The statements for the provers, in the order of the spec's chapters. The tables before a statement write out,
command by command, what the rules give; a `none` of a table is a command that the statement says nothing about.
-/

open Sys2Proof Sys2Proof.Machine

namespace Sys2Proof.Claims

/-! ### One instruction of a control core -/

/-- No imprecise trap, late error reply or enabled event waits at the tile's next instruction boundary (02 R36, R40, R52). -/
def calm (x : Tile) : Bool :=
  x.tfault.isNone && x.vfault.isNone && x.lateErr.isNone && !(x.cst.ei && x.cst.frm != 7 && x.eventBits != 0)

/-- `s` with tile `n` equal to `x` and nothing else changed. -/
def withTile (s : State) (n : Nat) (x : Tile) : State := { s with tiles := SMap.set s.tiles n x }

/-- `s` after tile `n`, become `x`, has retired an instruction and continues at `pc`; nothing else changes but the
partition's count of retired instructions (17 R470). -/
def ran (s : State) (n : Nat) (x : Tile) (pc : Word) : State :=
  { s with
    tiles := SMap.set s.tiles n { x with pc := pc, retired := x.retired + 1, wait := .none, lastFc := s.now }
    parts := SMap.set s.parts (n / 72) { s.part (n / 72) with retiredIns := (s.part (n / 72)).retiredIns + 1 } }

/-- `s` with `o` sent after all it has sent so far. -/
def sent (s : State) (o : List Output) : State := { s with out := s.out ++ o }

/-- `s` after its front command has left it: what `step` hands to `exec`. -/
def withoutFront (s : State) (rest : List Instr) : State := { s with pending := rest }

end Sys2Proof.Claims

open Sys2Proof.Claims

/-! ## 02 The tile and its control core -/

namespace Sys2Proof.Claims

/-- The register result of a scalar command (02 R41, R43): tile, RD and value. A divide by zero and an SHI with an unassigned
choice give none: they trap. -/
def scalarResult (s : State) (i : Instr) : Option (TileNo × Reg × Word) :=
  let r (t : TileNo) (x : Reg) : Word := (s.tile t.val).reg x
  match i with
  | .add t rd a b => some (t, rd, r t a + r t b)
  | .sub t rd a b => some (t, rd, r t a - r t b)
  | .and t rd a b => some (t, rd, r t a &&& r t b)
  | .or t rd a b => some (t, rd, r t a ||| r t b)
  | .xor t rd a b => some (t, rd, r t a ^^^ r t b)
  | .shl t rd a b => some (t, rd, r t a <<< ((r t b).extractLsb' 0 6).toNat)
  | .shr t rd a b => some (t, rd, r t a >>> ((r t b).extractLsb' 0 6).toNat)
  | .sar t rd a b => some (t, rd, (r t a).sshiftRight ((r t b).extractLsb' 0 6).toNat)
  | .cmpeq t rd a b => some (t, rd, if r t a = r t b then 1 else 0)
  | .cmplt t rd a b => some (t, rd, if (r t a).toInt < (r t b).toInt then 1 else 0)
  | .cmpltu t rd a b => some (t, rd, if (r t a).toNat < (r t b).toNat then 1 else 0)
  | .mul t rd a b => some (t, rd, r t a * r t b)
  | .mulh t rd a b => some (t, rd, BitVec.ofInt 64 ((r t a).toInt * (r t b).toInt / 2 ^ 64))
  | .mulhu t rd a b => some (t, rd, BitVec.ofNat 64 ((r t a).toNat * (r t b).toNat / 2 ^ 64))
  | .div t rd a b => if r t b = 0 then none else some (t, rd, BitVec.ofInt 64 (Int.tdiv (r t a).toInt (r t b).toInt))
  | .divu t rd a b => if r t b = 0 then none else some (t, rd, BitVec.ofNat 64 ((r t a).toNat / (r t b).toNat))
  | .rem t rd a b => if r t b = 0 then none else some (t, rd, BitVec.ofInt 64 (Int.tmod (r t a).toInt (r t b).toInt))
  | .remu t rd a b => if r t b = 0 then none else some (t, rd, BitVec.ofNat 64 ((r t a).toNat % (r t b).toNat))
  | .popc t rd a => some (t, rd, BitVec.ofNat 64 ((List.range 64).filter (fun k => (r t a).getLsbD k)).length)
  | .clz t rd a => some (t, rd, BitVec.ofNat 64 (leadingZeros (r t a)))
  | .ctz t rd a => some (t, rd, BitVec.ofNat 64 (trailingZeros (r t a)))
  | .addi t rd a imm => some (t, rd, r t a + imm.signExtend 64)
  | .andi t rd a imm => some (t, rd, r t a &&& imm.setWidth 64)
  | .ori t rd a imm => some (t, rd, r t a ||| imm.setWidth 64)
  | .xori t rd a imm => some (t, rd, r t a ^^^ imm.setWidth 64)
  | .shi t rd a imm =>
    let n := (imm.extractLsb' 0 6).toNat
    if imm.extractLsb' 6 10 = 0 then some (t, rd, r t a <<< n)
    else if imm.extractLsb' 6 10 = 1 then some (t, rd, r t a >>> n)
    else if imm.extractLsb' 6 10 = 2 then some (t, rd, (r t a).sshiftRight n)
    else none
  | .lui t rd imm => some (t, rd, imm.signExtend 64 <<< 16)
  | _ => none

end Sys2Proof.Claims

/-- Every scalar and immediate form (R41, R43) writes its result to RD, which c0 discards, continues at the next word, and
changes nothing else of the tile or of the package. CLZ and CTZ count the zero bits above the highest and below the lowest 1, and
give 64 for zero. -/
def Sys2Proof.Claims.scalarResults : Prop :=
  (∀ (s : State) (i : Instr) (t : TileNo) (rd : Reg) (v : Word),
    scalarResult s i = some (t, rd, v) → (s.tile t.val).ready = true → calm (s.tile t.val) = true →
      exec i s = .next (ran s t.val ((s.tile t.val).setReg rd v) ((s.tile t.val).pc + 4))) ∧
  ∀ a : Word,
    (leadingZeros a = 64 ↔ a = 0) ∧ (trailingZeros a = 64 ↔ a = 0) ∧
    (a ≠ 0 → leadingZeros a < 64 ∧ a.getLsbD (63 - leadingZeros a) = true ∧
      ∀ k, 63 - leadingZeros a < k → a.getLsbD k = false) ∧
    (a ≠ 0 → trailingZeros a < 64 ∧ a.getLsbD (trailingZeros a) = true ∧
      ∀ k, k < trailingZeros a → a.getLsbD k = false)

/-- The windowed register file (R31): c0 reads zero and discards writes; a register reads back what was written to it and a write
changes no other specifier of the window; the halves of a window are the groups R31 gives; and what the onward half of window
`w` holds is what the entry half of window `w + 1` reads. -/
def Sys2Proof.Claims.registerWindows : Prop :=
  ∀ (x : Tile) (r q : Reg) (v : Word) (i : Nat), i < 8 →
    x.reg 0 = 0 ∧ x.setReg 0 v = x ∧
    (r ≠ 0 → (x.setReg r v).reg r = v) ∧ (q ≠ r → (x.setReg r v).reg q = x.reg q) ∧
    (x.cst.frm ≠ 7 → x.reg (BitVec.ofNat 5 (16 + i)) = x.groups.toList.getD (8 * x.cst.frm.toNat + i) 0 ∧
      x.reg (BitVec.ofNat 5 (24 + i)) = x.groups.toList.getD (8 * ((x.cst.frm.toNat + 1) % 7) + i) 0) ∧
    (x.cst.frm = 7 → x.reg (BitVec.ofNat 5 (16 + i)) = x.groups.toList.getD (8 * ((x.xcst.frm.toNat + 1) % 7) + i) 0 ∧
      x.reg (BitVec.ofNat 5 (24 + i)) = x.groups.toList.getD (56 + i) 0) ∧
    (x.cst.frm ≠ 7 → ∀ c : Cst, c.frm.toNat = (x.cst.frm.toNat + 1) % 7 →
      ({ x with cst := c } : Tile).reg (BitVec.ofNat 5 (16 + i)) = x.reg (BitVec.ofNat 5 (24 + i)))

/-- The scalar instructions and the registers they work on. -/
def Obligations.ScalarInstructions : Prop := Claims.scalarResults ∧ Claims.registerWindows

namespace Sys2Proof.Claims

/-- The tile after a window call from it (02 R32). -/
def called (x : Tile) : Tile :=
  { x with
    cst := { x.cst with frm := BitVec.ofNat 3 ((x.cst.frm.toNat + 1) % 7), dep := x.cst.dep + 1 }
    groups := x.groups.setIfInBounds (8 * ((x.cst.frm.toNat + 1) % 7) + 7) (x.pc + 4) }

/-- PC + 4 × a signed displacement (02 R41). -/
def target (pc : Word) {n : Nat} (d : BitVec n) : Word := pc + (d.signExtend 64 <<< 2)

/-- The tile after XRET (02 R37): CST from XCST; the events that an event trap found are cleared (02 R36, the model's reading of
log 7). -/
def returned (x : Tile) : Tile :=
  { x with
    cst := x.xcst
    event := if x.xcause.toNat % 256 = 0x10 then x.event &&& ~~~x.evSeen else x.event
    evSeen := if x.xcause.toNat % 256 = 0x10 then 0 else x.evSeen }

/-- The condition of BR on the signed value of RS1 (02 R41). -/
def condition (c : Reg) (v : Int) : Prop :=
  (c = 0 ∧ v = 0) ∨ (c = 1 ∧ v ≠ 0) ∨ (c = 2 ∧ v < 0) ∨ (c = 3 ∧ 0 ≤ v) ∨ (c = 4 ∧ 0 < v) ∨ (c = 5 ∧ v ≤ 0) ∨ c = 6

end Sys2Proof.Claims

/-- Control transfers (R32, R37, R41): BR jumps exactly when its condition holds; JMPL links without moving the window; CALL and
CALLR advance the window, count it and put the return address into p7 of the new window; RET goes to p7 and retreats; XRET at firmware
level restores CST from XCST and continues at XPC. -/
def Sys2Proof.Claims.controlTransfers : Prop :=
  ∀ (s : State) (t : TileNo) (rd rs1 : Reg) (imm : BitVec 16) (disp : BitVec 26),
    let n := t.val
    let x := s.tile n
    x.ready = true → calm x = true →
    (∀ c : Reg, c.toNat ≤ 6 → (c = 6 → rs1 = 0) → condition c (x.reg rs1).toInt →
      exec (.br t c rs1 imm) s = .next (ran s n x (target x.pc imm))) ∧
    (∀ c : Reg, c.toNat ≤ 5 → ¬ condition c (x.reg rs1).toInt →
      exec (.br t c rs1 imm) s = .next (ran s n x (x.pc + 4))) ∧
    exec (.jmpl t rd rs1 imm) s = .next (ran s n (x.setReg rd (x.pc + 4)) (x.reg rs1 + imm.signExtend 64)) ∧
    (x.cst.frm ≠ 7 → x.cst.dep ≠ 6 →
      exec (.call t disp) s = .next (ran s n (called x) (target x.pc disp)) ∧
      exec (.callr t rs1) s = .next (ran s n (called x) (x.reg rs1))) ∧
    (x.cst.frm ≠ 7 → x.cst.dep ≠ 1 →
      exec (.ret t) s = .next (ran s n
        { x with cst := { x.cst with frm := BitVec.ofNat 3 ((x.cst.frm.toNat + 6) % 7), dep := x.cst.dep - 1 } }
        (x.reg 23))) ∧
    (x.cst.pl = true → calm (returned x) = true → exec (.xret t) s = .next (ran s n (returned x) x.xpc))

namespace Sys2Proof.Claims

/-- The tile after it has taken a trap outside window 7 (02 R37). -/
def entered (x : Tile) (vec detail : Nat) (xval : Word) : Tile :=
  { x with
    xcst := x.cst, xpc := x.pc, xcause := BitVec.ofNat 64 (vec + 256 * detail), xval := xval
    cst := if vec = 1 ∨ vec = 2 then ⟨7, x.cst.dep, true, false⟩
           else ⟨BitVec.ofNat 3 ((x.cst.frm.toNat + 1) % 7), x.cst.dep + 1, true, false⟩
    pc := x.xbase + BitVec.ofNat 64 (32 * vec) }

/-- The synchronous trap a command raises (02 R36): tile, vector, detail and XVAL. Listed here: divide by zero, breakpoint, a word
that no instruction claims, the illegal forms of SHI, BR, SPILL, FILL, CALL, CALLR and RET, the privileged forms, and the window traps. -/
def trapOf (s : State) (i : Instr) : Option (TileNo × Nat × Nat × Word) :=
  let x (t : TileNo) : Tile := s.tile t.val
  let give (t : TileNo) (v : Nat) : Option (TileNo × Nat × Nat × Word) := some (t, v, 0, (x t).pc)
  match i with
  | .div t _ _ b => if (x t).reg b = 0 then give t 0x0C else none
  | .divu t _ _ b => if (x t).reg b = 0 then give t 0x0C else none
  | .rem t _ _ b => if (x t).reg b = 0 then give t 0x0C else none
  | .remu t _ _ b => if (x t).reg b = 0 then give t 0x0C else none
  | .brk w => if w.word = 0x4C000006 then give w.tile 0x0D else if claimed w.word then none else give w.tile 0x03
  | .shi t _ _ imm => if 3 ≤ imm.toNat / 64 then give t 0x03 else none
  | .br t c rs1 _ => if 7 ≤ c.toNat ∨ (c = 6 ∧ rs1 ≠ 0) then give t 0x03 else none
  | .call t _ => if (x t).cst.dep = 6 then give t 0x01 else if (x t).cst.frm = 7 then give t 0x03 else none
  | .callr t _ => if (x t).cst.dep = 6 then give t 0x01 else if (x t).cst.frm = 7 then give t 0x03 else none
  | .ret t => if (x t).cst.dep = 1 then give t 0x02 else if (x t).cst.frm = 7 then give t 0x03 else none
  | .xret t => if (x t).cst.pl = false then give t 0x04 else none
  | .halt t => if (x t).cst.pl = false then give t 0x04 else none
  | .crr t _ k => if (x t).cst.pl = false ∧ k.toNat < 7 then give t 0x04 else none
  | .crw t _ k => if (x t).cst.pl = false ∧ k ≠ 7 ∧ k ≠ 14 then give t 0x04 else none
  | .spill t => if (x t).cst.pl = false then give t 0x04 else if (x t).cst.frm ≠ 7 then give t 0x03
      else if (x t).spp = 0xC0000 then some (t, 0x06, 1, (x t).pc) else none
  | .fill t => if (x t).cst.pl = false then give t 0x04 else if (x t).cst.frm ≠ 7 then give t 0x03
      else if (x t).spp = 0xBF000 then some (t, 0x06, 2, (x t).pc) else none
  | _ => none

end Sys2Proof.Claims

/-- Trap entry (R36, R37): outside window 7 a synchronous trap saves CST, the trapping address, the cause and XVAL, raises the
privilege level, disables events, moves the window as its vector asks, and goes to XBASE + 32 × vector; nothing else changes. At
DEP = 6 a trap other than a window trap takes the window overflow first. BRK's own effect is this entry. -/
def Sys2Proof.Claims.trapEntry : Prop :=
  ∀ (s : State) (i : Instr) (t : TileNo) (vec detail : Nat) (xval : Word),
    trapOf s i = some (t, vec, detail, xval) → (s.tile t.val).ready = true → (s.tile t.val).cst.frm ≠ 7 →
    ((s.tile t.val).cst.dep ≠ 6 ∨ vec = 1 ∨ vec = 2 →
      exec i s = .next (withTile s t.val (entered (s.tile t.val) vec detail xval))) ∧
    ((s.tile t.val).cst.dep = 6 → vec ≠ 1 → vec ≠ 2 →
      exec i s = .next (withTile s t.val (entered (s.tile t.val) 1 0 (s.tile t.val).pc)))

/-- A trap in window 7 is a double trap (R38): the tile halts at once, its registers, window and program counter stay, every
other tile stays but for the jobs that wait at it, and the double trap is counted. -/
def Sys2Proof.Claims.doubleTrap : Prop :=
  ∀ (s : State) (i : Instr) (t : TileNo) (vec detail : Nat) (xval : Word),
    trapOf s i = some (t, vec, detail, xval) → (s.tile t.val).ready = true → (s.tile t.val).cst.frm = 7 →
    ∃ u, exec i s = .next u ∧
      (∃ l, u.tile t.val = { s.tile t.val with running := false, halted := true, wait := .none, jobs := l }) ∧
      (∀ m, m ≠ t.val → ∃ l, u.tile m = { s.tile m with jobs := l }) ∧
      u.tilDtrap = min 0xFFF (s.tilDtrap + 1) ∧ u.stks = s.stks

namespace Sys2Proof.Claims

/-- Tile, size, RD, RS1 and immediate of a scratchpad access, and whether it loads. -/
def spadAccess (i : Instr) : Option (TileNo × Nat × Reg × Reg × BitVec 16 × Bool) :=
  match i with
  | .ldd t rd a imm => some (t, 8, rd, a, imm, true)
  | .ldw t rd a imm => some (t, 4, rd, a, imm, true)
  | .ldh t rd a imm => some (t, 2, rd, a, imm, true)
  | .ldb t rd a imm => some (t, 1, rd, a, imm, true)
  | .std t rd a imm => some (t, 8, rd, a, imm, false)
  | .stw t rd a imm => some (t, 4, rd, a, imm, false)
  | .sth t rd a imm => some (t, 2, rd, a, imm, false)
  | .stb t rd a imm => some (t, 1, rd, a, imm, false)
  | _ => none

/-- Where an access of `n` bytes at the level of `x` may lie (02 R45): firmware level anywhere in the scratchpad, tenant level
in the program region. -/
def mayReach (x : Tile) (off n : Nat) : Prop :=
  if x.cst.pl = true then off + n ≤ 0xC0000 else 0x8000 ≤ off ∧ off + n ≤ 0xBF000

/-- The 64-bit word `w` of a tile holds a double-bit error. -/
def badAt (x : Tile) (w : Nat) : Prop := x.upsets.filter (fun e => e.1 == w) = [(w, true)]

end Sys2Proof.Claims

/-- A load (R41, R45, R47): aligned, in reach of its level, of a word with no error that no unit is about to write, it puts the
sign-extended little-endian value into RD; nothing else changes. A load of a word with a double-bit error raises vector 0x07 with
the word's offset in XVAL, and the error is counted. -/
def Sys2Proof.Claims.loadResults : Prop :=
  ∀ (s : State) (i : Instr) (t : TileNo) (n : Nat) (rd a : Reg) (imm : BitVec 16),
    spadAccess i = some (t, n, rd, a, imm, true) →
    let x := s.tile t.val
    let off := (x.reg a + imm.signExtend 64).toNat
    x.ready = true → mayReach x off n → off % n = 0 →
    (calm x = true → (∀ e ∈ x.upsets, e.1 ≠ off / 8) → x.races off = false → s.tilCorr ≤ 0xFFFFFFFF → s.tilUnc ≤ 0xFFFF →
      exec i s = .next (ran s t.val
        (x.setReg rd (BitVec.ofInt 64 (sext (8 * n) (leNat (x.scratch.readN off n))))) (x.pc + 4))) ∧
    (badAt x (off / 8) → x.cst.frm ≠ 7 → x.cst.dep ≠ 6 →
      ∃ u, exec i s = .next u ∧ (u.tile t.val).pc = x.xbase + 0xE0 ∧ (u.tile t.val).xpc = x.pc ∧
        (u.tile t.val).xcause = 7 ∧ (u.tile t.val).xval = BitVec.ofNat 64 (off / 8 * 8) ∧
        (u.tile t.val).common = x.common ∧ (u.tile t.val).groups = x.groups ∧
        (u.tile t.val).scratch = x.scratch ∧ u.tilUnc = satAdd s.tilUnc 1 0xFFFF)

/-- A store (R41, R45): aligned and in reach of its level, it puts the low bytes of RD at its address, byte 0 first, and leaves
every other byte of the scratchpad, every register and every other unit alone; the running unit instructions keep the old bytes they may
still read (R49). -/
def Sys2Proof.Claims.storeResults : Prop :=
  ∀ (s : State) (i : Instr) (t : TileNo) (n : Nat) (rd a : Reg) (imm : BitVec 16),
    spadAccess i = some (t, n, rd, a, imm, false) →
    let x := s.tile t.val
    let off := (x.reg a + imm.signExtend 64).toNat
    x.ready = true → calm x = true → mayReach x off n → off % n = 0 →
    ∃ u, exec i s = .next u ∧
      (u.tile t.val).scratch.readN off n = leBytes n (x.reg rd).toNat ∧
      (∀ b, b < off ∨ off + n ≤ b → (u.tile t.val).scratch.read b = x.scratch.read b) ∧
      (x.scratch.wf = true → (u.tile t.val).scratch.wf = true) ∧
      (∃ m ups tq vq, u.tile t.val =
        { x with scratch := m, upsets := ups, tq := tq, vq := vq, pc := x.pc + 4, retired := x.retired + 1, lastFc := s.now } ∧
        tq.map (fun e => { e with late := [] }) = x.tq.map (fun e => { e with late := [] }) ∧
        vq.map (fun e => { e with late := [] }) = x.vq.map (fun e => { e with late := [] })) ∧
      (∃ ts ps c d, u = { s with tiles := ts, parts := ps, tilCorr := c, tilUnc := d }) ∧
      (∀ k, k ≠ t.val → u.tile k = s.tile k) ∧
      (∀ p, ∃ r, u.part p = { s.part p with retiredIns := r })

/-- Loads and stores of the scratchpad. -/
def Obligations.LoadsAndStores : Prop := Claims.loadResults ∧ Claims.storeResults

/-- An access out of reach takes vector 0x06, and one that is in reach and not aligned vector 0x05; XVAL holds the offset (R36,
R45, R64). Nothing else changes. -/
def Sys2Proof.Claims.accessTraps : Prop :=
  ∀ (s : State) (i : Instr) (t : TileNo) (n : Nat) (rd a : Reg) (imm : BitVec 16) (load : Bool),
    spadAccess i = some (t, n, rd, a, imm, load) →
    let x := s.tile t.val
    let off := x.reg a + imm.signExtend 64
    x.ready = true → x.cst.frm ≠ 7 → x.cst.dep ≠ 6 →
    (¬ mayReach x off.toNat n → exec i s = .next (withTile s t.val (entered x 6 0 off))) ∧
    (mayReach x off.toNat n → off.toNat % n ≠ 0 → exec i s = .next (withTile s t.val (entered x 5 0 off)))

/-- Traps: the entry, the double trap, and the traps of an access. -/
def Obligations.TrapsTaken : Prop := Claims.trapEntry ∧ Claims.doubleTrap ∧ Claims.accessTraps

namespace Sys2Proof.Claims

/-- What CRR reads at an index (02 R34). -/
def controlWord (s : State) (n : Nat) (k : BitVec 4) : Word :=
  let x := s.tile n
  match k.toNat with
  | 0 => (0 : BitVec 56) ++ BitVec.ofBool x.cst.ei ++ BitVec.ofBool x.cst.pl ++ x.cst.dep ++ x.cst.frm
  | 1 => (0 : BitVec 56) ++ BitVec.ofBool x.xcst.ei ++ BitVec.ofBool x.xcst.pl ++ x.xcst.dep ++ x.xcst.frm
  | 2 => x.xpc
  | 3 => x.xcause
  | 4 => x.xval
  | 5 => x.xbase
  | 6 => BitVec.ofNat 64 x.spp
  | 7 => x.wto
  | 8 => BitVec.ofNat 64 ((s.ltidOf n).getD 0)
  | 9 => x.tenant.setWidth 64
  | 10 => x.job.setWidth 64
  | 11 => x.ring.setWidth 64
  | 12 => BitVec.ofNat 64 ((s.part (n / 72)).tcAcc / 640 - x.cycle0)
  | 13 => s.lay.time
  | 14 => x.astat
  | _ => x.eventBits.setWidth 64

/-- The tile after CRW of `v` at an index (02 R34): reserved bits are not held, the low 10 bits of XBASE read zero, and a
read-only index holds what it held. -/
def controlWritten (x : Tile) (k : BitVec 4) (v : Word) : Tile :=
  match k.toNat with
  | 0 => { x with cst := ⟨v.extractLsb' 0 3, v.extractLsb' 3 3, v.getLsbD 6, v.getLsbD 7⟩ }
  | 1 => { x with xcst := ⟨v.extractLsb' 0 3, v.extractLsb' 3 3, v.getLsbD 6, v.getLsbD 7⟩ }
  | 2 => { x with xpc := v }
  | 3 => { x with xcause := v &&& 0xFFFF }
  | 4 => { x with xval := v }
  | 5 => { x with xbase := v &&& 0xFFFFFFFFFFFFFC00 }
  | 6 => { x with spp := v.toNat }
  | 7 => { x with wto := v }
  | 14 => { x with astat := v &&& 0x0000FFFF03FF00FF }
  | _ => x

end Sys2Proof.Claims

/-- CRR and CRW (R34): firmware reaches every index, a tenant reads 7 to 15 and writes 7 and 14; CRR puts the register's word into
RD, CRW puts RS1 into the register; nothing else changes. LAYR reads Lay time (R60). -/
def Sys2Proof.Claims.controlRegisters : Prop :=
  ∀ (s : State) (t : TileNo) (r : Reg) (k : BitVec 4),
    let x := s.tile t.val
    x.ready = true → calm x = true →
    (x.cst.pl = true ∨ 7 ≤ k.toNat →
      exec (.crr t r k) s = .next (ran s t.val (x.setReg r (controlWord s t.val k)) (x.pc + 4))) ∧
    (x.cst.pl = true ∨ k = 7 ∨ k = 14 → calm (controlWritten x k (x.reg r)) = true →
      exec (.crw t r k) s = .next (ran s t.val (controlWritten x k (x.reg r)) (x.pc + 4))) ∧
    exec (.layr t r) s = .next (ran s t.val (x.setReg r s.lay.time) (x.pc + 4))

/-- Control transfers and control registers. -/
def Obligations.CoreControl : Prop := Claims.controlTransfers ∧ Claims.controlRegisters

/-- SPILL and FILL (R33), in window 7 at firmware level: SPILL puts the 64 bytes of group (c + 2) mod 7 at SPP, register i at byte 8i,
and counts one window less; FILL takes the 64 bytes below SPP into group (c + 6) mod 7 and counts one window more. -/
def Sys2Proof.Claims.spillAndFill : Prop :=
  ∀ (s : State) (t : TileNo),
    let x := s.tile t.val
    x.ready = true → calm x = true → x.cst.pl = true → x.cst.frm = 7 → x.upsets = [] →
    0xBF000 ≤ x.spp → x.spp ≤ 0xC0000 → s.tilCorr ≤ 0xFFFFFFFF → s.tilUnc ≤ 0xFFFF →
    (x.spp + 64 ≤ 0xC0000 →
      exec (.spill t) s = .next (ran s t.val
        { x with spp := x.spp + 64, xcst := { x.xcst with dep := x.xcst.dep - 1 },
                 scratch := x.scratch.writeN x.spp ((List.range 8).flatMap (fun i =>
                   leBytes 8 (x.groups.toList.getD (8 * ((x.xcst.frm.toNat + 2) % 7) + i) 0).toNat)) } (x.pc + 4))) ∧
    (0xBF040 ≤ x.spp →
      ∃ g, exec (.fill t) s = .next (ran s t.val
        { x with spp := x.spp - 64, xcst := { x.xcst with dep := x.xcst.dep + 1 }, groups := g } (x.pc + 4)) ∧
        (∀ i, i < 8 → g.toList.getD (8 * ((x.xcst.frm.toNat + 6) % 7) + i) 0 =
          BitVec.ofNat 64 (leNat (x.scratch.readN (x.spp - 64 + 8 * i) 8))) ∧
        (∀ j, j / 8 ≠ (x.xcst.frm.toNat + 6) % 7 → g.toList.getD j 0 = x.groups.toList.getD j 0))

namespace Sys2Proof.Claims

/-- The tile after a firmware call that returned `v` in q0 (02 R37, R42): the trap's four registers are set and the handler has
returned past the call. -/
def fwReturned (x : Tile) (num : Nat) (v : Word) : Tile :=
  { x.setReg 24 v with
    xcst := x.cst, xpc := x.pc + 4, xcause := BitVec.ofNat 64 (14 + 256 * num), xval := x.pc }

/-- The state in which a phase release stands armed (10 R308, R310): one more entry on the partition's calendar, with the next
arming number, for the job of the tile. -/
def phaseArmed (s : State) (n : Nat) : State :=
  let x := s.tile n
  { s with
    lay := { s.lay with armNo := s.lay.armNo + 1 }
    parts := SMap.set s.parts (n / 72) { s.part (n / 72) with
      cal := (s.part (n / 72)).cal ++
        [(x.reg 24, s.lay.armNo, (x.reg 24).ule s.lay.time, PCal.phase x.key (x.reg 25).toNat (x.reg 26))] } }

/-- A legal place for a phase release's word (10 R310): 8-byte aligned in the program region. -/
def phasePlace (off : Nat) : Prop := off % 8 = 0 ∧ 0x8000 ≤ off ∧ off + 8 ≤ 0xBF000

end Sys2Proof.Claims

/-- Firmware calls (R42, 10 R310): a TRAPI with any number but 0x10 returns all ones in q0 and sets only the trap's registers.
Number 0x10 arms a phase release and returns 0; with 12 armed it counts a full calendar and returns 1; at an illegal place it
returns 2. -/
def Sys2Proof.Claims.firmwareCalls : Prop :=
  ∀ (s : State) (t : TileNo) (num : Byte),
    let n := t.val
    let x := s.tile n
    x.ready = true → calm x = true → x.cst.frm ≠ 7 → x.cst.dep ≠ 6 →
    (num ≠ 0x10 → exec (.trapi t num) s =
      .next (ran s n (fwReturned x num.toNat 0xFFFFFFFFFFFFFFFF) (x.pc + 4))) ∧
    (∀ i, i = .phaseReleaseArm t ∨ i = .trapi t 0x10 →
      (¬ phasePlace (x.reg 25).toNat → exec i s = .next (ran s n (fwReturned x 0x10 2) (x.pc + 4))) ∧
      (phasePlace (x.reg 25).toNat → 12 ≤ (s.part (n / 72)).phaseCount →
        exec i s = .next (ran { s with lay := { s.lay with fullCnt := satAdd s.lay.fullCnt 1 0xFFFF } } n
          (fwReturned x 0x10 1) (x.pc + 4))) ∧
      (phasePlace (x.reg 25).toNat → (s.part (n / 72)).phaseCount < 12 →
        exec i s = .next (ran (phaseArmed s n) n (fwReturned x 0x10 0) (x.pc + 4))))

/-- Spills, fills and firmware calls. -/
def Obligations.SpillsAndCalls : Prop := Claims.spillAndFill ∧ Claims.firmwareCalls

/-- DONE (R61): with empty queues and nothing outstanding it ends the tile's part of the job: the core stops, its handles are
discarded, and the job counts the tile; the last tile ends the job. Otherwise the core waits at DONE. HALT at firmware level stops
the core at once; the job is marked faulted with the tile's id, it can launch on no tile any more, and the resets of every tile of its
partition set are owed (R38). -/
def Sys2Proof.Claims.doneAndHalt : Prop :=
  ∀ (s : State) (t : TileNo) (j : Job),
    let n := t.val
    let x := s.tile n
    x.ready = true → s.job? x.key = some j →
    let j' := { j with finished := j.finished ++ [n] }
    (x.doneReady = true → calm x = true → x.jobs = [] → ∃ u, exec (.done t) s = .next u ∧
      u.tile n = { x with pc := x.pc + 4, retired := x.retired + 1, lastFc := s.now, running := false,
                          handles := .replicate 8 .free } ∧
      (∀ m, m ≠ n → u.tile m = s.tile m) ∧ u.stks = s.stks ∧
      (j'.allDone = true → j.fault = none → j.aborted = none → u.job? x.key = none) ∧
      (j'.allDone = false ∨ j.fault ≠ none ∨ j.aborted ≠ none → u.job? x.key = some j')) ∧
    (x.doneReady = false → calm x = true → exec (.done t) s = .next (withTile s n { x with wait := .done })) ∧
    (x.cst.pl = true → j.fault = none → ∃ u, exec (.halt t) s = .next u ∧
      (∃ l, u.tile n = { x with running := false, halted := true, jobs := l }) ∧
      (∀ m, m ≠ n → ∃ l, u.tile m = { s.tile m with jobs := l }) ∧
      (∀ m ∈ (psetList j.pset).flatMap s.tilesOf, x.key ∉ (u.tile m).jobs) ∧
      (∃ l, u.job? x.key = some { j with fault := some ((s.ltidOf n).getD 0xFFFF), resets := l } ∧ n ∈ l ∧
        ∀ m ∈ (psetList j.pset).flatMap s.tilesOf, m ∈ l) ∧
      (s.railsOn = true → u.rst.nextSeq = s.rst.nextSeq + 1))

namespace Sys2Proof.Claims

/-- A global read or atomic of a control core (02 R53, R54): tile, RD, address, packet type, kind of entry and payload. -/
def globalRead (s : State) (i : Instr) : Option (TileNo × Reg × Word × BitVec 4 × BitVec 4 × List Byte) :=
  let r (t : TileNo) (x : Reg) : Word := (s.tile t.val).reg x
  let atom (t : TileNo) (op : Nat) (a b c d : Reg) : Option (TileNo × Reg × Word × BitVec 4 × BitVec 4 × List Byte) :=
    some (t, a, r t c, 3, 1, leBytes 8 (r t b).toNat ++ leBytes 8 (r t d).toNat ++ leBytes 8 op)
  match i with
  | .gld t rd rs1 => some (t, rd, r t rs1, 0, 0, [])
  | .atomSwap t a b c d => atom t 0 a b c d
  | .atomAdd t a b c d => atom t 1 a b c d
  | .atomCas t a b c d => atom t 2 a b c d
  | .atomMax t a b c d => atom t 3 a b c d
  | .atomMin t a b c d => atom t 4 a b c d
  | _ => none

/-- R24 to R26 and R64 find no fault with an 8-byte access: no reserved bit set, the offset valid in its region, aligned. -/
def goodAddress (a : Word) : Prop :=
  a.extractLsb' 62 2 = 0 ∧ a.getLsbD 59 = false ∧ regionOk a = true ∧ a.toNat % 8 = 0

/-- Nothing holds an access to `a` at issue (05 R151, 07 R203), and its target is not Off (R62). -/
def mayIssue (s : State) (x : Tile) (a : Word) : Prop :=
  s.held a = false ∧ (gaRlx a = true ∨ x.retrying (gaChip a) = false) ∧ s.targetOff a = false

/-- The request a tile sends (07 R193): its own chip, its logical id and the reply space as RID, and the tag of its level. -/
def request (s : State) (n tag : Nat) (typ : BitVec 4) (a : Word) (plen : Nat) (pl : List Byte) : Packet :=
  { addr := a, ver := 1, typ := typ, phase := 0, nonmin := false, ext := 0, plen := BitVec.ofNat 13 plen,
    tenant := if (s.tile n).cst.pl then 0 else (s.tile n).tenant, srcChip := s.ownChip,
    rid := BitVec.ofNat 16 ((s.ltidOf n).getD 0 * 64 + tag), exts := [], payload := pl, tail := .good }

end Sys2Proof.Claims

/-- GLD, ATOM and GST (R53, R54): with a good address and a free reply space, a read or an atomic leaves with the lowest free space
reserved for it, and the core waits for the reply. A posted store leaves without a reply space; an acknowledged one takes the lowest
free space; the core goes on. The packet starts over the mesh from the tile's port. Nothing else changes. -/
def Sys2Proof.Claims.globalAccessesIssue : Prop :=
  (∀ (s : State) (i : Instr) (t : TileNo) (rd : Reg) (a : Word) (typ kind : BitVec 4) (pl : List Byte) (tag : Nat),
    globalRead s i = some (t, rd, a, typ, kind, pl) →
    let n := t.val
    let x := s.tile n
    x.ready = true → goodAddress a → gaPst a = false → (typ = 3 → gaRegion a ≤ 1) → mayIssue s x a →
    freeTag x.reads = some tag →
    let p := request s n tag typ a (if typ = 3 then 24 else 8) pl
    exec i s = .next ((withTile s n { x with
        reads := SMap.set x.reads tag ⟨a, (s.psw (n / 72)).gen, false, x.pc, kind, false, p, 0, none⟩, wait := .reply rd tag }).sendPkt
      (.tile n) p)) ∧
  ∀ (s : State) (t : TileNo) (rs1 rs2 : Reg) (tag : Nat),
    let n := t.val
    let x := s.tile n
    let a := x.reg rs1
    let b := leBytes 8 (x.reg rs2).toNat
    x.ready = true → calm x = true → goodAddress a → mayIssue s x a →
    (gaPst a = true → exec (.gst t rs1 rs2) s =
      .next (ran (s.sendPkt (.tile n) (request s n 0 2 a 8 b)) n x (x.pc + 4))) ∧
    (gaPst a = false → freeTag x.writes = some tag → exec (.gst t rs1 rs2) s =
      .next (ran (s.sendPkt (.tile n) (request s n tag 1 a 8 b)) n
        { x with writes := SMap.set x.writes tag ⟨a, (s.psw (n / 72)).gen, false, x.pc, 4, false, request s n tag 1 a 8 b, 0, none⟩ }
        (x.pc + 4)))

namespace Sys2Proof.Claims

/-- A descriptor that R56, R57 and R26 accept for a transfer that is no stream. -/
def goodTransfer (s : State) (n : Nat) (x : Tile) (d : DmaDesc) : Prop :=
  1 ≤ d.len ∧ d.len ≤ 1048576 ∧ 1 ≤ d.rows ∧ d.flags ≤ 3 ∧ d.flags % 2 = 0 ∧
  rowsFault (clearPst d.src) d.sstride d.len d.rows = false ∧ rowsFault (clearPst d.dst) d.dstride d.len d.rows = false ∧
  (x.cst.pl = true ∨ (s.rowsLocal n (clearPst d.src) d.sstride d.len d.rows = false ∧
    s.rowsLocal n (clearPst d.dst) d.dstride d.len d.rows = false))

end Sys2Proof.Claims

/-- DMA.GO (R55 to R57): the lowest free handle goes to A and the core goes on. A good descriptor whose rows stay in the own scratchpad
leaves the handle running; one of a single piece from elsewhere also asks for the piece at once, with the lowest free reply space. An
offset that is misaligned or outside the program region completes the handle with status 0x01, the descriptor not read, and sets
EVENT[2]. With no handle free the core stalls while one is running, and else takes vector 0x0A with detail 0x01. -/
def Sys2Proof.Claims.dmaGoStarts : Prop :=
  ∀ (s : State) (t : TileNo) (a b : Reg) (h tag : Nat),
    let n := t.val
    let x := s.tile n
    let off := (x.reg b).toNat
    let d := dmaDescOf (x.scratch.readN off 32)
    let src := clearPst d.src
    let dst := clearPst d.dst
    x.ready = true → calm x = true →
    (x.freeHandle = some h →
      (off % 32 = 0 → 0x8000 ≤ off → off + 32 ≤ 0xBF000 → x.upsets = [] → s.tilCorr ≤ 0xFFFFFFFF → s.tilUnc ≤ 0xFFFF →
        goodTransfer s n x d →
        let X : Xfer := d.xfer src dst (bitAt d.flags 1) false (!x.cst.pl)
        (s.ownSpad n src = true → s.ownSpad n dst = true →
          exec (.dmaGo t a b) s = .next (ran s n { x.setReg a (BitVec.ofNat 64 h) with
            handles := x.handles.setIfInBounds h (.running X) } (x.pc + 4))) ∧
        (d.rows = 1 → d.len ≤ 4096 → s.ownSpad n src = false → s.pushes src dst = false → mayIssue s x src →
          freeTag x.reads = some tag →
          let p := request s n tag 0 src d.len []
          exec (.dmaGo t a b) s = .next (ran (s.sendPkt (.tile n) p) n { x.setReg a (BitVec.ofNat 64 h) with
            handles := x.handles.setIfInBounds h (.running { X with asked := 1 })
            reads := SMap.set x.reads tag ⟨src, (s.psw (n / 72)).gen, false, x.pc, 2, false, p, 0, some (h, 0)⟩ } (x.pc + 4)))) ∧
      (off % 32 ≠ 0 ∨ off < 0x8000 ∨ 0xBF000 < off + 32 → x.needsSpace (x.reg b) = false → x.cst.ei = false →
        exec (.dmaGo t a b) s = .next (ran s n { x.setReg a (BitVec.ofNat 64 h) with
          handles := x.handles.setIfInBounds h (.completed 1), event := x.event ||| 4 } (x.pc + 4)))) ∧
    (x.freeHandle = none →
      (x.handles.toList.any Handle.isRunning = true → exec (.dmaGo t a b) s = .next s) ∧
      (x.handles.toList.any Handle.isRunning = false → x.cst.frm ≠ 7 → x.cst.dep ≠ 6 →
        exec (.dmaGo t a b) s = .next (withTile s n (entered x 0x0A 1 x.pc))))

/-- DMA.WAIT and DMA.TEST (R55): of a completed handle they give its status and free it; of a free one, 0x06; of a running one
DMA.TEST gives 0xFF and DMA.WAIT waits. A number above 7 takes vector 0x0A with detail 0x02. -/
def Sys2Proof.Claims.dmaHandles : Prop :=
  ∀ (s : State) (t : TileNo) (a b : Reg) (st : Byte),
    let n := t.val
    let x := s.tile n
    let h := (x.reg b).toNat
    x.ready = true → calm x = true →
    (∀ i, i = .dmaWait t a b ∨ i = .dmaTest t a b →
      (h ≤ 7 → x.handles.toList.getD h .free = .completed st →
        exec i s = .next (ran s n { x.setReg a (st.setWidth 64) with handles := x.handles.setIfInBounds h .free } (x.pc + 4))) ∧
      (h ≤ 7 → x.handles.toList.getD h .free = .free → exec i s = .next (ran s n (x.setReg a 6) (x.pc + 4))) ∧
      (7 < h → x.cst.frm ≠ 7 → x.cst.dep ≠ 6 → exec i s = .next (withTile s n (entered x 0x0A 2 x.pc)))) ∧
    (h ≤ 7 → (x.handles.toList.getD h .free).isRunning = true →
      exec (.dmaTest t a b) s = .next (ran s n (x.setReg a 0xFF) (x.pc + 4)) ∧
      exec (.dmaWait t a b) s = .next (withTile s n { x with wait := .dmaWait a h }))

/-- The stalling instructions (R51, R53, R58, R59, R60): each continues at once where its condition holds, and else leaves the
core waiting with what it waits for; nothing else changes. TWAIT and VWAIT that end let the core see the unit's updates of ASTAT. -/
def Sys2Proof.Claims.coreWaits : Prop :=
  ∀ (s : State) (t : TileNo) (a b c : Reg),
    let n := t.val
    let x := s.tile n
    x.ready = true → calm x = true →
    exec (.fence t) s = .next (if x.quiet = true then ran s n x (x.pc + 4) else withTile s n { x with wait := .fence }) ∧
    exec (.bar t) s = .next (withTile s n { x with bars := x.bars + 1, wait := .bar }) ∧
    exec (.twait t a) s = .next (if x.tq.length ≤ (x.reg a).toNat then ran s n x.seeT (x.pc + 4)
      else withTile s n { x with wait := .twait (x.reg a) }) ∧
    exec (.vwait t a) s = .next (if x.vq.length ≤ (x.reg a).toNat then ran s n x.seeV (x.pc + 4)
      else withTile s n { x with wait := .vwait (x.reg a) }) ∧
    exec (.layw t a b) s = .next (if (x.reg b).toNat ≤ s.lay.time.toNat then ran s n (x.setReg a s.lay.time) (x.pc + 4)
      else withTile s n { x with wait := .layw (x.reg b) a }) ∧
    (mayReach x (x.reg b).toNat 8 → (x.reg b).toNat % 8 = 0 → x.upsets = [] → s.tilCorr ≤ 0xFFFFFFFF → s.tilUnc ≤ 0xFFFF →
      let w : Word := BitVec.ofNat 64 (leNat (x.scratch.readN (x.reg b).toNat 8))
      let due : Option Nat := if x.wto = 0 then none else some (s.tcOf n + x.wto.toNat)
      exec (.waitvEq t a b c) s = .next (if w = x.reg c then ran s n (x.setReg a 0) (x.pc + 4)
        else withTile s n { x with wait := .waitv false (x.reg b).toNat (x.reg c) a due false }) ∧
      exec (.waitvGe t a b c) s = .next (if (x.reg c).toInt ≤ w.toInt then ran s n (x.setReg a 0) (x.pc + 4)
        else withTile s n { x with wait := .waitv true (x.reg b).toNat (x.reg c) a due false }))

namespace Sys2Proof.Claims

/-- The core of a tile can go on from a wait. -/
def awake (x : Tile) : Bool := x.running && !x.halted && x.drain.isNone

end Sys2Proof.Claims

/-- The ends of waits (R58 to R60): a WAITV whose condition a write has made true gives 0, one whose WTO tc have passed gives 1, a LAYW
whose Lay time has come gives the Lay time at wake; each continues at the next word. -/
def Sys2Proof.Claims.waitsEnd : Prop :=
  ∀ (s : State) (t : TileNo) (rd : Reg),
    let n := t.val
    let x := s.tile n
    awake x = true →
    (∀ ge off v due met, x.wait = .waitv ge off v rd due met → calm (x.setReg rd 0) = true →
      (met = true ∨ (let w : Word := BitVec.ofNat 64 (leNat (x.scratch.readN off 8))
        if ge = true then v.toInt ≤ w.toInt else w = v)) →
      exec (.waitvWake t) s = .next (ran s n (x.setReg rd 0) (x.pc + 4))) ∧
    (∀ ge off v d, x.wait = .waitv ge off v rd (some d) false → calm (x.setReg rd 1) = true → d ≤ s.tcOf n →
      exec (.waitvTimeout t) s = .next (ran s n (x.setReg rd 1) (x.pc + 4))) ∧
    (∀ v, x.wait = .layw v rd → calm x = true → v.toNat ≤ s.lay.time.toNat →
      exec (.laywWake t) s = .next (ran s n (x.setReg rd s.lay.time) (x.pc + 4)))

/-- The stalling instructions, and the ends of their waits. -/
def Obligations.WaitsBeginAndEnd : Prop := Claims.coreWaits ∧ Claims.waitsEnd

/-- BAR_RELEASE (R59): once every tile of the running job has executed BAR once more than the barriers released, the barrier is
counted and every one of them goes on. -/
def Sys2Proof.Claims.barrierReleases : Prop :=
  ∀ (s : State) (k : DescKey) (j : Job),
    s.job? k = some j → s.barMet k j = true → j.tiles.Nodup → (∀ n ∈ j.tiles, calm (s.tile n) = true) →
    ∃ u, exec (.barRelease k) s = .next u ∧ u.job? k = some { j with barriers := j.barriers + 1 } ∧
      (∀ n ∈ j.tiles, u.tile n = { s.tile n with pc := (s.tile n).pc + 4, retired := (s.tile n).retired + 1,
                                                  wait := .none, lastFc := s.now }) ∧
      (∀ n, n ∉ j.tiles → u.tile n = s.tile n)

/-- The end of a faulted job (R38): once the resets of all its tiles are done and no other end is owed, the job is gone and its
descriptor has completed. -/
def Sys2Proof.Claims.faultedJobEnds : Prop :=
  ∀ (s : State) (k : DescKey) (j : Job) (l : Nat),
    s.job? k = some j → j.fault = some l → j.resets = [] → j.aborted = none →
    ∃ u, exec (.tileFaultJobEnd k) s = .next u ∧ u.job? k = none ∧ u.desc? k = none ∧ u.tiles = s.tiles ∧ u.stks = s.stks

/-- The end of a tile's part of a job, of a barrier and of a faulted job. -/
def Obligations.JobsEnd : Prop := Claims.doneAndHalt ∧ Claims.barrierReleases ∧ Claims.faultedJobEnds

/-- The scrubber (R47, R48): while it runs in a partition that is Idle, Active or Fenced, it visits one line of each bank, corrects the
single-bit errors it meets there and moves on by a line, wrapping at the end; the scratchpad's bytes do not change. -/
def Sys2Proof.Claims.scrubVisits : Prop :=
  ∀ (s : State) (t : TileNo),
    let n := t.val
    let x := s.tile n
    let st := (s.psw (n / 72)).state
    s.railsOn = true → bitAt (s.reg 0x340000 0x12) 4 = true → (st = .idle ∨ st = .active ∨ st = .fenced) →
    ∃ u, exec (.scratchpadScrub t []) s = .next u ∧
      (u.tile n).scratch = x.scratch ∧ (u.tile n).groups = x.groups ∧ (u.tile n).pc = x.pc ∧
      (u.tile n).scrubPos = (if x.scrubPos + 1024 < 0xC0000 then x.scrubPos + 1024 else 0) ∧
      (∀ e ∈ (u.tile n).upsets, e ∈ x.upsets) ∧
      (∀ e ∈ x.upsets, e.2 = false → x.scrubPos % 64 = 0 → x.scrubPos / 8 ≤ e.1 → e.1 < x.scrubPos / 8 + 128 →
        e ∉ (u.tile n).upsets) ∧
      (∀ m, m ≠ n → u.tile m = s.tile m)

/-- DMA_COMPLETE (R56, R57): a transfer of one piece within the own scratchpad moves its bytes, changes no other byte and no register,
and its handle completes with OK. A transfer to elsewhere that has failed, with nothing outstanding, completes with the status of
its failure and sets EVENT[2]. -/
def Sys2Proof.Claims.dmaCompletes : Prop :=
  ∀ (s : State) (part : PartNo) (i : Fin 72) (h : Fin 8) (X : Xfer),
    let n := 72 * part.val + i.val
    let x := s.tile n
    let src := gaByte X.src
    let dst := gaByte X.dst
    x.handles.toList.getD h.val .free = .running X →
    awake x = true → x.wait = .none → calm x = true → x.dmaOut h.val = 0 → X.pe = false →
    (X.failed = none → X.rows = 1 → 1 ≤ X.len → X.len ≤ 4096 → X.asked = 0 → X.written = 0 → X.got = [] →
      s.ownSpad n X.src = true → s.ownSpad n X.dst = true → (src + X.len ≤ dst ∨ dst + X.len ≤ src) →
      x.upsets = [] → s.tilCorr ≤ 0xFFFFFFFF → s.tilUnc ≤ 0xFFFF →
      ∃ u, exec (.dmaComplete part i h) s = .next u ∧
        (u.tile n).handles = x.handles.setIfInBounds h.val (.completed 0) ∧
        (u.tile n).scratch = x.scratch.writeN dst (x.scratch.readN src X.len) ∧
        (∀ b, b < dst ∨ dst + X.len ≤ b → (u.tile n).scratch.read b = x.scratch.read b) ∧
        (u.tile n).groups = x.groups ∧ (u.tile n).common = x.common ∧ (u.tile n).pc = x.pc ∧
        (∀ m, m ≠ n → u.tile m = s.tile m) ∧ u.out = s.out) ∧
    (∀ st : Byte, X.failed = some st → st ≠ 0 → x.cst.ei = false →
      (∀ i, i < X.rows → s.ownSpad n (rowAddr X.dst X.dstride i) = false) →
      ∃ u, exec (.dmaComplete part i h) s = .next u ∧
        (u.tile n).handles = x.handles.setIfInBounds h.val (.completed st) ∧ (u.tile n).event = x.event ||| 4 ∧
        (u.tile n).scratch = x.scratch ∧ (∀ m, m ≠ n → u.tile m = s.tile m) ∧ u.out = s.out)

/-- DMA: the start, the handles and the completion. -/
def Obligations.DmaTransfers : Prop := Claims.dmaGoStarts ∧ Claims.dmaHandles ∧ Claims.dmaCompletes

/-- RETRY_RESEND (07 R203): a request that was answered with Retry, of the present generation and not of a stream, leaves again as it was
once its time has come. -/
def Sys2Proof.Claims.retriedRequestsResend : Prop :=
  ∀ (s : State) (t : TileNo) (tag : BitVec 6) (e : Outst),
    let n := t.val
    let x := s.tile n
    s.railsOn = true → e.retry = true → e.old = false → e.gen = (s.psw (n / 72)).gen → x.drain = none → e.kind ≠ 3 → e.due ≤ s.now →
    (SMap.find? x.writes tag.toNat = some e → exec (.retryResend (.tile t) tag true) s =
      .next ((withTile s n { x with writes := SMap.set x.writes tag.toNat { e with retry := false } }).sendPkt (.tile n) e.pkt)) ∧
    (SMap.find? x.reads tag.toNat = some e → exec (.retryResend (.tile t) tag false) s =
      .next ((withTile s n { x with reads := SMap.set x.reads tag.toNat { e with retry := false } }).sendPkt (.tile n) e.pkt))

/-- Global accesses leave, and leave again after a Retry. -/
def Obligations.GlobalAccesses : Prop := Claims.globalAccessesIssue ∧ Claims.retriedRequestsResend

namespace Sys2Proof.Claims

/-- An inbound request has come to the tile's port and passes the checks of R62 and R63: its partition is not out of service, the tile is
not retired, its tile id is this tile's, its tag is the tile's or 0, and its bytes lie where the tag may reach. -/
def portAccepts (s : State) (n : Nat) (p : Packet) : Prop :=
  gaRegion p.addr = 1 ∧ s.barred (n / 72) = false ∧ (s.psw (n / 72)).state ≠ .off ∧
  (s.part (n / 72)).retired.contains (n % 72) = false ∧ (s.arrive (fun d => d == .tile n || d == .part (n / 72)) p).isSome = true ∧
  s.ltidOf n = some (gaLtid p.addr) ∧ (p.tenant = 0 ∨ p.tenant = (s.tile n).tenant) ∧
  (if p.tenant = 0 then gaByte p.addr + Packet.len p ≤ 0xC0000
   else 0x8000 ≤ gaByte p.addr ∧ gaByte p.addr + Packet.len p ≤ 0xBF000)

/-- What an atomic makes of a word (R54): operation 0 swaps, 1 adds, 2 writes where the word equals the compare value, 3 and 4 keep
the larger or the smaller as signed numbers. -/
def atomic (op : Nat) (b d old : Word) : Word :=
  match op with
  | 0 => b
  | 1 => old + b
  | 2 => if old = d then b else old
  | 3 => if old.toInt < b.toInt then b else old
  | _ => if b.toInt < old.toInt then b else old

end Sys2Proof.Claims

/-- TILE_PORT_INBOUND (R54, R63): an accepted read answers with the bytes and changes no tile; an accepted write puts its payload at its
offset, leaves every other byte and register alone, and is acknowledged where its class expects it; an accepted atomic answers the old
word and writes the new one. A request with a wrong tag is refused, and no tile changes. -/
def Sys2Proof.Claims.tilePortServes : Prop :=
  ∀ (s : State) (t : TileNo) (p : Packet),
    let n := t.val
    let x := s.tile n
    let o := gaByte p.addr
    s.railsOn = true → x.upsets = [] → x.tq = [] → (∀ e ∈ s.staging.slots, n ∉ e.2.tiles) → s.tilCorr ≤ 0xFFFFFFFF → s.tilUnc ≤ 0xFFFF →
    (portAccepts s n p → p.typ = 0 → ∃ u, exec (.tilePortInbound t p) s = .next u ∧ (∀ m, u.tile m = s.tile m) ∧
      u.out = s.out ++ [.packet (p.replyTo 0 (x.scratch.readN o p.plen.toNat))]) ∧
    (portAccepts s n p → p.typ = 1 ∨ p.typ = 2 → ∃ u, exec (.tilePortInbound t p) s = .next u ∧
      (u.tile n).scratch = x.scratch.writeN o p.payload ∧
      (∀ b, b < o ∨ o + p.payload.length ≤ b → (u.tile n).scratch.read b = x.scratch.read b) ∧
      (u.tile n).groups = x.groups ∧ (u.tile n).common = x.common ∧ (u.tile n).pc = x.pc ∧
      (∀ m, m ≠ n → u.tile m = s.tile m) ∧
      u.out = s.out ++ (if p.typ = 1 then [.packet (p.replyTo 0 [])] else [])) ∧
    (∀ op, op ≤ 4 → portAccepts s n p → p.typ = 3 → fieldLE p.payload 16 8 = op →
      let old : Word := BitVec.ofNat 64 (leNat (x.scratch.readN o 8))
      let v := atomic op (BitVec.ofNat 64 (fieldLE p.payload 0 8)) (BitVec.ofNat 64 (fieldLE p.payload 8 8)) old
      ∃ u, exec (.tilePortInbound t p) s = .next u ∧ (u.tile n).scratch = x.scratch.writeN o (leBytes 8 v.toNat) ∧
        u.out = s.out ++ [.packet (p.replyTo 0 (x.scratch.readN o 8))]) ∧
    (portAccepts s n { p with tenant := 0 } → (s.arrive (fun d => d == .tile n || d == .part (n / 72)) p).isSome = true → p.tenant ≠ 0 → p.tenant ≠ x.tenant → p.typ = 0 ∨ p.typ = 1 ∨ p.typ = 3 →
      ∃ u, exec (.tilePortInbound t p) s = .next u ∧ (∀ m, u.tile m = s.tile m) ∧
        u.out = s.out ++ [.packet (p.replyTo 3 [])] ∧ u.rst.nextSeq = s.rst.nextSeq + 1)

/-- The scrubber and the tile port. -/
def Obligations.ScrubAndTilePort : Prop := Claims.scrubVisits ∧ Claims.tilePortServes

/-! ## 03 Arithmetic and the units; 12 R359, R360 -/

namespace Sys2Proof.Claims

/-- The queue entry that an instruction of the tensor or the vector unit issues (02 R50, 03 R77, R97; 09 R274): the register values are
those at issue. A reserved sub-operation gives none: it traps. -/
def unitEntry (s : State) (i : Instr) : Option (TileNo × (TEntry ⊕ VEntry)) :=
  let r (t : TileNo) (x : Reg) : Word := (s.tile t.val).reg x
  let tq (t : TileNo) (op : TOp) (a b c d : Reg) : Option (TileNo × (TEntry ⊕ VEntry)) :=
    some (t, .inl ⟨op, (s.tile t.val).pc, r t a, r t b, r t c, r t d, [], none, none⟩)
  let vq (t : TileNo) (ok : Bool) (op : VOp) (a b c d : Reg) : Option (TileNo × (TEntry ⊕ VEntry)) :=
    if ok = true then some (t, .inr ⟨op, (s.tile t.val).pc, r t a, r t b, r t c, r t d, []⟩) else none
  match i with
  | .tmm t a => tq t .tmm a 0 0 0
  | .tmmAg t a b => tq t .tmmAg a b 0 0
  | .tanc t a b => tq t .tanc a b 0 0
  | .tmmxRs t u a b c d => if u = 0 then tq t .rs a b c d else none
  | .tmmxAr t u a b c d => if u = 0 then tq t .ar a b c d else none
  | .tmmxAg t u a b c d => if u = 0 then tq t .ag a b c d else none
  | .tmmxA2a t u a b c d => if u = 0 then tq t .a2a a b c d else none
  | .vadd t u a b c d => vq t (u != 3) (.add u) a b c d
  | .vsub t u a b c d => vq t (u != 3) (.sub u) a b c d
  | .vmul t u a b c d => vq t (u != 3) (.mul u) a b c d
  | .vfma t u a b c d => vq t (u != 3) (.fma u) a b c d
  | .vmax t u a b c d => vq t (u != 3) (.max u) a b c d
  | .vmin t u a b c d => vq t (u != 3) (.min u) a b c d
  | .vscl t u a b c d => vq t (u != 3) (.scl u) a b c d
  | .vexp t u a b d => vq t (u == 0 || u == 1) (.exp u) a b 0 d
  | .vrcp t u a b d => vq t (u == 0 || u == 1) (.rcp u) a b 0 d
  | .vrsq t u a b d => vq t (u == 0 || u == 1) (.rsq u) a b 0 d
  | .vrsum t u a b d => vq t (u != 3) (.rsum u) a b 0 d
  | .vrmax t u a b d => vq t (u != 3) (.rmax u) a b 0 d
  | .vsmax t a b d => vq t true .smax a b 0 d
  | .vrmsn t a b c d => vq t true .rmsn a b c d
  | .vcvt t u a b d => vq t (u.toNat ≤ 9) (.cvt u) a b 0 d
  | .vbse t u a b c d => vq t (1 ≤ u.toNat ∧ u.toNat ≤ 7) (.bse u) a b c d
  | .vbsd t u a b c d => vq t (0x21 ≤ u.toNat ∧ u.toNat ≤ 0x27) (.bsd u) a b c d
  | .vwsanc t a b d => vq t true .wsanc a b 0 d
  | .vwsenc t a b c d => vq t true .wsenc a b c d
  | .vwsaln t a b d => vq t true .wsaln a b 0 d
  | .vwsadd t a b d => vq t true .wsadd a b 0 d
  | .vwsrnd t bf a b d => vq t true (.wsrnd bf) a b 0 d
  | .vwsamx t a b d => vq t true .wsamx a b 0 d
  | _ => none

end Sys2Proof.Claims

/-- Unit issue (02 R50): a tensor, vector or fused instruction joins the end of its unit's queue with the register values at issue, and
the core goes on; with 16 tensor or 8 vector entries in the queue it stalls, and nothing changes. -/
def Sys2Proof.Claims.unitIssue : Prop :=
  ∀ (s : State) (i : Instr) (t : TileNo) (e : TEntry ⊕ VEntry),
    unitEntry s i = some (t, e) →
    let x := s.tile t.val
    x.ready = true → calm x = true →
    (∀ q, e = .inl q → x.tq.length < 16 → exec i s = .next (ran s t.val { x with tq := x.tq ++ [q] } (x.pc + 4))) ∧
    (∀ q, e = .inr q → x.vq.length < 8 → exec i s = .next (ran s t.val { x with vq := x.vq ++ [q] } (x.pc + 4))) ∧
    ((∀ q, e = .inl q → 16 ≤ x.tq.length) → (∀ q, e = .inr q → 8 ≤ x.vq.length) → exec i s = .next s)

namespace Sys2Proof.Claims

/-- The charge that the weight format of a multiply claims, in cu (12 R359). -/
def classCharge (wfmt : Nat) : Nat :=
  if wfmt ∈ [1, 3, 9, 10] then 64 else if wfmt ∈ [2, 4, 5, 6, 7] then 48 else if wfmt = 8 then 32 else 0

/-- A plain tensor entry: its descriptor offset, the anchor it gives, the word it writes the anchor to. -/
def plainForm (e : TEntry) : Option (Word × Option Int × Option Word) :=
  match e.op with
  | .tmm => some (e.a, none, none)
  | .tmmAg => some (e.a, some e.b.toInt, none)
  | .tanc => some (e.b, none, some e.a)
  | _ => none

/-- The run of a plain tensor instruction that has started (03 R77, R80): a multiply holds its descriptor and its anchor, given or found;
TANC also the bytes that it will write, the anchor as a signed 64-bit word. -/
def plainRun (x : Tile) (half : Bool) (off : Word) (given : Option Int) (word : Option Word) : TRun :=
  let b := x.scratch.readN off.toNat 64
  let a := given.getD ((tdescOf b).anchor x.scratch)
  match word with
  | some w => .plain half a (cellsAt w.toNat (leBytes 8 (BitVec.ofInt 64 a).toNat)) 0
  | none => { TRun.plain half a [] 0 with tdesc := b }

end Sys2Proof.Claims

/-- CHARGE_REQUEST (12 R359): the head of the queue asks for the charge of its class at the present tc, TANC and a descriptor that cannot be
read for nothing. TENSOR_START and HALF_RATE_START (12 R360): a covered request that no earlier one precedes takes its charge and starts
at full rate; 64 tc after the request one that is not covered starts at half rate, takes nothing and is counted. The start reads the
descriptor and finds the anchor; nothing is written yet. -/
def Sys2Proof.Claims.tensorStarts : Prop :=
  ∀ (s : State) (t : TileNo) (e : TEntry) (q : List TEntry),
    let n := t.val
    let x := s.tile n
    let p := s.part (n / 72)
    x.tq = e :: q → x.drain = none →
    (e.req = none → exec (.chargeRequest t) s = .next (withTile s n { x with tq := { e with
      req := some (if e.op = .tanc ∨ e.a.toNat % 64 ≠ 0 ∨ e.a.toNat < 0x8000 ∨ 0xBF000 < e.a.toNat + 64 then 0
                   else classCharge (x.scratch.read (e.a.toNat + 0x20)).toNat, s.tcOf n) } :: q })) ∧
    (∀ c w off given word, e.req = some (c, w) → e.run = none → plainForm e = some (off, given, word) →
      let d := tdescOf (x.scratch.readN off.toNat 64)
      off.toNat % 64 = 0 → 0x8000 ≤ off.toNat → off.toNat + 64 ≤ 0xBF000 → x.upsets = [] → d.check given word = none →
      s.tilCorr ≤ 0xFFFFFFFF → s.tilUnc ≤ 0xFFFF →
      let started (half : Bool) : Tile := { x with tq := { e with run := some (plainRun x half off given word) } :: q }
      (c ≤ p.charge → s.chargeFirst n w = true → 0 < c → exec (.tensorStart t) s =
        .next { withTile s n (started false) with parts := SMap.set s.parts (n / 72) { p with charge := p.charge - c } }) ∧
      (c = 0 → exec (.tensorStart t) s = .next (withTile s n (started false))) ∧
      (0 < c → w + 64 ≤ s.tcOf n → p.charge < c ∨ s.chargeFirst n w = false → exec (.halfRateStart t) s =
        .next { withTile s n (started true) with
          parts := SMap.set s.parts (n / 72) { p with halfStarts := p.halfStarts + 1 } }))

/-- TENSOR_FINISH (R80 to R86, R104; 05 R149): TANC writes its word; a multiply whose passes meet no block above the anchor and no
double-bit error writes its output, and its tc are added to the tile's heat score. Every byte it does not write stays, the queue moves
up, and its sticky bits and anchor wait for the core to see them. -/
def Sys2Proof.Claims.tensorFinishes : Prop :=
  ∀ (s : State) (t : TileNo) (e : TEntry) (q : List TEntry) (r : TRun) (w : List (Nat × Byte)) (fl : BitVec 8),
    let n := t.val
    let x := s.tile n
    let d := tdescOf r.tdesc
    x.tq = e :: q → x.drain = none → e.run = some r → x.wait = .none → calm x = true →
    (e.op = .tanc ∧ w = r.writes ∧ fl = r.sticky ∨
      (e.op = .tmm ∨ e.op = .tmmAg) ∧ e.late = [] ∧ x.upsets = [] ∧ s.tilCorr ≤ 0xFFFFFFFF ∧ s.tilUnc ≤ 0xFFFF ∧
        d.overlaps = false ∧ (∀ p ∈ d.passes, d.exceeds x.scratch r.anchor p.1 p.2 = false) ∧
        (w, fl) = d.output x.scratch r.anchor) →
    ∃ u, exec (.tensorFinish t) s = .next u ∧
      (u.tile n).scratch = x.scratch.writeCells w ∧
      (∀ b, (∀ c ∈ w, c.1 ≠ b) → (u.tile n).scratch.read b = x.scratch.read b) ∧
      (u.tile n).tq = q ∧ (u.tile n).tAst = x.tAst ++ [(fl, some (BitVec.ofInt 10 r.anchor), none)] ∧
      (u.tile n).groups = x.groups ∧ (u.tile n).common = x.common ∧ (u.tile n).pc = x.pc ∧ (u.tile n).astat = x.astat ∧
      (∀ m, m ≠ n → u.tile m = s.tile m) ∧ u.out = s.out ∧
      (e.op ≠ .tanc → SMap.get 0 (u.part (n / 72)).heat (n % 72) =
        SMap.get 0 (s.part (n / 72)).heat (n % 72) + d.computeTc r.half)

/-- The tensor unit: charge, start and finish. -/
def Obligations.TensorRuns : Prop := Claims.tensorStarts ∧ Claims.tensorFinishes

/-- VECTOR_FINISH (R97, R104): the head's checks pass and its operands hold no double-bit error: its results land, every byte it does not
write stays, the queue moves up, and its sticky bits wait for the core to see them. A head that fails its checks empties the queue, and
the first such fault waits with its code, the instruction's address and the count of those discarded after it (02 R52). -/
def Sys2Proof.Claims.vectorFinishes : Prop :=
  ∀ (s : State) (t : TileNo) (e : VEntry) (q : List VEntry),
    let n := t.val
    let x := s.tile n
    x.vq = e :: q → x.drain = none →
    (∀ w fl, e.check = none → e.late = [] → x.upsets = [] → e.result x.scratch = .ok (w, fl) →
      x.wait = .none → calm x = true →
      ∃ u, exec (.vectorFinish t) s = .next u ∧
        (u.tile n).scratch = x.scratch.writeCells w ∧
        (∀ b, (∀ c ∈ w, c.1 ≠ b) → (u.tile n).scratch.read b = x.scratch.read b) ∧
        (u.tile n).vq = q ∧ (u.tile n).vAst = x.vAst ++ [(fl, none)] ∧
        (u.tile n).groups = x.groups ∧ (u.tile n).common = x.common ∧ (u.tile n).pc = x.pc ∧ (u.tile n).astat = x.astat ∧
        (∀ m, m ≠ n → u.tile m = s.tile m) ∧ u.out = s.out) ∧
    (∀ c, e.check = some c → x.vfault = none → x.wait = .bar →
      exec (.vectorFinish t) s = .next (withTile s n { x with
        vq := [], vfault := some (BitVec.ofNat 8 c, e.pc, min q.length 15), vAst := x.vAst ++ [(0, some (BitVec.ofNat 8 c))] }))

/-- Issue to the units, and the vector unit's results. -/
def Obligations.IssueAndVectors : Prop := Claims.unitIssue ∧ Claims.vectorFinishes

namespace Sys2Proof.Claims

/-- The exact value of a finite number. -/
def value (neg : Bool) (m : Nat) (e : Int) : ℚ := (if neg = true then -1 else 1) * (m : ℚ) * (2 : ℚ) ^ e

end Sys2Proof.Claims

/-- Products and sums before rounding are exact (R82, R83): the value of a product is the product of the values, the value of a sum the
sum of the values, for every pair of finite numbers. -/
def Sys2Proof.Claims.exactArithmetic : Prop :=
  ∀ (n₁ n₂ : Bool) (m₁ m₂ : Nat) (e₁ e₂ : Int),
    (∃ n m e, (Num.fin n₁ m₁ e₁).add (.fin n₂ m₂ e₂) = .fin n m e ∧ value n m e = value n₁ m₁ e₁ + value n₂ m₂ e₂) ∧
    (∃ n m e, (Num.fin n₁ m₁ e₁).mul (.fin n₂ m₂ e₂) = .fin n m e ∧ value n m e = value n₁ m₁ e₁ * value n₂ m₂ e₂)

/-- Rounding is to nearest, ties to even (R86): dropping `k` bits of `m` gives a value within half a unit, an even one at a tie, and it is
inexact exactly when a dropped bit is 1. Every finite element of FP4, E3M2, E2M3, E4M3, E5M2, BF16 and FP32 rounds to itself. -/
def Sys2Proof.Claims.roundsToNearestEven : Prop :=
  (∀ m k : Nat, let v : Int := (rneScale m (-(k : Int))).1
    2 * |v * 2 ^ k - m| ≤ 2 ^ k ∧ (2 * |v * 2 ^ k - m| = 2 ^ k → v % 2 = 0) ∧
    ((rneScale m (-(k : Int))).2 = true ↔ m % 2 ^ k ≠ 0)) ∧
  (∀ f ∈ [fFp4, fE3M2, fE2M3, fE4M3, fE5M2, fBf16, fFp32], ∀ c, c ≤ f.maxC →
    f.round (f.magOf c).1 (f.magOf c).2 = (c, false))

/-- Numbers: exact products and sums, and rounding. -/
def Obligations.NumbersRound : Prop := Claims.exactArithmetic ∧ Claims.roundsToNearestEven

/-! ## 09 Fused collectives -/

/-- SLOT_REQ (R287): a request for a member tile that is here, of a formed team and a step that is not aborted, joins the controller's
queue behind the others; a full queue answers Retry; an unknown team is refused. -/
def Sys2Proof.Claims.slotRequestQueues : Prop :=
  ∀ (s : State) (p : Packet) (c : Col),
    let ten : BitVec 7 := BitVec.ofNat 7 (fieldLE p.payload 12 1)
    let src := fieldLE p.payload 0 4
    let dst := fieldLE p.payload 4 4
    let kind := fieldLE p.payload 13 1
    s.railsOn = true → colMsg p 1 11 = some c →
    (∀ tm, s.team? ten c.team = some tm → tm.relay = false → s.destHere tm kind src dst = true →
      tm.aborted ≠ some (BitVec.ofNat 16 c.step) → (s.recipients tm kind src dst).all (fun t => !s.barred (t / 72)) = true →
      (s.staging.reqs.length < 4096 → exec (.slotReq p) s = .next { s with staging := { s.staging with
        reqs := s.staging.reqs ++
          [⟨p, ten, BitVec.ofNat 8 c.team, BitVec.ofNat 16 c.step, src, dst, fieldLE p.payload 8 4, kind⟩] } }) ∧
      (4096 ≤ s.staging.reqs.length → exec (.slotReq p) s = .next (s.answer p 1 []))) ∧
    (s.team? ten c.team = none → exec (.slotReq p) s = .next (s.answer p 3 []))

/-- GRANT (R287): the request that is to be served next takes the lowest free slot for its tiles, leaves the queue, and its tile
becomes the last one served; the grant goes out with the slot's number. -/
def Sys2Proof.Claims.grantTakesSlot : Prop :=
  ∀ (s : State) (k m : Nat) (r : SlotReq) (ts : List Nat),
    s.nextGrant = some k → s.staging.reqs[k]? = some r → s.freeSlot = some m → s.eligible r = some ts →
    ∃ u p slot, exec (.grant k) s = .next u ∧
      u.staging.slots = SMap.set s.staging.slots m slot ∧ slot.tiles = ts ∧ slot.seq = r.seq ∧ slot.srcRank = r.srcRank ∧
      slot.granted = s.now ∧ slot.first = none ∧ slot.image = [] ∧
      u.staging.reqs = s.staging.reqs.eraseIdx k ∧ u.staging.lastTile = ts.headD 0 ∧
      u.out = s.out ++ [.packet p] ∧ p.exts = [colExt r.team.toNat 2 r.step.toNat m r.seq 0 0] ∧ u.tiles = s.tiles

/-- Staging slots: requests and grants. -/
def Obligations.SlotsGranted : Prop := Claims.slotRequestQueues ∧ Claims.grantTakesSlot

/-- CHUNK, CHECKED, RESEND and SLOT_TIMEOUT (R288, R289): a chunk's bytes join the image in its slot while it is incomplete; CHECKED takes
the chunk off its sender's list of those in flight; RESEND puts it in front of those to be asked for, with RETRY; a slot whose time has
passed with its image incomplete is freed, counted, and its sender told to send again. -/
def Sys2Proof.Claims.chunkLife : Prop :=
  ∀ (s : State) (p : Packet) (c : Col) (k : Slot) (n : Nat),
    (s.railsOn = true → p.tail = .good → colMsg p 0 8 = some c → SMap.find? s.staging.slots c.slot = some k → k.team.toNat = c.team →
      k.step.toNat = c.step → k.seq = c.chunk → k.tiles.all (fun t => !s.barred (t / 72)) = true →
      let k' : Slot := { k with image := k.image ++ [(64 * c.off, p.payload)], first := some (k.first.getD s.now) }
      k'.bytes = none →
      exec (.chunk p) s = .next { s with staging := { s.staging with slots := SMap.set s.staging.slots c.slot k' } }) ∧
    (s.railsOn = true → colMsg p 3 12 = some c → s.senderOf p c = some n →
      ∀ e q r, (s.tile n).tq = e :: q → e.run = some r →
      exec (.checked p) s = .next (withTile s n { s.tile n with tq := { e with run := some { r with
        flying := r.flying.filter (fun x => x != (fieldLE p.payload 4 4, fieldLE p.payload 8 4)) } } :: q })) ∧
    (s.railsOn = true → colMsg p 4 12 = some c → s.senderOf p c = some n →
      ∀ e q r, (s.tile n).tq = e :: q → e.run = some r → (fieldLE p.payload 4 4, fieldLE p.payload 8 4) ∈ r.flying →
      exec (.resend p) s = .next ((withTile s n { s.tile n with tq := { e with run := some { r with
        flying := r.flying.filter (fun x => x != (fieldLE p.payload 4 4, fieldLE p.payload 8 4))
        sends := (fieldLE p.payload 4 4, fieldLE p.payload 8 4, true) :: r.sends } } :: q }).askSlots n 8)) ∧
    (∀ slot : Fin 384, SMap.find? s.staging.slots slot.val = some k →
      (match k.first with | none => k.granted + 1600000 | some f => f + s.incUs * 1600) ≤ s.now → k.bytes = none →
      k.tiles.all (fun t => !s.staging.failed.contains (t, k.step.toNat, k.srcRank, k.seq)) = true →
      ∃ u q, exec (.slotTimeout slot) s = .next u ∧ u.staging.slots = SMap.del s.staging.slots slot.val ∧
        u.staging.checkFail = satAdd s.staging.checkFail 1 0xFFFF ∧ u.out = s.out ++ [.packet q] ∧
        q.chip = k.srcChip.toNat ∧ q.typ = 12 ∧ u.tiles = s.tiles)

/-- ABORT (R291): after an ABORT of a step no slot and no queued request of that step is left, and no member of it is open here. -/
def Sys2Proof.Claims.abortDiscardsStep : Prop :=
  ∀ (s : State) (p : Packet) (c : Col),
    s.railsOn = true → colMsg p 5 12 = some c → s.tiles.Pairwise (fun a b => a.1 < b.1) →
    let ten : BitVec 7 := BitVec.ofNat 7 (fieldLE p.payload 0 1)
    ∃ u, exec (.abort p) s = .next u ∧
      (∀ e ∈ u.staging.slots, ¬ (e.2.tenant = ten ∧ e.2.team.toNat = c.team ∧ e.2.step.toNat = c.step)) ∧
      (∀ r ∈ u.staging.reqs, ¬ (r.tenant = ten ∧ r.team.toNat = c.team ∧ r.step.toNat = c.step)) ∧
      u.openTiles ten c.team c.step = []

/-- FUSED_FINISH and FUSED_TIMEOUT (R281, R292, R293): a fused instruction whose chunks are all checked and whose results are in place
finishes: it leaves the queue and its sticky bits and anchor wait for the core. One whose time has passed before that faults with
0x25, with which every later instruction of the queue is discarded. -/
def Sys2Proof.Claims.fusedEnds : Prop :=
  ∀ (s : State) (t : TileNo) (e : TEntry) (q : List TEntry) (r : TRun),
    let n := t.val
    let x := s.tile n
    x.tq = e :: q → e.run = some r → r.opened = true → x.drain = none →
    (fusedReady e r = true → fusedOverlap e.op (tdescOf r.tdesc) (fdescOf r.fdesc) r.n = false → x.wait = .none → calm x = true →
      ∃ u, exec (.fusedFinish t) s = .next u ∧ (u.tile n).tq = q ∧
        (u.tile n).tAst = x.tAst ++ [(r.sticky, some (BitVec.ofInt 10 r.anchor), none)] ∧
        (u.tile n).scratch = x.scratch ∧ (u.tile n).groups = x.groups ∧ (u.tile n).pc = x.pc ∧
        (∀ m, m ≠ n → u.tile m = s.tile m) ∧ u.out = s.out) ∧
    (∀ due, r.due = some due → due ≤ s.now → fusedReady e r = false → x.tfault = none → x.wait = .bar →
      ∃ u, exec (.fusedTimeout t) s = .next u ∧ (u.tile n).tq = [] ∧
        (u.tile n).tfault = some (0x25, e.pc, min q.length 15, true) ∧ (u.tile n).pc = x.pc ∧ (u.tile n).groups = x.groups)

/-- A fused step: its chunks, its abort and its end. -/
def Obligations.StepsOfFused : Prop := Claims.chunkLife ∧ Claims.abortDiscardsStep ∧ Claims.fusedEnds

/-! ## 04 Stacked memory and the pointing engine -/

/-- The address mapping (R107): a linear band gives stack `s` its bytes from `s` × 1 GiB on, an interleaved band rotates its 4 KiB
chunks through the twelve stacks, and each band maps one to one onto its slices, in both modes. -/
def Obligations.BandsMapOneToOne : Prop :=
  ∀ ilv o : Nat, o < 48 * (12 * 2 ^ 30) →
    let u := o / (12 * 2 ^ 30)
    let w := o % (12 * 2 ^ 30)
    (ilv.testBit u = false → memMap ilv o = (w / 2 ^ 30, u * 2 ^ 30 + w % 2 ^ 30)) ∧
    (ilv.testBit u = true → memMap ilv o = (w / 4096 % 12, u * 2 ^ 30 + w / 4096 / 12 * 4096 + w % 4096)) ∧
    (memMap ilv o).1 < 12 ∧ u * 2 ^ 30 ≤ (memMap ilv o).2 ∧ (memMap ilv o).2 < (u + 1) * 2 ^ 30 ∧
    (∀ o', o' < 48 * (12 * 2 ^ 30) → memMap ilv o' = memMap ilv o → o' = o) ∧
    (∀ k l, k < 12 → u * 2 ^ 30 ≤ l → l < (u + 1) * 2 ^ 30 → ∃ o', o' / (12 * 2 ^ 30) = u ∧ memMap ilv o' = (k, l))

namespace Sys2Proof.Claims

/-- `s` with stack `n` equal to `k` and nothing else changed. -/
def withStack (s : State) (n : Nat) (k : Stack) : State := { s with stks := SMap.set s.stks n k }

/-- The requests that a stack serves: reads, writes, posted writes, atomics and pushes. -/
def stackType (p : Packet) : Prop := p.typ = 0 ∨ p.typ = 1 ∨ p.typ = 2 ∨ p.typ = 3 ∨ p.typ = 4

/-- What a request needs of a memory window (11 R322): a write of part of a line reads as well, a push only reads. -/
def mayTouch (s : State) (p : Packet) : Bool :=
  let o := gaOffset p.addr
  let part : Bool := decide (o % 64 ≠ 0 ∨ (o + Packet.len p) % 64 ≠ 0)
  s.windowOk p.tenant.toNat o (Packet.len p) (p.typ == 0 || p.typ == 3 || p.typ == 4 || part) (p.typ != 0 && p.typ != 4)

/-- A line that a request touches is a spare row (04 R109). -/
def touchesSpare (s : State) (p : Packet) : Bool :=
  (linesOf (gaOffset p.addr) (Packet.len p)).any (fun o => decide (0xBFFF00000 ≤ (memMap s.memIlv o).2))

/-- `v` is `s` after the packet has come to a memory port of stack `n` (05 R138): its flight over the mesh, if it had one, is over. -/
def cameToStack (s : State) (n : Nat) (p : Packet) (v : State) : Prop :=
  ∃ d, s.arrive (fun d => match d with | .mem m _ => m == n | _ => false) p = some (v, d)

end Sys2Proof.Claims

/-- STACK_REQUEST (R109, R111, R112, R115): a request that its partition's state, its window, the spare rows and its key let pass joins
the end of the queue with its key and the interleaving in force; a write of whole lines is then acknowledged. A request refused at any
step is answered with that step's status, and neither the queue nor any memory changes. -/
def Sys2Proof.Claims.stackRequestsQueue : Prop :=
  ∀ (s v : State) (n : PartNo) (p : Packet),
    let k := s.stack n.val
    let st := (s.psw n.val).state
    let whole := (p.typ == 1 || p.typ == 2) && gaOffset p.addr % 64 == 0 && (gaOffset p.addr + Packet.len p) % 64 == 0
    let turned (status : Nat) : Prop := ∃ u, exec (.stackRequest n p) s = .next u ∧ (u.stack n.val).queue = k.queue ∧
      (∀ m, (u.stack m).mem = (s.stack m).mem) ∧ u.tiles = s.tiles ∧
      u.out = s.out ++ (if p.typ = 2 then [] else [.packet (p.replyTo status [])])
    s.railsOn = true → stackType p → cameToStack s n.val p v →
    (st = .fenced ∨ st = .resetting → turned 6) ∧
    (st = .off → turned 5) ∧
    (st ≠ .fenced → st ≠ .resetting → st ≠ .off →
      (mayTouch s p = false → turned 3) ∧
      (mayTouch s p = true → touchesSpare s p = true → turned 3) ∧
      (mayTouch s p = true → touchesSpare s p = false → SMap.find? s.sec.keys p.tenant.toNat = none → turned 3) ∧
      (∀ key, mayTouch s p = true → touchesSpare s p = false → SMap.find? s.sec.keys p.tenant.toNat = some key →
        let u := withStack v n.val { k with queue := k.queue ++ [⟨p, key, whole, s.memIlv⟩], lastUse := s.now }
        exec (.stackRequest n p) s = .next (if whole = true then u.answer p 0 [] else u)))

/-- STACK_ACCESS (R112, R114, R116, R118, R121, R127; 07 R194) on a request to one line that was written under the request's key: a read
answers its bytes and changes no memory; a push sends them on as a forwarded write to the address that it names; a write puts its
payload at its bytes and leaves every other byte; an atomic answers the old word and writes the new one. A poisoned line is answered
with the poisoned-data status, except that a write of the whole line clears POISON. While the stack is in self-refresh, or a row of
the request is being copied, the request waits. -/
def Sys2Proof.Claims.stackAccesses : Prop :=
  ∀ (s : State) (n : PartNo) (r : StackReq) (q : List StackReq),
    let k := s.stack n.val
    let p := r.pkt
    let o := gaOffset p.addr
    let len := Packet.len p
    let l := (memMap r.ilv (o / 64 * 64)).2
    k.queue = r :: q → s.railsOn = true →
    (k.selfRef = true ∨ s.rangeCopying r.ilv o len = true → exec (.stackAccess n []) s = .next s) ∧
    (k.selfRef = false → s.rangeCopying r.ilv o len = false →
    (memMap r.ilv (o / 64 * 64)).1 = n.val → 0 < len → o % 64 + len ≤ 64 → stackType p →
    let k' := { k with queue := q, lastUse := s.now }
    let old := k.mem.readN (l + o % 64) len
    (¬ l / 64 ∈ k.poison → SMap.find? k.keyOf (l / 64) = some r.key →
      (p.typ = 0 → exec (.stackAccess n []) s = .next ((withStack s n.val k').answer p 0 old)) ∧
      (p.typ = 4 → exec (.stackAccess n []) s = .next ((withStack s n.val k').sendPkt (s.targetPort p)
        { p with addr := BitVec.ofNat 64 (fieldLE p.payload 0 8), typ := 5, plen := BitVec.ofNat 13 len, payload := old })) ∧
      (p.typ = 1 ∨ p.typ = 2 → r.acked = decide (len = 64) → ∃ m,
        let u := withStack s n.val { k' with mem := m, keyOf := SMap.set k.keyOf (l / 64) r.key,
                                             poison := k.poison.filter (fun x => x != l / 64) }
        exec (.stackAccess n []) s = .next (if len < 64 then u.answer p 0 [] else u) ∧
        Memory.readN m (l + o % 64) len = p.payload ∧
        (∀ b, b < l + o % 64 ∨ l + o % 64 + len ≤ b → Memory.read m b = k.mem.read b)) ∧
      (∀ op, op ≤ 4 → p.typ = 3 → fieldLE p.payload 16 8 = op →
        let v := atomic op (BitVec.ofNat 64 (fieldLE p.payload 0 8)) (BitVec.ofNat 64 (fieldLE p.payload 8 8)) (BitVec.ofNat 64 (leNat old))
        ∃ u, exec (.stackAccess n []) s = .next u ∧ u.out = s.out ++ [.packet (p.replyTo 0 old)] ∧
          (u.stack n.val).mem.readN (l + o % 64) 8 = leBytes 8 v.toNat ∧
          (∀ b, b < l + o % 64 ∨ l + o % 64 + 8 ≤ b → (u.stack n.val).mem.read b = k.mem.read b))) ∧
    (l / 64 ∈ k.poison →
      (p.typ = 0 ∨ p.typ = 3 ∨ p.typ = 4 ∨ (p.typ = 1 ∧ len < 64 ∧ r.acked = false) → exec (.stackAccess n []) s =
        .next ((withStack s n.val k').answer p 4 [])) ∧
      (p.typ = 1 ∨ p.typ = 2 → len = 64 → r.acked = true → ∃ u, exec (.stackAccess n []) s = .next u ∧
        ¬ l / 64 ∈ (u.stack n.val).poison ∧ (u.stack n.val).mem.readN l 64 = p.payload)))

/-- A stack: admission of a request, and its service. -/
def Obligations.StackServes : Prop := Claims.stackRequestsQueue ∧ Claims.stackAccesses

/-- Upkeep of a stack (R118 to R121, R126, R127): a corrected line is counted; the patrol scrub moves on by a line; the copy of a listed
row ends with the row served by its spare, marked where a line was lost; setting AUTO_REMAP remaps every listed row; a temperature
reading sets the refresh interval; a refresh is made; a Parked partition's stack leaves self-refresh for an access and re-enters it
after 50 µs. None of them changes a stored byte. -/
def Obligations.StackUpkeep : Prop :=
  ∀ (s : State) (n : PartNo),
    let k := s.stack n.val
    let st := (s.psw n.val).state
    let keeps (u : State) : Prop := (∀ m, (u.stack m).mem = (s.stack m).mem ∧ (u.stack m).keyOf = (s.stack m).keyOf) ∧ u.tiles = s.tiles
    s.railsOn = true →
    (s.scrubHours ≠ 0 → k.selfRef = false → k.queue = [] → s.rowCopying n.val (k.servesFor k.scrubPos) = false → st = .idle ∨ st = .active ∨ st = .fenced →
      ∃ u, exec (.patrolScrub n .correctable) s = .next u ∧ keeps u ∧
        (u.stack n.val).corrected = satAdd k.corrected 1 0xFFFFFFF ∧
        (u.stack n.val).scrubPos = (if k.scrubPos + 64 < 48 * 2 ^ 30 then k.scrubPos + 64 else 0)) ∧
    (∀ (e : Fin 1024) (bad : List Nat), let w := SMap.get 0 k.badRows e.val
      s.autoRemap = true → w.getLsbD 31 = true → w.getLsbD 22 = false →
      ∃ u w', exec (.rowRemap n e bad) s = .next u ∧ keeps u ∧ SMap.get 0 (u.stack n.val).badRows e.val = w' ∧
        w'.getLsbD 31 = true ∧ w'.getLsbD 22 = true ∧ w'.extractLsb' 0 20 = w.extractLsb' 0 20 ∧
        ((∃ i ∈ bad, i < 16) → w'.getLsbD 20 = true)) ∧
    (∀ (v : Word) (bad : List Nat), s.setupLocked = false → v.getLsbD 12 = true → s.autoRemap = false →
      ∃ u, exec (.autoRemap v bad) s = .next u ∧ keeps u ∧ u.autoRemap = true ∧
        ∀ m e, m < 12 → (SMap.get 0 (s.stack m).badRows e).getLsbD 31 = true →
          (SMap.get 0 (u.stack m).badRows e).getLsbD 22 = true) ∧
    (∀ t : Int, 0 ≤ t → ∃ u, exec (.stackTempRead n (some t)) s = .next u ∧ keeps u ∧ (u.stack n.val).tempC = t.toNat / 4 ∧
      (340 < t → (u.stack n.val).hot = true) ∧ (t ≤ 328 → (u.stack n.val).hot = false) ∧
      (328 < t → t ≤ 340 → (u.stack n.val).hot = k.hot)) ∧
    (2 ≤ k.sensFails → ∃ u, exec (.stackTempRead n none) s = .next u ∧ keeps u ∧ (u.stack n.val).hot = true) ∧
    (∀ b : Fin 2048, k.selfRef = false →
      exec (.refresh n b) s = .next (withStack s n.val { k with refreshed := SMap.set k.refreshed b.val s.now })) ∧
    (k.selfRef = true → k.queue ≠ [] ∨ k.streams ≠ [] →
      exec (.selfRefreshExit n) s = .next (withStack s n.val { k with selfRef := false, lastUse := s.now })) ∧
    (k.selfRef = false → k.queue = [] → k.streams = [] → st = .parked → k.lastUse + 80000 ≤ s.now →
      exec (.selfRefreshEntry n) s = .next (withStack s n.val { k with selfRef := true }))

namespace Sys2Proof.Claims

/-- Index `j` of an index stream held in bytes that begin `skip` bits before it (03 R74), and the width of an index and the bytes
of an entry of a code (03 R73). -/
def indexAt (code : Nat) (ix : List Byte) (skip j : Nat) : Nat :=
  let w := if code = 0 then 16 else if code = 1 then 18 else 12
  leNat ix / 2 ^ (skip + w * j) % 2 ^ w
def entryBytes (code : Nat) : Nat := if code = 2 then 2 else 4

end Sys2Proof.Claims

/-- Expansion (R132, 03 R74, R75): byte `i` of the output is byte `i` mod the entry size of the codebook entry that index `i` / entry
size names; an odd count clears the high half of the last byte; ⌈COUNT / 2⌉ bytes come out. -/
def Sys2Proof.Claims.expandsIndices : Prop :=
  ∀ (code : Nat) (book ix : List Byte) (skip count : Nat),
    let e := entryBytes code
    let out := expandBytes code book ix skip ((count + 2 * e - 1) / (2 * e)) count
    code ≤ 2 → book.length = (if code = 0 then 0x40000 else if code = 1 then 0x100000 else 0x2000) →
    out.length = (count + 1) / 2 ∧
    ∀ i, i < (count + 1) / 2 →
      let b := book.getD (indexAt code ix skip (i / e) * e + i % e) 0
      out.getD i 0 = if count % 2 = 1 ∧ i + 1 = (count + 1) / 2 then b &&& 0x0F else b

namespace Sys2Proof.Claims

/-- The handle that a stream serves runs transfer `X`, by the pointing engine, with nothing outstanding and nothing failed; its core
waits for nothing, and an event does not trap it. -/
def streamServes (y : Tile) (h : Nat) (X : Xfer) : Prop :=
  y.handles.toList.getD h .free = .running X ∧ X.pe = true ∧ X.failed = none ∧ y.dmaOut h = 0 ∧
  awake y = true ∧ y.wait = .none ∧ calm y = true ∧ y.cst.ei = false

end Sys2Proof.Claims

/-- EXPAND, LOAD and STREAM_END (R132 to R134, R136): a stream that its bank, its window and its key let run delivers its rows to the
transfer at its tile and is marked as delivered; a load leaves its bank Ready with the codebook, its code, its tag and its owner, and
delivers the receipt; an EXPAND on a bank that is not Ready ends with the engine's error 0x04 and DMA status 0x05, and no byte outside
its destination changes; a delivered stream leaves the engine, and its handle completes with OK once its rows are written. -/
def Sys2Proof.Claims.streamsRun : Prop :=
  ∀ (s : State) (n : PartNo) (sid : Nat) (x : Stream),
    let k := s.stack n.val
    let y := s.tile x.tile
    let bank := k.banks.toList.getD x.bank .empty
    let delivered (l : List Stream) : List Stream := l.map (fun z => if z.sid == sid then { z with active := true } else z)
    k.streams.find? (fun z => z.sid == sid) = some x →
    (∀ key ix, s.engineMay n.val x = true → x.active = false → k.runs sid = true → x.load = false →
      k.behindLoad x = false → bank.state = 2 → bank.owner = x.owner → bank.tag = x.cbTag → bank.code = x.code →
      s.windowOk x.owner.toNat x.range.1 x.range.2 true false = true → SMap.find? s.sec.keys x.owner.toNat = some key →
      s.memRead s.memIlv x.range.1 x.range.2 key [] = (s, some ix) →
      exec (.expand n sid []) s = .next ((withStack s n.val { k with streams := delivered k.streams, lastUse := s.now }).streamRows
        x.tile x.handle (expandBytes x.code bank.data ix (x.first * vqIndex x.code % 8) x.indices x.count) x.rows none)) ∧
    (∀ key book, s.engineMay n.val x = true → x.active = false → k.runs sid = true → x.load = true → x.bank < 2 →
      (k.firstOn x.bank).map (·.sid) = some sid →
      s.windowOk x.owner.toNat x.range.1 x.range.2 true false = true → SMap.find? s.sec.keys x.owner.toNat = some key →
      s.memRead s.memIlv x.range.1 x.range.2 key [] = (s, some book) →
      let k₁ := { k with banks := k.banks.setIfInBounds x.bank ⟨2, x.code, x.cbTag, x.owner, book⟩ }
      exec (.load n sid []) s = .next ((withStack (withStack s n.val k₁) n.val
        { k₁ with streams := delivered k.streams, lastUse := s.now }).streamRows x.tile x.handle (receipt x book s.lay.time) 1 none)) ∧
    (∀ X b, streamServes y x.handle X → X.rows = 1 → 1 ≤ X.len → X.len ≤ 4096 → X.written = 0 → s.ownSpad x.tile X.dst = true →
      b.length = X.len →
      let u := s.streamRows x.tile x.handle b 1 none
      (u.tile x.tile).scratch = y.scratch.writeN (gaByte X.dst) b ∧
      (u.tile x.tile).handles = y.handles.setIfInBounds x.handle (.running { X with asked := 1, written := 1, got := [] })) ∧
    (∀ X, s.engineMay n.val x = true → x.active = false → k.runs sid = true → x.load = false → k.behindLoad x = false →
      bank.state ≠ 2 → streamServes y x.handle X →
      ∃ u, exec (.expand n sid []) s = .next u ∧ (u.stack n.val).lastErr = 4 ∧
        (u.stack n.val).streams = k.streams.filter (fun z => z.sid != sid) ∧
        (u.tile x.tile).handles = y.handles.setIfInBounds x.handle (.completed 5) ∧ (u.tile x.tile).event = y.event ||| 4 ∧
        (∀ b, (∀ i, i < X.rows → let d := gaByte (rowAddr X.dst X.dstride i)
          b < d ∨ d + X.len ≤ b) → (u.tile x.tile).scratch.read b = y.scratch.read b)) ∧
    (∀ X, x.active = true → streamServes y x.handle X → X.total ≤ X.written →
      ∃ u, exec (.streamEnd n sid) s = .next u ∧
        (u.stack n.val).streams = k.streams.filter (fun z => z.sid != sid) ∧
        (u.tile x.tile).handles = y.handles.setIfInBounds x.handle (.completed 0) ∧ (u.tile x.tile).scratch = y.scratch ∧
        (u.tile x.tile).groups = y.groups ∧ (∀ m, m ≠ x.tile → u.tile m = s.tile m))

/-- The pointing engine: expansion, loads and streams. -/
def Obligations.StreamsExpand : Prop := Claims.expandsIndices ∧ Claims.streamsRun

/-! ## 05 Armature and seams -/

/-- The armature record (R144, R146, R149, R150): a record built for at most two retired tiles, and one that a rotation's moves have
changed, maps 70 logical indices and names two spares, which together are the 72 physical indices, each once; the built record numbers
its tiles in ascending order, keeps the retired ones as spares, and has EPOCH 1 from bring-up; a rotation's first move takes the
tile with the highest score, the lowest index among equals, and each move puts its logical index on its spare. -/
def Sys2Proof.Claims.armatureRecords : Prop :=
  ∀ (retired : List Nat) (epoch : BitVec 16) (a : Armature) (p : Part),
    buildArm retired epoch = some a →
    a.epoch = epoch ∧ a.lmap.length = 70 ∧ (a.lmap ++ a.spares.map (·.1)).Perm (List.range 72) ∧ a.lmap.Pairwise (· < ·) ∧
    (∀ x, x < 72 → x ∈ retired → (x, true) ∈ a.spares) ∧
    (let b := a.moved (movesOf p a)
     b.epoch = epoch + 1 ∧ b.lmap.length = 70 ∧ (b.lmap ++ b.spares.map (·.1)).Perm (List.range 72) ∧
     ∀ m ∈ movesOf p a, a.lmap.getD m.1 72 = m.2.1 ∧ b.lmap.getD m.1 72 = m.2.2 ∧ (m.2.2, false) ∈ a.spares) ∧
    ∀ m, (movesOf p a).head? = some m → ∀ x ∈ a.lmap,
      SMap.get 0 p.heat x < SMap.get 0 p.heat m.2.1 ∨ (SMap.get 0 p.heat x = SMap.get 0 p.heat m.2.1 ∧ m.2.1 ≤ x)

namespace Sys2Proof.Claims

/-- A broadcast of the control complex (05 R154): tag 0, one copy to seam port 4 × c_row for each of the six cluster rows of each die. -/
def castTo (mask : Nat) (what : Cast) : Output :=
  .broadcast mask 0 [(false, 0), (false, 4), (false, 8), (false, 12), (false, 16), (false, 20),
    (true, 0), (true, 4), (true, 8), (true, 12), (true, 16), (true, 20)] what

/-- The logical ids that a rotation of partition `n` moves. -/
def movingIds (n : Nat) (l : List (Nat × Nat × Nat)) : List Nat := l.map (fun m => 70 * n + m.1)

end Sys2Proof.Claims

/-- A rotation (R148 to R152, R154): it starts in a partition that has become Idle, with a free spare, a score above zero and its least
time past, and broadcasts the hold; a marker is awaited from every tile port to each moving tile, and from the partition port on each
channel that it has used; each is awaited once, and the copy begins with the last; the copies leave each spare with the moving tile's
scratchpad and the new record, with the next EPOCH, is broadcast and in force; the release is broadcast, counts the rotation and clears
the scores; an abandoned rotation leaves the record and every tile as they were, and records its cause. -/
def Sys2Proof.Claims.rotationSteps : Prop :=
  ∀ (s : State) (n : PartNo) (a : Armature) (r : RotState),
    let p := s.part n.val
    p.arm = some a → s.railsOn = true →
    (p.rot = none → p.psw.state = .idle → p.becameIdle = true → s.armCfg.testBit 0 = true → p.jobs = [] →
      p.rotLast + max 1 (s.armCfg / 256 % 65536) * 1600000 ≤ s.now → a.freeSpares ≠ [] →
      (∃ m ∈ movesOf p a, SMap.get 0 p.heat m.2.1 ≠ 0) →
      ∃ u v, exec (.rotation n) s = .next u ∧ (u.part n.val).rot = some v ∧ v.moves = movesOf p a ∧ v.step = 3 ∧
        (∀ m ∈ movesOf p a, ∀ t ∈ s.logicalTiles, (72 * n.val + m.2.1, some t, 0) ∈ v.markers) ∧
        (∀ m ∈ movesOf p a, ∀ c, c < 4 → (SMap.get 0 p.portUsed m.2.1).testBit c = true →
          (72 * n.val + m.2.1, none, c) ∈ v.markers) ∧
        v.held = [] ∧ v.started = s.now ∧ u.out = s.out ++ [castTo 0xFFF (.hold (movingIds n.val v.moves))] ∧
        (u.part n.val).rotLast = s.now ∧ (u.part n.val).arm = some a ∧ u.tiles = s.tiles) ∧
    (p.rot = some r →
      (∀ (t : TileNo) (src : Option TileNo) (c : Fin 4), t.val / 72 = n.val → r.step = 3 → s.rotationLate r = false →
        (∀ f ∈ s.mesh, ∀ x : TileNo, src = some x → f.lane ≠ (.tile x.val, .tile t.val, c.val)) →
        let left := r.markers.filter (fun m => m != (t.val, src.map (·.val), c.val))
        exec (.drainMarker t ⟨src, c⟩) s = .next { s with
          parts := SMap.set s.parts n.val { p with rot := some { r with
            markers := left, step := if left = [] then 4 else 3 } } }) ∧
      (r.step = 4 → s.rotationLate r = false → s.rotationBad n.val r = false →
        (r.moves.map (·.2.1) ++ r.moves.map (·.2.2)).Nodup →
        ∃ u, exec (.rotationCopyDone n) s = .next u ∧ (u.part n.val).arm = some (a.moved r.moves) ∧
          (u.part n.val).epoch = a.epoch + 1 ∧ (u.part n.val).rot = some { r with step := 5 } ∧
          u.out = s.out ++ [castTo 0xFFF (.record n.val ((a.moved r.moves).bytes n.val))] ∧
          ∀ m ∈ r.moves, (u.tile (72 * n.val + m.2.2)).scratch = (s.tile (72 * n.val + m.2.1)).scratch ∧
            (u.tile (72 * n.val + m.2.1)).scratch = (s.tile (72 * n.val + m.2.1)).scratch) ∧
      (r.step = 5 → r.held = [] → p.fencesHeld = [] →
        ∃ u, exec (.rotationRelease n) s = .next u ∧ (u.part n.val).rot = none ∧ (u.part n.val).heat = [] ∧
          castTo 0xFFF (.release (movingIds n.val r.moves)) ∈ u.out ∧
          (u.part n.val).rotations = satAdd p.rotations 1 0xFFFFFFFF ∧ (u.part n.val).arm = some a ∧ u.tiles = s.tiles) ∧
      (∀ cause : BitVec 3, cause = 1 ∧ r.step = 3 ∧ r.started + 16000 ≤ s.now ∨ cause = 3 ∧ r.step = 4 ∧ s.rotationBad n.val r = true ∨
          cause = 4 ∧ r.step < 5 → r.held = [] →
        ∃ u, exec (.rotationAbandon n cause) s = .next u ∧ (u.part n.val).rot = none ∧ (u.part n.val).lastAbort = cause.setWidth 8 ∧
          castTo 0xFFF (.release (movingIds n.val r.moves)) ∈ u.out ∧
          (u.part n.val).arm = some a ∧ (u.part n.val).epoch = p.epoch ∧ u.tiles = s.tiles))

/-- The armature record, and a rotation of it. -/
def Obligations.RotationsKeepMap : Prop := Claims.armatureRecords ∧ Claims.rotationSteps

/-- Broadcasts and seams (R143, R154, R155): a firmware broadcast leaves its image in the firmware region of every tile of its partitions
that is not retired, and nothing else in any tile's memory; a tile whose firmware has its expected CRC starts its count anew, one that
differs is sent the image again, and one that differs a second time is marked as failing; a resent flit is counted, and the eighth
failed resend in a row takes the seam port out of service. -/
def Obligations.BroadcastAndSeams : Prop :=
  ∀ s : State, s.railsOn = true →
    (∀ (mask : BitVec 12) (image : List Byte), image.length = 32768 →
      ∃ u, exec (.firmwareBroadcast mask image) s = .next u ∧
        (∀ n x, n < 12 → mask.getLsbD n = true → x < 72 → x ∉ (s.part n).retired →
          (u.tile (72 * n + x)).scratch.readN 0 32768 = image ∧ (u.tile (72 * n + x)).fwCrc = crc32c image) ∧
        (∀ m b, 32768 ≤ b → (u.tile m).scratch.read b = (s.tile m).scratch.read b) ∧
        (∀ n x, n < 12 → x < 72 → mask.getLsbD n = false ∨ x ∈ (s.part n).retired → u.tile (72 * n + x) = s.tile (72 * n + x)) ∧
        u.fwImage = image ∧ u.out = s.out ++ [castTo mask.toNat (.firmware image)]) ∧
    (∀ (n : PartNo) (i : Fin 72), i.val ∉ (s.part n.val).retired → s.fwImage ≠ [] →
      let t := 72 * n.val + i.val
      let x := s.tile t
      let crc := crc32c (x.scratch.readN 0 32768)
      (crc = x.fwCrc → exec (.firmwareCrcCheck n i) s = .next (withTile s t { x with fwTry := 0 })) ∧
      (crc ≠ x.fwCrc → x.fwTry = 0 → ∃ u, exec (.firmwareCrcCheck n i) s = .next u ∧
        (u.tile t).scratch.readN 0 s.fwImage.length = s.fwImage ∧ (u.tile t).fwTry = 1 ∧ (u.tile t).marked = x.marked ∧
        (∀ m, m ≠ t → u.tile m = s.tile m)) ∧
      (crc ≠ x.fwCrc → 1 ≤ x.fwTry → exec (.firmwareCrcCheck n i) s =
        .next (withTile s t { x with fwTry := x.fwTry + 1, marked := true }))) ∧
    (∀ (east : Bool) (q : Fin 24), let k := q.val + (if east then 24 else 0)
      let fails := SMap.get 0 s.router.seamFails k + 1
      (if east then s.router.seamEast else s.router.seamWest).getLsbD q.val = true →
      exec (.seamResend east q false) s = .next { s with router := { s.router with
        seamRetry := satAdd s.router.seamRetry 1 0xFFFF, seamFails := SMap.del s.router.seamFails k } } ∧
      (fails < 8 → exec (.seamResend east q true) s = .next { s with router := { s.router with
        seamRetry := satAdd s.router.seamRetry 1 0xFFFF, seamFails := SMap.set s.router.seamFails k fails } }) ∧
      (fails = 8 → ∃ u, exec (.seamResend east q true) s = .next u ∧ u.router.seamRetry = satAdd s.router.seamRetry 1 0xFFFF ∧
        ∀ e p, p < 24 → (if e then u.router.seamEast else u.router.seamWest).getLsbD p =
          ((if e then s.router.seamEast else s.router.seamWest).getLsbD p && !(e == east && p == q.val))))

/-! ## 06 The host interface and 19 the setup register map -/

namespace Sys2Proof.Claims

/-- The plain registers of the index (19 R507): offset, the bits a write sets, whether they are frozen by the setup lock, and the
reset value. -/
def plainTable : List (Nat × Nat × Bool × Nat) :=
  [(0x300100, 0xFFFF01, true, 0x3E801), (0x300108, 0xFF, false, 0), (0x300600, 0x3F, true, 0x30), (0x340000, 0x1F, true, 0x12),
   (0x380000, 0xFFFFFFFFFFFF, true, 0), (0x380008, 0x1FFF, true, 0x1818), (0x380010, 0x3FFF, false, 0), (0x3C0018, 0xFF01, true, 0x4001),
   (0x401000, 0xF3FFF, true, 0x81128), (0x440000, 0xFF0F1F, true, 0x640810), (0x4C0010, 0xFFFFFFFFFFFFFFF0, false, 0),
   (0x500010, 0x7F, true, 0x3C)]

/-- An access that is neither 32 nor 64 bits wide, or not aligned to its width (00 R5). -/
def wrongAccess (off : Nat) (w : Width) : Prop :=
  match w with
  | .w32 => off % 4 ≠ 0
  | .w64 => off % 8 ≠ 0
  | .other _ => True

end Sys2Proof.Claims

/-- BAR0 (00 R5, 19 R499 to R501, R504, R507): once it answers, an aligned 64-bit read returns its register; a read of the low half of
a latching register lets the next read return the upper half of the same moment; a wrong access returns 0 or writes nothing, and
sets HIF_ERR.ACCESS with its offset; a write of a plain register sets its defined bits, unless they are frozen, and no other register.
A tenant's view (06 R158, R160) shows its number, its partitions and their state words, and zero elsewhere; a write of it is discarded. -/
def Sys2Proof.Claims.setupAccesses : Prop :=
  ∀ s : State, s.barLive = true →
    (∀ off, off % 8 = 0 → exec (.setupRead ⟨.setup, off⟩ .w64) s = .next { s with
      shadow := none, free := s.free + (if (fam off 0x540100 8 14).isSome then 1 else 0),
      out := s.out ++ [.setupData (s.readReg off)] }) ∧
    (∀ off, off % 8 = 0 → latches off = true →
      ∃ u, exec (.setupRead ⟨.setup, off⟩ .w32) s = .next u ∧ u.out = s.out ++ [.setupData ((s.readReg off).extractLsb' 0 32 |>.setWidth 64)] ∧
        ∀ v : State, v.barLive = true → v.shadow = u.shadow →
          exec (.setupRead ⟨.setup, off + 4⟩ .w32) v = .next { v with
            shadow := none, out := v.out ++ [.setupData (s.readReg off >>> 32)] }) ∧
    (∀ off w (v : Word), wrongAccess off w →
      (∃ u, exec (.setupRead ⟨.setup, off⟩ w) s = .next u ∧ u.out = s.out ++ [.setupData 0] ∧ u.hifErr.getLsbD 0 = true ∧
        u.lastOff = BitVec.ofNat 24 off ∧ u.setup = s.setup ∧ u.tiles = s.tiles) ∧
      ∃ u, exec (.setupWrite ⟨.setup, off⟩ w v) s = .next u ∧ u.out = s.out ∧ u.hifErr.getLsbD 0 = true ∧
        u.lastOff = BitVec.ofNat 24 off ∧ u.setup = s.setup ∧ u.tiles = s.tiles) ∧
    (∀ e ∈ plainTable, ∀ v : Word, ∃ u, exec (.setupWrite ⟨.setup, e.1⟩ .w64 v) s = .next u ∧
      u.reg e.1 e.2.2.2 = (if e.2.2.1 = true ∧ s.setupLocked = true then s.reg e.1 e.2.2.2 else v.toNat &&& e.2.1) ∧
      (∀ o d, o ≠ e.1 → u.reg o d = s.reg o d) ∧ u.tiles = s.tiles ∧ u.out = s.out) ∧
    (∀ (ten : Fin 64) off, off % 8 = 0 → ∃ v : Word, exec (.setupRead ⟨.view ten, off⟩ .w64) s = .next (sent s [.setupData v]) ∧
      (off = 0 → v.extractLsb' 0 7 = BitVec.ofNat 7 (ten.val + 1) ∧
        ∀ n, n < 12 → v.getLsbD (8 + n) = decide ((s.psw n).tenant.toNat = ten.val + 1)) ∧
      (∀ n, n < 12 → off = 0x100 + 8 * n →
        v = if (s.psw n).tenant.toNat = ten.val + 1 then BitVec.ofNat 64 (s.psw n).word else 0) ∧
      (off ≠ 0 → off < 0x100 ∨ 0x160 ≤ off → v = 0)) ∧
    (∀ (ten : Fin 64) off w (v : Word), ∃ u, exec (.setupWrite ⟨.view ten, off⟩ w v) s = .next u ∧ u.hifErr.getLsbD 1 = true ∧
      u.setup = s.setup ∧ u.tiles = s.tiles ∧ u.out = s.out)

namespace Sys2Proof.Claims

/-- The features that the host port does not have (06 R156). -/
def absentFeatures : List HostFeature :=
  [.aspmL0s, .l1Substates, .pasidExecute, .pasidPrivileged, .pri, .msi, .intx, .atomicOps, .ptm, .resizableBar, .ide, .doe, .vpd,
   .cxl68, .cxlMem, .backInvalidate, .multiLogical, .cxlSwitching]

/-- Every ring stays as it was, but for the reads of descriptors that it has asked for. -/
def onlyAsked (s u : State) : Prop := ∀ r, ∃ a, u.ring r = { s.ring r with asked := a }

end Sys2Proof.Claims

/-- Functions and their control (06 R156 to R159, R166, 16 R436): a write to a VF's BAR0 sets HIF_ERR.VF_WRITE; the setup lock freezes
HIF_CTL's fields; FETCH_EN follows its bit; a CXL.cache error ends the coherent mode; a PF function-level reset disables every ring and
line and returns HIF_CTL; one of a VF disables its tenant's rings and lines and leaves the others; a configuration request is
answered with Retry until BAR0 answers; then a function advertises the features that it has and no other, CXL.cache is enabled in
256-byte flit mode only, and an address range that the host invalidates fails translation. -/
def Sys2Proof.Claims.hostFunctions : Prop :=
  ∀ s : State,
    (s.barLive = true →
      (∀ ten off v, ∃ u, exec (.vfWrite ten off v) s = .next u ∧ u.hifErr.getLsbD 1 = true ∧ u.setup = s.setup ∧ u.tiles = s.tiles ∧
        u.out = s.out) ∧
      (∀ v : Word, v.getLsbD 0 = true → ∃ u, exec (.setupLock v) s = .next u ∧ u.setupLocked = true ∧
        (∀ i, i < 14 → i ≠ 2 → i ≠ 3 → u.hifCtl.testBit i = if s.setupLocked = true then s.hifCtl.testBit i else v.getLsbD i) ∧
        u.hifCtl.testBit 14 = v.getLsbD 14) ∧
      (∀ v : Word, ∃ u, exec (.fetchEn v) s = .next u ∧ u.fetchEn = v.getLsbD 14 ∧ u.descs = s.descs ∧ onlyAsked s u ∧
        (v.getLsbD 14 = false → u.rings = s.rings) ∧
        (v.getLsbD 14 = true → s.hostLive = true → ∀ e ∈ s.rings, let c := s.rngCfg e.1
          cfgEn c = true → cfgKind c = 0 → (s.ring e.1).stopped = false → (s.ring e.1).asked < (s.ring e.1).lead →
            (u.ring e.1).asked = (s.ring e.1).lead)) ∧
      (s.hifCtl.testBit 1 = true → ∃ u, exec .cxlCacheError s = .next u ∧ u.hifErr.getLsbD 2 = true ∧ u.coherent = false ∧
        ∀ e ∈ u.lines, e.2.cached = false) ∧
      (∃ u, exec .pfFlr s = .next u ∧ u.rings = [] ∧ u.lines = [] ∧ u.hifErr = 0 ∧ u.setupLocked = false ∧ u.fetchEn = false ∧
        (∀ r, r < 8192 → cfgEn (u.rngCfg r) = false) ∧ (∀ l, l < 1024 → lineEn (u.dblCtl l) = false) ∧
        (∀ e ∈ u.descs, e.2.gone = true) ∧ u.tiles = s.tiles) ∧
      (∀ ten : Fin 64, ∃ u, exec (.vfFlr ten) s = .next u ∧
        (∀ e ∈ s.rings, cfgTenant (s.rngCfg e.1) = ten.val + 1 → cfgEn (u.rngCfg e.1) = false) ∧
        (∀ r, cfgTenant (s.rngCfg r) ≠ ten.val + 1 → u.rngCfg r = s.rngCfg r ∧ u.ring r = s.ring r) ∧
        (∀ l, l < 1024 → lineTenant (s.dblCtl l) = ten.val + 1 → lineEn (u.dblCtl l) = false) ∧
        (∀ l, l < 1024 → lineTenant (s.dblCtl l) ≠ ten.val + 1 → u.dblCtl l = s.dblCtl l) ∧
        (∀ e ∈ u.descs, e.2.tenant.toNat = ten.val + 1 → e.2.gone = true) ∧ u.tiles = s.tiles)) ∧
    (∀ fn req, s.railsOn = true →
      (s.barLive = false → exec (.configurationRequest ⟨fn, req⟩) s = .next (sent s [.configStatus true])) ∧
      (s.barLive = true →
        exec (.configurationRequest ⟨fn, .plain⟩) s = .next (sent s [.configStatus false]) ∧
        (∀ f, exec (.configurationRequest ⟨fn, .advertised f⟩) s =
          .next (sent (sent s [.configStatus false]) [.advertises fn.val f (!absentFeatures.contains f)])) ∧
        (∀ f ∈ absentFeatures, ∃ u, exec (.configurationRequest ⟨fn, .uses f⟩) s = .next u ∧
          (u.out = s.out ++ [.configStatus false] ∨ u.out = s.out ++ [.configStatus false, .unsupported fn.val]) ∧
          u.setup = s.setup ∧ u.tiles = s.tiles) ∧
        (∀ on flit256, ∃ u, exec (.configurationRequest ⟨fn, .cxlCache on flit256⟩) s = .next u ∧ u.cxlOn = (on && flit256) ∧
          (s.hifCtl.testBit 1 = true → (on && flit256) = false → s.cxlDown = false → u.cxlDown = true ∧ u.hifErr.getLsbD 2 = true)) ∧
        (∀ lo hi a n, lo ≤ a → a < hi → 0 < n → ∃ u, exec (.configurationRequest ⟨fn, .translate lo hi false⟩) s = .next u ∧
          u.hostFails a n = true)))

/-- BAR0, and the functions behind it. -/
def Obligations.HostSpace : Prop := Claims.setupAccesses ∧ Claims.hostFunctions

namespace Sys2Proof.Claims

/-- The fields of a line's and of a ring's control words as R163 and R165 ask for them: the kind, the size and the tenant are legal, the
line is enabled for the tenant, a submission ring names an enabled completion ring of its tenant, and a tenant has one event ring. -/
def goodRing (s : State) (r c : Nat) : Prop :=
  cfgKind c ≤ 2 ∧ 6 ≤ cfgLog2 c ∧ cfgLog2 c ≤ 16 ∧ cfgTenant c ≤ 64 ∧
  lineEn (s.dblCtl (cfgDbl c)) = true ∧ lineTenant (s.dblCtl (cfgDbl c)) = cfgTenant c ∧
  (cfgKind c = 0 → let q := s.rngCfg (cfgCq c); cfgEn q = true ∧ cfgKind q = 1 ∧ cfgTenant q = cfgTenant c) ∧
  (cfgKind c = 2 → ∀ e ∈ s.rings, e.1 ≠ r → let d := s.rngCfg e.1; ¬ (cfgEn d = true ∧ cfgKind d = 2 ∧ cfgTenant d = cfgTenant c))

/-- A completion ring that an enabled submission ring names, or that holds a reservation (06 R163). -/
def ringInUse (s : State) (r : Nat) : Prop :=
  cfgKind (s.rngCfg r) = 1 ∧ ((s.ring r).reserved ≠ 0 ∨ ∃ e ∈ s.rings, let d := s.rngCfg e.1
    cfgEn d = true ∧ cfgKind d = 0 ∧ cfgCq d = r)

end Sys2Proof.Claims

/-- Rings and lines (R162 to R168, R184): enabling a line takes its control word, with EN only for a legal tenant; enabling a ring that
meets every condition starts it empty at its slot's value, read with the ring's function and PASID, one that does not leaves EN 0 with
its error code, and a failed slot read stops it; a disabled ring stops fetching, a completion ring in use refuses; a snoop is answered and
its line read; a poll reads the lowest enabled line once the interval has passed and every read of the last sweep is over; a line read
gives each submission ring its lead, and a failed one sets HIF_ERR; a moderation timer that has expired and an unmasked vector send
their message. -/
def Obligations.RingsRun : Prop :=
  ∀ s : State,
    (∀ (l : LineNo) (v : Word), s.barLive = true → lineEn (s.dblCtl l.val) = false →
      let w := v.toNat % 2 ^ 29
      ∃ u, exec (.doorbellLineEnable l v) s = .next u ∧
        u.dblCtl l.val = (if w % 2 = 1 ∧ w / 2 % 128 ≤ 64 then w else w - w % 2) ∧
        (∀ m, m ≠ l.val → u.dblCtl m = s.dblCtl m) ∧ u.rings = s.rings) ∧
    (∀ (r : RingNo) (v : Word), s.barLive = true → cfgEn (s.rngCfg r.val) = false → v.getLsbD 0 = true →
      (goodRing s r.val v.toNat → s.ringCount (cfgTenant v.toNat) < 512 →
        (∀ b, b.length = 8 → ∃ u, exec (.ringEnable r v (.ok b)) s = .next u ∧ u.rngCfg r.val = v.toNat ∧
          (u.ring r.val).pkgIndex = BitVec.ofNat 32 (fieldLE b 0 4) ∧ (u.ring r.val).hostIdx = BitVec.ofNat 32 (fieldLE b 0 4) ∧
          (u.ring r.val).lead = 0 ∧ (u.ring r.val).stopped = false ∧ (∀ q, q ≠ r.val → u.ring q = s.ring q) ∧
          u.out = s.out ++ [.hostRead ⟨cfgTenant v.toNat, (s.lineWho (cfgDbl v.toNat)).pasid⟩
            (s.dblAddr (cfgDbl v.toNat) + 8 * cfgSlot v.toNat) 8]) ∧
        ∃ u, exec (.ringEnable r v .translation) s = .next u ∧ (u.ring r.val).stopped = true ∧ (u.ring r.val).err = 4 ∧
          u.hifErr.getLsbD 3 = true) ∧
      (¬ goodRing s r.val v.toNat → ∀ rd, ∃ u, exec (.ringEnable r v rd) s = .next u ∧ cfgEn (u.rngCfg r.val) = false ∧
        (u.ring r.val).err = 1) ∧
      (goodRing s r.val v.toNat → 512 ≤ s.ringCount (cfgTenant v.toNat) → ∀ rd, ∃ u, exec (.ringEnable r v rd) s = .next u ∧
        cfgEn (u.rngCfg r.val) = false ∧ (u.ring r.val).err = 2)) ∧
    (∀ (r : RingNo) (v : Word), s.barLive = true → cfgEn (s.rngCfg r.val) = true → v.getLsbD 0 = false →
      ∃ u, exec (.ringDisable r v) s = .next u ∧
        (ringInUse s r.val → (u.ring r.val).err = 6 ∧ u.rngCfg r.val = s.rngCfg r.val) ∧
        (¬ ringInUse s r.val → cfgEn (u.rngCfg r.val) = false ∧ (u.ring r.val).lead = 0 ∧ (u.ring r.val).stopped = false)) ∧
    (∀ l : LineNo, s.hostLive = true → lineEn (s.dblCtl l.val) = true →
      (s.coherent = true → ∃ u, exec (.snoopInvalidation l) s = .next u ∧ .snoopAnswer (s.dblAddr l.val) ∈ u.out ∧
        (u.line l.val).busy = true ∧ (u.line l.val).cached = false ∧
        ((s.line l.val).busy = false → .rdShared (s.lineWho l.val) (s.dblAddr l.val) ∈ u.out) ∧
        ((s.line l.val).busy = true → (u.line l.val).again = true)) ∧
      (let span := 1600 * (if s.coherent = true then 1000 else max 1 (min 1000 (s.hifCtl / 16 % 1024)))
       s.linesOn.head? = some l.val → (∀ m ∈ s.linesOn, m < s.pollNext ∧ (s.line m).busy = false) → s.pollAt + span ≤ s.now →
       ∃ u, exec .doorbellPoll s = .next u ∧ (u.line l.val).busy = true ∧ u.pollAt = s.now ∧
        (if s.coherent = true then .rdShared (s.lineWho l.val) (s.dblAddr l.val)
         else .hostRead (s.lineWho l.val) (s.dblAddr l.val) 64) ∈ u.out) ∧
      (∀ b, b.length = 64 → ∃ u, exec (.doorbellRead l (.ok b)) s = .next u ∧
        (∀ r ∈ s.ringsOfLine l.val, cfgKind (s.rngCfg r) = 0 → (s.ring r).stopped = false →
          let lead := (BitVec.ofNat 32 (fieldLE b (8 * cfgSlot (s.rngCfg r)) 4) - (s.ring r).pkgIndex).toNat
          (lead < 2 ^ cfgLog2 (s.rngCfg r) → (u.ring r).lead = lead ∧ (u.ring r).stopped = false) ∧
          (2 ^ cfgLog2 (s.rngCfg r) ≤ lead → lead < 2 ^ 31 → (u.ring r).stopped = true ∧ (u.ring r).err = 3))) ∧
      (∃ u, exec (.doorbellRead l .error) s = .next u ∧ u.hifErr.getLsbD 4 = true ∧ u.rings = s.rings)) ∧
    (∀ (r : RingNo) (d : Nat), (s.ring r.val).timer = some d → d < s.now →
      let c := s.rngCfg r.val
      ∃ u, exec (.moderationTimer r) s = .next u ∧ (u.ring r.val).unsent = 0 ∧ (u.ring r.val).timer = none ∧
        ((SMap.get (true, false) s.msix (cfgTenant c * 64 + cfgVector c)).1 = false →
          SMap.find? s.msixAt (cfgTenant c * 64 + cfgVector c) ≠ some s.now → let m := SMap.get (0, 0) s.msixTab (cfgTenant c * 64 + cfgVector c)
          u.out = s.out ++ [.msix (cfgTenant c) (cfgVector c) m.1 m.2])) ∧
    (∀ (fn : TenantNo) (vec : BitVec 6), s.barLive = true → let k := fn.val * 64 + vec.toNat
      ∃ u, exec (.msixVectorUnmask fn vec) s = .next u ∧ SMap.get (true, false) u.msix k = (false, false) ∧
        ((SMap.get (true, false) s.msix k).2 = true → SMap.find? s.msixAt k ≠ some s.now → let m := SMap.get (0, 0) s.msixTab k
          u.out = s.out ++ [.msix fn.val vec.toNat m.1 m.2]) ∧
        ((SMap.get (true, false) s.msix k).2 = false → u.out = s.out))

namespace Sys2Proof.Claims

/-- The sixteen bytes of a completion entry (06 R179). -/
def entryBytesOf (d : Desc) (head ring phase st info value : Nat) : List Byte :=
  leBytes 4 (fieldLE d.bytes 4 4) ++ leBytes 2 head ++ leBytes 2 (ring % 8192 + 32768 * phase) ++
    [BitVec.ofNat 8 st, BitVec.ofNat 8 (fieldLE d.bytes 1 1)] ++ leBytes 2 (info % 32768 + (if d.late = true then 32768 else 0)) ++
    leBytes 4 value

/-- A descriptor has completed (06 R162, R173, R179): it is gone, its ring's and its completion ring's counts have moved, and its entry
stands at the completion ring's producer index, unless NOCMPL dropped it, its rings were reset, or its completion ring is stopped. -/
def ended (s u : State) (k : DescKey) (d : Desc) (st info value : Nat) : Prop :=
  let g := s.ring k.ring.val
  let q := s.ring d.cq
  let c := s.rngCfg d.cq
  let a := s.rngBase d.cq + q.pkgIndex.toNat % 2 ^ cfgLog2 c * 16
  u.desc? k = none ∧ (u.ring k.ring.val).inflight = g.inflight - 1 ∧ (u.ring k.ring.val).completed = g.completed + 1 ∧
  (u.ring d.cq).reserved = q.reserved - 1 ∧
  (d.gone = false → (d.bytes.getD 2 0).getLsbD 2 = false ∨ st ≠ 0 → q.stopped = false → s.hostFails a 16 = false →
    (u.ring d.cq).pkgIndex = q.pkgIndex + 1 ∧
    .hostWrite (s.ringWho d.cq) a (entryBytesOf d g.pkgIndex.toNat k.ring.val
      (if q.pkgIndex.toNat / 2 ^ cfgLog2 c % 2 = 0 then 1 else 0) st info value) ∈ u.out)

/-- `v` is `s` after descriptor `d`, with bytes `b`, of ring `r` has been taken (06 R165, R173): it carries the ring's tenant, completion ring
and PASID, the ring's index and counts have moved, its lead has fallen, and a slot of its completion ring is reserved. -/
def taken (s v : State) (r : RingNo) (b : List Byte) (d : Desc) : Prop :=
  let c := s.rngCfg r.val
  let g := s.ring r.val
  v = { s with rings := v.rings, descs := s.descs ++ [(⟨r, g.pkgIndex⟩, d)] } ∧
  d.bytes = b ∧ d.tenant = BitVec.ofNat 7 (cfgTenant c) ∧ d.cq = cfgCq c ∧ d.pasid = (s.ringWho r.val).pasid ∧
  d.ready = true ∧ d.busy = false ∧ d.late = false ∧ d.gone = false ∧
  (v.ring r.val).pkgIndex = g.pkgIndex + 1 ∧ (v.ring r.val).lead = g.lead - 1 ∧ (v.ring r.val).inflight = g.inflight + 1 ∧
  (v.ring r.val).started = g.started + 1 ∧ (v.ring (cfgCq c)).reserved = (s.ring (cfgCq c)).reserved + 1

/-- A started descriptor of a class whose time has come. -/
def ready (s : State) (k : DescKey) (d : Desc) (cls : Nat) : Prop :=
  s.desc? k = some d ∧ s.railsOn = true ∧ d.ready = true ∧ d.busy = false ∧ d.wiped = false ∧ fieldLE d.bytes 1 1 = cls

end Sys2Proof.Claims

/-- DESCRIPTOR_FETCH (R171, R173): the next descriptor of a ring with a lead, whose read has been sent, starts: the ring's index moves on,
its lead falls, and a slot of its completion ring is reserved; a refused one starts in this way and completes at once with its status
and INFO; a failed read stops the ring with ERR 0x04. -/
def Obligations.DescriptorsStart : Prop :=
  ∀ (s : State) (r : RingNo),
    let c := s.rngCfg r.val
    let g := s.ring r.val
    let k : DescKey := ⟨r, g.pkgIndex⟩
    s.hostLive = true → s.fetchEn = true → cfgEn c = true → cfgKind c = 0 → g.stopped = false → g.lead ≠ 0 → g.asked ≠ 0 →
    g.inflight < 256 → s.slotFree (cfgCq c) = true → s.desc? k = none →
    (∀ b, b.length = 64 → refusalOf (cfgTenant c) b = none → fieldLE b 8 8 = 0 → (b.getD 2 0).getLsbD 1 = false →
      ∃ u d, exec (.descriptorFetch r (.ok b)) s = .next u ∧ taken s u r b d) ∧
    (∀ b st info, b.length = 64 → refusalOf (cfgTenant c) b = some (st, info) →
      ∃ u v d, exec (.descriptorFetch r (.ok b)) s = .next u ∧ taken s v r b d ∧ ended v u k d st info 0) ∧
    (∃ u, exec (.descriptorFetch r .error) s = .next u ∧ (u.ring r.val).stopped = true ∧ (u.ring r.val).err = 4 ∧
      u.hifErr.getLsbD 4 = true ∧ u.descs = s.descs)

/-- The classes that the host interface itself carries out (R174 to R178, 17 R470): a job launch whose partitions belong to its tenant
and are in service starts the job, when its ring's turn has come, on every one of them and on their tiles; one with a partition that does
not belong to it completes with status 0x05 and the partition, one with a partition that is not in service with 0x06; a DMA from the host reads the source, and completes with the bytes moved; a Lay-scheduled event and the
four diagnostics complete with their values. -/
def Obligations.DescriptorClasses : Prop :=
  ∀ (s : State) (k : DescKey) (d : Desc),
    let set := psetList (BitVec.ofNat 12 (fieldLE d.bytes 0x10 2))
    let buf := fieldLE d.bytes 0x18 8
    let copies (i : Instr) (recs : List (List Byte)) : Prop :=
      let b := fitRecords (fieldLE d.bytes 0x20 4) recs
      (b = [] → ∃ u, exec i s = .next u ∧ ended s u k d 0 0 0) ∧
      (b ≠ [] → s.hostFails buf b.length = false →
        ∃ u, exec i s = .next u ∧ ended s u k d 0 0 b.length ∧ .hostWrite ⟨d.tenant.toNat, d.pasid⟩ buf b ∈ u.out)
    (ready s k d 1 → s.setHeld set = false → s.launchTurn k.ring.val = true →
      ((∀ n ∈ set, (s.psw n).tenant = d.tenant ∧ (s.psw n).inService = true ∧ s.longIdle n = false) →
        s.job? k = none →
        ∃ u j, exec (.jobLaunch k) s = .next u ∧ u.job? k = some j ∧ j.admitted = set ∧ j.tiles = set.flatMap s.tilesOf ∧
          (∀ n ∈ set, (s.psw n).state = .idle → (u.psw n).state = .active) ∧
          (∀ n ∈ set, ∀ t ∈ s.tilesOf n, (s.tile t).running = false → (s.tile t).halted = false →
            (u.tile t).running = true ∧ (u.tile t).cst = ⟨0, 1, false, true⟩ ∧ (u.tile t).key = k ∧
            (u.tile t).pc = BitVec.ofNat 64 (fieldLE d.bytes 0x14 4))) ∧
      (∀ n rest, set.filter (fun m => (s.psw m).tenant != d.tenant) = n :: rest →
        ∃ u, exec (.jobLaunch k) s = .next u ∧ ended s u k d 5 n 0 ∧ u.tiles = s.tiles) ∧
      (∀ n rest, (∀ m ∈ set, (s.psw m).tenant = d.tenant) → set.filter (fun m => !(s.psw m).inService) = n :: rest →
        ∃ u, exec (.jobLaunch k) s = .next u ∧ ended s u k d 6 n 0 ∧ u.tiles = s.tiles)) ∧
    (ready s k d 2 →
      (dmaRoom d.bytes ≠ 0 → fieldLE d.bytes 0x24 1 = 0 → ∃ u, exec (.dma k) s = .next u ∧
        u.out = s.out ++ [.hostRead ⟨d.tenant.toNat, d.pasid⟩ (fieldLE d.bytes 0x10 8) (dmaRoom d.bytes)] ∧
        u.desc? k = some { d with busy := true, aux := dmaRoom d.bytes }) ∧
      (dmaRoom d.bytes = 0 → ∃ u, exec (.dma k) s = .next u ∧ ended s u k d 0xA 0 0)) ∧
    (∀ b, s.desc? k = some d → s.railsOn = true → d.busy = true → d.wiped = false → fieldLE d.bytes 1 1 = 2 → b.length = d.aux →
      d.aux = fieldLE d.bytes 0x20 4 → b ≠ [] → fieldLE d.bytes 0x24 1 = 1 →
      ∃ u, exec (.hostDmaComplete k (.moved b)) s = .next u ∧ ended s u k d 0 0 b.length ∧
        .hostWrite ⟨d.tenant.toNat, d.pasid⟩ (fieldLE d.bytes 0x18 8) b ∈ u.out) ∧
    (ready s k d 5 → ∃ u, exec (.layScheduledEvent k) s = .next u ∧ ended s u k d 0 0 d.aux) ∧
    (ready s k d 8 →
      (fieldLE d.bytes 0x10 1 = 0 → ∃ u, exec (.diagEcho k) s = .next u ∧ ended s u k d 0 0 0) ∧
      (fieldLE d.bytes 0x10 1 = 1 → copies (.diagErrlog k)
        ((s.rst.log.filter (fun r => d.tenant == 0 || r.tenant == d.tenant.setWidth 8)).map (·.bytes))) ∧
      (fieldLE d.bytes 0x10 1 = 2 → copies (.diagProgress k)
        ((List.range 12).map (fun n => leBytes 8 (if s.seesPart d.tenant n then s.partProg n else 0)) ++
          (s.rings.filter (fun e => cfgEn (s.rngCfg e.1) && (d.tenant == 0 || cfgTenant (s.rngCfg e.1) == d.tenant.toNat))).map
            (fun e => s.ringRecord e.1))) ∧
      (fieldLE d.bytes 0x10 1 = 3 → copies (.diagPrtstate k)
        ((List.range 12).map (fun n => leBytes 8 (if s.seesPart d.tenant n then (s.psw n).word else 0)))))

/-! ## 07 Packets, routing and circuits -/

namespace Sys2Proof.Claims

/-- Nothing in the address or the range of a request is at fault (01 R26). -/
def goodTarget (p : Packet) : Prop :=
  gaFault p.addr (p.typ == 0 || p.typ == 3) = false ∧ gaRangeFault p.addr (Packet.len p) = false ∧ p.lengthOk = true ∧ p.tail = .good

/-- The packet comes to its place: `v` is `s` without the flight that brought it, and `d` the port where that flight ended; a packet
that no flight carries comes from outside, and `v` is `s` (05 R138; the model's reading of log 177). -/
def comes (s v : State) (p : Packet) (d : Option MPort) : Prop := s.arrive (fun x => !x.isSeam) p = some (v, d)

/-- The command that serves a packet of a request type at its target (07 R194). -/
def serving (p : Packet) (i : Instr) : Prop :=
  (p.typ = 0 ∧ i = .rd p) ∨ (p.typ = 1 ∧ i = .wr p) ∨ (p.typ = 2 ∧ i = .wrp p) ∨ (p.typ = 3 ∧ i = .atm p) ∨
  (p.typ = 4 ∧ i = .push p) ∨ (p.typ = 5 ∧ i = .fwr p)

end Sys2Proof.Claims

/-- RD, WR, WRP, ATM, PUSH and FWR at their targets (R194, R202; 05 R145): a request for a stack is admitted there; one that the mesh has
brought to a tile's port is served there, and one at the partition port goes to the tile that carries its id, on a channel that the port
has then used; in the control complex's SRAM a read answers the bytes, a write puts its payload at its offset, an atomic answers the old
word and writes the new one, and a PUSH sends the bytes on; an address in no region is answered with its status. Nothing else changes. -/
def Sys2Proof.Claims.requestsAtTargets : Prop :=
  ∀ (s v : State) (p : Packet) (i : Instr) (d : Option MPort), serving p i → s.railsOn = true → comes s v p d →
    let o := gaOffset p.addr
    let len := Packet.len p
    (goodTarget p → gaRegion p.addr = 0 → ∀ n : PartNo, n.val = s.stackOfAddr p.addr → cameToStack s n.val p v →
      exec i s = exec (.stackRequest n p) s) ∧
    (∀ t : TileNo, goodTarget p → gaRegion p.addr = 1 → d = some (.tile t.val) → exec i s = .next (v.tileInbound t.val p)) ∧
    (∀ t : TileNo, goodTarget p → gaRegion p.addr = 1 → (∀ x, d ≠ some (.tile x)) → s.barred (gaLtid p.addr / 70) = false →
      s.moving (gaLtid p.addr) = false → s.physOf (gaLtid p.addr) = some t.val →
      let n := gaLtid p.addr / 70
      let q := s.part n
      let u := { v with parts := SMap.set s.parts n { q with
        portUsed := SMap.set q.portUsed (t.val % 72) (SMap.get 0 q.portUsed (t.val % 72) ||| 2 ^ meshChan p.typ) } }
      exec i s = .next (u.tileInbound t.val p)) ∧
    (goodTarget p → gaRegion p.addr = 2 → p.tenant = 0 →
      (p.typ = 0 → exec i s = .next (v.answer p 0 (s.ccSram.readN o len))) ∧
      (p.typ = 1 ∨ p.typ = 2 ∨ p.typ = 5 → ∃ m, Memory.readN m o p.payload.length = p.payload ∧
        (∀ b, b < o ∨ o + p.payload.length ≤ b → Memory.read m b = s.ccSram.read b) ∧
        exec i s = .next (({ v with ccSram := m } : State).answer p 0 [])) ∧
      (∀ op, op ≤ 4 → p.typ = 3 → fieldLE p.payload 16 8 = op →
        let old : Word := BitVec.ofNat 64 (leNat (s.ccSram.readN o 8))
        let w := atomic op (BitVec.ofNat 64 (fieldLE p.payload 0 8)) (BitVec.ofNat 64 (fieldLE p.payload 8 8)) old
        exec i s = .next (({ v with ccSram := s.ccSram.writeN o (leBytes 8 w.toNat) } : State).answer p 0 (s.ccSram.readN o 8))) ∧
      (p.typ = 4 → exec i s = .next (v.sendPkt (v.targetPort p) { p with
        addr := BitVec.ofNat 64 (fieldLE p.payload 0 8), typ := 5, plen := BitVec.ofNat 13 (s.ccSram.readN o len).length,
        payload := s.ccSram.readN o len }))) ∧
    (p.lengthOk = true → p.tail = .good → regionOk p.addr = false → ∃ u, exec i s = .next u ∧
      u.out = s.out ++ (if p.typ = 2 then [] else [.packet (p.replyTo 2 [])]) ∧
      u.router.address = satAdd s.router.address 1 0xFFFF ∧ u.tiles = s.tiles ∧ u.stks = s.stks ∧ u.ccSram = s.ccSram)

/-- RDR and ACK at a tile (R202, R203, 02 R53, R57): the reply of a global read puts its data into RD and the core goes on; an
acknowledgement frees the write's space; a Retry marks the request, which is then sent again 256 fc later; a failed read takes vector
0x0B with the address; a reply to a piece of a transfer joins it. Every reply space that comes free lets the transfers of the tile
go on. -/
def Sys2Proof.Claims.repliesAtTiles : Prop :=
  ∀ (s v : State) (p : Packet) (n : TileNo) (e : Outst) (d : Option MPort),
    let x := s.tile n.val
    let rid := p.replyRid.toNat
    s.railsOn = true → comes s v p d → rid / 64 < 840 → s.physOf (rid / 64) = some n.val → e.old = false →
    e.gen = (s.psw (n.val / 72)).gen → e.retry = false → e.kind ≠ 5 → x.drain = none →
    (p.typ = 6 → SMap.find? x.reads (rid % 64) = some e →
      let y := { x with reads := SMap.del x.reads (rid % 64) }
      let w := (withTile v n.val y).dmaPumpAll n.val
      let z := w.tile n.val
      (∀ rd, e.dma = none → z.wait = .reply rd (rid % 64) → awake z = true →
        (p.status = 0 → calm z = true → exec (.rdr p) s =
          .next (ran w n.val (z.setReg rd (BitVec.ofNat 64 (fieldLE p.payload 0 8))) (z.pc + 4))) ∧
        (2 ≤ p.status → z.cst.frm ≠ 7 → z.cst.dep ≠ 6 → ∃ u, exec (.rdr p) s = .next u ∧
          u.tile n.val = { entered z 0xB 0 e.addr with wait := .none })) ∧
      (∀ h i X, e.dma = some (h, i) → x.handles.toList.getD h .free = .running X → X.failed = none → p.status = 0 →
        exec (.rdr p) s = .next (((withTile (withTile v n.val y) n.val { y with
          handles := x.handles.setIfInBounds h (.running { X with got := X.got ++ [(i, 0, p.payload)] }) }).dmaPumpAll
            n.val).settle n.val)) ∧
      (p.status = 1 → exec (.rdr p) s = .next (withTile v n.val
        { x with reads := SMap.set x.reads (rid % 64) { e with retry := true, due := s.now + 256 } }))) ∧
    (p.typ = 7 → p.status = 0 → e.dma = none → SMap.find? x.writes (rid % 64) = some e →
      let w := (withTile v n.val { x with writes := SMap.del x.writes (rid % 64) }).dmaPumpAll n.val
      exec (.ack p) s = .next (w.settle n.val))

/-- Packets at their targets, and replies at the tiles. -/
def Obligations.PacketsAtTargets : Prop := Claims.requestsAtTargets ∧ Claims.repliesAtTiles

namespace Sys2Proof.Claims

/-- A request, a write or a reply of this package with neither an extension nor a detour, before it is routed. -/
def plainPacket (p : Packet) : Prop :=
  p.ver = 1 ∧ p.typ.toNat ≤ 7 ∧ p.phase = 0 ∧ p.nonmin = false ∧ p.ext = 0 ∧ p.exts = [] ∧ p.lengthOk = true ∧ p.tail = .good

/-- A tag of a type that expects a reply is answered with a status. -/
def answered (s u : State) (p : Packet) (status : Nat) : Prop :=
  u.out = s.out ++ (if p.hasReply = true then [.packet (p.replyTo status [])] else [])

/-- The packet reaches the router from the spine, or from the seam ports of a partition, where the mesh has brought it (05 R141); one that
stays on its die does not come there (01 R11). `v` is the state without its flight. -/
def reachesRouter (s v : State) (src : PktSource) (p : Packet) : Prop :=
  src = .spine ∧ v = s ∨ ∃ n d, src = .part n ∧
    s.arrive (fun d => match d with | .seam e q => seamOwner e q == n.val | _ => false) p = some (v, d) ∧
    ¬ (gaChip p.addr = s.ownChip ∧ p.extOf 1 = none ∧ (s.destOf .spine p).east = some (decide (6 ≤ n.val)))

end Sys2Proof.Claims

/-- PACKET_ROUTE and TAIL_CHECK (R192, R200, R201, R207, R208, 01 R27): without a record only chip 0 is known; a packet for this package is
delivered as it is; one for a chip the record does not list is unreachable; in an all-to-all package a packet for another member of the
own group leaves by a port that leads to it; a wrong version is malformed and goes nowhere; a wrong length is answered Malformed; a
failed tail is counted, and answered with Damaged where nothing was forwarded. -/
def Obligations.PacketsRouted : Prop :=
  ∀ (s v : State) (p : Packet), s.railsOn = true →
    (∀ src, reachesRouter s v src p →
      (plainPacket p → p.typ = 6 ∨ p.typ = 7 →
        (s.router.topo = none → gaChip p.addr = 0 → exec (.packetRoute src p) s = .next (v.sendPkt .spine p)) ∧
        (s.router.topo = none → gaChip p.addr ≠ 0 → ∃ u, exec (.packetRoute src p) s = .next u ∧ answered s u p 9 ∧
          u.router.unreach = satAdd s.router.unreach 1 0xFFFF ∧ u.ports = s.ports)) ∧
      (∀ t, s.router.topo = some t → plainPacket p → p.typ ≠ 2 → t.lists p.chip = false →
        ∃ u, exec (.packetRoute src p) s = .next u ∧ answered s u p 9 ∧ u.router.unreach = satAdd s.router.unreach 1 0xFFFF) ∧
      (∀ t, s.router.topo = some t → plainPacket p → p.typ = 6 ∨ p.typ = 7 → 1 ≤ t.shape → t.shape ≤ 3 → t.lists p.chip = true →
        (p.chip = t.chip → exec (.packetRoute src p) s = .next (v.sendPkt .spine p)) ∧
        (p.chip ≠ t.chip → p.chip / 16 = t.chip / 16 → s.localPorts t (p.chip % 16) ≠ [] →
          ∃ q, q ∈ s.localPorts t (p.chip % 16) ∧ exec (.packetRoute src p) s = .next (v.linkSend q 3 p true))) ∧
      (p.ver ≠ 1 → exec (.packetRoute src p) s = .next { v with
        router := { s.router with malformed := satAdd s.router.malformed 1 0xFFFF } }) ∧
      (p.ver = 1 → p.typ.toNat ≤ 13 → p.phase ≠ 3 → p.extsOk = true → p.lengthOk = false →
        ∃ u, exec (.packetRoute src p) s = .next u ∧ answered s u p 8 ∧ u.router.framing = satAdd s.router.framing 1 0xFFFF)) ∧
    (∀ src fwd,
      (p.tail = .bad → ∃ u, exec (.tailCheck src p fwd) s = .next u ∧ u.router.framing = satAdd s.router.framing 1 0xFFFF ∧
        (fwd = false → answered s u p 12) ∧ (fwd = true → p.short = false → u.out = s.out) ∧ u.tiles = s.tiles) ∧
      (p.tail = .stomped → ∃ u, exec (.tailCheck src p fwd) s = .next u ∧ u.router.stomped = satAdd s.router.stomped 1 0xFFFF ∧
        (p.chip = s.ownChip.toNat → answered s u p 12) ∧ (p.chip ≠ s.ownChip.toNat → u.out = s.out)))

namespace Sys2Proof.Claims

/-- The circuit extension's owner and CID (07 R219). -/
def names (p : Packet) (e : Ext) (owner cid : Nat) : Prop :=
  p.extOf 2 = some e ∧ p.extOf 1 = none ∧ e.field 2 16 = owner ∧ e.field 4 12 = cid

/-- A circuit packet as a link port delivers it to the router, its header without fault; `v` is the state in which the router holds it. -/
def circuitIn (s v : State) (q : PortNo) (p : Packet) (t : Topo) : Prop :=
  s.rxTake q.val p = some v ∧
  s.railsOn = true ∧ s.router.topo = some t ∧ t.lists p.chip = true ∧ (s.port q.val).inService = true ∧ p.ver = 1 ∧ p.phase ≠ 3 ∧
  p.extsOk = true ∧ p.lengthOk = true ∧ p.tail = .good ∧ s.isLate p = false

/-- The acknowledgement of a set-up, a release or an END (07 R223 to R225) has been sent. -/
def acked (u : State) (p : Packet) : Prop := ∃ k, .packet k ∈ u.out ∧ k.typ = 7 ∧ k.addr = replyAddr p.rid 0 p.srcChip

end Sys2Proof.Claims

/-- Circuits in a router (R219 to R226): a set-up that reaches its destination in time, with a share of 1 to 48, leaves one entry for its
owner and CID and is acknowledged; a release frees the entry, and is acknowledged by the last router, or by the first that holds none; a
circuit packet goes onward by its entry alone, on the channel and in the phase of its circuit, is counted where no entry answers it, and
an END frees the entry; a port that leaves service empties its queues; the owner of a broken circuit, and one whose END stays unanswered past its time, frees its entry. -/
def Obligations.CircuitsForwarded : Prop :=
  ∀ (s v : State) (q : PortNo) (p : Packet) (t : Topo) (e : Ext) (owner cid : Nat),
    (circuitIn s v q p t → names p e owner cid →
      (p.typ = 9 → p.chip = t.chip → t.shape ≤ 3 → p.phase = 0 → p.nonmin = false → s.router.ckts.length < 4096 →
        1 ≤ e.field 6 6 → e.field 6 6 ≤ 48 →
        ∃ u c, exec (.csu (.port q) p) s = .next u ∧ u.router.ckt owner cid = some c ∧ c.inPort = some q.val ∧ c.out = none ∧
          c.tenant = p.tenant ∧ c.broken = false ∧ c.share = e.field 6 6 ∧ acked u p) ∧
      (p.typ = 10 → s.router.ckt owner cid = none → ∃ u, exec (.crl (.port q) p) s = .next u ∧ u.router.ckts = s.router.ckts ∧ acked u p) ∧
      (∀ c, p.typ = 10 → s.router.ckt owner cid = some c →
        ∃ u, exec (.crl (.port q) p) s = .next u ∧ u.router.ckt owner cid = none ∧ (c.out = none → acked u p)) ∧
      (s.routeOf t p (some q.val) none ≠ .misroute →
        (p.typ = 8 → e.field 1 2 % 2 = 0 → s.router.ckt owner cid = none → ∃ u, exec (.ckt (.port q) p) s = .next u ∧
          u.router.circuit = satAdd s.router.circuit 1 0xFFFF ∧ u.router.ckts = s.router.ckts ∧ u.tiles = s.tiles) ∧
        (∀ c r, p.typ = 8 → e.field 1 2 % 2 = 0 → s.router.ckt owner cid = some c → c.inPort = some q.val → c.tenant = p.tenant →
          c.broken = false → c.out = some r →
          exec (.ckt (.port q) p) s =
            .next ((v.portSend r (9 + c.chan) { p with phase := BitVec.ofNat 2 c.phase }).handDone)) ∧
        (∀ c, p.typ = 8 → e.field 1 2 % 2 = 1 → s.router.ckt owner cid = some c → c.inPort = some q.val → c.tenant = p.tenant →
          ∃ u, exec (.circuitEnd (.port q) p) s = .next u ∧ u.router.ckt owner cid = none))) ∧
    (s.railsOn = true → (s.port q.val).leaving = true → (s.port q.val).inService = false → ∃ u, exec (.portLeaveService q) s = .next u ∧
      (u.port q.val).leaving = false ∧ (u.port q.val).replay = [] ∧ (u.port q.val).txq = .replicate 12 [] ∧ ∀ c ∈ u.router.ckts, c.inPort ≠ some q.val) ∧
    (∀ c : Ckt, s.railsOn = true → s.ownCkt c.cid.toNat = some c → c.refs = 0 → s.staging.forming = [] →
      (∃ u, exec (.circuitBrokenNotice s.ownChip c.cid) s = .next u ∧ u.ownCkt c.cid.toNat = none ∧
        u.router.cktBroken = satAdd s.router.cktBroken 1 0xFFFF) ∧
      (∀ d, c.closing = true → c.due = some d → d ≤ s.now →
        ∃ u, exec (.teardownAckTimeout s.ownChip c.cid) s = .next u ∧ u.ownCkt c.cid.toNat = none))

/-- The record of the topology (R189 to R191): a record that breaks a condition is rejected with its code, which is reported, and the one
in force stays; an accepted one whose time has come, or that has none, takes effect at once; one for later waits, and its activation
puts it in force. -/
def Obligations.TopologyRecords : Prop :=
  ∀ (s : State) (rec_ : List Byte), rec_.length = 4928 → s.railsOn = true →
    let t : Topo := ⟨rec_, BitVec.ofNat 64 (fieldLE rec_ 0x18 8)⟩
    (s.topoReject t ≠ 0 → ∃ u, exec (.topologyAccept rec_) s = .next u ∧ u.router.topo = s.router.topo ∧
      u.router.reject = BitVec.ofNat 8 (s.topoReject t) ∧ u.router.nextTopos = s.router.nextTopos) ∧
    (s.topoReject t = 0 → t.actLt = 0 ∨ t.actLt.toNat ≤ s.lay.time.toNat →
      ∃ u, exec (.topologyAccept rec_) s = .next u ∧ u.router.topo = some t) ∧
    (s.topoReject t = 0 → s.lay.time.toNat < t.actLt.toNat → s.lay.freeEntry false ≠ none →
      ∃ u, exec (.topologyAccept rec_) s = .next u ∧ u.router.topo = s.router.topo ∧ u.router.nextTopos = s.router.nextTopos ++ [t] ∧
        ∃ i, u.lay.cal = s.lay.cal ++ [⟨t.actLt, s.lay.armNo, false, .topology, i⟩]) ∧
    (∀ c, firstDue s.dues = some (.pkg c) → c.ev = .topology → s.router.nextTopos.find? (fun r => r.actLt == c.lt) = some t →
      ∃ u, exec .topologyActivation s = .next u ∧ u.router.topo = some t ∧ ∀ x ∈ u.lay.cal, x.slot ≠ c.slot)

/-- Teams and circuits of a tenant (09 R269 to R272, R228): a formation that a check refuses completes with status 0x0D and the check's
code, one whose tile list is out of order or range with status 0x04 at 0x20, one whose list cannot be read with status 0x09; one of a
single package leaves the team and its multicast entry, and completes with its size; every formation reads its two lists with the ring's
function and PASID; a dissolution of no team is refused with code 1, of a team in use with code 8, and else removes both; a set-up
to a chip that may not be a destination is refused with code 3, and one that a local port leads to leaves the owner's entry, waiting for
its acknowledgement; a tear-down of a circuit that is not up is refused with code 5, and one of a circuit in use closes it. -/
def Obligations.TeamsAndCircuits : Prop :=
  ∀ (s : State) (k : DescKey) (d : Desc),
    let dst := fieldLE d.bytes 0x14 2
    (ready s k d 3 → fieldLE d.bytes 0x10 1 = 0 →
      (∀ gm tl, (∀ b, gm = .ok b → b.length = 256) → (∀ b, tl = .ok b → b.length = 2 * fieldLE d.bytes 0x28 2) →
        ∃ u, exec (.teamForm k gm tl) s = .next u ∧ .hostRead ⟨d.tenant.toNat, d.pasid⟩ (fieldLE d.bytes 0x18 8) 256 ∈ u.out ∧
          .hostRead ⟨d.tenant.toNat, d.pasid⟩ (fieldLE d.bytes 0x20 8) (2 * fieldLE d.bytes 0x28 2) ∈ u.out) ∧
      (∀ tl, ∃ u, exec (.teamForm k .error tl) s = .next u ∧ ended s u k d 9 0 0 ∧ u.hifErr.getLsbD 4 = true) ∧
      (∀ (g l : List Byte), g.length = 256 → l.length = 2 * fieldLE d.bytes 0x28 2 →
        (ascending (tileList l) = false ∨ (∃ i ∈ tileList l, 840 ≤ i) →
          ∃ u, exec (.teamForm k (.ok g) (.ok l)) s = .next u ∧ ended s u k d 4 0x20 0 ∧ u.staging.teams = s.staging.teams) ∧
        (ascending (tileList l) = true → (∀ i ∈ tileList l, i < 840) →
          let chips := chipSet g (fieldLE d.bytes 0x12 2)
          (∀ code, s.formRefusal d g chips = some code → ∃ u, exec (.teamForm k (.ok g) (.ok l)) s = .next u ∧
            ended s u k d 0xD code 0 ∧ u.staging.teams = s.staging.teams) ∧
          (s.formRefusal d g chips = none → chips = [s.ownChip.toNat] → s.staging.forming = [] →
            (∀ i ∈ tileList l, (s.psw (i / 70)).tenant = d.tenant) →
            ∃ u tm, exec (.teamForm k (.ok g) (.ok l)) s = .next u ∧ u.staging.teams = s.staging.teams ++ [tm] ∧ tm.tenant = d.tenant ∧
              tm.num.toNat = fieldLE d.bytes 0x11 1 ∧ tm.chips = chips ∧ tm.tlist = tileList l ∧
              SMap.find? u.router.mc (fieldLE d.bytes 0x14 2) = some ⟨g, d.tenant, fieldLE d.bytes 0x11 1⟩ ∧
              ended s u k d 0 0 (tileList l).length)))) ∧
    (ready s k d 3 → fieldLE d.bytes 0x10 1 = 1 →
      (s.team? d.tenant (fieldLE d.bytes 0x11 1) = none → ∃ u, exec (.teamDissolve k) s = .next u ∧ ended s u k d 0xD 1 0) ∧
      (∀ tm, s.team? d.tenant (fieldLE d.bytes 0x11 1) = some tm →
        (s.teamBusy tm = true → ∃ u, exec (.teamDissolve k) s = .next u ∧ ended s u k d 0xD 8 0 ∧ u.staging = s.staging) ∧
        (s.teamBusy tm = false → tm.ckts = [] → s.awaits k = false →
          ∃ u, exec (.teamDissolve k) s = .next u ∧ u.team? tm.tenant tm.num.toNat = none ∧ SMap.find? u.router.mc tm.mcIdx = none ∧
            ended s u k d 0 0 0))) ∧
    (ready s k d 4 → fieldLE d.bytes 0x10 1 = 0 →
      (dst = s.ownChip.toNat ∨ s.router.topo = none ∨ (∃ t, s.router.topo = some t ∧ t.lists dst = false) → ∃ u, exec (.circuitSetUp k) s = .next u ∧ ended s u k d 0xD 3 0) ∧
      (∀ t cid, s.router.topo = some t → 1 ≤ t.shape → t.shape ≤ 3 → t.lists dst = true → dst ≠ t.chip → dst / 16 = t.chip / 16 →
        t.chip < 65536 → s.localPorts t (dst % 16) ≠ [] → fieldLE d.bytes 0x12 1 % 2 = 0 → s.freeCid = some cid →
        s.router.ckts.length < 4096 → (∀ r, s.router.share r + fieldLE d.bytes 0x11 1 ≤ 48) →
        ∃ u c, exec (.circuitSetUp k) s = .next u ∧ u.router.ckts = s.router.ckts ++ [c] ∧ c.owner = s.ownChip ∧ c.cid.toNat = cid ∧
          c.dst.toNat = dst ∧ c.share = fieldLE d.bytes 0x11 1 ∧ c.up = false ∧ c.key = some k ∧ c.inPort = none ∧
          u.desc? k = some { d with busy := true })) ∧
    (ready s k d 4 → fieldLE d.bytes 0x10 1 = 1 →
      (s.ownCkt (fieldLE d.bytes 0x16 2 % 4096) = none → ∃ u, exec (.circuitTearDown k) s = .next u ∧ ended s u k d 0xD 5 0) ∧
      (∀ c, s.ownCkt (fieldLE d.bytes 0x16 2 % 4096) = some c → fieldLE d.bytes 0x16 2 < 4096 → c.tenant = d.tenant → c.up = true →
        c.closing = false → c.broken = false →
        ∃ u, exec (.circuitTearDown k) s = .next u ∧ u.desc? k = some { d with busy := true } ∧
          (∃ y ∈ u.router.ckts, y.owner = c.owner ∧ y.cid = c.cid ∧ y.closing = true ∧ y.key = some k)))

/-! ## 08 The link layer and training -/

namespace Sys2Proof.Claims

/-- What a lane's counter of identical TSA reads after `ts` (08 R246): a set that differs from the last one starts the count anew. -/
def tsaAfter (x : Port) (ts : TrainSeq) : Vector Nat 8 :=
  bumpLane (if x.lastTs = some { ts with typ := 0, lane := 0, check := 0 } then x.tsaCount else .replicate 8 0) ts.lane.toNat

/-- A port sends sequences of a type on its eight lanes (08 R244): each valid, with its lane, version 0x22, the rate named, and the package
and the port that send. -/
def sentTs (u : State) (p : Nat) (typ : Byte) (rate : Nat) : Prop :=
  ∃ l, .linkTs p l ∈ u.out ∧ l.length = 8 ∧ ∀ i t, l[i]? = some t → tsValid t typ = true ∧ t.lane.toNat = i ∧ t.ver = 0x22 ∧
    t.rate.toNat = rate ∧ t.chip = u.ownChip ∧ t.port.toNat = p

/-- A compensation round that shows every usable lane in place (08 R235, R250): locked, with the block of the round, none more than 16 ns
behind another. -/
def lanesTogether (x : Port) (lanes : List CmpLane) : Prop :=
  lanes.length = 8 ∧ (∀ (i : Nat) (c : CmpLane), lanes[i]? = some c → x.usable.getLsbD i = true →
    (c.valid = BitVec.allOnes 64 ∨ x.blockLock.getLsbD i = true) ∧ isCmp c.bytes = true) ∧
  ∀ (i j : Nat) (c d : CmpLane), lanes[i]? = some c → lanes[j]? = some d → x.usable.getLsbD i = true → x.usable.getLsbD j = true →
    d.time ≤ c.time + 16000

/-- A null flit as it arrives. -/
def nullIn : LinkFlit := ⟨15, List.replicate 64 0, true⟩

/-- What a port reads in the 208 bytes of a frame (08 R234, R237). -/
def frameRead (s : State) (p : Nat) (raw : List Byte) : LinkFrame := (s.rxFrame p raw).2

/-- The frame of null flits that a port sends next, with the ACK value given (08 R237, R240, R242). -/
def nullOut (x : Port) (ack : BitVec 11) (nak : Bool) : List Byte :=
  frameBytes [] x.txSeq ack nak (x.credRet.toList.map (min 7)) true

/-- A round of an ordered set, alike on every lane in use (08 R257). -/
def osRound (x : Port) (p : Nat) (b : List Byte) : Output := .linkRound p ((lanesOf x.txGood).map (fun l => (l, blockOf false b)))

end Sys2Proof.Claims

/-- Training (R243 to R250, R264): a released port goes to Align and sends TSA; what eight lanes have brought, once it makes all eight
usable, leads to Exchange with the lane map heard, and one to three usable lanes for 10 ms to Failed; TSA and TSB count by lane, TSB leaves
once TSA has been counted, and an exchange of eight each with 16 TSB sent, without a record, holds the port with cause 1; RATE sequences
count until every usable lane has eight (on the step to code 2 with 32 sent), and the rate changes; a sweep keeps the best of the 32 codes
and its EMM, a stored code below EMM_MIN is swept, lanes that pass at code 2 lead to Lock; a compensation round aligns lanes that lie within
16 ns, each good frame with RDY is counted and answered with RDY, and eight lead into operation; a stage that lasts too long, or 1 s in
Failed, starts again at Align; a far loop is taken, at the rate named or code 2, while both ends allow it, and ends at Align. -/
def Obligations.LinksTrain : Prop :=
  ∀ (s : State) (p : PortNo), s.railsOn = true →
    let x := s.port p.val
    (x.state = .down → x.held = false → s.boot.ready = true → s.router.topo = none → ∃ u, exec (.linkRelease p) s = .next u ∧
      (u.port p.val).state = .align ∧ (u.port p.val).holdCause = 0 ∧ sentTs u p.val 0x5A 2) ∧
    (∀ (plus : BitVec 8) lanes, x.state = .align → lanes.length = 8 →
      let h := lanesUsable (lanesHeard plus lanes)
      mapOk (mapHeard h) (BitVec.ofNat 8 (listMask (h.map (·.1)))) = true →
      (h.length = 8 → x.badLanes = 0 → ∃ u, exec (.alignDone p plus lanes) s = .next u ∧ (u.port p.val).state = .exchange ∧
        (u.port p.val).laneMap = mapHeard h ∧ (u.port p.val).usable = 0xFF) ∧
      (1 ≤ h.length → h.length < 4 → x.sinceTrain + 10 * fcPerMs ≤ s.now → ∃ u, exec (.alignDone p plus lanes) s = .next u ∧
        (u.port p.val).state = .failed)) ∧
    (∀ ts, x.state = .exchange → tsValid ts 0x5A = true → x.usableTx.getLsbD ts.lane.toNat = true → ∃ u, exec (.tsa p ts) s = .next u ∧
      (eightOn (tsaAfter x ts) x.usableTx = false → (u.port p.val).state = .exchange ∧ (u.port p.val).tsaCount = tsaAfter x ts) ∧
      (eightOn x.tsaCount x.usableTx = false → eightOn (tsaAfter x ts) x.usableTx = true → x.tsbAt = none →
        (u.port p.val).tsbAt = some s.now ∧ sentTs u p.val 0xA5 2)) ∧
    (∀ ts set a, x.state = .exchange → tsValid ts 0xA5 = true → x.usableTx.getLsbD ts.lane.toNat = true → x.lastTs = some set →
      x.tsbAt = some a →
      let got := bumpLane x.tsbGot ts.lane.toNat
      let all := eightOn x.tsaCount x.usableTx && eightOn got x.usableTx && decide (16 ≤ seqsSent s.now a x.rate)
      ∃ u, exec (.tsb p ts) s = .next u ∧
        (all = false → (u.port p.val).state = .exchange ∧ (u.port p.val).tsbGot = got) ∧
        (all = true → s.router.topo = none →
          (u.port p.val).state = .hold ∧ (u.port p.val).holdCause = 1 ∧ (u.port p.val).peerChip = set.chip)) ∧
    (∀ ts, x.state = .adapt → x.adaptSub = 0 → tsValid ts 0x3C = true → x.usableTx.getLsbD ts.lane.toNat = true → ts.rate.toNat = x.rateStep →
      let got := bumpLane x.rateGot ts.lane.toNat
      let go := eightOn got x.usableTx && (x.rateStep != 2 || decide (32 ≤ seqsSent s.now x.sinceTrain x.rate))
      ∃ u, exec (.rate p ts) s = .next u ∧ (u.port p.val).rateGot = got ∧ (u.port p.val).state = .adapt ∧
        (u.port p.val).adaptSub = (if go then 1 else 0) ∧ (u.port p.val).rate = if go then x.rateStep else x.rate) ∧
    (∀ (lane : Fin 8) (codes : List Sweep), x.state = .adapt → x.adaptSub = 1 → x.usable.getLsbD lane.val = true →
      x.swept.getLsbD lane.val = false →
      (∀ code m, x.stored = false → codes.length = 32 → bestCode 0 codes = some (code, m) →
        ∃ u, exec (.adaptSweepDone p lane codes) s = .next u ∧
        (u.port p.val).emm.toList.getD lane.val 0 = BitVec.ofNat 8 m ∧
        ((∃ l, l ≠ lane.val ∧ x.usable.getLsbD l = true ∧ x.swept.getLsbD l = false) →
          (u.port p.val).eq.toList.getD lane.val 0 = BitVec.ofNat 5 code ∧ (u.port p.val).state = .adapt ∧
          (u.port p.val).swept.getLsbD lane.val = true) ∧
        (x.usable = 0xFF → (∀ l, l < 8 → l ≠ lane.val → x.swept.getLsbD l = true ∧ s.emmMin ≤ (x.emm.toList.getD l 0).toNat) →
          s.emmMin ≤ m → x.rateStep = 2 → (u.port p.val).state = .lock)) ∧
      (∀ w, x.stored = true → x.checked.getLsbD lane.val = false → codes = [w] → sweepEmm w < s.emmMin →
        ∃ u, exec (.adaptSweepDone p lane codes) s = .next u ∧ (u.port p.val).state = .adapt ∧
          (u.port p.val).checked.getLsbD lane.val = true ∧ (u.port p.val).swept.getLsbD lane.val = false)) ∧
    (∀ lanes, x.state = .lock → lanesTogether x lanes → ∃ u, exec (.cmp p lanes) s = .next u ∧ (u.port p.val).aligned = true ∧
      (u.port p.val).state = .lock) ∧
    (∀ raw, x.state = .lock → x.aligned = true → raw.length = 208 →
      let f := frameRead s p.val raw
      f.tcrcOk = true → f.rdy = true →
      (x.goodTrail < 7 → ∃ u, exec (.linkFrame p raw) s = .next u ∧ (u.port p.val).goodTrail = x.goodTrail + 1 ∧
        .linkFrame p.val (frameBytes [] x.txSeq (x.rxSeq - 1) x.nakDue (List.replicate 12 0) true) ∈ u.out) ∧
      (x.goodTrail = 7 → x.rxGood = 0xFF → x.txGood = 0xFF → f.flits = List.replicate 3 nullIn → f.nak = false →
        f.cred = List.replicate 12 0 → x.anew = true → x.leaving = false → ∃ u, exec (.linkFrame p raw) s = .next u ∧
          (u.port p.val).state = .up ∧ (u.port p.val).inService = true)) ∧
    ((x.state = .exchange ∧ x.sinceTrain + fcPerMs ≤ s.now) ∨
      (x.state = .adapt ∧ x.rateStep = 1 ∧ x.attempts < 2 ∧ x.sinceTrain + 2 * fcPerMs ≤ s.now) →
      ∃ u, exec (.trainingTimeout p) s = .next u ∧ (u.port p.val).state = .align) ∧
    (x.state = .failed → x.sinceTrain + fcPerS ≤ s.now → ∃ u, exec (.failedRestart p) s = .next u ∧
      (u.port p.val).state = if s.unusedPort p.val then .hold else .align) ∧
    (∀ ts, x.state = .hold → s.offline p.val = true → bitAt (s.lnkCtl p.val) 3 = true → tsValid ts 0xC3 = true →
      ∃ u, exec (.lb p ts) s = .next u ∧ (u.port p.val).state = .loopback ∧ (u.port p.val).loopPeer = true ∧
        (u.port p.val).rate = min 2 ts.rate.toNat ∧ .linkSet p.val kLOOP (min 2 ts.rate.toNat) ∈ u.out) ∧
    (x.state = .loopback → x.loopPeer = true → ∃ u, exec (.farBightLoopbackEnd p) s = .next u ∧ (u.port p.val).state = .align)

namespace Sys2Proof.Claims

/-- A retrain has begun (08 R251 to R253): counted, and with more than RETRAIN_MAX within 1 s the port fails. -/
def retrained (s u : State) (p : Nat) : Prop :=
  let x := s.port p
  let recent := (x.retrainAt.filter (fun t => decide (s.now < t + fcPerS))).length + 1
  (u.port p).retrains = satAdd x.retrains 1 0xFFF ∧
  (u.port p).state = if s.retrainMax < recent then .failed else .retrain

/-- The control packet that a link end sends (08 R261): 44 bytes, its kind at byte 0. -/
def sentCtl (u : State) (p kind : Nat) (f : List Byte → Prop) : Prop :=
  ∃ k, .linkOut p 11 k ∈ u.out ∧ k.typ = 13 ∧ k.payload.length = 44 ∧ k.payload.head? = some (BitVec.ofNat 8 kind) ∧ f k.payload

/-- The control channel is free to send. -/
def ctlFree (x : Port) : Prop :=
  x.state = .up ∧ x.txq = .replicate 12 [] ∧ x.outq = [] ∧ x.quiet = false ∧ x.replay.length < 1024 ∧ 1 ≤ x.credits.toList.getD 11 0

/-- Nothing waits to be sent. -/
def sendsNone (x : Port) : Prop := x.txq = .replicate 12 [] ∧ x.outq = []

end Sys2Proof.Claims

/-- A link in operation (R237 to R242, R251 to R254, R257 to R261): a frame of null flits returns credits, a flit in its turn is received and
acknowledged, a failed trailer is counted and answered with NAK, which is repeated after 4 µs; a stall, the ordered set RETRAIN, a lost lock
or the driver retrains the link, and the end that decides sends RETRAIN in 4 rounds; a retrain of 10 ms takes the link out of service; a
pause holds for its count and is released by 0 or by its end; an armed window quiets the port, sends WINDOW in 4 rounds, takes the port out
and ends in training; ECHO and LANE_QUERY are answered, and a reply gives the round trip. -/
def Obligations.LinksRun : Prop :=
  ∀ (s : State) (p : PortNo), s.railsOn = true →
    let x := s.port p.val
    (x.state = .up →
      (∀ raw, raw.length = 208 →
        let f := frameRead s p.val raw
        (f.flits = List.replicate 3 nullIn → f.tcrcOk = true → f.nak = false → sendsNone x →
          (∀ vc, vc < 12 → x.credits.toList.getD vc 0 + f.cred.getD vc 0 ≤ bufFlits p.val vc) →
          ∃ u, exec (.linkFrame p raw) s = .next u ∧ u.out = s.out ∧ (u.port p.val).rxSeq = x.rxSeq ∧
            ∀ vc, vc < 12 → (u.port p.val).credits.toList.getD vc 0 = x.credits.toList.getD vc 0 + f.cred.getD vc 0) ∧
        (∀ g : LinkFlit, f.flits = [g, nullIn, nullIn] → f.cred = List.replicate 12 0 →
          f.tcrcOk = true → f.nak = false → f.seq = x.rxSeq → g.crcOk = true → g.vc.toNat < 12 → sendsNone x →
          (∀ vc, vc < 12 → x.credits.toList.getD vc 0 ≤ bufFlits p.val vc) →
          x.rxUsed.toList.getD g.vc.toNat 0 < bufFlits p.val g.vc.toNat →
          ∃ u, exec (.linkFrame p raw) s = .next u ∧ (u.port p.val).rxSeq = x.rxSeq + 1 ∧
            (u.port p.val).rxUsed.toList.getD g.vc.toNat 0 = x.rxUsed.toList.getD g.vc.toNat 0 + 1 ∧
            .linkFrame p.val (nullOut x x.rxSeq x.nakDue) ∈ u.out ∧
            ∀ k, packetOf (x.rxPart.toList.getD g.vc.toNat [] ++ g.bytes) = some k → .toRouter p.val k ∈ u.out) ∧
        (f.tcrcOk = false → ∃ u, exec (.linkFrame p raw) s = .next u ∧
          (u.port p.val).crcErr = satAdd x.crcErr 1 0xFFFF ∧ .linkFrame p.val (nullOut x (x.rxSeq - 1) true) ∈ u.out)) ∧
      (x.waitResend = true → x.nakAt + 4 * fcPerUs ≤ s.now → ∃ u, exec (.nakTimeout p) s = .next u ∧
        .linkFrame p.val (nullOut x (x.rxSeq - 1) true) ∈ u.out) ∧
      (x.replay ≠ [] → x.ackAt + 64 * fcPerUs ≤ s.now → x.inject = none → ∃ u, exec (.ackStallTimeout p) s = .next u ∧ retrained s u p.val ∧
        s.out ++ List.replicate 4 (osRound x p.val (osBytes 0x7E [])) <+: u.out) ∧
      (∀ blocks b, osIn blocks = some b → b.head? = some 0x7E → ∃ u, exec (.retrain ⟨p, blocks⟩) s = .next u ∧ retrained s u p.val) ∧
      (∀ (lane : Fin 8) (invalid : BitVec 64), x.rxGood = 0xFF → 16 ≤ ones 64 invalid.toNat → ∃ u,
        exec (.blockLockLoss p ⟨lane, invalid⟩) s = .next u ∧ retrained s u p.val ∧ (u.port p.val).lockLoss = satAdd x.lockLoss 1 0xFFF) ∧
      (∀ v : Word, s.barLive = true → s.offline p.val = false → v.getLsbD 0 = false → v.getLsbD 1 = true → v.getLsbD 24 = false →
        ∃ u, exec (.lnkCtlRetrain p v) s = .next u ∧ retrained s u p.val) ∧
      (∀ (c : BitVec 16) blocks b, osIn blocks = some b → b.head? = some 0x50 → fieldLE b 1 2 = c.toNat →
        ∃ u, exec (.pause p blocks) s = .next u ∧ (c = 0 → (u.port p.val).pauseEnd = none) ∧ (c ≠ 0 → u.out = s.out ∧
          (u.port p.val).pauseEnd = some (if c = 0xFFFF then none else some (s.lay.time + BitVec.ofNat 64 (1000 * c.toNat))))) ∧
      (∀ v : Word, s.barLive = true → v.getLsbD 16 = true → x.inject = none → ∃ u, exec (.send p v) s = .next u ∧
        u.out = s.out ++ [osRound x p.val (osBytes 0x50 (leBytes 2 (v.toNat % 65536)))]) ∧
      (∀ t1 t2 t3 : Word, ∃ u, exec (.echoReply p t1 t2 t3) s = .next u ∧ (u.port p.val).rtt =
        min 8191 (((s.lay.time.toNat : Int) - t1.toNat) - ((t3.toNat : Int) - t2.toNat)).toNat)) ∧
    (ctlFree x →
      (∀ t1 : Word, ∃ u, exec (.echo p t1) s = .next u ∧ sentCtl u p.val 0x11 (fun b => fieldLE b 8 8 = t1.toNat ∧
        fieldLE b 16 8 = s.lay.time.toNat ∧ fieldLE b 24 8 = s.lay.time.toNat)) ∧
      (x.echoAt + fcPerS ≤ s.now → ∃ u, exec (.echoTimer p) s = .next u ∧ (u.port p.val).echoAt = s.now ∧
        sentCtl u p.val 0x10 (fun b => fieldLE b 8 8 = s.lay.time.toNat)) ∧
      (∃ u, exec (.laneQuery p) s = .next u ∧ sentCtl u p.val 0x13 (fun b => b.getD 1 0 = x.rxGood ∧
        ∀ l, l < 8 → b.getD (8 + l) 0 = x.emm.toList.getD l 0 ∧ b.getD (16 + l) 0 = (x.eq.toList.getD l 0).setWidth 8))) ∧
    (∀ b, exec (.laneReport p b) s = .next s) ∧
    (x.state = .retrain → x.retrainStart + 10 * fcPerMs ≤ s.now → ∃ u, exec (.retrainTimeout p) s = .next u ∧
      (u.port p.val).inService = false ∧ (u.port p.val).state = x.under) ∧
    (∀ t, x.pauseEnd = some (some t) → t.toNat ≤ s.lay.time.toNat → ∃ u, exec (.pauseExpiry p) s = .next u ∧
      (u.port p.val).pauseEnd = none) ∧
    (∀ a b, x.window = some (a, b) →
      (a.toNat ≤ s.lay.time.toNat + 20000 → ∃ u, exec (.windowQuiet p) s = .next u ∧ (u.port p.val).quiet = true ∧ u.out = s.out) ∧
      (a.toNat ≤ s.lay.time.toNat → x.state = .up → x.held = false → x.inject = none → ∃ u, exec (.linkWindow p) s = .next u ∧
        (u.port p.val).state = .window ∧ (u.port p.val).pauseEnd = none ∧
        s.out ++ List.replicate 4 (osRound x p.val (osBytes 0xE1 (leBytes 8 b.toNat))) <+: u.out) ∧
      (b.toNat ≤ s.lay.time.toNat → x.state = .window → ∃ u, exec (.windowEnd p) s = .next u ∧ (u.port p.val).window = none ∧
        (u.port p.val).quiet = false ∧
        (u.port p.val).state = if s.unusedPort p.val then .hold else if x.inService then .retrain else .align))

/-- LNK_CTL_p (R246, R262 to R264, 19 R502): OFFLINE takes a port out of service into Hold with cause 7 and returns it to Align; TEST, set
anew, selects a loopback or PRBS while the port is offline: near bight, the port trains against itself at RATE or runs PRBS by PATTERN, far
bight, it sends LB and PRBS, and a checker counts what it finds wrong in the bits received; an injection inverts one bit, or a burst, on the
lane named, in the blocks that leave next or, outside operation, in the symbols; ERR_CLR clears the port's counters. -/
def Obligations.LinkControl : Prop :=
  ∀ (s : State) (p : PortNo) (v : Word), s.barLive = true →
    let x := s.port p.val
    let n := v.toNat
    (x.state = .up → s.offline p.val = false → ∃ u, exec (.offline p true) s = .next u ∧ (u.port p.val).state = .hold ∧
      (u.port p.val).holdCause = 7 ∧ (u.port p.val).inService = false ∧ u.offline p.val = true) ∧
    (x.state = .hold → s.offline p.val = true → s.router.topo = none → ∃ u, exec (.offline p false) s = .next u ∧
      (u.port p.val).state = .align ∧ u.offline p.val = false) ∧
    (x.state = .hold → s.offline p.val = true → v.getLsbD 0 = true → testFields (s.lnkCtl p.val) ≠ testFields n →
      (bits n 6 4 = 1 → ∃ u, exec (.nearBightLoopback p v) s = .next u ∧ (u.port p.val).state = .loopback ∧
        (u.port p.val).rate = min 2 (bits n 10 9) ∧
        (bits n 8 7 = 0 → (u.port p.val).under = .align ∧ sentTs u p.val 0x5A 2) ∧
        (bits n 8 7 ≠ 0 → (u.port p.val).under = .test ∧ .linkSet p.val kPRBS (bits n 8 7) ∈ u.out)) ∧
      (bits n 6 4 = 2 → ∃ u, exec (.farBightLoopback p v) s = .next u ∧ (u.port p.val).state = .loopback ∧
        .linkSet p.val kPRBS (bits n 8 7) ∈ u.out ∧ sentTs u p.val 0xC3 (min 2 (bits n 10 9))) ∧
      (∀ m rx, bits n 6 4 = 3 → v.getLsbD 24 = false → rx.length = 8 → ∃ u, exec (.prbsTest p v m rx) s = .next u ∧
        (u.port p.val).state = .test ∧
        ∀ i, i < 8 →
          let r := PrbsChk.start.run' (bits n 8 7) (rx.getD i [])
          (u.port p.val).prbsSync.getLsbD i = r.1.sync ∧
          (u.port p.val).prbsErr.toList.getD i 0 = satAdd (x.prbsErr.toList.getD i 0) r.2 0xFFFFFFFF)) ∧
    (v.getLsbD 1 = false →
      let lane := bits n 13 11
      (v.getLsbD 14 = true → v.getLsbD 15 = false → ∃ u, exec (.injSingle p v) s = .next u ∧
        (x.state = .up → ∃ k, k < 130 ∧ (u.port p.val).inject = some (lane, k, 1)) ∧
        (x.state = .align → .linkSet p.val kINJECT (8 + lane) ∈ u.out)) ∧
      (v.getLsbD 15 = true → ∃ u, exec (.injBurst p v) s = .next u ∧
        (x.state = .up → ∃ k, k < 130 ∧ (u.port p.val).inject = some (lane, k, max 1 (bits n 23 16))) ∧
        (x.state = .align → .linkSet p.val kINJECT (8 * max 1 (bits n 23 16) + lane) ∈ u.out))) ∧
    (v.getLsbD 24 = true → v.getLsbD 1 = false → s.offline p.val = v.getLsbD 0 → ∃ u, exec (.errClr p v) s = .next u ∧
      (u.port p.val).crcErr = 0 ∧ (u.port p.val).replays = 0 ∧ (u.port p.val).retrains = 0 ∧ (u.port p.val).lockLoss = 0 ∧
      (u.port p.val).ctlDrop = 0 ∧ (u.port p.val).prbsErr = .replicate 8 0)

/-! ## 10 Lay time and the event calendar -/

namespace Sys2Proof.Claims

/-- A value held between two bounds. -/
def within (lo hi v : Int) : Int := if v < lo then lo else if hi < v then hi else v

/-- One sample of offset θ has steered Lay time (10 R304): the frequency by θ/2^24, the slew by half of θ over 16 µs. -/
def steered (l m : Lay) (theta : Int) : Prop :=
  m.freq = within (-214748) 214748 (l.freq + theta * 256) ∧ m.slew = within (-15) 15 (theta / 2) ∧ m.slewLeft = 25600 ∧
  m.offset = within (-128) 127 theta

end Sys2Proof.Claims

/-- Lay time (R297 to R305): one fc adds 0.625 lt scaled by the steering frequency, less what a hold takes up, and nothing else moves the
counter with the rails off; a master's first edge sets the counter to the second given, a later one within 1,000 lt steers it, one
further off is only counted, and 2.5 s without one lead to Holdover; SYNC_REQ is answered with the state, the master, the distance and
the three times, and leaves every 16 µs; a sample whose round trip exceeds the least of the last second by more than 8 lt is discarded, and
one of the parent steers; without a parent a package that was locked goes to Holdover. -/
def Sys2Proof.Claims.layTimeKept : Prop :=
  ∀ s : State,
    let l := s.lay
    (s.railsOn = false → exec .layTick s = .next { s with now := s.now + 1 }) ∧
    (s.railsOn = true →
      (l.time.toNat < 2 ^ 63 → -214748 ≤ l.freq → l.freq ≤ 214748 → l.slewLeft = 0 → ∃ u a, exec .layTick s = .next u ∧ u.now = s.now + 1 ∧
        (a : Int) * 2 ^ 32 ≤ 2684354560 * (2 ^ 32 + l.freq) + 2 ^ 32 - 1 ∧ 2684354560 * (2 ^ 32 + l.freq) - 2 ^ 32 + 1 ≤ (a : Int) * 2 ^ 32 ∧
        u.lay.units + min a l.holdLeft = l.units + a ∧ u.lay.holdLeft = l.holdLeft - min a l.holdLeft ∧ u.lay.freq = l.freq) ∧
      (s.isMaster = true → l.firstDone = false → ∀ v, l.second = some v → v.toNat * 1000000000 < 2 ^ 64 →
        l.time.toNat ≤ v.toNat * 1000000000 → ∃ u, exec .ppsEdge s = .next u ∧ u.lay.time.toNat = v.toNat * 1000000000 ∧
          u.lay.state = 2 ∧ u.lay.pps = true ∧ u.lay.second = none ∧ u.lay.lastEdge = s.now) ∧
      (s.isMaster = true → l.firstDone = true →
        let theta : Int := ((l.time.toNat + 500000000) / 1000000000 * 1000000000 : Nat) - (l.time.toNat : Int)
        (-1000 ≤ theta → theta ≤ 1000 → ∃ u, exec .ppsEdge s = .next u ∧ steered l u.lay theta ∧ u.lay.state = 2 ∧ u.lay.time = l.time) ∧
        (theta < -1000 ∨ 1000 < theta → exec .ppsEdge s = .next { s with lay := { l with ppsIgn := satAdd l.ppsIgn 1 0xFFFF } })) ∧
      (s.isMaster = true → l.pps = true → 2 * l.lastEdge + 5 * fcPerS ≤ 2 * s.now → ∃ u, exec .ppsTimeout s = .next u ∧
        u.lay.state = 3 ∧ u.lay.pps = false ∧ u.lay.slewLeft = 0 ∧ u.lay.time = l.time) ∧
      (∀ (p : PortNo) (t1 : Word), ctlFree (s.port p.val) →
        (∃ u, exec (.syncReq p t1) s = .next u ∧ sentCtl u p.val 2 (fun b =>
          b.getD 1 0 = BitVec.ofNat 8 (l.state + 4 * (if l.pps = true then 1 else 0)) ∧
          fieldLE b 2 2 = (if l.role = true then s.ownChip else l.master).toNat ∧ b.getD 4 0 = BitVec.ofNat 8 (if l.role = true then 0 else l.hops) ∧
          fieldLE b 8 8 = t1.toNat ∧ fieldLE b 16 8 = l.time.toNat ∧ fieldLE b 24 8 = l.time.toNat)) ∧
        (l.syncDue ≤ s.now → ∃ u, exec .syncTimer s = .next u ∧ u.lay.syncDue = s.now + 16 * fcPerUs ∧
          sentCtl u p.val 1 (fun b => fieldLE b 8 8 = l.time.toNat))) ∧
      (∀ (p : PortNo) (st : BitVec 2) pps m (hops : BitVec 6) (t1 t2 t3 : Word), (s.port p.val).state = .up → l.role = false →
        let q : Int := ((l.time.toNat : Int) - t1.toNat) - ((t3.toNat : Int) - t2.toNat)
        let theta : Int := (((t2.toNat : Int) - t1.toNat) + ((t3.toNat : Int) - l.time.toNat)) / 2
        ((∃ e ∈ (s.port p.val).syncBest, s.now ≤ e.2 + fcPerS ∧ e.1 + 8 < q) → ∃ u, exec (.syncResp p st pps m hops t1 t2 t3) s = .next u ∧
          u.lay = { l with discarded := satAdd l.discarded 1 0xFFFF }) ∧
        ((∀ e ∈ (s.port p.val).syncBest, s.now ≤ e.2 + fcPerS → q ≤ e.1 + 8) → l.parent = some p.val → l.state ≠ 0 → 2 ≤ st.toNat →
          hops.toNat < 63 → ∃ u, exec (.syncResp p st pps m hops t1 t2 t3) s = .next u ∧ steered l u.lay theta ∧ u.lay.master = m ∧
            u.lay.hops = hops.toNat + 1 ∧ u.lay.time = l.time)) ∧
      (l.role = false → l.everLocked = true → s.bestParent = none → ∃ u, exec .parentTimeout s = .next u ∧ u.lay.state = 3 ∧
        u.lay.pps = false ∧ u.lay.parent = none ∧ u.lay.time = l.time))

/-- The calendar (R308 to R311): the event that fires is the one with the earliest time, then the first in the order of kinds; it leaves
its calendar and, where it is late, is counted; a descriptor's event starts the descriptor, with the time of firing; a phase release
writes its value into every tile of its job on the partition; with no event due nothing happens. -/
def Sys2Proof.Claims.calendarFires : Prop :=
  ∀ s : State, s.railsOn = true →
    (s.dues = [] → exec .calendarFire s = .next s) ∧
    (∀ d, firstDue s.dues = some d → d ∈ s.dues ∧ ∀ x ∈ s.dues, (dueKey d).1 ≤ (dueKey x).1 ∧
      ((dueKey d).1 = (dueKey x).1 → (dueKey d).2.1 ≤ (dueKey x).2.1)) ∧
    (∀ e k d, firstDue s.dues = some (.pkg e) → e.ev = .desc k → s.desc? k = some d → ∃ u, exec .calendarFire s = .next u ∧
      u.desc? k = some { d with ready := true, late := e.late, aux := s.lay.time.toNat } ∧ (∀ x ∈ u.lay.cal, x.slot ≠ e.slot) ∧
      u.lay.lateCnt = if e.late = true then satAdd s.lay.lateCnt 1 0xFFFF else s.lay.lateCnt) ∧
    (∀ (n : PartNo) lt no late k off (v : Word) j, s.dues = [.part n.val lt no late (.phase k off v)] → s.job? k = some j → ∃ u,
      exec (.phaseRelease n) s = .next u ∧ (∀ x ∈ (u.part n.val).cal, x.2.1 ≠ no) ∧
      (∀ t ∈ j.tiles, t / 72 = n.val → (s.tile t).tenant = j.tenant → fieldLE ((u.tile t).scratch.readN off 8) 0 8 = v.toNat) ∧
      (∀ t, t ∉ j.tiles ∨ t / 72 ≠ n.val → u.tile t = s.tile t))

/-- Lay time, and what fires at it. -/
def Obligations.LayAndCalendar : Prop := Claims.layTimeKept ∧ Claims.calendarFires

/-! ## 11 Tenants, security and debug -/

namespace Sys2Proof.Claims

/-- The first failing check of a tenant change (11 R317), 0 for none. -/
def changeCode (s : State) (n t : Nat) : Nat :=
  if 12 ≤ n then 1 else if 64 < t then 2
  else if (s.psw n).state = .active ∨ (s.psw n).state = .fenced ∨ (s.psw n).state = .resetting then 3
  else if t ≠ 0 ∧ s.sec.debug ≠ .locked then 4 else 0

/-- The first failing check of a key command (11 R325), 0 for none; an import's blob is taken as good. -/
def keyCode (s : State) (op t id : Nat) : Nat :=
  let f := s.fabOf t
  if t = 0 ∨ 64 < t then 1
  else if (op = 0 ∧ SMap.find? s.sec.keys t ≠ none) ∨ (op = 2 ∧ (2 ≤ f.length ∨ ∃ e ∈ f, e.id.toNat = id)) then 2
  else if (op = 1 ∧ SMap.find? s.sec.keys t = none) ∨ (op = 3 ∧ ∀ e ∈ f, e.id.toNat ≠ id) then 3
  else if (op = 0 ∨ op = 2) ∧ s.sec.debug ≠ .locked then 4
  else if s.powerBusy = true then 5 else 0

/-- The management port answers `i` with a code, a detail and data as the last thing it sends, in a state of which `f` holds. -/
def responds (i : Instr) (s : State) (p : MgmtPath) (code detail : Nat) (data : List Byte) (f : State → Prop) : Prop :=
  ∃ u, exec i s = .next u ∧ u.out.getLast? = some (.response p code detail data) ∧ f u

/-- A path on which the management controller is heard. -/
def heardOn (s : State) (p : MgmtPath) : Prop := s.mgmt.standby = true ∧ (p = .host → s.railsOn = true)

/-- Every measurement register keeps what it held. -/
def sameMeasures (s u : State) : Prop := u.sec.measures = s.sec.measures

end Sys2Proof.Claims

/-- Tenants and keys (R317, R318, R323, R325, R326): a tenant change that a check refuses leaves its code, one while another runs is
ignored, and one that passes takes the partition's tiles from their tenant; at its end word, tiles and program regions are the new
tenant's; a memory window is enabled only where the checks hold, and an enabled one keeps its fields; a key command is carried out, or
leaves its code and no other trace. -/
def Obligations.TenantsAndKeys : Prop :=
  ∀ (s : State) (v : Word), s.barLive = true →
    let n := v.toNat % 16
    let t := bits v.toNat 10 4
    (v.getLsbD 11 = true →
      (s.sec.tenChange ≠ none → ∃ u, exec (.tenAssign v) s = .next u ∧ u.sec.tenChange = s.sec.tenChange ∧ u.sec.tenStatus = 5 ∧
        u.tiles = s.tiles) ∧
      (s.sec.tenChange = none → changeCode s n t ≠ 0 → ∃ u, exec (.tenAssign v) s = .next u ∧ u.sec.tenChange = none ∧
        u.sec.tenStatus.toNat = changeCode s n t ∧ u.tiles = s.tiles ∧ u.parts = s.parts) ∧
      (s.sec.tenChange = none → changeCode s n t = 0 → ∃ u c, exec (.tenAssign v) s = .next u ∧ u.sec.tenChange = some c ∧
        c.part = n ∧ c.tenant.toNat = t ∧ (∀ x, x / 72 = n → (u.tile x).tenant = 0) ∧ (u.psw n).tenant = (s.psw n).tenant)) ∧
    (∀ c, s.sec.tenChange = some c → s.router.ckts = [] → (s.psw c.part).state = .idle → (s.psw c.part).verdict = .inService →
      (s.part c.part).fencesHeld = [] → ∃ u, exec .tenantChangeDone s = .next u ∧ u.sec.tenChange = none ∧ u.sec.tenStatus = 0 ∧
        (u.psw c.part).tenant = c.tenant ∧ (u.psw c.part).state = .idle ∧
        (∀ x, x / 72 = c.part → (u.tile x).tenant = c.tenant ∧ ∀ a, 0x8000 ≤ a → a < 0xC0000 → Memory.read (u.tile x).scratch a = 0) ∧
        (∀ x, x / 72 ≠ c.part → u.tile x = s.tile x)) ∧
    (∀ (ten : Fin 64) (w : Fin 16), v.getLsbD 0 = true →
      let o := 0x201000 + 0x80 * (ten.val + 1) + 8 * w.val
      let size := bits v.toNat 50 32
      (bitAt (s.reg o 0) 0 = false →
        (size = 0 ∨ 294912 < bits v.toNat 26 8 + size → ∃ u, exec (.windowEnable ten w v) s = .next u ∧ bitAt (u.reg o 0) 0 = false ∧
          SMap.find? u.sec.winErr (ten.val + 1) = some 1) ∧
        (size ≠ 0 → bits v.toNat 26 8 + size ≤ 294912 → v.getLsbD 1 = true ∨ v.getLsbD 2 = true →
          (∀ t' w', t' < 64 → t' ≠ ten.val → w' < 16 → bitAt (s.reg (0x201000 + 0x80 * (t' + 1) + 8 * w') 0) 0 = false) →
          ∃ u, exec (.windowEnable ten w v) s = .next u ∧ u.reg o 0 = v.toNat &&& 0x7FFFF07FFFF07 ∧ u.sec = s.sec)) ∧
      (bitAt (s.reg o 0) 0 = true → ∃ u, exec (.windowEnable ten w v) s = .next u ∧ u.reg o 0 = s.reg o 0)) ∧
    (v.getLsbD 10 = true →
      let kt := bits v.toNat 9 3
      let id := bits v.toNat 31 16
      let refused (i : Instr) (op : Nat) : Prop := keyCode s op kt id ≠ 0 → ∃ u, exec i s = .next u ∧
        u.sec.keyStatus.toNat = keyCode s op kt id ∧ u.sec.keys = s.sec.keys ∧ u.sec.fabKeys = s.sec.fabKeys
      (v.toNat % 8 = 0 → refused (.generate v) 0 ∧ (keyCode s 0 kt id = 0 → ∃ u, exec (.generate v) s = .next u ∧ u.sec.keyStatus = 0 ∧
        SMap.find? u.sec.keys kt = some s.sec.nextKey ∧ u.sec.nextKey = s.sec.nextKey + 1 ∧
        ∀ y, y ≠ kt → SMap.find? u.sec.keys y = SMap.find? s.sec.keys y)) ∧
      (v.toNat % 8 = 1 → refused (.erase v) 1 ∧ (keyCode s 1 kt id = 0 → ∃ u, exec (.erase v) s = .next u ∧ u.sec.keyStatus = 0 ∧ SMap.find? u.sec.keys kt = none ∧
        (∀ y, y ≠ kt → SMap.find? u.sec.keys y = SMap.find? s.sec.keys y) ∧ u.sec.fabKeys = s.sec.fabKeys)) ∧
      (v.toNat % 8 = 2 → ∀ r ok, refused (.importKey v r ok) 2 ∧
        (keyCode s 2 kt id = 0 → s.blobOk kt id (bits v.toNat 63 32) r ok = true → ∃ u k, exec (.importKey v r ok) s = .next u ∧
          .hostRead ⟨0, none⟩ (s.reg 0x4C0010 0) 80 ∈ u.out ∧ u.sec.keyStatus = 0 ∧ u.fabOf kt = k :: s.fabOf kt ∧ k.id.toNat = id ∧ u.sec.keys = s.sec.keys) ∧
        (keyCode s 2 kt id = 0 → s.blobOk kt id (bits v.toNat 63 32) r ok = false → ∃ u, exec (.importKey v r ok) s = .next u ∧
          u.sec.keyStatus = 6 ∧ u.sec.fabKeys = s.sec.fabKeys)) ∧
      (v.toNat % 8 = 3 → refused (.eraseFabric v) 3 ∧ (keyCode s 3 kt id = 0 → ∃ u, exec (.eraseFabric v) s = .next u ∧
        u.sec.keyStatus = 0 ∧ (∀ e ∈ u.fabOf kt, e.id.toNat ≠ id) ∧ u.sec.keys = s.sec.keys)))

/-- The fid unlock, the JTAG classes and the SVN commit (R332, R336 to R339): a challenge answers the device's number and a fresh nonce;
a token of the wrong length is a Field error, one refused is counted, and one accepted unlocks, clears the keys, resets the partitions and
orders a package reset; boundary drive and an internal scan within the scope zeroize, and a package reset follows, one that meets a running
zeroization when that has ended; a commit raises each count to the running image's,
never lowers one, and is refused while the package runs a fallback. -/
def Obligations.DebugAndRollback : Prop :=
  ∀ s : State, s.mgmt.standby = true → s.mgmt.romRecov = false →
    let noKeys (u : State) : Prop := u.sec.keys = [] ∧ u.sec.fabKeys = [] ∧ u.sec.sessions = [] ∧
      u.sec.zeroCount = satAdd s.sec.zeroCount 1 0xFFFF
    (s.sec.debug ≠ .manufacturing →
      (∃ nonce, nonce.length = 16 ∧ responds (.fidChal (some .tray)) s .tray 0 0 (leBytes 8 s.fuses.deviceId.toNat ++ nonce) (fun u =>
        u.sec.nonce = some (nonce, s.now) ∧ u.sec.debug = s.sec.debug)) ∧
      (∀ b ok, b.length ≠ 224 → responds (.fidLoad (some .tray) b ok) s .tray 2 4 [] (fun u => u.sec = s.sec)) ∧
      (∀ b ok, b.length = 224 → 8 ≤ s.sec.unlockFail ∨ ok.keyHashOk = false ∨ ok.signatureOk = false →
        ∃ d, responds (.fidLoad (some .tray) b ok) s .tray 6 d [] (fun u => u.sec.debug = s.sec.debug ∧ u.sec.nonce = s.sec.nonce ∧
          u.sec.unlockFail = satAdd s.sec.unlockFail 1 0xFF)) ∧
      (∀ b, b.length = 224 → s.sec.unlockFail < 8 → s.tokenOk b = true → s.jobs = [] →
        responds (.fidLoad (some .tray) b ⟨true, true⟩) s .tray 0 0 [] (fun u => u.sec.debug = .unlocked ∧
          u.sec.scope = BitVec.ofNat 3 (fieldLE b 1 1) ∧ u.sec.nonce = none ∧ noKeys u ∧ u.sec.resetDue = s.railsOn ∧
          ∀ n, n < 12 → (u.psw n).state = .off ∨ (u.psw n).state = .resetting))) ∧
    (s.sec.boundary = false → ∃ u, exec .boundaryDrive s = .next u ∧ u.sec.boundary = true ∧ noKeys u ∧ (s.railsOn = true → u.tiles = [])) ∧
    (s.sec.boundary = true → s.railsOn = true → s.boot.shutdown = false → ∃ u, exec .boundaryDriveExit s = .next u ∧
      u.sec.boundary = false ∧ (s.zeroizing = false → u.boot.step = 1 ∧ u.boot.kind = 3) ∧ (s.zeroizing = true → u.sec.resetDue = true)) ∧
    (∀ scope, s.sec.boundary = false → s.sec.debug = .unlocked → scope &&& s.sec.scope = scope → s.railsOn = true →
      s.boot.shutdown = false → ∃ u, exec (.internalScan scope) s = .next u ∧ noKeys u ∧ u.sec.resetDue = true) ∧
    (∀ scope, s.sec.debug = .locked → exec (.internalScan scope) s = .next s) ∧
    (s.mgmt.fallback = true → responds (.svnCommit .tray) s .tray 6 0xFF [] (fun u => u.fuses = s.fuses)) ∧
    (s.mgmt.fallback = false → (∀ i : Fin 6, s.sec.running.get i ≤ 63) → ∃ d, responds (.svnCommit .tray) s .tray 0 0 d (fun u =>
      (∀ i : Fin 6, u.fuses.svn.get i = max (s.fuses.svn.get i) (s.sec.running.get i)) ∧ u.fuses.deviceId = s.fuses.deviceId ∧
      u.fuses.prod = s.fuses.prod ∧ u.fuses.grade = s.fuses.grade)) ∧
    responds (.svnCommit .host) { s with pwr := { s.pwr with rails := .on } } .host 3 0 [] (fun u => u.fuses = s.fuses)

/-- SPDM over the management port (R333, R334): the version, the capabilities and the algorithms are answered, slot 0 alone has a
certificate and signs; a measurement answers its register, zero before it is first extended, and a signature; up to four sessions are
opened, and one is established by FINISH, which ends it where its check fails; a session that is not known is refused. -/
def Obligations.SpdmServed : Prop :=
  ∀ (s : State) (p : MgmtPath), heardOn s p →
    responds (.getVersion p) s p 0 0 [0, 0x13] (sameMeasures s) ∧
    (∃ d, d.length = 12 ∧ responds (.getCapabilities p) s p 0 0 d (sameMeasures s)) ∧
    (∃ d, d.length = 32 ∧ responds (.negotiateAlgorithms p true) s p 0 0 d (sameMeasures s)) ∧
    responds (.negotiateAlgorithms p false) s p 1 0 [] (sameMeasures s) ∧
    (∃ d, d.length = 48 ∧ responds (.getDigests p) s p 0 0 d (sameMeasures s)) ∧
    (∃ d, responds (.getCertificate p 0) s p 0 0 d (sameMeasures s)) ∧
    (∀ nonce, ∃ d, d.length = 96 ∧ responds (.challenge p 0 nonce) s p 0 0 d (sameMeasures s)) ∧
    (∀ slot nonce, slot ≠ 0 → responds (.getCertificate p slot) s p 1 0 [] (sameMeasures s) ∧
      responds (.challenge p slot nonce) s p 1 0 [] (sameMeasures s)) ∧
    (∀ (i : Byte) nonce, 1 ≤ i.toNat → i.toNat ≤ 10 → ∃ m g, m.length = 48 ∧ g.length = 96 ∧
      ((∀ e ∈ s.sec.measures, e.1 ≠ i.toNat) → m = List.replicate 48 0) ∧
      responds (.getMeasurements p i nonce) s p 0 0 (m ++ g) (sameMeasures s)) ∧
    (s.sec.sessions.length < 4 → responds (.keyExchange p) s p 0 0 (leBytes 4 s.sec.nextSess.toNat) (fun u =>
      u.sec.sessions = s.sec.sessions ++ [(s.sec.nextSess, false)])) ∧
    (4 ≤ s.sec.sessions.length → responds (.keyExchange p) s p 0x0A 0 [] (fun u => u.sec.sessions = s.sec.sessions)) ∧
    (∀ n : BitVec 32,
      ((n, false) ∈ s.sec.sessions → responds (.finish p n true) s p 0 0 [] (fun u => (n, true) ∈ u.sec.sessions) ∧
        responds (.finish p n false) s p 6 0 [] (fun u => ∀ e ∈ u.sec.sessions, e.1 ≠ n)) ∧
      ((n, true) ∈ s.sec.sessions → responds (.endSession p n) s p 0 0 [] (fun u => ∀ e ∈ u.sec.sessions, e.1 ≠ n) ∧
        responds (.heartbeat p n) s p 0 0 [] (fun u => u.sec = s.sec) ∧ responds (.keyUpdate p n) s p 0 0 [] (fun u => u.sec = s.sec)) ∧
      ((n, true) ∉ s.sec.sessions → ∀ i ∈ [Instr.endSession p n, .heartbeat p n, .keyUpdate p n],
        responds i s p 4 0 [] (fun u => u.sec = s.sec)))

/-! ## 12 Power and 13 Thermals -/

namespace Sys2Proof.Claims

/-- The partitions that a descriptor names at an offset. -/
def namedSet (d : Desc) (off : Nat) : List Nat := psetList (BitVec.ofNat 12 (fieldLE d.bytes off 2))

/-- A window of 1 s is steady (13 R370): its 1 ms averages of power lie within 5% of their mean, the mean is at least 30% of the grade's
limit, the inlet stays within 0.5 °C of its mean, with source 1, and no regulator alert holds. -/
def steadyIn (s : State) (pw inlet : List Nat) : Prop :=
  (∀ x ∈ pw, 20 * (x * pw.length) ≤ 21 * pw.sum ∧ 19 * pw.sum ≤ 20 * (x * pw.length)) ∧ 3 * s.gradeW * pw.length ≤ 10 * pw.sum ∧
  (∀ x ∈ inlet, x * inlet.length ≤ inlet.sum + 2 * inlet.length ∧ inlet.sum ≤ x * inlet.length + 2 * inlet.length) ∧
  s.thm.inletSrc = 1 ∧ s.pwr.alerting = false

/-- The mean of `t` less the mean of `tin`, in 0.25 °C, over the mean of `pw`, in W, as a fraction of 0.00001 °C/W (13 R370): numerator
and denominator. -/
def resNum (t tin pw : List Nat) : Nat := 25000 * (t.sum * tin.length - tin.sum * t.length) * pw.length
def resDen (t tin pw : List Nat) : Nat := t.length * tin.length * pw.sum

/-- `v` is that fraction rounded to the nearest, where it is positive, fits its 16-bit field, and does not lie halfway. -/
def resistance (t tin pw : List Nat) (v : Nat) : Prop :=
  tin.sum * t.length ≤ t.sum * tin.length → 0 < pw.sum → (2 * resNum t tin pw) % (2 * resDen t tin pw) ≠ resDen t tin pw →
    (2 * resNum t tin pw + resDen t tin pw) / (2 * resDen t tin pw) ≤ 0xFFFF →
    v = (2 * resNum t tin pw + resDen t tin pw) / (2 * resDen t tin pw)

/-- The middle of three values. -/
def middle (a b c : Nat) : Nat := max (min a b) (min (max a b) c)

end Sys2Proof.Claims

/-- The power descriptors (R346 to R351, R358): a window and a host limit are taken, under an alert until its release; PS3 is entered where
nothing forbids it, and else the code is answered; a set of Idle partitions is parked in one step, one with another state is refused
with its number; an unpark frees its partitions one after the other, with the stagger, the step slot and the ramp's room. -/
def Obligations.PowerDescriptors : Prop :=
  ∀ (s : State) (k : DescKey) (d : Desc),
    let hints := namedSet d 0x12
    let parks := namedSet d 0x10
    let kind := fieldLE d.bytes 0x10 1
    (ready s k d 6 →
      (kind = 0 → ∃ u, exec (.hintWindow k) s = .next u ∧ ended s u k d 0 0 0 ∧ ∀ n ∈ hints,
        if s.pwr.alerting = true then (u.part n).newWindow = some (fieldLE d.bytes 0x14 1, fieldLE d.bytes 0x15 1) ∧
          (u.part n).floor = (s.part n).floor ∧ (u.part n).ceil = (s.part n).ceil
        else (u.part n).floor = fieldLE d.bytes 0x14 1 ∧ (u.part n).ceil = fieldLE d.bytes 0x15 1) ∧
      (kind = 1 → ∃ u, exec (.hintHostLimit k) s = .next u ∧ ended s u k d 0 0 u.limit.1 ∧
        (s.pwr.alerting = false → u.pwr.hostW = fieldLE d.bytes 0x16 2) ∧
        (s.pwr.alerting = true → u.pwr.hostW = s.pwr.hostW ∧ u.pwr.newHostW = some (fieldLE d.bytes 0x16 2))) ∧
      (kind = 2 →
        (s.sleepBar (some k) = 0 → ∃ u, exec (.hintSleep k) s = .next u ∧ u.pwr.rails = .ps3 ∧ u.descs = [] ∧ u.cleat.watching = true ∧
          u.sec.keyStore = some (s.sec.keys, s.sec.fabKeys) ∧ ∀ n, n < 12 → (u.psw n).state = .off) ∧
        (∀ c, s.sleepBar (some k) = c + 1 → ∃ u, exec (.hintSleep k) s = .next u ∧ ended s u k d 0xD (c + 1) 0 ∧ u.pwr = s.pwr))) ∧
    (ready s k d 7 → s.powerBusy = false →
      (fieldLE d.bytes 0x12 1 = 0 → s.setHeld parks = false →
        ((∀ n ∈ parks, (s.psw n).state = .idle ∧ (s.psw n).verdict ≠ .outOfService) → ∃ u, exec (.park k) s = .next u ∧
          ended s u k d 0 0 (s.lay.time.toNat % 2 ^ 32) ∧ ∀ n ∈ parks, (u.psw n).state = .parked ∧ (u.stack n).selfRef = true) ∧
        (∀ n rest, parks = n :: rest → (s.psw n).state ≠ .idle → ∃ u, exec (.park k) s = .next u ∧ ended s u k d 6 n 0 ∧
          u.parts = s.parts)) ∧
      (fieldLE d.bytes 0x12 1 = 1 →
        (∀ n rest, parks = n :: rest → (∀ m ∈ parks, (s.psw m).state = .parked) → ∃ u, exec (.unpark k) s = .next u ∧
          u.desc? k = some { d with busy := true, aux := 0 } ∧
          ∃ no late, (s.lay.slotTime, no, late, PCal.unparkStep k) ∈ (u.part n).cal) ∧
        (∀ n rest, parks = n :: rest → (s.psw n).state ≠ .parked → ∃ u, exec (.unpark k) s = .next u ∧ ended s u k d 6 n 0 ∧
          u.parts = s.parts))) ∧
    (∀ n, s.desc? k = some d → s.railsOn = true → d.busy = true → d.wiped = false → fieldLE d.bytes 1 1 = 7 → parks.drop d.aux = [n] →
      (s.psw n).state = .parked → (s.psw n).verdict ≠ .outOfService → s.lay.inSlot = true →
      d.aux = 0 ∨ s.pwr.unparkLast + 10 * fcPerUs ≤ s.now →
      (s.fitsRamp n = true → ∃ u, exec (.unparkStep k) s = .next u ∧ ended s u k d 0 0 (s.lay.time.toNat % 2 ^ 32) ∧
        (u.psw n).state = .idle ∧ (u.stack n).selfRef = false ∧ u.pwr.unparkLast = s.now ∧ (u.part n).charge = 4096) ∧
      (s.fitsRamp n = false → exec (.unparkStep k) s = .next (s.setPart n { s.part n with rampWait := true })))

/-- The power loops (R343 to R345, R352 to R357, R361 to R366): the duty of a partition falls by 2 while the package is above its limit or
a regulator above its own, and rises by 1 while both leave room; the operating point falls by one step after a lowered duty and is armed
to rise with room; a step completes; the ramp, once for each half second of Lay time, the notice window, a droop and a regulator's alert do as their rules say, and each µs of
modelled energy is added up. -/
def Obligations.PowerLoops : Prop :=
  ∀ s : State, s.railsOn = true →
    (s.pwr.rackPend = none → ∃ u, exec .dutyEvaluation s = .next u ∧ ∀ n, n < 12 → (s.psw n).state ≠ .off →
      let sum := sumNewest s.pwr.usW 10
      let above := 10 * s.limit.1 < sum ∨ s.partOver n 100 = true
      let duty := (s.part n).duty
      (above → (s.psw n).state = .active → (u.part n).duty = max 1 (duty - 2)) ∧
      (s.partOver n 100 = false → sum * 100 ≤ 980 * s.limit.1 → (u.part n).duty = min 16 (duty + 1))) ∧
    (∃ u, exec .opEvaluation s = .next u ∧ ∀ n, n < 12 → (s.psw n).state = .idle ∨ (s.psw n).state = .active → s.pwr.alerting = false →
      s.effFloor n ≠ s.effCeil n → (s.part n).regDown = false → (s.part n).stepDue = none →
      ((s.part n).dutyLow = true → s.effFloor n < (s.part n).opPt → (u.part n).opPt = (s.part n).opPt - 1 ∧
        (u.part n).stepDue = some false) ∧
      ((s.part n).dutyLow = false → (s.part n).stretched ≤ 16000 → (s.part n).opPt < s.effCeil n → s.partOver n 95 = false →
        sumNewest s.pwr.usW 1000 * 100 ≤ 95000 * s.limit.1 → (u.part n).raiseArmed = true ∧ (u.part n).opPt = (s.part n).opPt)) ∧
    (∀ n : PartNo, let p := s.part n.val
      (p.stepDue = some true → p.target = none → s.effFloor n.val ≤ p.opPt + 1 → p.opPt + 1 ≤ s.effCeil n.val →
        ∃ u, exec (.opStep n) s = .next u ∧ (u.part n.val).opPt = p.opPt + 1 ∧ (u.part n.val).stepDue = none) ∧
      (p.stepDue = some false → p.target = none → p.regDown = false → s.effFloor n.val ≤ p.opPt → p.opPt ≤ s.effCeil n.val →
        ∃ u, exec (.opStep n) s = .next u ∧ (u.part n.val).opPt = p.opPt ∧ (u.part n.val).volt = s.partMv n.val p.opPt) ∧
      (p.psw.state = .active → p.stepDue = none → exec (.droopTrip n) s = .next (s.setPart n.val { p with stretch := .half })) ∧
      (p.stretch = .half → exec (.droopRecovery n) s = .next (s.setPart n.val
        { p with stretch := .threeQuarter, stretchEnd := p.tcAcc / 640 + 32 })) ∧
      (∀ k, k ∈ p.waiting → (∀ m, m < n.val → k ∉ (s.part m).waiting) → s.pwr.admitLast + 10 * fcPerUs ≤ s.now →
        (s.fitsRamp n.val = true → ∃ u, exec (.rampAdmission k n) s = .next u ∧ k ∉ (u.part n.val).waiting ∧ u.pwr.admitLast = s.now) ∧
        (s.fitsRamp n.val = false → ∃ u, exec (.rampAdmission k n) s = .next u ∧ (u.part n.val).waiting = p.waiting ∧
          (u.part n.val).rampWait = true))) ∧
    (s.lay.rampNo = s.pwr.rampAt → exec .rampStep s = .next s) ∧
    (s.lay.rampNo ≠ s.pwr.rampAt → ∃ u, exec .rampStep s = .next u ∧ u.pwr.rampAt = s.lay.rampNo ∧ u.pwr.rampW = (if s.pwr.rampFirst = true then s.floorW else s.pwr.rampPeak) + 150 ∧
      u.pwr.rampPeak = 0 ∧ u.pwr.rampFirst = false) ∧
    (∀ t, s.pwr.noticeEnd = some t → t ≤ s.now → ∃ u, exec .limitNoticeWindow s = .next u ∧ u.pwr.noticeEnd = none ∧
      u.pwr.noticed = some s.limit ∧ (s.pwr.noticed = some s.limit → u.out = s.out)) ∧
    (∀ r : Fin 6, s.pwr.alerts.getLsbD r.val = false → s.pwr.alerting = false → ∃ u, exec (.vralert r) s = .next u ∧
      u.pwr.alerting = true ∧ u.pwr.alerts.getLsbD r.val = true ∧ ∀ n, n < 12 → (s.psw n).state ≠ .off →
        (u.part n).opPt = 0 ∧ (u.part n).raiseArmed = false ∧ (u.part n).alertOp = some ((s.part n).alertOp.getD (s.part n).opPt)) ∧
    (s.pwr.alerting = true → ∃ u, exec .vralertRelease s = .next u ∧ u.pwr.alerting = false ∧ u.pwr.alerts = 0 ∧
      u.pwr.hostW = s.pwr.newHostW.getD s.pwr.hostW) ∧
    (∀ e : EnergyUs, e.coreUj.length = 12 → e.phyUj.length = 12 → ∃ u, exec (.energyModel e) s = .next u ∧
      (∀ n, n < 12 → (u.part n).energyUj = (s.part n).energyUj + e.coreUj.getD n 0 + e.phyUj.getD n 0) ∧
      u.pwr.spineUj = s.pwr.spineUj + e.spineUj + e.linkUj ∧
      u.pwr.energyUj = s.pwr.energyUj + (e.coreUj.sum + e.phyUj.sum + e.spineUj + e.linkUj) ∧
      ∀ i : Fin 9, u.pwr.thrTime.get i = s.pwr.thrTime.get i + if s.reasonHolds (i.val + 1) = true then 1 else 0)

/-- Temperatures and ageing (R367 to R372, R376 to R379): a reading is taken or, out of range or failed three times, takes its sensor out of
use; a die sensor 5 °C above its target sets HOT, which clears 100 ms after all are back; a steady window, or one with
every reading above its target, gives the resistances, and they the cap; the inlet's source follows its age; a due measurement of an Idle partition joins the last two, and a middle code below 6
raises the offset. -/
def Obligations.ThermalsKept : Prop :=
  ∀ s : State, s.railsOn = true →
    (∀ l : List SensorRead, l.length = 54 → ∃ u, exec (.thermalSensorRead l) s = .next u ∧ ∀ i, i < 54 → i ∉ s.thm.failed →
      (∀ t : Int, l.getD i none = some t → 0 ≤ t → t ≤ 600 → SMap.get 0 u.thm.temps i = t.toNat ∧ i ∉ u.thm.failed ∧
        ((s.targetDie + 20 : Nat) < t → u.thm.hot = true)) ∧
      (∀ t : Int, l.getD i none = some t → t < 0 ∨ 600 < t → i ∈ u.thm.failed) ∧
      (l.getD i none = none → SMap.get 0 s.thm.fails i = 2 → i ∈ u.thm.failed) ∧
      (l.getD i none = none → SMap.get 0 s.thm.fails i < 2 → i ∉ u.thm.failed ∧ SMap.get 0 u.thm.temps i = SMap.get 0 s.thm.temps i)) ∧
    (∀ t, s.thm.hot = true → s.thm.coolSince = some t → t + 100 * fcPerMs ≤ s.now → ∃ u, exec .hotClear s = .next u ∧ u.thm.hot = false) ∧
    (∀ t, s.mgmt.standby = true → s.thm.inletAt = some t → ∃ u, exec .inletAge s = .next u ∧
      u.thm.inletSrc = if s.now ≤ t + 10 * fcPerS then 1 else if s.now ≤ t + 60 * fcPerS then 2 else 3) ∧
    (∀ pw inlet die stack tripped alerted changed, pw ≠ [] → inlet ≠ [] → die ≠ [] → stack ≠ [] →
      (steadyIn s pw inlet → (tripped || alerted || changed) = false → ∃ u, exec (.steadyWindow pw inlet die stack tripped alerted changed) s = .next u ∧
        u.thm.windows = satAdd s.thm.windows 1 0xFFFF ∧ resistance die inlet pw u.thm.thetaDie ∧ resistance stack inlet pw u.thm.thetaStk) ∧
      ((tripped || alerted || changed) = true → (∃ t ∈ stack, t ≤ 352) →
        ((∀ t ∈ die, s.targetDie < t) → ∃ u, exec (.steadyWindow pw inlet die stack tripped alerted changed) s = .next u ∧
          resistance die inlet pw u.thm.thetaDie ∧ u.thm.thetaStk = s.thm.thetaStk) ∧
        ((∃ t ∈ die, t ≤ s.targetDie) → exec (.steadyWindow pw inlet die stack tripped alerted changed) s = .next s))) ∧
    (∃ u, exec .thermalCap s = .next u ∧
      (s.thm.thetaDie = 0 ∨ s.thm.thetaStk = 0 → u.pwr.thermW = 0) ∧
      (s.thm.thetaDie ≠ 0 → s.thm.thetaStk ≠ 0 → s.inletUsed + 12 < s.targetDie → s.inletUsed + 12 < 352 →
        u.pwr.thermW = min ((s.targetDie - 12 - s.inletUsed) * 25000 / s.thm.thetaDie) ((340 - s.inletUsed) * 25000 / s.thm.thetaStk))) ∧
    (∀ (n : PartNo) (code a b : BitVec 6) rest, let p := s.part n.val
      p.ageDue = true → p.psw.state = .idle → p.rot = none → p.stretch = .none → p.stepDue = none → s.pwr.alerting = false → p.opPt < 16 → s.mgmt.overheat = false →
      p.slack.toList.getD p.opPt [] = a :: b :: rest → p.ageOffset.toList.getD p.opPt 0 < 8 →
      let m := middle code.toNat a.toNat b.toNat
      let off := p.ageOffset.toList.getD p.opPt 0
      ∃ u, exec (.ageingMeasurement n code false) s = .next u ∧ (u.part n.val).ageDue = false ∧
        (u.part n.val).slack.toList.getD p.opPt [] = [code, a, b] ∧ (u.part n.val).ageMeas = satAdd p.ageMeas 1 0xFFFF ∧
        (u.part n.val).ageOffset.toList.getD p.opPt 0 = (if 6 ≤ m then off else min (off + (6 - m)) 8) ∧
        (∃ w ∈ u.mgmt.writes, w.1 = 4) ∧ (u.part n.val).ageCeil = p.ageCeil)

/-! ## 14 The Cleat and wake -/

namespace Sys2Proof.Claims

/-- Source `n` has risen: it is pending, its other fields and every other source are as they were. -/
def risen (s u : State) (n : Nat) : Prop :=
  u.cleat.source n = { s.cleat.source n with pend := true } ∧ ∀ m, m ≠ n → u.cleat.source m = s.cleat.source m

/-- Deliverable to a target (14 R386). -/
def deliverableTo (s : State) (n t : Nat) : Prop :=
  let x := s.cleat.source n
  x.en = true ∧ x.pend = true ∧ x.insvc = false ∧ x.target.toNat = t

end Sys2Proof.Claims

/-- R389: a completion of a source in service by its target clears INSVC, and the source is deliverable again if it is pending and
enabled; any other completion is ignored and counted; an edge of a source in service sets PEND. -/
def Obligations.CompletionsClear : Prop :=
  ∀ (s : State) (tgt : Fin 5) (src : BitVec 11), s.mgmt.standby = true → s.railsOn = true →
    let n := src.toNat
    let x := s.cleat.source n
    (0 < n → n < 2047 → x.insvc = true → x.target.toNat = tgt.val → ∃ u, exec (.complete tgt src) s = .next u ∧
      u.cleat.source n = { x with insvc := false } ∧ (∀ m, m ≠ n → u.cleat.source m = s.cleat.source m) ∧
      (x.pend = true → x.en = true → deliverableTo u n tgt.val) ∧ u.cleat.badCompl = s.cleat.badCompl ∧ u.tiles = s.tiles) ∧
    (n = 0 ∨ n = 2047 ∨ x.insvc = false ∨ x.target.toNat ≠ tgt.val →
      exec (.complete tgt src) s = .next { s with cleat := { s.cleat with badCompl := satAdd s.cleat.badCompl 1 0xFFFF } }) ∧
    (∀ e : Fin 2048, 0 < e.val → e.val < 2047 → (s.cleat.source e.val).insvc = true → ∃ u, exec (.sourceEdge e) s = .next u ∧
      (u.cleat.source e.val).pend = true ∧ (u.cleat.source e.val).insvc = true)

/-- R387: writing 1 to SET acts as an edge of the source, for the control cores and the Hukirvo controller alike; writing 1 to PEND clears
it, and the source is then not deliverable. -/
def Obligations.SetAndClear : Prop :=
  ∀ (s : State) (e : Fin 2048) (t : Nat), s.mgmt.standby = true → s.railsOn = true → 0 < e.val → e.val < 2047 →
    (∀ byHukirvo, ∃ u, exec (.set e byHukirvo) s = .next u ∧ exec (.sourceEdge e) s = .next u ∧ risen s u e.val ∧ u.tiles = s.tiles) ∧
    (∃ u, exec (.pendClear e) s = .next u ∧ u.cleat.source e.val = { s.cleat.source e.val with pend := false } ∧
      ¬ deliverableTo u e.val t ∧ (∀ m, m ≠ e.val → u.cleat.source m = s.cleat.source m) ∧ u.tiles = s.tiles)

/-- Claims and enables (R388, R390): outside the Morfort mode a claim returns the highest source deliverable to its target, and takes it
into service; with none it returns the spurious number where the line has been high, else 0; TARGET changes only while EN and INSVC are 0,
EN follows its bit, and PEND stays unless it is cleared. -/
def Obligations.ClaimsTake : Prop :=
  ∀ s : State, s.mgmt.standby = true → s.railsOn = true →
    (∀ t : Fin 5, s.cleat.morfort.getLsbD t.val = false →
      (∀ n, s.cleat.best t.val = some n → ∃ u, exec (.claim t) s = .next u ∧ u.out = s.out ++ [.claim t.val (BitVec.ofNat 11 n)] ∧
        u.cleat.source n = { s.cleat.source n with pend := false, insvc := true } ∧
        ∀ m, m ≠ n → u.cleat.source m = s.cleat.source m) ∧
      (s.cleat.best t.val = none → ∃ u, exec (.claim t) s = .next u ∧ u.cleat.src = s.cleat.src ∧
        u.out = s.out ++ [.claim t.val (if s.cleat.wasHigh.getLsbD t.val = true then 2047 else 0)])) ∧
    ((s.cleat.src.map (·.1)).Nodup → ∀ t n, s.cleat.best t = some n ↔ (deliverableTo s n t ∧ ∀ m, deliverableTo s m t → m ≤ n)) ∧
    (∀ (e : Fin 2048) (v : Word), 0 < e.val → e.val < 2047 → v.getLsbD 6 = false → let x := s.cleat.source e.val
      ∃ u, exec (.sourceEnable e v) s = .next u ∧ (∀ m, m ≠ e.val → u.cleat.source m = s.cleat.source m) ∧ u.cleat.source e.val = { x with
        target := if x.en = true ∨ x.insvc = true then x.target else v.extractLsb' 0 3
        en := v.getLsbD 3
        pend := x.pend && !v.getLsbD 4 })

/-- The Belay and the wakes (R394 to R396, 15 R399, 16 R432, 20 R518): a source that an enabled entry names is latched while the Belay
watches; when the Cleat runs again the latched sources are pending and the first entry's is named; a latched source, the rack manager's
wake and the plinth's own events end PS3; PCIE_PERST_N resets the functions as it falls, and is an event as it rises. -/
def Obligations.WakesLatch : Prop :=
  ∀ s : State, s.mgmt.standby = true →
    (∀ (e : Fin 2048) (i : Nat), i < 64 → 0 < e.val → e.val < 2047 → s.cleat.watching = true → s.railsOn = true ∨ risesOff e.val = true →
      SMap.find? s.cleat.belay i = some (BitVec.ofNat 11 e.val, true) → ∃ u, exec (.belayLatch e) s = .next u ∧
        u.cleat.latched.getLsbD i = true ∧ (s.pwr.rails = .ps3 → s.boot.step = 0 → s.sec.boundary = false → u.boot.step = 1 ∧ u.boot.kind = 2)) ∧
    (s.railsOn = true → s.boot.kind = 2 → 4 ≤ s.boot.step → s.cleat.watching = true → ∃ u, exec .belayWake s = .next u ∧
      u.cleat.watching = false ∧ u.cleat.wakeOk = true ∧
      (s.cleat.latched = 0 → u.cleat.wakeSrc = 1530 ∧ u.cleat.wakeCnt = 0) ∧
      (∀ i src en, i < 64 → s.cleat.latched.getLsbD i = true → SMap.find? s.cleat.belay i = some (src, en) →
        (u.cleat.source src.toNat).pend = true ∧ ((∀ j, j < i → s.cleat.latched.getLsbD j = false) → u.cleat.wakeSrc = src))) ∧
    (∃ u, exec .inBandInterrupt s = .next u ∧ risen s u 1531) ∧
    (∃ u, exec .plinthTemperature115 s = .next u ∧ risen s u 1532) ∧
    (∃ u, exec .testLogicResetExit s = .next u ∧ risen s u 1534) ∧
    (s.boot.perst = false → ∃ u, exec (.pciePerstN true) s = .next u ∧ risen s u 1529 ∧ u.boot.perst = true) ∧
    (s.boot.perst = true → ∃ u, exec (.pciePerstN false) s = .next u ∧ u.boot.perst = false ∧
      (s.railsOn = true → u.rings = [] ∧ u.lines = [] ∧ ∀ r, r < 8192 → cfgEn (u.rngCfg r) = false)) ∧
    (s.mgmt.romRecov = false → s.boot.shutdown = false → s.thm.tripLow = false → s.sec.boundary = false → s.boot.step = 0 →
      (s.pwr.rails = .ps3 → s.cleat.watching = true → responds (.wake .tray) s .tray 0 0 [] (fun u => risen s u 1530 ∧ u.boot.step = 1 ∧
        u.boot.kind = 2)) ∧
      (s.pwr.rails ≠ .ps3 → responds (.wake .tray) s .tray 4 0 [] (fun u => u.boot = s.boot ∧ u.cleat = s.cleat)))

/-! ## 15 Package management -/

namespace Sys2Proof.Claims

/-- The tray path reaches the controller's firmware. -/
def trayOpen (s : State) : Prop := s.mgmt.standby = true ∧ s.mgmt.romRecov = false

/-- Nothing but the management controller's own state has changed. -/
def mgmtOnly (s u : State) : Prop := u.pwr = s.pwr ∧ u.parts = s.parts ∧ u.fuses = s.fuses ∧ u.sec = s.sec ∧ u.lay = s.lay ∧ u.setup = s.setup

end Sys2Proof.Claims

/-- MCTP and PLDM types 0 and 2 (R400 to R407): each binding takes its endpoint id, the tray port's I3C and SMBus each their own, the port changes between I3C, with the address given,
and SMBus, a message of
another type is dropped and counted; a sensor answers its reading, and is unavailable while its source is off; an effecter is read on
either path and written on the tray path alone; reports go to the receiver, or wait until they are polled. -/
def Sys2Proof.Claims.pldmServed : Prop :=
  ∀ s : State,
    (∀ p, heardOn s p →
      (∀ e : Byte, responds (.setEndpointId p e) s p 0 0 [] (fun u => mgmtOnly s u ∧
        u.mgmt.eidHost = (if p = .host then e else s.mgmt.eidHost) ∧
        u.mgmt.eidTray = (if p = .tray ∧ s.mgmt.i3c = false then e else s.mgmt.eidTray) ∧
        u.mgmt.eidI3c = (if p = .tray ∧ s.mgmt.i3c = true then e else s.mgmt.eidI3c))) ∧
      (∀ (t : Byte) len, t.toNat ∉ [0, 1, 5, 6, 0x7E] ∨ 1024 < len → ∃ u, exec (.mctpDrop p t len) s = .next u ∧ u.out = s.out ∧
        u.mgmt.dropped = satAdd s.mgmt.dropped 1 0xFF ∧ mgmtOnly s u) ∧
      (∃ d, d.length = 1 ∧ responds (.gettid p) s p 0 0 d (mgmtOnly s)) ∧
      (∃ d, d.length = 4 ∧ responds (.getpldmversion p 0) s p 0 0 d (mgmtOnly s)) ∧
      responds (.getpldmversion p 3) s p 0x83 0 [] (mgmtOnly s) ∧
      responds (.getpldmtypes p) s p 0 0 (leBytes 8 (if s.mgmt.romRecov = true then 0x21 else 0x25)) (mgmtOnly s) ∧
      (∃ d, d.length = 32 ∧ responds (.getpldmcommands p 0) s p 0 0 d (mgmtOnly s)) ∧
      (s.mgmt.romRecov = true → ∀ sid, responds (.getsensorreading p sid) s p 0x20 0 [] (mgmtOnly s)) ∧
      (s.mgmt.romRecov = false →
        (∃ d, responds (.getpdrrepositoryinfo p) s p 0 0 d (mgmtOnly s)) ∧ (∃ d, responds (.getpdr p 0) s p 0 0 d (mgmtOnly s)) ∧
        (s.railsOn = true → responds (.getsensorreading p 2) s p 0 0 (leBytes 4 s.limit.1) (mgmtOnly s) ∧
          (∀ n, n < 12 → responds (.getstatesensorreadings p (BitVec.ofNat 16 (0xA0 + n))) s p 0 0 (leBytes 1 (s.psw n).state.code) (mgmtOnly s)) ∧
          (∀ n, n < 32 → responds (.getstatesensorreadings p (BitVec.ofNat 16 (0xB0 + n))) s p 0 0 (leBytes 1 (s.port n).state.code) (mgmtOnly s))) ∧
        (s.railsOn = false → responds (.getsensorreading p 2) s p 0 2 [] (mgmtOnly s) ∧
          responds (.getstatesensorreadings p 0xA0) s p 0 2 [] (mgmtOnly s)) ∧
        responds (.getsensorreading p 0x70) s p 0 0 (leBytes 4 s.inletUsed) (mgmtOnly s) ∧
        responds (.getsensorreading p 0) s p 0x80 0 [] (mgmtOnly s) ∧
        responds (.getnumericeffectervalue p 0x101) s p 0 0 (leBytes 4 s.pwr.rackW) (mgmtOnly s) ∧
        (∀ n, n < 12 → responds (.getstateeffecterstates p (BitVec.ofNat 16 (0x110 + n))) s p 0 0
          [match (s.part n).rackVerdict with | none => 0 | some true => 1 | some false => 2] (mgmtOnly s)) ∧
        (s.mgmt.queue = [] → s.mgmt.lostNew = 0 → responds (.pollforplatformeventmessage p) s p 0 0 [] (fun u => u.mgmt.queue = [])) ∧
        (∀ c d (lt : Word) rest, s.mgmt.queue = (c, d, lt) :: rest → s.mgmt.lostNew = 0 → responds (.pollforplatformeventmessage p) s p 0 0
          (leBytes 2 c ++ leBytes 4 d ++ leBytes 8 lt.toNat) (fun u => u.mgmt.queue = rest)))) ∧
    (s.mgmt.standby = true → ∀ addr, ∃ u v, exec (.setdasa addr) s = .next u ∧ u.mgmt.i3c = true ∧ u.mgmt.i3cAddr = addr ∧
      exec .rstdaa s = .next v ∧ v.mgmt.i3c = false ∧ v.mgmt.i3cAddr = 0 ∧ mgmtOnly s u ∧ mgmtOnly s v) ∧
    (trayOpen s →
      (∀ e : Byte, responds (.seteventreceiver .tray e) s .tray 0 0 [] (fun u => u.mgmt.receiver = some e ∧ u.mgmt.queue = [] ∧
        ∀ r ∈ s.mgmt.queue, .report r.1 r.2.1 r.2.2 ∈ u.out)) ∧
      (∀ w : BitVec 16, responds (.effecterRackLimit .tray w) s .tray 0 0 [] (fun u => u.pwr.rackW = w.toNat ∧ u.pwr.rackPend = none)) ∧
      (∀ t : BitVec 10, responds (.effecterInlet .tray t) s .tray 0 0 [] (fun u => u.thm.inlet = t.toNat ∧ u.thm.inletSrc = 1 ∧
        u.thm.inletAt = some s.now)) ∧
      (∀ (n : PartNo) (v : Byte),
        (v = 1 ∨ v = 2 → responds (.effecterRackVerdict .tray n v) s .tray 0 0 [] (fun u => (u.part n.val).rackVerdict = some (v == 1))) ∧
        (v ≠ 1 → v ≠ 2 → responds (.effecterRackVerdict .tray n v) s .tray 2 0 [] (fun u => u.parts = s.parts))) ∧
      (∀ (r : Fin 6) (a : BitVec 32), responds (.effecterCurrentLimit .tray r a) s .tray 0 0 [] (fun u =>
        u.pwr.regLimit = s.pwr.regLimit.setIfInBounds r.val a.toNat)) ∧
      (s.railsOn = true → ∀ i ∈ [Instr.seteventreceiver .host 1, .effecterRackLimit .host 500, .effecterInlet .host 100,
        .effecterRackVerdict .host 0 2, .effecterCurrentLimit .host 0 9], responds i s .host 5 0 [] (fun u => u.pwr = s.pwr ∧ u.thm = s.thm ∧
          u.mgmt.receiver = s.mgmt.receiver ∧ (u.part 0).rackVerdict = (s.part 0).rackVerdict)))

/-- The Denxon reads (R409 to R411, R415, R526): the partition state word, a record's bytes, the error records from an index on, and a
counter sample; a field out of range is answered with its offset. -/
def Sys2Proof.Claims.denxonReads : Prop :=
  ∀ (s : State) (p : MgmtPath), heardOn s p → s.mgmt.romRecov = false →
    (∀ n : Byte, (n.toNat < 12 → responds (.readPsw p n) s p 0 0 (leBytes 8 (s.psw n.toNat).word) (mgmtOnly s)) ∧
      (12 ≤ n.toNat → responds (.readPsw p n) s p 2 4 [] (mgmtOnly s))) ∧
    (∀ (r : Byte) (off : BitVec 32),
      (r = 0 ∨ 7 < r.toNat → responds (.readRecord p r off) s p 2 4 [] (mgmtOnly s)) ∧
      (1 ≤ r.toNat → r.toNat ≤ 7 → s.mgmt.record r.toNat = none → responds (.readRecord p r off) s p 0 0 [] (mgmtOnly s)) ∧
      (∀ b, 2 ≤ r.toNat → r.toNat ≤ 7 → s.mgmt.record r.toNat = some b →
        responds (.readRecord p r off) s p 0 0 ((b.drop off.toNat).take 512) (mgmtOnly s)) ∧
      (∀ b, r = 1 → s.mgmt.record 1 = some b → ∃ d, d.length = min 512 (b.length - off.toNat) ∧
        responds (.readRecord p r off) s p 0 0 d (mgmtOnly s))) ∧
    (∀ i : BitVec 32, let l := (s.rst.log.filter (fun r => decide (i.toNat ≤ r.seq.toNat))).take 15
      responds (.readErrlog p i) s p 0 l.length (l.flatMap ErrRec.bytes) (mgmtOnly s)) ∧
    (∀ b : Byte, (b.toNat < 4 → responds (.readSample p b) s p 0 0 (SMap.get [] s.mgmt.samples b.toNat) (mgmtOnly s)) ∧
      (4 ≤ b.toNat → responds (.readSample p b) s p 2 4 [] (mgmtOnly s)))

/-- What the management paths read: PLDM and the Denxon reads. -/
def Obligations.ManagementReads : Prop := Claims.pldmServed ∧ Claims.denxonReads

/-- The Denxon orders (R299, R300, R314, R315, R412 to R415, R430, 07 R190, 13 R374): a start and a shutdown begin from their states
and are refused with State from others; a limit is in force at once or pending; a trip is released after 60 s; roles, seconds, step
slots, windows and samples are taken; a topology record is taken part by part, and one that stays incomplete for 60 s is dropped; every
order is refused on the host path. -/
def Obligations.DenxonOrders : Prop :=
  ∀ s : State, trayOpen s →
    (s.boot.shutdown = false → s.thm.tripLow = false → s.sec.boundary = false →
      (s.pwr.rails = .ps5 → s.boot.step = 0 → responds (.on .tray) s .tray 0 0 [] (fun u => u.boot.step = 1 ∧ u.boot.kind = 0 ∧
        u.boot.startAt = s.now)) ∧
      (s.railsOn = true → responds (.on .tray) s .tray 4 0 [] (fun u => u.boot = s.boot) ∧
        (s.boot.ready = true → responds (.off .tray) s .tray 0 0 [] (fun u => u.boot.shutdown = true))) ∧
      (s.pwr.rails = .ps5 → s.boot.step = 0 → responds (.off .tray) s .tray 4 0 [] (fun u => u.boot = s.boot)) ∧
      (s.railsOn = true → s.boot.ready = true → s.sleepBar none = 0 → responds (.sleep .tray) s .tray 0 0 [] (fun u => u.pwr.rails = .ps3)) ∧
      (s.railsOn = true → s.boot.ready = true → s.sleepBar none ≠ 0 → responds (.sleep .tray) s .tray 6 2 [] (fun u => u.pwr = s.pwr))) ∧
    (s.boot.shutdown = true → ∀ i ∈ [Instr.on .tray, .off .tray, .sleep .tray, .wake .tray], responds i s .tray 5 0 [] (fun u => u.boot = s.boot)) ∧
    (∀ (w : BitVec 16) (lt : Word),
      (lt = 0 ∨ (s.railsOn = true ∧ lt.toNat ≤ s.lay.time.toNat) → responds (.rackLimit .tray w lt) s .tray 0 0 [] (fun u =>
        u.pwr.rackW = w.toNat ∧ u.pwr.rackPend = none)) ∧
      (s.railsOn = true → s.lay.time.toNat < lt.toNat → responds (.rackLimit .tray w lt) s .tray 0 0 [] (fun u =>
        u.pwr.rackW = s.pwr.rackW ∧ u.pwr.rackPend = some (w.toNat, lt))) ∧
      (s.railsOn = false → lt ≠ 0 → responds (.rackLimit .tray w lt) s .tray 4 0 [] (fun u => u.pwr = s.pwr))) ∧
    (s.thm.tripLow = true →
      (s.thm.tripAt + 60 * fcPerS ≤ s.now → responds (.tripRelease .tray) s .tray 0 0 [] (fun u => u.thm.tripLow = false ∧
        .land "THERMTRIP_N" true ∈ u.out)) ∧
      (s.now < s.thm.tripAt + 60 * fcPerS → ∃ d, responds (.tripRelease .tray) s .tray 6 d [] (fun u => u.thm = s.thm))) ∧
    (∀ r : Byte, (r.toNat < 2 → responds (.layRole .tray r) s .tray 0 0 [] (fun u => u.mgmt.settingsRole = (r == 1))) ∧
      (2 ≤ r.toNat → responds (.layRole .tray r) s .tray 2 4 [] (fun u => u.mgmt.settingsRole = s.mgmt.settingsRole))) ∧
    (∀ v : Word, (s.railsOn = true → s.isMaster = true → responds (.laySecond .tray v) s .tray 0 0 [] (fun u => u.lay = { s.lay with second := some v })) ∧
      (s.railsOn = false ∨ s.isMaster = false → responds (.laySecond .tray v) s .tray 4 0 [] (fun u => u.lay = s.lay))) ∧
    (∀ a b : BitVec 32, responds (.stepSlot .tray a b) s .tray 0 0 [] (fun u => u.lay = { s.lay with period := a, slotOff := b })) ∧
    (∀ (mask : BitVec 32) (a b : Word), s.railsOn = true →
      (s.lay.time.toNat + 100000 ≤ a.toNat → a.toNat < b.toNat → (∀ q, q < 32 → mask.getLsbD q = true → (s.port q).window = none) →
        s.lay.freeEntry false ≠ none → responds (.windowArm .tray mask a b) s .tray 0 0 [] (fun u =>
          (∀ q, q < 32 → mask.getLsbD q = true → (u.port q).window = some (a, b)) ∧ ∃ e ∈ u.lay.cal, e.lt = a ∧ e.ev = .linkWindow mask b)) ∧
      (a.toNat < s.lay.time.toNat + 100000 ∨ b.toNat ≤ a.toNat → responds (.windowArm .tray mask a b) s .tray 6 1 [] (fun u =>
        u.ports = s.ports ∧ u.lay = s.lay))) ∧
    (∀ (n : Byte) (lt : Word), (4 ≤ n.toNat → responds (.sampleArm .tray n lt) s .tray 2 4 [] (fun u => u.lay = s.lay)) ∧
      (n.toNat < 4 → s.railsOn = true → (∀ e ∈ s.lay.cal, e.ev ≠ .sample n.toNat) → s.lay.freeEntry false ≠ none →
        responds (.sampleArm .tray n lt) s .tray 0 0 [] (fun u => SMap.find? u.mgmt.samples n.toNat = none ∧
          ∃ e ∈ u.lay.cal, e.lt = lt ∧ e.ev = .sample n.toNat))) ∧
    (∀ (off : BitVec 16) (b : List Byte), off.toNat + b.length ≤ 4928 → b.length ≤ 512 →
      responds (.topologyWrite .tray off 0 b) s .tray 0 0 [] (fun u => u.router = s.router ∧ ∃ l, u.mgmt.topoPart = some (l, s.now) ∧
        (l.drop off.toNat).take b.length = b)) ∧
    (∀ (off : BitVec 16) (b : List Byte) last, 4928 < off.toNat + b.length → responds (.topologyWrite .tray off last b) s .tray 2 4 [] (fun u =>
      u.mgmt.topoPart = s.mgmt.topoPart)) ∧
    (∀ l t, s.mgmt.topoPart = some (l, t) → t + 60 * fcPerS ≤ s.now → exec .topologyPartTimeout s = .next { s with
      mgmt := { s.mgmt with topoPart := none } }) ∧
    (∀ t, s.mgmt.bmcAt = some t → t + 10 * fcPerS < s.now → exec .bmcPresenceTimeout s = .next { s with mgmt := { s.mgmt with bmc := false } }) ∧
    (s.railsOn = true → ∀ i ∈ [Instr.on .host, .sleep .host, .wake .host, .rackLimit .host 5 0, .tripRelease .host, .layRole .host 1,
      .laySecond .host 5, .stepSlot .host 1 0, .windowArm .host 1 2 3, .sampleArm .host 0 5, .topologyWrite .host 0 0 []],
      responds i s .host 3 0 [] (fun u => mgmtOnly s u ∧ u.mgmt = s.mgmt))

/-- Firmware update (R424 to R428): an update begins on the bank that does not run, takes a table of components, erases the slot of each
it updates, pulls its image piece by piece, verifies it and applies it; activation completes the bank and stages it; a cancelled or idle
update ends with the bank as it is; outside an update its commands are refused. -/
def Obligations.FirmwareUpdate : Prop :=
  ∀ (s : State) (u : FwUpdate), s.mgmt.standby = true →
    let st (t : State) : Option Nat := t.mgmt.update.map (·.state)
    (∃ d, responds (.querydeviceidentifiers .tray) s .tray 0 0 d (fun _ => True)) ∧
    (∃ d, responds (.getfirmwareparameters .tray) s .tray 0 0 d (fun t => t.mgmt.fw0 = s.mgmt.fw0 ∧ t.mgmt.fw1 = s.mgmt.fw1)) ∧
    responds (.getstatus .tray) s .tray 0 0 [BitVec.ofNat 8 ((st s).getD 0)] (fun t => st t = st s) ∧
    (s.mgmt.update = none →
      responds (.requestupdate .tray) s .tray 0 0 [] (fun t => st t = some 1 ∧ t.mgmt.idleBank.state = .staging ∧
        t.mgmt.idleBank.seq = (s.mgmt.bank s.mgmt.activeB1).seq + 1 ∧ t.mgmt.bank s.mgmt.activeB1 = s.mgmt.bank s.mgmt.activeB1) ∧
      ∀ i ∈ [Instr.passcomponenttable .tray [1], .updatecomponent .tray 1 5, .transfercomplete .tray true, .activatefirmware .tray false true,
        .cancelupdate .tray], responds i s .tray 0x80 0 [] (fun t => t.mgmt.update = none)) ∧
    (s.mgmt.update = some u →
      responds (.requestupdate .tray) s .tray 0x81 0 [] (fun t => st t = some u.state) ∧
      (∀ l, u.state = 1 → responds (.passcomponenttable .tray l) s .tray 0 0 [] (fun t => st t = some 2 ∧ t.mgmt.update.map (·.table) = some l)) ∧
      (∀ (c : BitVec 16) size, u.state = 2 → u.table.contains c = true → 0 < size → size ≤ slotBytes c.toNat →
        responds (.updatecomponent .tray c size) s .tray 0 0 [] (fun t => st t = some 3 ∧ SMap.find? t.mgmt.idleBank.comps c.toNat = none ∧
          .response .tray 0 0x15 (leBytes 4 0 ++ leBytes 4 (min s.pullMax size)) ∈ t.out)) ∧
      (∀ c size b, u.state = 3 → u.comp = some (c, size) → s.mgmt.overheat = false →
        b.length = min s.pullMax (size - u.got.length) → responds (.requestfirmwaredata .tray u.got.length b) s .tray 0 0 [] (fun t =>
          t.mgmt.update.map (·.got) = some (u.got ++ b))) ∧
      (∀ c size, u.state = 3 → u.comp = some (c, size) → u.got.length = size →
        responds (.transfercomplete .tray true) s .tray 0 0x16 [] (fun t => st t = some 4)) ∧
      (∀ c size v, u.state = 4 → u.comp = some (c, size) →
        (s.verifies c u.got v = true → responds (.verifycomplete .tray v) s .tray 0 0x17 [] (fun t => st t = some 5)) ∧
        (s.verifies c u.got v = false → responds (.verifycomplete .tray v) s .tray 1 0x17 [] (fun t => st t = some 2))) ∧
      (∀ c size, u.state = 5 → u.comp = some (c, size) → responds (.applycomplete .tray true) s .tray 0 0x18 [] (fun t => st t = some 2 ∧
        SMap.find? t.mgmt.idleBank.comps c = some (fieldLE u.got 2 1, u.got))) ∧
      (u.state = 2 → (∀ c ∈ u.table, c.toNat ∈ u.done) → responds (.activatefirmware .tray false true) s .tray 0 0 [] (fun t =>
        t.mgmt.update = none ∧ t.mgmt.idleBank.state = .staged ∧ t.mgmt.bank s.mgmt.activeB1 = s.mgmt.bank s.mgmt.activeB1)) ∧
      (u.comp ≠ none → responds (.cancelupdatecomponent .tray) s .tray 0 0 [] (fun t => st t = some 2)) ∧
      responds (.cancelupdate .tray) s .tray 0 0 [] (fun t => t.mgmt.update = none ∧ t.mgmt.fw0 = s.mgmt.fw0 ∧ t.mgmt.fw1 = s.mgmt.fw1) ∧
      (u.lastCmd + 120 * fcPerS ≤ s.now → exec .updateIdleTimeout s = .next { s with mgmt := { s.mgmt with update := none } }))

/-- Flash and regulators (R416 to R418, R421 to R423, 18 R484, 20 R511, R513): a write that ends commits into the slot without the valid
copy, with the next number, one that failed is abandoned and counted; an overheated plinth abandons every write and requests them again
when it has cooled; a regulator's answer is kept, its third missing answer in a row stops the raising steps, and a fault of a supply
takes the rails away, or ends the start. -/
def Obligations.PlinthKept : Prop :=
  ∀ s : State, s.mgmt.standby = true →
    (∀ id b rest, s.mgmt.writes = (id, b) :: rest → s.mgmt.overheat = false →
      (∃ u, exec (.flashWrite true) s = .next u ∧ u.mgmt.writes = rest ∧ (u.cleat.source 1535).pend = true ∧
        ((∀ x y, SMap.find? s.mgmt.slots id = some (x, y) → x.valid = true → y.valid = false →
          SMap.find? u.mgmt.slots id = some (x, ⟨x.seq + 1, true, b⟩)) ∧
         (s.mgmt.record id = none → u.mgmt.record id = some b))) ∧
      (∃ u, exec (.flashWrite false) s = .next u ∧ u.mgmt.writes = rest ∧ u.mgmt.jfail = satAdd s.mgmt.jfail 1 0xFF ∧
        u.mgmt.record id = s.mgmt.record id)) ∧
    (s.mgmt.overheat = false → ∃ u, exec .plinthOverheat s = .next u ∧ u.mgmt.overheat = true ∧ u.mgmt.writes = [] ∧
      u.mgmt.aborted = s.mgmt.writes) ∧
    (s.mgmt.overheat = true → ∃ u, exec .flashRetryAfterCool s = .next u ∧ u.mgmt.overheat = false ∧ u.mgmt.aborted = [] ∧
      ∀ w ∈ s.mgmt.aborted, ∃ x ∈ u.mgmt.writes, x.1 = w.1) ∧
    (∀ (r : Fin 6) (t : RegTelemetry), t.faulted = false → ∃ u, exec (.regulatorPoll r (some t)) s = .next u ∧
      SMap.find? u.pwr.regData r.val = some t ∧ u.pwr.regMiss.toList.getD r.val 1 = 0 ∧ ∀ n ∈ fedBy r.val, (u.part n).regDown = false) ∧
    (∀ r : Fin 6, let k := s.pwr.regMiss.toList.getD r.val 0
      ∃ u, exec (.regulatorPoll r none) s = .next u ∧ u.pwr.regMiss.toList.getD r.val 0 = k + 1 ∧
        (k = 2 → ∀ n ∈ fedBy r.val, (u.part n).regDown = true)) ∧
    (s.railsOn = true → s.boot.step = 0 ∨ s.boot.step = 11 →
      (∀ pp, ∃ u, exec (.stackRailFault pp) s = .next u ∧ u.pwr.rails = .ps5 ∧ u.descs = [] ∧ u.tiles = []) ∧
      (∀ r, ∃ u, exec (.outputBelowSetting r) s = .next u ∧ u.pwr.rails = .ps5 ∧ u.descs = [] ∧ u.tiles = [])) ∧
    (∀ rail, rail < 8 → s.boot.step = 2 → s.boot.kind ≠ 3 → ∃ u, exec (.railRangeTimeout rail) s = .next u ∧ u.boot.step = 0 ∧
      u.boot.cause = 3 ∧ u.boot.failStep = 2 ∧ u.pwr.rails = .ps5)

/-! ## 16 Start-up and shutdown, 17 Resets, 20 Power sequencing -/

namespace Sys2Proof.Claims

/-- Everything on the core rails is at rest: no tile, job or descriptor has any state. -/
def coresAnew (u : State) : Prop := u.tiles = [] ∧ u.descs = [] ∧ u.jobs = [] ∧ u.rings = [] ∧ u.setup = []

/-- A tile's core after its reset: every register zero, nothing running, the program region zero (17 R457). -/
def tileZero (x : Tile) : Prop :=
  x.common = .replicate 16 0 ∧ x.groups = .replicate 64 0 ∧ x.pc = 0 ∧ x.running = false ∧ x.drain = none ∧ x.tq = [] ∧ x.vq = [] ∧
  ∀ a, 0x8000 ≤ a → a < 0xC0000 → Memory.read x.scratch a = 0

/-- The packet comes to a tile port: `v` is `s` without the flight that brought it (05 R138). -/
def comesToTile (s v : State) (t : Nat) (p : Packet) : Prop := ∃ d, s.arrive (fun x => x == .tile t) p = some (v, d)

/-- Nothing of a tile waits: no entry outstanding, no job to come. -/
def tileQuiet (x : Tile) : Prop := x.reads = [] ∧ x.writes = [] ∧ x.jobs = [] ∧ x.halted = false

end Sys2Proof.Claims

/-- Standby, starts and shutdowns (R399, R431 to R450, 20 R511 to R515, 13 R373): standby power finds the package in PS5, and its loss
takes everything but flash and fuses; a start goes through its steps in order, raises the rails at step 2 and ends with every partition
Idle or Fenced; a failed or late step takes the rails away with its cause; a memory test clears its stack; a shutdown's self-test ends in
PS5 with the record requested; a thermal trip takes the rails away and records its sensor. -/
def Obligations.StartsAndFalls : Prop :=
  ∀ s : State,
    (∀ ok bad, s.mgmt.standby = false → ∃ u, exec (.standbyPowerOn ok bad) s = .next u ∧ u.mgmt.standby = true ∧ u.mgmt.since = s.now ∧
      u.pwr.rails = .ps5 ∧ u.boot.step = 0 ∧ coresAnew u ∧ u.fuses = s.fuses ∧ u.mgmt.romRecov = !ok) ∧
    (s.mgmt.standby = true →
      (∃ u, exec .standbyLoss s = .next u ∧ u.mgmt.standby = false ∧ u.pwr.rails = .ps5 ∧ coresAnew u ∧ u.fuses = s.fuses ∧
        u.mgmt.fw0 = s.mgmt.fw0 ∧ u.mgmt.fw1 = s.mgmt.fw1 ∧ u.sec.keys = []) ∧
      (s.sec.boundary = false → 1 ≤ s.boot.step → s.boot.step ≤ 10 →
        (∀ rep : StepReport, rep.fail = none →
          (s.boot.step = 1 → s.boot.kind = 3 → ∃ u, exec (.startStep rep) s = .next u ∧ u.boot.step = 2) ∧
          (2 ≤ s.boot.step → spineFails s.boot.defects = false → s.boot.testLeft = [] → ∃ u, exec (.startStep rep) s = .next u ∧
            u.boot.step = s.boot.step + 1 ∧ (s.boot.step = 2 → u.railsOn = true ∧ u.pwr.pwrOk = true) ∧
            (s.boot.step = 3 → u.lay.time = 0 ∧ u.lay.role = s.mgmt.settingsRole) ∧
            (s.boot.step = 10 → u.boot.ready = true ∧ u.boot.cause = 0 ∧ ∀ n, n < 12 → (u.psw n).state = .idle ∨ (u.psw n).state = .fenced))) ∧
        (∀ rep : StepReport, s.boot.step = 2 → s.boot.kind ≠ 3 → rep.fail = some 3 → ∃ u, exec (.startStep rep) s = .next u ∧
          u.boot.step = 0 ∧ u.boot.cause = 3 ∧ u.boot.failStep = 2 ∧ u.pwr.rails = .ps5 ∧ coresAnew u) ∧
        (∀ l, s.boot.step ≠ 7 → s.boot.step ≠ 8 → ∃ u, exec (.startStepTimeout l) s = .next u ∧ u.boot.step = 0 ∧ u.boot.cause = 6 ∧
          u.boot.failStep = s.boot.step ∧ u.pwr.rails = .ps5 ∧ coresAnew u) ∧
        (∀ n l, s.boot.step = 7 → ∃ u, exec (.startStepTimeout (n :: l)) s = .next u ∧ u.boot.step = 8 ∧ (n.val, 3) ∈ u.boot.bad)) ∧
      (∀ n : PartNo, s.boot.step = 8 → n.val ∈ s.boot.testLeft → ∃ u, exec (.memoryTestDone n []) s = .next u ∧ n.val ∉ u.boot.testLeft ∧
        (u.stack n.val).mem = [] ∧ (u.stack n.val).poison = [] ∧ u.boot.bad = s.boot.bad) ∧
      (∀ d un ms, s.boot.shutdown = true → s.mgmt.overheat = false → ∃ u, exec (.shutdownSelftestDone d un ms) s = .next u ∧
        u.pwr.rails = .ps5 ∧ u.boot.shutdown = false ∧ coresAnew u ∧ ∃ w ∈ u.mgmt.writes, w.1 = 6 ∧ w.2.take 4 = [1, 1, 0, 0]) ∧
      (∀ (x : Fin 76) temp, trips x.val temp = true → s.thm.tripLow = false → s.railsOn = true → s.boot.step = 0 ∨ s.boot.step = 11 →
        ∃ u, exec (.thermalTrip x temp) s = .next u ∧ u.pwr.rails = .ps5 ∧ coresAnew u ∧ u.thm.tripLow = true ∧ u.thm.tripId = x.val ∧
          u.thm.tripTemp = temp ∧ u.thm.tripAt = s.now ∧ .land "THERMTRIP_N" false ∈ u.out))

/-- Tile, cluster and package resets (R452 to R458, R465, R468, R469, 18 R480, 19 R502, 20 R517): an order while one runs is Busy, one on a tile
that runs is refused; an accepted one zeroes the tile; what a drain leaves is old, and its late reply is dropped and counted; a package
reset returns the core domain to its reset values, keeps the stacks, and restarts, once no zeroization runs; a slot is freed, the counts are cleared, and a
reconciliation returns a partition that only a disagreement fenced. -/
def Obligations.ResetsClear : Prop :=
  ∀ s : State,
    (s.barLive = true → s.zeroizing = false → s.boot.ready = true → s.boot.shutdown = false →
      (∀ (v : Word) ok, s.rst.busy = true → v.toNat % 8 = 5 → ∃ u, exec (.clusterReset v ok) s = .next u ∧ u.rst.status = 4 ∧
        u.rst.busy = true ∧ u.tiles = s.tiles) ∧
      (∀ (t : TileNo) l, s.rst.busy = false → s.ltidOf t.val = some l → s.physOf l = some t.val → l < 840 →
        ((s.psw (t.val / 72)).state = .active → (s.tile t.val).halted = false → ∃ u, exec (.tileReset t true true) s = .next u ∧
          u.rst.status = 2 ∧ u.rst.busy = false ∧ u.tiles = s.tiles) ∧
        ((s.psw (t.val / 72)).state = .idle → tileQuiet (s.tile t.val) → (∀ n, (s.stack n).streams = []) → s.jobs = [] →
          ∃ u, exec (.tileReset t true true) s = .next u ∧ tileZero (u.tile t.val) ∧ u.rst.status = 0 ∧ u.rst.busy = false ∧
            ∀ m, m ≠ t.val → u.tile m = s.tile m)) ∧
      (∀ (v : Word) t, s.rst.busy = false → v.toNat % 8 = 5 → bits v.toNat 25 16 < 840 → s.physOf (bits v.toNat 25 16) = some t → t < 864 →
        (s.psw (t / 72)).state = .idle → (∀ m ∈ clusterOf t, tileQuiet (s.tile m)) → (∀ n, (s.stack n).streams = []) → s.jobs = [] →
        ∃ u, exec (.clusterReset v true) s = .next u ∧ (∀ m ∈ clusterOf t, tileZero (u.tile m)) ∧ u.rst.status = 0 ∧
          ∀ m, m ∉ clusterOf t → u.tile m = s.tile m)) ∧
    (s.railsOn = true → ∀ (t : TileNo) ok, (s.tile t.val).drain = some (false, ok) → (s.psw (t.val / 72)).state = .active →
      (s.tile t.val).jobs = [] → s.jobs = [] → ∃ u, exec (.drainLimit t) s = .next u ∧ tileZero (u.tile t.val) ∧
        (∀ e ∈ (u.tile t.val).reads, e.2.old = true) ∧ (∀ e ∈ (u.tile t.val).writes, e.2.old = true) ∧ (u.tile t.val).halted = !ok) ∧
    (∀ (t : TileNo) (p : Packet) e v, p.typ = 6 → comesToTile s v t.val p → SMap.find? (s.tile t.val).reads (p.replyRid.toNat % 64) = some e → e.old = true →
      ∃ u, exec (.lateReply t p) s = .next u ∧ SMap.find? (u.tile t.val).reads (p.replyRid.toNat % 64) = none ∧ u.out = s.out ∧
        (u.part (t.val / 72)).lateDrops = satAdd (s.part (t.val / 72)).lateDrops 1 0xFFFF ∧ (u.tile t.val).pc = (s.tile t.val).pc) ∧
    (s.boot.shutdown = false → s.sec.boundary = false →
      let anew (u : State) : Prop := coresAnew u ∧ u.boot.step = 1 ∧ u.boot.kind = 3 ∧ u.pwr.rails = .on ∧ u.sec.keys = [] ∧
        ∀ n, (u.stack n).mem = (s.stack n).mem
      (s.railsOn = true → (s.zeroizing = false → ∃ u, exec .pkgRstN s = .next u ∧ anew u) ∧
        (s.zeroizing = true → exec .pkgRstN s = .next { s with sec := { s.sec with resetDue := true } })) ∧
      (∀ v : Word, s.barLive = true → v.toNat % 8 = 7 → s.zeroizing = false → ∃ u, exec (.packageReset v) s = .next u ∧ anew u)) ∧
    (s.barLive = true → ∀ v : Word,
      (v.getLsbD 20 = true → ∃ u, exec (.free v) s = .next u ∧ SMap.find? u.rst.samples (v.toNat % 4) = none ∧ u.tiles = s.tiles) ∧
      (v.getLsbD 63 = true → ∃ u, exec (.clear v) s = .next u ∧ u.tilCorr = 0 ∧ u.tilUnc = 0 ∧ u.tilDtrap = 0 ∧ u.tiles = s.tiles) ∧
      (let n := v.toNat % 16
       let q := s.psw n
       let code := if 12 ≤ n then 1 else if bits v.toNat 23 8 ≠ q.seq.toNat then 2
         else if q.state ≠ .fenced ∨ q.fencePend = true ∨ q.fenceCause ≠ 2 then 3 else if q.verdict ≠ .inService then 4
         else if (s.part n).reset ≠ none ∨ (s.part n).rot ≠ none ∨ s.changing n = true then 5 else 0
       v.getLsbD 4 = true → ∃ u, exec (.prtRecon v) s = .next u ∧ u.rst.recon.toNat = code ∧
         (code = 0 → (u.psw n).state = .idle ∧ (u.psw n).fenceCause = 0) ∧ (code ≠ 0 → u.parts = s.parts)))

/-- Partition resets (R454, R459 to R463, 18 R482): an order marks each partition Resetting with the next generation, and one on a
partition that is Off or resetting is refused; the steps follow one another, step 4 leaves every entry of its tiles old, step 5 zeroes them;
at the end the partition is Idle where nothing stands against it, else Fenced with the highest cause. -/
def Obligations.PartitionResets : Prop :=
  ∀ s : State, s.railsOn = true →
    (∀ v : Word, s.barLive = true → s.zeroizing = false → s.boot.ready = true → s.boot.shutdown = false → s.rst.busy = false →
      v.toNat % 8 = 6 → bits v.toNat 15 4 ≠ 0 → bits v.toNat 15 4 < 4096 →
      let l := maskList (bits v.toNat 15 4) 12
      ((∃ n ∈ l, (s.psw n).state = .off ∨ (s.psw n).state = .resetting) → ∃ u, exec (.partitionReset v) s = .next u ∧
        u.rst.status = 2 ∧ u.parts = s.parts) ∧
      ((∀ n ∈ l, ((s.psw n).state = .idle ∨ (s.psw n).state = .fenced) ∧ (s.part n).rot = none ∧ s.changing n = false ∧ (s.part n).jobs = []) →
        ∃ u, exec (.partitionReset v) s = .next u ∧ u.rst.busy = true ∧ u.rst.status = 0 ∧ ∀ n ∈ l, (u.psw n).state = .resetting ∧
          (u.psw n).gen = (s.psw n).gen + 1 ∧ (u.part n).reset.any (fun r => r.step == 2 && r.cause == 1 && r.driver) = true)) ∧
    (∀ (n : PartNo) holds, let p := s.part n.val
      (p.psw.state = .off → exec (.hardTrip n holds) s = .next s) ∧
      (p.psw.state = .idle → p.rot = none → s.changing n.val = false → s.zeroizing = false → p.jobs = [] →
        ∃ u, exec (.hardTrip n holds) s = .next u ∧ (u.psw n.val).state = .resetting ∧
          (u.part n.val).reset.any (fun r => r.step == 2 && r.cause == 2 && r.holds == holds) = true)) ∧
    (∀ (n : PartNo) r bad ch seams, let p := s.part n.val
      p.reset = some r →
      (3 ≤ r.step → r.step ≤ 6 → s.staging.reqs = [] → (s.stack n.val).streams = [] → ∃ u q, exec (.resetStep n bad ch seams) s = .next u ∧
        (u.part n.val).reset = some q ∧ q.step = r.step + 1 ∧ q.cause = r.cause ∧ (u.psw n.val).state = p.psw.state ∧
        (r.step = 4 → ∀ t, t / 72 = n.val → ∀ e ∈ (u.tile t).reads, e.2.old = true) ∧
        (r.step = 5 → ∀ t, t / 72 = n.val → tileZero (u.tile t))) ∧
      (r.step = 2 → (∀ t, t / 72 = n.val → (s.tile t).tq = []) → s.rst.tiles = [] → ∃ u q, exec (.resetStep n bad ch seams) s = .next u ∧
        (u.part n.val).reset = some q ∧ q.step = 3 ∧ ∀ t, t / 72 = n.val → (u.tile t).running = false ∧ (u.tile t).tq = [] ∧ (u.tile t).vq = []) ∧
      (r.step = 7 → r.jobs = [] → p.psw.state = .resetting →
        let causes := r.standing ++ r.recorded ++ (if r.holds = true then [1] else [])
        ∃ u, exec (.partitionResetDone n) s = .next u ∧ (u.part n.val).reset = none ∧ (u.part n.val).lastCause = r.cause ∧
          (u.part n.val).resets = satAdd p.resets 1 0xFFF ∧
          (causes = [] → p.psw.verdict = .inService → (u.psw n.val).state = .idle) ∧
          (causes ≠ [] → (u.psw n.val).state = .fenced ∧ (u.psw n.val).fenceCause = topCause causes) ∧
          (causes = [] → p.psw.verdict = .outOfService → (u.psw n.val).state = .fenced ∧ (u.psw n.val).fenceCause = 2)))

/-! ## The whole block -/

/-- A step takes the command at the front of the queue and runs it on the state with the queue's rest; with an empty queue the block
idles (the model's choice, log entry 1). -/
def Obligations.StepTakesFront : Prop :=
  (∀ (c : Instr) (rest : List Instr) (s : State), step { s with pending := c :: rest } = exec c { s with pending := rest }) ∧
  ∀ s : State, s.pending = [] → step s = .next s

/-- After standby power-on the package waits in PS5 with the core rails off (R399); every partition state word is at the reset values of
R15, CONFLICT agrees with R19, Lay time is 0 in state Free, every source is disabled with TARGET 0 (14), no order of PRT_RST is in
progress, and every memory is in its canonical form. -/
def Obligations.ResetState : Prop :=
  let s := State.reset
  s.pending = [] ∧ s.pwr.rails = .ps5 ∧ s.railsOn = false ∧ s.pwr.pwrOk = false ∧ s.mgmt.standby = true ∧ s.boot.step = 0 ∧ s.boot.ready = false ∧
    (∀ n, (s.psw n).state = .off ∧ (s.psw n).fencePend = false ∧ (s.psw n).conflict = false ∧ (s.psw n).gen = 0 ∧ (s.psw n).tenant = 0 ∧
      (s.psw n).verdict = .unknown ∧ (s.psw n).fenceCause = 0 ∧ (s.psw n).seq = 0) ∧
    s.lay.time = 0 ∧ s.lay.state = 0 ∧ (∀ n, (s.cleat.source n).en = false ∧ (s.cleat.source n).target = 0) ∧ s.rst.busy = false ∧
    s.memWf = true ∧ s.queueWf = true

/-- No command reaches into the queue: whatever one does, the commands that wait are those that waited; a step takes exactly one. A
command never changes the grade, the identity or the life of the package, raises an SVN fuse only as a commit order, never lowers one (11 R332), and
never turns time back. -/
def Obligations.QueueFusesTimeKept : Prop :=
  (∀ (c : Instr) (s u : State), exec c s = .next u → u.pending = s.pending ∧ s.now ≤ u.now ∧ u.fuses.grade = s.fuses.grade ∧
    u.fuses.prod = s.fuses.prod ∧ u.fuses.deviceId = s.fuses.deviceId ∧ (∀ i : Fin 6, s.fuses.svn.get i ≤ u.fuses.svn.get i) ∧
    (u.fuses ≠ s.fuses → ∃ path, c = .svnCommit path)) ∧
  (∀ s u : State, step s = .next u → u.pending = s.pending.tail ∧ s.now ≤ u.now ∧ u.fuses.deviceId = s.fuses.deviceId ∧
    ∀ i : Fin 6, s.fuses.svn.get i ≤ u.fuses.svn.get i)

namespace Sys2Proof.Claims

/-- The views of a partition disagree (01 R19). -/
def viewsDisagree (p : Psw) : Prop :=
  (p.verdict = .outOfService ∧ (p.state = .idle ∨ p.state = .active ∨ p.state = .parked)) ∨
  (p.verdict = .inService ∧ p.state = .fenced ∧ (p.fenceCause = 1 ∨ p.fenceCause = 3 ∨ p.fenceCause = 4))

/-- In every partition CONFLICT reads 1 while the views disagree, and only then. -/
def conflictRight (s : State) : Prop := ∀ n, (s.psw n).conflict = true ↔ viewsDisagree (s.psw n)

end Sys2Proof.Claims

/-- CONFLICT reads 1 while the two views of a partition disagree, and only then (R19): true right after standby power-on, and kept by
every step, so that a partition that is in service (R18) never has a verdict of Out of service. -/
def Obligations.ConflictKept : Prop :=
  conflictRight State.reset ∧ (∀ s u : State, conflictRight s → step s = .next u → conflictRight u) ∧
  ∀ s : State, conflictRight s → ∀ n, (s.psw n).inService = true → (s.psw n).verdict = .inService ∧ ¬ viewsDisagree (s.psw n)

/-- Every memory of the package keeps its canonical form, addresses strictly rising and no zero byte listed, through every step. -/
def Obligations.MemoriesKeepForm : Prop :=
  ∀ s u : State, s.memWf = true → step s = .next u → u.memWf = true

/-! ## Frames over every command -/

namespace Sys2Proof.Claims

/-- The commands that can take the core domain to its reset values: what removes the core rails, what resets the package, and a write that does so. -/
def clearsCores : Instr → Bool
  | .setupWrite .. | .hintSleep .. | .boundaryDrive | .internalScan .. | .thermalTrip .. | .off .. | .sleep ..
  | .regulatorPoll .. | .standbyPowerOn .. | .standbyLoss | .startStep .. | .startStepTimeout .. | .shutdownSelftestDone ..
  | .packageReset .. | .pkgRstN | .railRangeTimeout .. | .stackRailFault .. | .boundaryDriveExit | .outputBelowSetting .. => true
  | _ => false

/-- The commands that can change the debug state of the package, beside those that start anew. -/
def changesDebug : Instr → Bool
  | .fidLoad .. => true
  | _ => false

/-- The commands that can change a key slot (11 R324 to R327, R339), beside those that clear the core domain. -/
def changesKeys : Instr → Bool
  | .generate .. | .erase .. | .importKey .. | .eraseFabric .. | .fidLoad .. => true
  | _ => false

/-- The commands that can open, change or end an SPDM session (11 R334). -/
def changesSessions : Instr → Bool
  | .fidLoad .. | .keyExchange .. | .finish .. | .endSession .. => true
  | _ => false

/-- The commands that can change a register, a timer or a calendar of Lay time (10). -/
def changesTime : Instr → Bool
  | .trapi .. | .phaseReleaseArm .. | .descriptorFetch .. | .hintWindow .. | .unpark .. | .unparkStep .. | .topologyAccept ..
  | .topologyActivation | .layTick | .syncTimer | .syncResp .. | .ppsEdge | .ppsTimeout | .parentTimeout | .calendarFire
  | .phaseRelease .. | .opEvaluation | .opStep .. | .vralertRelease | .ageingMeasurement .. | .topologyWrite .. | .laySecond ..
  | .stepSlot .. | .windowArm .. | .sampleArm .. => true
  | _ => false

/-- The commands that can change a stack: its memory, its queue, its rows, its pointing engine (04). -/
def changesStacks : Instr → Bool
  | .dmaGo .. | .retryResend .. | .stackRequest .. | .stackAccess .. | .rowRemap .. | .patrolScrub .. | .refresh ..
  | .stackTempRead .. | .selfRefreshExit .. | .selfRefreshEntry .. | .expand .. | .load .. | .streamEnd .. | .park ..
  | .unparkStep .. | .topologyActivation | .rd .. | .wr .. | .wrp .. | .atm .. | .push .. | .fwr .. | .calendarFire
  | .phaseRelease .. | .tenAssign .. | .fidLoad .. | .memoryTestDone .. | .tileReset .. | .clusterReset .. | .partitionReset ..
  | .resetStep .. | .autoRemap .. => true
  | _ => false

/-- The packets that can change the control complex's SRAM (07 R202). -/
def changesSram : Instr → Bool
  | .rd .. | .wr .. | .wrp .. | .atm .. | .push .. | .fwr .. | .fidLoad .. => true
  | _ => false

/-- The commands that can change a team, a staging slot or a request for one (09). -/
def changesTeams : Instr → Bool
  | .tilePortInbound .. | .tensorStart .. | .halfRateStart .. | .tensorFinish .. | .fusedFinish .. | .fusedTimeout ..
  | .slotReq .. | .grant .. | .chunk .. | .checked .. | .resend .. | .abort .. | .slotTimeout .. | .rotationCopyDone ..
  | .rotationRelease .. | .rotationAbandon .. | .teamForm .. | .teamDissolve .. | .rd .. | .wr .. | .wrp .. | .atm .. | .push ..
  | .fwr .. | .rdr .. | .ack .. | .circuitBrokenNotice .. | .tenAssign .. | .fidLoad .. | .tileReset .. | .clusterReset ..
  | .partitionReset .. | .hardTrip .. | .resetStep .. | .teardownAckTimeout .. => true
  | _ => false

/-- The commands that can change the power limits, their samples or an alert (12, 15). -/
def changesPower : Instr → Bool
  | .stackTempRead .. | .hintHostLimit .. | .unparkStep .. | .topologyActivation | .calendarFire | .phaseRelease ..
  | .dutyEvaluation | .opStep .. | .rampStep | .rampAdmission .. | .limitNoticeWindow | .droopTrip .. | .vralert ..
  | .vralertRelease | .energyModel .. | .thermalSensorRead .. | .thermalCap | .hotClear | .ageingMeasurement ..
  | .effecterRackLimit .. | .effecterCurrentLimit .. | .rackLimit .. => true
  | _ => false

/-- The commands that can change a reading, HOT, the inlet or the trip record (13). -/
def changesThermals : Instr → Bool
  | .stackTempRead .. | .thermalSensorRead .. | .steadyWindow .. | .hotClear | .inletAge | .effecterInlet .. | .tripRelease .. => true
  | _ => false

/-- The commands that can begin, go on with or end a start or a shutdown (16). -/
def changesStart : Instr → Bool
  | .fidLoad .. | .vralert .. | .sourceEdge .. | .set .. | .sourceEnable .. | .belayLatch .. | .on .. | .wake ..
  | .memoryTestDone .. | .pciePerstN .. | .testLogicResetExit | .inBandInterrupt | .plinthTemperature115 => true
  | _ => false

/-- The commands that can change a doorbell line (06 R164 to R168). -/
def changesLines : Instr → Bool
  | .setupLock .. | .fetchEn .. | .doorbellLineEnable .. | .pfFlr | .vfFlr .. | .snoopInvalidation .. | .doorbellRead ..
  | .doorbellPoll | .pciePerstN .. | .configurationRequest .. | .cxlCacheError => true
  | _ => false

end Sys2Proof.Claims

/-- What no other command reaches (11 R324 to R327, R334, R337 to R339): a key slot changes only with a key command, an unlock or a clearing of
the core domain, the debug state only with an unlock or a new start of the package, an SPDM session only with an SPDM message or those. -/
def Obligations.SecretsKept : Prop :=
  ∀ (c : Instr) (s u : State), exec c s = .next u → clearsCores c = false →
    (changesDebug c = false → u.sec.debug = s.sec.debug ∧ u.sec.scope = s.sec.scope) ∧
    (changesKeys c = false → u.sec.keys = s.sec.keys ∧ u.sec.fabKeys = s.sec.fabKeys) ∧
    (changesSessions c = false → u.sec.sessions = s.sec.sessions)

/-- Each unit is changed by its own commands and by no other (04, 07 R202, 09, 10, 06 R164): the stacks with all they hold, the control complex's
SRAM, the teams and staging slots, the registers and calendar of Lay time, and the doorbell lines. -/
def Obligations.UnitsKept : Prop :=
  ∀ (c : Instr) (s u : State), exec c s = .next u → clearsCores c = false →
    (changesStacks c = false → u.stks = s.stks) ∧ (changesSram c = false → u.ccSram = s.ccSram) ∧
    (changesTeams c = false → u.staging = s.staging) ∧ (changesTime c = false → u.lay = s.lay) ∧ (changesLines c = false → u.lines = s.lines)

/-- The plinth's view is changed by its own commands and by no other (12, 13, 16): the power limits and samples, the temperatures and the trip
record, and the start in progress with its findings. -/
def Obligations.PlinthViewKept : Prop :=
  ∀ (c : Instr) (s u : State), exec c s = .next u → clearsCores c = false →
    (changesPower c = false → u.pwr = s.pwr) ∧ (changesThermals c = false → u.thm = s.thm) ∧ (changesStart c = false → u.boot = s.boot)
end

