-- ==== Sys2Proof/Laws/Map.lean ====
section
/-!
SUPPORT. Laws of the sparse data: an entry that was just set reads back and every other entry is left alone, and every
memory operation keeps the canonical form.
-/

namespace Sys2Proof.Machine

/-! ### Families by number -/

theorem find?_set_same {α : Type} (m : SMap α) (k : Nat) (v : α) : SMap.find? (SMap.set m k v) k = some v := by
  induction m with
  | nil => simp [SMap.set, SMap.find?]
  | cons e r ih =>
    obtain ⟨j, w⟩ := e
    simp only [SMap.set]
    split
    · simp [SMap.find?]
    · split
      · simp [SMap.find?]
      · simp_all [SMap.find?]

theorem find?_set_ne {α : Type} (m : SMap α) {k j : Nat} (v : α) (h : j ≠ k) :
    SMap.find? (SMap.set m k v) j = SMap.find? m j := by
  have hk : k ≠ j := fun e => h e.symm
  induction m with
  | nil => simp [SMap.set, SMap.find?, hk]
  | cons e r ih =>
    obtain ⟨i, w⟩ := e
    simp only [SMap.set]
    split
    · rename_i hi; subst hi; simp [SMap.find?, hk]
    · split
      · simp [SMap.find?, hk]
      · by_cases hj : i = j
        · simp [SMap.find?, hj]
        · simp [SMap.find?, hj, ih]

@[simp] theorem get_set_same {α : Type} (d : α) (m : SMap α) (k : Nat) (v : α) : SMap.get d (SMap.set m k v) k = v := by
  simp [SMap.get, find?_set_same]

theorem get_set_ne {α : Type} (d : α) (m : SMap α) {k j : Nat} (v : α) (h : j ≠ k) :
    SMap.get d (SMap.set m k v) j = SMap.get d m j := by
  simp [SMap.get, find?_set_ne m v h]

@[simp] theorem set_set_same {α : Type} (m : SMap α) (k : Nat) (v w : α) : SMap.set (SMap.set m k v) k w = SMap.set m k w := by
  induction m with
  | nil => simp [SMap.set]
  | cons e r ih =>
    obtain ⟨j, u⟩ := e
    by_cases hj : j = k
    · simp [SMap.set, hj]
    · by_cases hk : k < j
      · simp [SMap.set, hj, hk]
      · simp [SMap.set, hj, hk, ih]

theorem find?_del_same {α : Type} (m : SMap α) (k : Nat) : SMap.find? (SMap.del m k) k = none := by
  induction m with
  | nil => simp [SMap.del, SMap.find?]
  | cons e r ih =>
    obtain ⟨j, w⟩ := e
    by_cases hj : j = k
    · simpa [SMap.del, hj] using ih
    · have := ih
      simp_all [SMap.del, SMap.find?]

theorem find?_del_ne {α : Type} (m : SMap α) {k j : Nat} (h : j ≠ k) : SMap.find? (SMap.del m k) j = SMap.find? m j := by
  induction m with
  | nil => rfl
  | cons e r ih =>
    obtain ⟨i, w⟩ := e
    by_cases hi : i = k
    · have hj : i ≠ j := fun e => h (e ▸ hi)
      simp only [SMap.del] at ih
      simp [SMap.del, SMap.find?, hi, ih, show k ≠ j from fun e => h e.symm]
    · simp only [SMap.del] at ih
      simp [SMap.del, SMap.find?, hi, ih]

/-! ### Byte memory: what a read gives after a write -/

theorem read_write_same (m : Memory) (a : Nat) (b : Byte) : (Memory.write m a b).read a = b := by
  unfold Memory.write Memory.read
  split
  · rename_i h; simp [SMap.get, find?_del_same, h]
  · simp

theorem read_write_ne (m : Memory) {a c : Nat} (b : Byte) (h : c ≠ a) : (Memory.write m a b).read c = m.read c := by
  unfold Memory.write Memory.read
  split
  · simp [SMap.get, find?_del_ne m h]
  · exact get_set_ne _ _ _ h

/-- A write of several bytes leaves every byte outside its range alone. -/
theorem read_writeN_out (m : Memory) (a c : Nat) (l : List Byte) (h : c < a ∨ a + l.length ≤ c) :
    (Memory.writeN m a l).read c = m.read c := by
  induction l generalizing m a with
  | nil => rfl
  | cons b r ih =>
    simp only [List.length_cons] at h
    rw [Memory.writeN, ih _ _ (by omega), read_write_ne _ _ (by omega)]

/-- A write of several bytes puts each of them in its place. -/
theorem read_writeN_in (m : Memory) (a i : Nat) (l : List Byte) (h : i < l.length) :
    (Memory.writeN m a l).read (a + i) = l[i] := by
  induction l generalizing m a i with
  | nil => simp at h
  | cons b r ih =>
    cases i with
    | zero => rw [Memory.writeN, read_writeN_out _ _ _ _ (by omega)]; simpa using read_write_same m a b
    | succ i =>
      have := ih (Memory.write m a b) (a + 1) i (by simpa using h)
      rw [Memory.writeN, show a + (i + 1) = a + 1 + i by omega, this]
      simp

/-! ### The canonical form -/

/-- Addresses rising, as a relation between neighbours and all that follows. -/
theorem wf_iff (m : Memory) :
    m.wf = true ↔ m.Pairwise (fun x y => x.1 < y.1) ∧ ∀ e ∈ m, e.2 ≠ Memory.blank := by
  induction m with
  | nil => simp [Memory.wf]
  | cons e r ih =>
    obtain ⟨a, b⟩ := e
    cases r with
    | nil => simp [Memory.wf]
    | cons e' r' =>
      obtain ⟨a', b'⟩ := e'
      rw [Memory.wf, List.pairwise_cons]
      simp only [Bool.and_eq_true, decide_eq_true_eq, ih, bne_iff_ne, ne_eq]
      constructor
      · rintro ⟨⟨hb, ha⟩, hp, hn⟩
        refine ⟨⟨?_, hp⟩, ?_⟩
        · intro y hy
          rcases List.mem_cons.mp hy with rfl | hy
          · exact ha
          · exact Nat.lt_trans ha ((List.pairwise_cons.mp hp).1 y hy)
        · intro e he
          rcases List.mem_cons.mp he with rfl | he
          · exact hb
          · exact hn e he
      · rintro ⟨⟨ha, hp⟩, hn⟩
        exact ⟨⟨hn _ (List.mem_cons_self ..), ha _ (List.mem_cons_self ..)⟩, hp, fun e he => hn e (List.mem_cons_of_mem _ he)⟩

theorem mem_set {α : Type} (m : SMap α) (k : Nat) (v : α) (e : Nat × α) (h : e ∈ SMap.set m k v) :
    e = (k, v) ∨ e ∈ m := by
  induction m with
  | nil => left; simpa [SMap.set] using h
  | cons x r ih =>
    obtain ⟨j, w⟩ := x
    simp only [SMap.set] at h
    split at h
    · rcases List.mem_cons.mp h with h | h
      · exact .inl h
      · exact .inr (List.mem_cons_of_mem _ h)
    · split at h
      · rcases List.mem_cons.mp h with h | h
        · exact .inl h
        · exact .inr h
      · rcases List.mem_cons.mp h with h | h
        · exact .inr (h ▸ List.mem_cons_self ..)
        · exact (ih h).imp id (List.mem_cons_of_mem _)

/-- Setting an entry keeps the keys rising. -/
theorem set_rising {α : Type} (m : SMap α) (k : Nat) (v : α) (h : m.Pairwise (fun x y => x.1 < y.1)) :
    (SMap.set m k v).Pairwise (fun x y => x.1 < y.1) := by
  induction m with
  | nil => simp [SMap.set]
  | cons x r ih =>
    obtain ⟨j, w⟩ := x
    obtain ⟨hh, ht⟩ := List.pairwise_cons.mp h
    simp only [SMap.set]
    split
    · rename_i hj; subst hj; exact List.pairwise_cons.mpr ⟨hh, ht⟩
    · split
      · rename_i hk
        refine List.pairwise_cons.mpr ⟨?_, h⟩
        intro y hy
        rcases List.mem_cons.mp hy with rfl | hy
        · exact hk
        · exact Nat.lt_trans hk (hh y hy)
      · rename_i hj hk
        refine List.pairwise_cons.mpr ⟨?_, ih ht⟩
        intro y hy
        rcases mem_set r k v y hy with rfl | hy
        · have hj' : j ≠ k := hj
          show j < k
          omega
        · exact hh y hy

theorem wf_write (m : Memory) (a : Nat) (b : Byte) (h : m.wf = true) : (Memory.write m a b).wf = true := by
  rw [wf_iff] at h ⊢
  unfold Memory.write
  split
  · exact ⟨h.1.filter _, fun e he => h.2 e (List.mem_of_mem_filter he)⟩
  · rename_i hb
    refine ⟨set_rising m a b h.1, fun e he => ?_⟩
    rcases mem_set m a b e he with rfl | he
    · exact hb
    · exact h.2 e he

theorem wf_writeN (m : Memory) (a : Nat) (l : List Byte) (h : m.wf = true) : (Memory.writeN m a l).wf = true := by
  induction l generalizing m a with
  | nil => exact h
  | cons b r ih => exact ih _ _ (wf_write m a b h)

theorem wf_writeCells (m : Memory) (l : List (Nat × Byte)) (h : m.wf = true) : (Memory.writeCells m l).wf = true := by
  induction l generalizing m with
  | nil => exact h
  | cons c r ih => exact ih _ (wf_write m c.1 c.2 h)

theorem wf_clear (m : Memory) (a b : Nat) (h : m.wf = true) : (Memory.clear m a b).wf = true := by
  rw [wf_iff] at h ⊢
  exact ⟨h.1.filter _, fun e he => h.2 e (List.mem_of_mem_filter he)⟩

end Sys2Proof.Machine
end

