-- ==== Sys2Proof/Laws/State.lean ====
section
/-!
SUPPORT. One lemma for each field of the state under each named update, true by rfl, so that no later proof unfolds a
record update; and what reading a unit gives after a unit was set.
-/

namespace Sys2Proof.Machine

/-! ### setTile -/

@[simp] theorem setTile_pending (s : State) (n : Nat) (t : Tile) : (s.setTile n t).pending = s.pending := rfl
@[simp] theorem setTile_free (s : State) (n : Nat) (t : Tile) : (s.setTile n t).free = s.free := rfl
@[simp] theorem setTile_now (s : State) (n : Nat) (t : Tile) : (s.setTile n t).now = s.now := rfl
@[simp] theorem setTile_fuses (s : State) (n : Nat) (t : Tile) : (s.setTile n t).fuses = s.fuses := rfl
@[simp] theorem setTile_setup (s : State) (n : Nat) (t : Tile) : (s.setTile n t).setup = s.setup := rfl
@[simp] theorem setTile_shadow (s : State) (n : Nat) (t : Tile) : (s.setTile n t).shadow = s.shadow := rfl
@[simp] theorem setTile_hifErr (s : State) (n : Nat) (t : Tile) : (s.setTile n t).hifErr = s.hifErr := rfl
@[simp] theorem setTile_cxlOn (s : State) (n : Nat) (t : Tile) : (s.setTile n t).cxlOn = s.cxlOn := rfl
@[simp] theorem setTile_cxlDown (s : State) (n : Nat) (t : Tile) : (s.setTile n t).cxlDown = s.cxlDown := rfl
@[simp] theorem setTile_pollAt (s : State) (n : Nat) (t : Tile) : (s.setTile n t).pollAt = s.pollAt := rfl
@[simp] theorem setTile_pollNext (s : State) (n : Nat) (t : Tile) : (s.setTile n t).pollNext = s.pollNext := rfl
@[simp] theorem setTile_launchLast (s : State) (n : Nat) (t : Tile) : (s.setTile n t).launchLast = s.launchLast := rfl
@[simp] theorem setTile_ccReqs (s : State) (n : Nat) (t : Tile) : (s.setTile n t).ccReqs = s.ccReqs := rfl
@[simp] theorem setTile_ccWait (s : State) (n : Nat) (t : Tile) : (s.setTile n t).ccWait = s.ccWait := rfl
@[simp] theorem setTile_lastOff (s : State) (n : Nat) (t : Tile) : (s.setTile n t).lastOff = s.lastOff := rfl
@[simp] theorem setTile_lines (s : State) (n : Nat) (t : Tile) : (s.setTile n t).lines = s.lines := rfl
@[simp] theorem setTile_rings (s : State) (n : Nat) (t : Tile) : (s.setTile n t).rings = s.rings := rfl
@[simp] theorem setTile_descs (s : State) (n : Nat) (t : Tile) : (s.setTile n t).descs = s.descs := rfl
@[simp] theorem setTile_jobs (s : State) (n : Nat) (t : Tile) : (s.setTile n t).jobs = s.jobs := rfl
@[simp] theorem setTile_msix (s : State) (n : Nat) (t : Tile) : (s.setTile n t).msix = s.msix := rfl
@[simp] theorem setTile_msixTab (s : State) (n : Nat) (t : Tile) : (s.setTile n t).msixTab = s.msixTab := rfl
@[simp] theorem setTile_msixAt (s : State) (n : Nat) (t : Tile) : (s.setTile n t).msixAt = s.msixAt := rfl
@[simp] theorem setTile_hostBad (s : State) (n : Nat) (t : Tile) : (s.setTile n t).hostBad = s.hostBad := rfl
@[simp] theorem setTile_ccSram (s : State) (n : Nat) (t : Tile) : (s.setTile n t).ccSram = s.ccSram := rfl
@[simp] theorem setTile_fwImage (s : State) (n : Nat) (t : Tile) : (s.setTile n t).fwImage = s.fwImage := rfl
@[simp] theorem setTile_tilCorr (s : State) (n : Nat) (t : Tile) : (s.setTile n t).tilCorr = s.tilCorr := rfl
@[simp] theorem setTile_tilUnc (s : State) (n : Nat) (t : Tile) : (s.setTile n t).tilUnc = s.tilUnc := rfl
@[simp] theorem setTile_tilDtrap (s : State) (n : Nat) (t : Tile) : (s.setTile n t).tilDtrap = s.tilDtrap := rfl
@[simp] theorem setTile_tiles (s : State) (n : Nat) (t : Tile) : (s.setTile n t).tiles = SMap.set s.tiles n t := rfl
@[simp] theorem setTile_parts (s : State) (n : Nat) (t : Tile) : (s.setTile n t).parts = s.parts := rfl
@[simp] theorem setTile_stks (s : State) (n : Nat) (t : Tile) : (s.setTile n t).stks = s.stks := rfl
@[simp] theorem setTile_router (s : State) (n : Nat) (t : Tile) : (s.setTile n t).router = s.router := rfl
@[simp] theorem setTile_mesh (s : State) (n : Nat) (t : Tile) : (s.setTile n t).mesh = s.mesh := rfl
@[simp] theorem setTile_ports (s : State) (n : Nat) (t : Tile) : (s.setTile n t).ports = s.ports := rfl
@[simp] theorem setTile_staging (s : State) (n : Nat) (t : Tile) : (s.setTile n t).staging = s.staging := rfl
@[simp] theorem setTile_lay (s : State) (n : Nat) (t : Tile) : (s.setTile n t).lay = s.lay := rfl
@[simp] theorem setTile_sec (s : State) (n : Nat) (t : Tile) : (s.setTile n t).sec = s.sec := rfl
@[simp] theorem setTile_pwr (s : State) (n : Nat) (t : Tile) : (s.setTile n t).pwr = s.pwr := rfl
@[simp] theorem setTile_thm (s : State) (n : Nat) (t : Tile) : (s.setTile n t).thm = s.thm := rfl
@[simp] theorem setTile_cleat (s : State) (n : Nat) (t : Tile) : (s.setTile n t).cleat = s.cleat := rfl
@[simp] theorem setTile_mgmt (s : State) (n : Nat) (t : Tile) : (s.setTile n t).mgmt = s.mgmt := rfl
@[simp] theorem setTile_boot (s : State) (n : Nat) (t : Tile) : (s.setTile n t).boot = s.boot := rfl
@[simp] theorem setTile_rst (s : State) (n : Nat) (t : Tile) : (s.setTile n t).rst = s.rst := rfl
@[simp] theorem setTile_out (s : State) (n : Nat) (t : Tile) : (s.setTile n t).out = s.out := rfl

/-! ### setPart -/

@[simp] theorem setPart_pending (s : State) (n : Nat) (p : Part) : (s.setPart n p).pending = s.pending := rfl
@[simp] theorem setPart_free (s : State) (n : Nat) (p : Part) : (s.setPart n p).free = s.free := rfl
@[simp] theorem setPart_now (s : State) (n : Nat) (p : Part) : (s.setPart n p).now = s.now := rfl
@[simp] theorem setPart_fuses (s : State) (n : Nat) (p : Part) : (s.setPart n p).fuses = s.fuses := rfl
@[simp] theorem setPart_setup (s : State) (n : Nat) (p : Part) : (s.setPart n p).setup = s.setup := rfl
@[simp] theorem setPart_shadow (s : State) (n : Nat) (p : Part) : (s.setPart n p).shadow = s.shadow := rfl
@[simp] theorem setPart_hifErr (s : State) (n : Nat) (p : Part) : (s.setPart n p).hifErr = s.hifErr := rfl
@[simp] theorem setPart_cxlOn (s : State) (n : Nat) (p : Part) : (s.setPart n p).cxlOn = s.cxlOn := rfl
@[simp] theorem setPart_cxlDown (s : State) (n : Nat) (p : Part) : (s.setPart n p).cxlDown = s.cxlDown := rfl
@[simp] theorem setPart_pollAt (s : State) (n : Nat) (p : Part) : (s.setPart n p).pollAt = s.pollAt := rfl
@[simp] theorem setPart_pollNext (s : State) (n : Nat) (p : Part) : (s.setPart n p).pollNext = s.pollNext := rfl
@[simp] theorem setPart_launchLast (s : State) (n : Nat) (p : Part) : (s.setPart n p).launchLast = s.launchLast := rfl
@[simp] theorem setPart_ccReqs (s : State) (n : Nat) (p : Part) : (s.setPart n p).ccReqs = s.ccReqs := rfl
@[simp] theorem setPart_ccWait (s : State) (n : Nat) (p : Part) : (s.setPart n p).ccWait = s.ccWait := rfl
@[simp] theorem setPart_lastOff (s : State) (n : Nat) (p : Part) : (s.setPart n p).lastOff = s.lastOff := rfl
@[simp] theorem setPart_lines (s : State) (n : Nat) (p : Part) : (s.setPart n p).lines = s.lines := rfl
@[simp] theorem setPart_rings (s : State) (n : Nat) (p : Part) : (s.setPart n p).rings = s.rings := rfl
@[simp] theorem setPart_descs (s : State) (n : Nat) (p : Part) : (s.setPart n p).descs = s.descs := rfl
@[simp] theorem setPart_jobs (s : State) (n : Nat) (p : Part) : (s.setPart n p).jobs = s.jobs := rfl
@[simp] theorem setPart_msix (s : State) (n : Nat) (p : Part) : (s.setPart n p).msix = s.msix := rfl
@[simp] theorem setPart_msixTab (s : State) (n : Nat) (p : Part) : (s.setPart n p).msixTab = s.msixTab := rfl
@[simp] theorem setPart_msixAt (s : State) (n : Nat) (p : Part) : (s.setPart n p).msixAt = s.msixAt := rfl
@[simp] theorem setPart_hostBad (s : State) (n : Nat) (p : Part) : (s.setPart n p).hostBad = s.hostBad := rfl
@[simp] theorem setPart_ccSram (s : State) (n : Nat) (p : Part) : (s.setPart n p).ccSram = s.ccSram := rfl
@[simp] theorem setPart_fwImage (s : State) (n : Nat) (p : Part) : (s.setPart n p).fwImage = s.fwImage := rfl
@[simp] theorem setPart_tilCorr (s : State) (n : Nat) (p : Part) : (s.setPart n p).tilCorr = s.tilCorr := rfl
@[simp] theorem setPart_tilUnc (s : State) (n : Nat) (p : Part) : (s.setPart n p).tilUnc = s.tilUnc := rfl
@[simp] theorem setPart_tilDtrap (s : State) (n : Nat) (p : Part) : (s.setPart n p).tilDtrap = s.tilDtrap := rfl
@[simp] theorem setPart_tiles (s : State) (n : Nat) (p : Part) : (s.setPart n p).tiles = s.tiles := rfl
@[simp] theorem setPart_parts (s : State) (n : Nat) (p : Part) : (s.setPart n p).parts = SMap.set s.parts n p := rfl
@[simp] theorem setPart_stks (s : State) (n : Nat) (p : Part) : (s.setPart n p).stks = s.stks := rfl
@[simp] theorem setPart_router (s : State) (n : Nat) (p : Part) : (s.setPart n p).router = s.router := rfl
@[simp] theorem setPart_mesh (s : State) (n : Nat) (p : Part) : (s.setPart n p).mesh = s.mesh := rfl
@[simp] theorem setPart_ports (s : State) (n : Nat) (p : Part) : (s.setPart n p).ports = s.ports := rfl
@[simp] theorem setPart_staging (s : State) (n : Nat) (p : Part) : (s.setPart n p).staging = s.staging := rfl
@[simp] theorem setPart_lay (s : State) (n : Nat) (p : Part) : (s.setPart n p).lay = s.lay := rfl
@[simp] theorem setPart_sec (s : State) (n : Nat) (p : Part) : (s.setPart n p).sec = s.sec := rfl
@[simp] theorem setPart_pwr (s : State) (n : Nat) (p : Part) : (s.setPart n p).pwr = s.pwr := rfl
@[simp] theorem setPart_thm (s : State) (n : Nat) (p : Part) : (s.setPart n p).thm = s.thm := rfl
@[simp] theorem setPart_cleat (s : State) (n : Nat) (p : Part) : (s.setPart n p).cleat = s.cleat := rfl
@[simp] theorem setPart_mgmt (s : State) (n : Nat) (p : Part) : (s.setPart n p).mgmt = s.mgmt := rfl
@[simp] theorem setPart_boot (s : State) (n : Nat) (p : Part) : (s.setPart n p).boot = s.boot := rfl
@[simp] theorem setPart_rst (s : State) (n : Nat) (p : Part) : (s.setPart n p).rst = s.rst := rfl
@[simp] theorem setPart_out (s : State) (n : Nat) (p : Part) : (s.setPart n p).out = s.out := rfl

/-! ### setStack -/

@[simp] theorem setStack_pending (s : State) (n : Nat) (k : Stack) : (s.setStack n k).pending = s.pending := rfl
@[simp] theorem setStack_free (s : State) (n : Nat) (k : Stack) : (s.setStack n k).free = s.free := rfl
@[simp] theorem setStack_now (s : State) (n : Nat) (k : Stack) : (s.setStack n k).now = s.now := rfl
@[simp] theorem setStack_fuses (s : State) (n : Nat) (k : Stack) : (s.setStack n k).fuses = s.fuses := rfl
@[simp] theorem setStack_setup (s : State) (n : Nat) (k : Stack) : (s.setStack n k).setup = s.setup := rfl
@[simp] theorem setStack_shadow (s : State) (n : Nat) (k : Stack) : (s.setStack n k).shadow = s.shadow := rfl
@[simp] theorem setStack_hifErr (s : State) (n : Nat) (k : Stack) : (s.setStack n k).hifErr = s.hifErr := rfl
@[simp] theorem setStack_cxlOn (s : State) (n : Nat) (k : Stack) : (s.setStack n k).cxlOn = s.cxlOn := rfl
@[simp] theorem setStack_cxlDown (s : State) (n : Nat) (k : Stack) : (s.setStack n k).cxlDown = s.cxlDown := rfl
@[simp] theorem setStack_pollAt (s : State) (n : Nat) (k : Stack) : (s.setStack n k).pollAt = s.pollAt := rfl
@[simp] theorem setStack_pollNext (s : State) (n : Nat) (k : Stack) : (s.setStack n k).pollNext = s.pollNext := rfl
@[simp] theorem setStack_launchLast (s : State) (n : Nat) (k : Stack) : (s.setStack n k).launchLast = s.launchLast := rfl
@[simp] theorem setStack_ccReqs (s : State) (n : Nat) (k : Stack) : (s.setStack n k).ccReqs = s.ccReqs := rfl
@[simp] theorem setStack_ccWait (s : State) (n : Nat) (k : Stack) : (s.setStack n k).ccWait = s.ccWait := rfl
@[simp] theorem setStack_lastOff (s : State) (n : Nat) (k : Stack) : (s.setStack n k).lastOff = s.lastOff := rfl
@[simp] theorem setStack_lines (s : State) (n : Nat) (k : Stack) : (s.setStack n k).lines = s.lines := rfl
@[simp] theorem setStack_rings (s : State) (n : Nat) (k : Stack) : (s.setStack n k).rings = s.rings := rfl
@[simp] theorem setStack_descs (s : State) (n : Nat) (k : Stack) : (s.setStack n k).descs = s.descs := rfl
@[simp] theorem setStack_jobs (s : State) (n : Nat) (k : Stack) : (s.setStack n k).jobs = s.jobs := rfl
@[simp] theorem setStack_msix (s : State) (n : Nat) (k : Stack) : (s.setStack n k).msix = s.msix := rfl
@[simp] theorem setStack_msixTab (s : State) (n : Nat) (k : Stack) : (s.setStack n k).msixTab = s.msixTab := rfl
@[simp] theorem setStack_msixAt (s : State) (n : Nat) (k : Stack) : (s.setStack n k).msixAt = s.msixAt := rfl
@[simp] theorem setStack_hostBad (s : State) (n : Nat) (k : Stack) : (s.setStack n k).hostBad = s.hostBad := rfl
@[simp] theorem setStack_ccSram (s : State) (n : Nat) (k : Stack) : (s.setStack n k).ccSram = s.ccSram := rfl
@[simp] theorem setStack_fwImage (s : State) (n : Nat) (k : Stack) : (s.setStack n k).fwImage = s.fwImage := rfl
@[simp] theorem setStack_tilCorr (s : State) (n : Nat) (k : Stack) : (s.setStack n k).tilCorr = s.tilCorr := rfl
@[simp] theorem setStack_tilUnc (s : State) (n : Nat) (k : Stack) : (s.setStack n k).tilUnc = s.tilUnc := rfl
@[simp] theorem setStack_tilDtrap (s : State) (n : Nat) (k : Stack) : (s.setStack n k).tilDtrap = s.tilDtrap := rfl
@[simp] theorem setStack_tiles (s : State) (n : Nat) (k : Stack) : (s.setStack n k).tiles = s.tiles := rfl
@[simp] theorem setStack_parts (s : State) (n : Nat) (k : Stack) : (s.setStack n k).parts = s.parts := rfl
@[simp] theorem setStack_stks (s : State) (n : Nat) (k : Stack) : (s.setStack n k).stks = SMap.set s.stks n k := rfl
@[simp] theorem setStack_router (s : State) (n : Nat) (k : Stack) : (s.setStack n k).router = s.router := rfl
@[simp] theorem setStack_mesh (s : State) (n : Nat) (k : Stack) : (s.setStack n k).mesh = s.mesh := rfl
@[simp] theorem setStack_ports (s : State) (n : Nat) (k : Stack) : (s.setStack n k).ports = s.ports := rfl
@[simp] theorem setStack_staging (s : State) (n : Nat) (k : Stack) : (s.setStack n k).staging = s.staging := rfl
@[simp] theorem setStack_lay (s : State) (n : Nat) (k : Stack) : (s.setStack n k).lay = s.lay := rfl
@[simp] theorem setStack_sec (s : State) (n : Nat) (k : Stack) : (s.setStack n k).sec = s.sec := rfl
@[simp] theorem setStack_pwr (s : State) (n : Nat) (k : Stack) : (s.setStack n k).pwr = s.pwr := rfl
@[simp] theorem setStack_thm (s : State) (n : Nat) (k : Stack) : (s.setStack n k).thm = s.thm := rfl
@[simp] theorem setStack_cleat (s : State) (n : Nat) (k : Stack) : (s.setStack n k).cleat = s.cleat := rfl
@[simp] theorem setStack_mgmt (s : State) (n : Nat) (k : Stack) : (s.setStack n k).mgmt = s.mgmt := rfl
@[simp] theorem setStack_boot (s : State) (n : Nat) (k : Stack) : (s.setStack n k).boot = s.boot := rfl
@[simp] theorem setStack_rst (s : State) (n : Nat) (k : Stack) : (s.setStack n k).rst = s.rst := rfl
@[simp] theorem setStack_out (s : State) (n : Nat) (k : Stack) : (s.setStack n k).out = s.out := rfl

/-! ### setRing -/

@[simp] theorem setRing_pending (s : State) (n : Nat) (r : Ring) : (s.setRing n r).pending = s.pending := rfl
@[simp] theorem setRing_free (s : State) (n : Nat) (r : Ring) : (s.setRing n r).free = s.free := rfl
@[simp] theorem setRing_now (s : State) (n : Nat) (r : Ring) : (s.setRing n r).now = s.now := rfl
@[simp] theorem setRing_fuses (s : State) (n : Nat) (r : Ring) : (s.setRing n r).fuses = s.fuses := rfl
@[simp] theorem setRing_setup (s : State) (n : Nat) (r : Ring) : (s.setRing n r).setup = s.setup := rfl
@[simp] theorem setRing_shadow (s : State) (n : Nat) (r : Ring) : (s.setRing n r).shadow = s.shadow := rfl
@[simp] theorem setRing_hifErr (s : State) (n : Nat) (r : Ring) : (s.setRing n r).hifErr = s.hifErr := rfl
@[simp] theorem setRing_cxlOn (s : State) (n : Nat) (r : Ring) : (s.setRing n r).cxlOn = s.cxlOn := rfl
@[simp] theorem setRing_cxlDown (s : State) (n : Nat) (r : Ring) : (s.setRing n r).cxlDown = s.cxlDown := rfl
@[simp] theorem setRing_pollAt (s : State) (n : Nat) (r : Ring) : (s.setRing n r).pollAt = s.pollAt := rfl
@[simp] theorem setRing_pollNext (s : State) (n : Nat) (r : Ring) : (s.setRing n r).pollNext = s.pollNext := rfl
@[simp] theorem setRing_launchLast (s : State) (n : Nat) (r : Ring) : (s.setRing n r).launchLast = s.launchLast := rfl
@[simp] theorem setRing_ccReqs (s : State) (n : Nat) (r : Ring) : (s.setRing n r).ccReqs = s.ccReqs := rfl
@[simp] theorem setRing_ccWait (s : State) (n : Nat) (r : Ring) : (s.setRing n r).ccWait = s.ccWait := rfl
@[simp] theorem setRing_lastOff (s : State) (n : Nat) (r : Ring) : (s.setRing n r).lastOff = s.lastOff := rfl
@[simp] theorem setRing_lines (s : State) (n : Nat) (r : Ring) : (s.setRing n r).lines = s.lines := rfl
@[simp] theorem setRing_rings (s : State) (n : Nat) (r : Ring) : (s.setRing n r).rings = SMap.set s.rings n r := rfl
@[simp] theorem setRing_descs (s : State) (n : Nat) (r : Ring) : (s.setRing n r).descs = s.descs := rfl
@[simp] theorem setRing_jobs (s : State) (n : Nat) (r : Ring) : (s.setRing n r).jobs = s.jobs := rfl
@[simp] theorem setRing_msix (s : State) (n : Nat) (r : Ring) : (s.setRing n r).msix = s.msix := rfl
@[simp] theorem setRing_msixTab (s : State) (n : Nat) (r : Ring) : (s.setRing n r).msixTab = s.msixTab := rfl
@[simp] theorem setRing_msixAt (s : State) (n : Nat) (r : Ring) : (s.setRing n r).msixAt = s.msixAt := rfl
@[simp] theorem setRing_hostBad (s : State) (n : Nat) (r : Ring) : (s.setRing n r).hostBad = s.hostBad := rfl
@[simp] theorem setRing_ccSram (s : State) (n : Nat) (r : Ring) : (s.setRing n r).ccSram = s.ccSram := rfl
@[simp] theorem setRing_fwImage (s : State) (n : Nat) (r : Ring) : (s.setRing n r).fwImage = s.fwImage := rfl
@[simp] theorem setRing_tilCorr (s : State) (n : Nat) (r : Ring) : (s.setRing n r).tilCorr = s.tilCorr := rfl
@[simp] theorem setRing_tilUnc (s : State) (n : Nat) (r : Ring) : (s.setRing n r).tilUnc = s.tilUnc := rfl
@[simp] theorem setRing_tilDtrap (s : State) (n : Nat) (r : Ring) : (s.setRing n r).tilDtrap = s.tilDtrap := rfl
@[simp] theorem setRing_tiles (s : State) (n : Nat) (r : Ring) : (s.setRing n r).tiles = s.tiles := rfl
@[simp] theorem setRing_parts (s : State) (n : Nat) (r : Ring) : (s.setRing n r).parts = s.parts := rfl
@[simp] theorem setRing_stks (s : State) (n : Nat) (r : Ring) : (s.setRing n r).stks = s.stks := rfl
@[simp] theorem setRing_router (s : State) (n : Nat) (r : Ring) : (s.setRing n r).router = s.router := rfl
@[simp] theorem setRing_mesh (s : State) (n : Nat) (r : Ring) : (s.setRing n r).mesh = s.mesh := rfl
@[simp] theorem setRing_ports (s : State) (n : Nat) (r : Ring) : (s.setRing n r).ports = s.ports := rfl
@[simp] theorem setRing_staging (s : State) (n : Nat) (r : Ring) : (s.setRing n r).staging = s.staging := rfl
@[simp] theorem setRing_lay (s : State) (n : Nat) (r : Ring) : (s.setRing n r).lay = s.lay := rfl
@[simp] theorem setRing_sec (s : State) (n : Nat) (r : Ring) : (s.setRing n r).sec = s.sec := rfl
@[simp] theorem setRing_pwr (s : State) (n : Nat) (r : Ring) : (s.setRing n r).pwr = s.pwr := rfl
@[simp] theorem setRing_thm (s : State) (n : Nat) (r : Ring) : (s.setRing n r).thm = s.thm := rfl
@[simp] theorem setRing_cleat (s : State) (n : Nat) (r : Ring) : (s.setRing n r).cleat = s.cleat := rfl
@[simp] theorem setRing_mgmt (s : State) (n : Nat) (r : Ring) : (s.setRing n r).mgmt = s.mgmt := rfl
@[simp] theorem setRing_boot (s : State) (n : Nat) (r : Ring) : (s.setRing n r).boot = s.boot := rfl
@[simp] theorem setRing_rst (s : State) (n : Nat) (r : Ring) : (s.setRing n r).rst = s.rst := rfl
@[simp] theorem setRing_out (s : State) (n : Nat) (r : Ring) : (s.setRing n r).out = s.out := rfl

/-! ### setLine -/

@[simp] theorem setLine_pending (s : State) (n : Nat) (l : Line) : (s.setLine n l).pending = s.pending := rfl
@[simp] theorem setLine_free (s : State) (n : Nat) (l : Line) : (s.setLine n l).free = s.free := rfl
@[simp] theorem setLine_now (s : State) (n : Nat) (l : Line) : (s.setLine n l).now = s.now := rfl
@[simp] theorem setLine_fuses (s : State) (n : Nat) (l : Line) : (s.setLine n l).fuses = s.fuses := rfl
@[simp] theorem setLine_setup (s : State) (n : Nat) (l : Line) : (s.setLine n l).setup = s.setup := rfl
@[simp] theorem setLine_shadow (s : State) (n : Nat) (l : Line) : (s.setLine n l).shadow = s.shadow := rfl
@[simp] theorem setLine_hifErr (s : State) (n : Nat) (l : Line) : (s.setLine n l).hifErr = s.hifErr := rfl
@[simp] theorem setLine_cxlOn (s : State) (n : Nat) (l : Line) : (s.setLine n l).cxlOn = s.cxlOn := rfl
@[simp] theorem setLine_cxlDown (s : State) (n : Nat) (l : Line) : (s.setLine n l).cxlDown = s.cxlDown := rfl
@[simp] theorem setLine_pollAt (s : State) (n : Nat) (l : Line) : (s.setLine n l).pollAt = s.pollAt := rfl
@[simp] theorem setLine_pollNext (s : State) (n : Nat) (l : Line) : (s.setLine n l).pollNext = s.pollNext := rfl
@[simp] theorem setLine_launchLast (s : State) (n : Nat) (l : Line) : (s.setLine n l).launchLast = s.launchLast := rfl
@[simp] theorem setLine_ccReqs (s : State) (n : Nat) (l : Line) : (s.setLine n l).ccReqs = s.ccReqs := rfl
@[simp] theorem setLine_ccWait (s : State) (n : Nat) (l : Line) : (s.setLine n l).ccWait = s.ccWait := rfl
@[simp] theorem setLine_lastOff (s : State) (n : Nat) (l : Line) : (s.setLine n l).lastOff = s.lastOff := rfl
@[simp] theorem setLine_lines (s : State) (n : Nat) (l : Line) : (s.setLine n l).lines = SMap.set s.lines n l := rfl
@[simp] theorem setLine_rings (s : State) (n : Nat) (l : Line) : (s.setLine n l).rings = s.rings := rfl
@[simp] theorem setLine_descs (s : State) (n : Nat) (l : Line) : (s.setLine n l).descs = s.descs := rfl
@[simp] theorem setLine_jobs (s : State) (n : Nat) (l : Line) : (s.setLine n l).jobs = s.jobs := rfl
@[simp] theorem setLine_msix (s : State) (n : Nat) (l : Line) : (s.setLine n l).msix = s.msix := rfl
@[simp] theorem setLine_msixTab (s : State) (n : Nat) (l : Line) : (s.setLine n l).msixTab = s.msixTab := rfl
@[simp] theorem setLine_msixAt (s : State) (n : Nat) (l : Line) : (s.setLine n l).msixAt = s.msixAt := rfl
@[simp] theorem setLine_hostBad (s : State) (n : Nat) (l : Line) : (s.setLine n l).hostBad = s.hostBad := rfl
@[simp] theorem setLine_ccSram (s : State) (n : Nat) (l : Line) : (s.setLine n l).ccSram = s.ccSram := rfl
@[simp] theorem setLine_fwImage (s : State) (n : Nat) (l : Line) : (s.setLine n l).fwImage = s.fwImage := rfl
@[simp] theorem setLine_tilCorr (s : State) (n : Nat) (l : Line) : (s.setLine n l).tilCorr = s.tilCorr := rfl
@[simp] theorem setLine_tilUnc (s : State) (n : Nat) (l : Line) : (s.setLine n l).tilUnc = s.tilUnc := rfl
@[simp] theorem setLine_tilDtrap (s : State) (n : Nat) (l : Line) : (s.setLine n l).tilDtrap = s.tilDtrap := rfl
@[simp] theorem setLine_tiles (s : State) (n : Nat) (l : Line) : (s.setLine n l).tiles = s.tiles := rfl
@[simp] theorem setLine_parts (s : State) (n : Nat) (l : Line) : (s.setLine n l).parts = s.parts := rfl
@[simp] theorem setLine_stks (s : State) (n : Nat) (l : Line) : (s.setLine n l).stks = s.stks := rfl
@[simp] theorem setLine_router (s : State) (n : Nat) (l : Line) : (s.setLine n l).router = s.router := rfl
@[simp] theorem setLine_mesh (s : State) (n : Nat) (l : Line) : (s.setLine n l).mesh = s.mesh := rfl
@[simp] theorem setLine_ports (s : State) (n : Nat) (l : Line) : (s.setLine n l).ports = s.ports := rfl
@[simp] theorem setLine_staging (s : State) (n : Nat) (l : Line) : (s.setLine n l).staging = s.staging := rfl
@[simp] theorem setLine_lay (s : State) (n : Nat) (l : Line) : (s.setLine n l).lay = s.lay := rfl
@[simp] theorem setLine_sec (s : State) (n : Nat) (l : Line) : (s.setLine n l).sec = s.sec := rfl
@[simp] theorem setLine_pwr (s : State) (n : Nat) (l : Line) : (s.setLine n l).pwr = s.pwr := rfl
@[simp] theorem setLine_thm (s : State) (n : Nat) (l : Line) : (s.setLine n l).thm = s.thm := rfl
@[simp] theorem setLine_cleat (s : State) (n : Nat) (l : Line) : (s.setLine n l).cleat = s.cleat := rfl
@[simp] theorem setLine_mgmt (s : State) (n : Nat) (l : Line) : (s.setLine n l).mgmt = s.mgmt := rfl
@[simp] theorem setLine_boot (s : State) (n : Nat) (l : Line) : (s.setLine n l).boot = s.boot := rfl
@[simp] theorem setLine_rst (s : State) (n : Nat) (l : Line) : (s.setLine n l).rst = s.rst := rfl
@[simp] theorem setLine_out (s : State) (n : Nat) (l : Line) : (s.setLine n l).out = s.out := rfl

/-! ### setPort -/

@[simp] theorem setPort_pending (s : State) (n : Nat) (p : Port) : (s.setPort n p).pending = s.pending := rfl
@[simp] theorem setPort_free (s : State) (n : Nat) (p : Port) : (s.setPort n p).free = s.free := rfl
@[simp] theorem setPort_now (s : State) (n : Nat) (p : Port) : (s.setPort n p).now = s.now := rfl
@[simp] theorem setPort_fuses (s : State) (n : Nat) (p : Port) : (s.setPort n p).fuses = s.fuses := rfl
@[simp] theorem setPort_setup (s : State) (n : Nat) (p : Port) : (s.setPort n p).setup = s.setup := rfl
@[simp] theorem setPort_shadow (s : State) (n : Nat) (p : Port) : (s.setPort n p).shadow = s.shadow := rfl
@[simp] theorem setPort_hifErr (s : State) (n : Nat) (p : Port) : (s.setPort n p).hifErr = s.hifErr := rfl
@[simp] theorem setPort_cxlOn (s : State) (n : Nat) (p : Port) : (s.setPort n p).cxlOn = s.cxlOn := rfl
@[simp] theorem setPort_cxlDown (s : State) (n : Nat) (p : Port) : (s.setPort n p).cxlDown = s.cxlDown := rfl
@[simp] theorem setPort_pollAt (s : State) (n : Nat) (p : Port) : (s.setPort n p).pollAt = s.pollAt := rfl
@[simp] theorem setPort_pollNext (s : State) (n : Nat) (p : Port) : (s.setPort n p).pollNext = s.pollNext := rfl
@[simp] theorem setPort_launchLast (s : State) (n : Nat) (p : Port) : (s.setPort n p).launchLast = s.launchLast := rfl
@[simp] theorem setPort_ccReqs (s : State) (n : Nat) (p : Port) : (s.setPort n p).ccReqs = s.ccReqs := rfl
@[simp] theorem setPort_ccWait (s : State) (n : Nat) (p : Port) : (s.setPort n p).ccWait = s.ccWait := rfl
@[simp] theorem setPort_lastOff (s : State) (n : Nat) (p : Port) : (s.setPort n p).lastOff = s.lastOff := rfl
@[simp] theorem setPort_lines (s : State) (n : Nat) (p : Port) : (s.setPort n p).lines = s.lines := rfl
@[simp] theorem setPort_rings (s : State) (n : Nat) (p : Port) : (s.setPort n p).rings = s.rings := rfl
@[simp] theorem setPort_descs (s : State) (n : Nat) (p : Port) : (s.setPort n p).descs = s.descs := rfl
@[simp] theorem setPort_jobs (s : State) (n : Nat) (p : Port) : (s.setPort n p).jobs = s.jobs := rfl
@[simp] theorem setPort_msix (s : State) (n : Nat) (p : Port) : (s.setPort n p).msix = s.msix := rfl
@[simp] theorem setPort_msixTab (s : State) (n : Nat) (p : Port) : (s.setPort n p).msixTab = s.msixTab := rfl
@[simp] theorem setPort_msixAt (s : State) (n : Nat) (p : Port) : (s.setPort n p).msixAt = s.msixAt := rfl
@[simp] theorem setPort_hostBad (s : State) (n : Nat) (p : Port) : (s.setPort n p).hostBad = s.hostBad := rfl
@[simp] theorem setPort_ccSram (s : State) (n : Nat) (p : Port) : (s.setPort n p).ccSram = s.ccSram := rfl
@[simp] theorem setPort_fwImage (s : State) (n : Nat) (p : Port) : (s.setPort n p).fwImage = s.fwImage := rfl
@[simp] theorem setPort_tilCorr (s : State) (n : Nat) (p : Port) : (s.setPort n p).tilCorr = s.tilCorr := rfl
@[simp] theorem setPort_tilUnc (s : State) (n : Nat) (p : Port) : (s.setPort n p).tilUnc = s.tilUnc := rfl
@[simp] theorem setPort_tilDtrap (s : State) (n : Nat) (p : Port) : (s.setPort n p).tilDtrap = s.tilDtrap := rfl
@[simp] theorem setPort_tiles (s : State) (n : Nat) (p : Port) : (s.setPort n p).tiles = s.tiles := rfl
@[simp] theorem setPort_parts (s : State) (n : Nat) (p : Port) : (s.setPort n p).parts = s.parts := rfl
@[simp] theorem setPort_stks (s : State) (n : Nat) (p : Port) : (s.setPort n p).stks = s.stks := rfl
@[simp] theorem setPort_router (s : State) (n : Nat) (p : Port) : (s.setPort n p).router = s.router := rfl
@[simp] theorem setPort_mesh (s : State) (n : Nat) (p : Port) : (s.setPort n p).mesh = s.mesh := rfl
@[simp] theorem setPort_ports (s : State) (n : Nat) (p : Port) : (s.setPort n p).ports = SMap.set s.ports n p := rfl
@[simp] theorem setPort_staging (s : State) (n : Nat) (p : Port) : (s.setPort n p).staging = s.staging := rfl
@[simp] theorem setPort_lay (s : State) (n : Nat) (p : Port) : (s.setPort n p).lay = s.lay := rfl
@[simp] theorem setPort_sec (s : State) (n : Nat) (p : Port) : (s.setPort n p).sec = s.sec := rfl
@[simp] theorem setPort_pwr (s : State) (n : Nat) (p : Port) : (s.setPort n p).pwr = s.pwr := rfl
@[simp] theorem setPort_thm (s : State) (n : Nat) (p : Port) : (s.setPort n p).thm = s.thm := rfl
@[simp] theorem setPort_cleat (s : State) (n : Nat) (p : Port) : (s.setPort n p).cleat = s.cleat := rfl
@[simp] theorem setPort_mgmt (s : State) (n : Nat) (p : Port) : (s.setPort n p).mgmt = s.mgmt := rfl
@[simp] theorem setPort_boot (s : State) (n : Nat) (p : Port) : (s.setPort n p).boot = s.boot := rfl
@[simp] theorem setPort_rst (s : State) (n : Nat) (p : Port) : (s.setPort n p).rst = s.rst := rfl
@[simp] theorem setPort_out (s : State) (n : Nat) (p : Port) : (s.setPort n p).out = s.out := rfl

/-! ### emit -/

@[simp] theorem emit_pending (s : State) (o : Output) : (s.emit o).pending = s.pending := rfl
@[simp] theorem emit_free (s : State) (o : Output) : (s.emit o).free = s.free := rfl
@[simp] theorem emit_now (s : State) (o : Output) : (s.emit o).now = s.now := rfl
@[simp] theorem emit_fuses (s : State) (o : Output) : (s.emit o).fuses = s.fuses := rfl
@[simp] theorem emit_setup (s : State) (o : Output) : (s.emit o).setup = s.setup := rfl
@[simp] theorem emit_shadow (s : State) (o : Output) : (s.emit o).shadow = s.shadow := rfl
@[simp] theorem emit_hifErr (s : State) (o : Output) : (s.emit o).hifErr = s.hifErr := rfl
@[simp] theorem emit_cxlOn (s : State) (o : Output) : (s.emit o).cxlOn = s.cxlOn := rfl
@[simp] theorem emit_cxlDown (s : State) (o : Output) : (s.emit o).cxlDown = s.cxlDown := rfl
@[simp] theorem emit_pollAt (s : State) (o : Output) : (s.emit o).pollAt = s.pollAt := rfl
@[simp] theorem emit_pollNext (s : State) (o : Output) : (s.emit o).pollNext = s.pollNext := rfl
@[simp] theorem emit_launchLast (s : State) (o : Output) : (s.emit o).launchLast = s.launchLast := rfl
@[simp] theorem emit_ccReqs (s : State) (o : Output) : (s.emit o).ccReqs = s.ccReqs := rfl
@[simp] theorem emit_ccWait (s : State) (o : Output) : (s.emit o).ccWait = s.ccWait := rfl
@[simp] theorem emit_lastOff (s : State) (o : Output) : (s.emit o).lastOff = s.lastOff := rfl
@[simp] theorem emit_lines (s : State) (o : Output) : (s.emit o).lines = s.lines := rfl
@[simp] theorem emit_rings (s : State) (o : Output) : (s.emit o).rings = s.rings := rfl
@[simp] theorem emit_descs (s : State) (o : Output) : (s.emit o).descs = s.descs := rfl
@[simp] theorem emit_jobs (s : State) (o : Output) : (s.emit o).jobs = s.jobs := rfl
@[simp] theorem emit_msix (s : State) (o : Output) : (s.emit o).msix = s.msix := rfl
@[simp] theorem emit_msixTab (s : State) (o : Output) : (s.emit o).msixTab = s.msixTab := rfl
@[simp] theorem emit_msixAt (s : State) (o : Output) : (s.emit o).msixAt = s.msixAt := rfl
@[simp] theorem emit_hostBad (s : State) (o : Output) : (s.emit o).hostBad = s.hostBad := rfl
@[simp] theorem emit_ccSram (s : State) (o : Output) : (s.emit o).ccSram = s.ccSram := rfl
@[simp] theorem emit_fwImage (s : State) (o : Output) : (s.emit o).fwImage = s.fwImage := rfl
@[simp] theorem emit_tilCorr (s : State) (o : Output) : (s.emit o).tilCorr = s.tilCorr := rfl
@[simp] theorem emit_tilUnc (s : State) (o : Output) : (s.emit o).tilUnc = s.tilUnc := rfl
@[simp] theorem emit_tilDtrap (s : State) (o : Output) : (s.emit o).tilDtrap = s.tilDtrap := rfl
@[simp] theorem emit_tiles (s : State) (o : Output) : (s.emit o).tiles = s.tiles := rfl
@[simp] theorem emit_parts (s : State) (o : Output) : (s.emit o).parts = s.parts := rfl
@[simp] theorem emit_stks (s : State) (o : Output) : (s.emit o).stks = s.stks := rfl
@[simp] theorem emit_router (s : State) (o : Output) : (s.emit o).router = s.router := rfl
@[simp] theorem emit_mesh (s : State) (o : Output) : (s.emit o).mesh = s.mesh := rfl
@[simp] theorem emit_ports (s : State) (o : Output) : (s.emit o).ports = s.ports := rfl
@[simp] theorem emit_staging (s : State) (o : Output) : (s.emit o).staging = s.staging := rfl
@[simp] theorem emit_lay (s : State) (o : Output) : (s.emit o).lay = s.lay := rfl
@[simp] theorem emit_sec (s : State) (o : Output) : (s.emit o).sec = s.sec := rfl
@[simp] theorem emit_pwr (s : State) (o : Output) : (s.emit o).pwr = s.pwr := rfl
@[simp] theorem emit_thm (s : State) (o : Output) : (s.emit o).thm = s.thm := rfl
@[simp] theorem emit_cleat (s : State) (o : Output) : (s.emit o).cleat = s.cleat := rfl
@[simp] theorem emit_mgmt (s : State) (o : Output) : (s.emit o).mgmt = s.mgmt := rfl
@[simp] theorem emit_boot (s : State) (o : Output) : (s.emit o).boot = s.boot := rfl
@[simp] theorem emit_rst (s : State) (o : Output) : (s.emit o).rst = s.rst := rfl
@[simp] theorem emit_out (s : State) (o : Output) : (s.emit o).out = s.out ++ [o] := rfl

/-! ### draw -/

@[simp] theorem draw_pending (s : State) : (s.draw).pending = s.pending := rfl
@[simp] theorem draw_free (s : State) : (s.draw).free = s.free + 1 := rfl
@[simp] theorem draw_now (s : State) : (s.draw).now = s.now := rfl
@[simp] theorem draw_fuses (s : State) : (s.draw).fuses = s.fuses := rfl
@[simp] theorem draw_setup (s : State) : (s.draw).setup = s.setup := rfl
@[simp] theorem draw_shadow (s : State) : (s.draw).shadow = s.shadow := rfl
@[simp] theorem draw_hifErr (s : State) : (s.draw).hifErr = s.hifErr := rfl
@[simp] theorem draw_cxlOn (s : State) : (s.draw).cxlOn = s.cxlOn := rfl
@[simp] theorem draw_cxlDown (s : State) : (s.draw).cxlDown = s.cxlDown := rfl
@[simp] theorem draw_pollAt (s : State) : (s.draw).pollAt = s.pollAt := rfl
@[simp] theorem draw_pollNext (s : State) : (s.draw).pollNext = s.pollNext := rfl
@[simp] theorem draw_launchLast (s : State) : (s.draw).launchLast = s.launchLast := rfl
@[simp] theorem draw_ccReqs (s : State) : (s.draw).ccReqs = s.ccReqs := rfl
@[simp] theorem draw_ccWait (s : State) : (s.draw).ccWait = s.ccWait := rfl
@[simp] theorem draw_lastOff (s : State) : (s.draw).lastOff = s.lastOff := rfl
@[simp] theorem draw_lines (s : State) : (s.draw).lines = s.lines := rfl
@[simp] theorem draw_rings (s : State) : (s.draw).rings = s.rings := rfl
@[simp] theorem draw_descs (s : State) : (s.draw).descs = s.descs := rfl
@[simp] theorem draw_jobs (s : State) : (s.draw).jobs = s.jobs := rfl
@[simp] theorem draw_msix (s : State) : (s.draw).msix = s.msix := rfl
@[simp] theorem draw_msixTab (s : State) : (s.draw).msixTab = s.msixTab := rfl
@[simp] theorem draw_msixAt (s : State) : (s.draw).msixAt = s.msixAt := rfl
@[simp] theorem draw_hostBad (s : State) : (s.draw).hostBad = s.hostBad := rfl
@[simp] theorem draw_ccSram (s : State) : (s.draw).ccSram = s.ccSram := rfl
@[simp] theorem draw_fwImage (s : State) : (s.draw).fwImage = s.fwImage := rfl
@[simp] theorem draw_tilCorr (s : State) : (s.draw).tilCorr = s.tilCorr := rfl
@[simp] theorem draw_tilUnc (s : State) : (s.draw).tilUnc = s.tilUnc := rfl
@[simp] theorem draw_tilDtrap (s : State) : (s.draw).tilDtrap = s.tilDtrap := rfl
@[simp] theorem draw_tiles (s : State) : (s.draw).tiles = s.tiles := rfl
@[simp] theorem draw_parts (s : State) : (s.draw).parts = s.parts := rfl
@[simp] theorem draw_stks (s : State) : (s.draw).stks = s.stks := rfl
@[simp] theorem draw_router (s : State) : (s.draw).router = s.router := rfl
@[simp] theorem draw_mesh (s : State) : (s.draw).mesh = s.mesh := rfl
@[simp] theorem draw_ports (s : State) : (s.draw).ports = s.ports := rfl
@[simp] theorem draw_staging (s : State) : (s.draw).staging = s.staging := rfl
@[simp] theorem draw_lay (s : State) : (s.draw).lay = s.lay := rfl
@[simp] theorem draw_sec (s : State) : (s.draw).sec = s.sec := rfl
@[simp] theorem draw_pwr (s : State) : (s.draw).pwr = s.pwr := rfl
@[simp] theorem draw_thm (s : State) : (s.draw).thm = s.thm := rfl
@[simp] theorem draw_cleat (s : State) : (s.draw).cleat = s.cleat := rfl
@[simp] theorem draw_mgmt (s : State) : (s.draw).mgmt = s.mgmt := rfl
@[simp] theorem draw_boot (s : State) : (s.draw).boot = s.boot := rfl
@[simp] theorem draw_rst (s : State) : (s.draw).rst = s.rst := rfl
@[simp] theorem draw_out (s : State) : (s.draw).out = s.out := rfl

/-! ### barAccess -/

@[simp] theorem barAccess_pending (s : State) : (s.barAccess).pending = s.pending := rfl
@[simp] theorem barAccess_free (s : State) : (s.barAccess).free = s.free := rfl
@[simp] theorem barAccess_now (s : State) : (s.barAccess).now = s.now := rfl
@[simp] theorem barAccess_fuses (s : State) : (s.barAccess).fuses = s.fuses := rfl
@[simp] theorem barAccess_setup (s : State) : (s.barAccess).setup = s.setup := rfl
@[simp] theorem barAccess_shadow (s : State) : (s.barAccess).shadow = none := rfl
@[simp] theorem barAccess_hifErr (s : State) : (s.barAccess).hifErr = s.hifErr := rfl
@[simp] theorem barAccess_cxlOn (s : State) : (s.barAccess).cxlOn = s.cxlOn := rfl
@[simp] theorem barAccess_cxlDown (s : State) : (s.barAccess).cxlDown = s.cxlDown := rfl
@[simp] theorem barAccess_pollAt (s : State) : (s.barAccess).pollAt = s.pollAt := rfl
@[simp] theorem barAccess_pollNext (s : State) : (s.barAccess).pollNext = s.pollNext := rfl
@[simp] theorem barAccess_launchLast (s : State) : (s.barAccess).launchLast = s.launchLast := rfl
@[simp] theorem barAccess_ccReqs (s : State) : (s.barAccess).ccReqs = s.ccReqs := rfl
@[simp] theorem barAccess_ccWait (s : State) : (s.barAccess).ccWait = s.ccWait := rfl
@[simp] theorem barAccess_lastOff (s : State) : (s.barAccess).lastOff = s.lastOff := rfl
@[simp] theorem barAccess_lines (s : State) : (s.barAccess).lines = s.lines := rfl
@[simp] theorem barAccess_rings (s : State) : (s.barAccess).rings = s.rings := rfl
@[simp] theorem barAccess_descs (s : State) : (s.barAccess).descs = s.descs := rfl
@[simp] theorem barAccess_jobs (s : State) : (s.barAccess).jobs = s.jobs := rfl
@[simp] theorem barAccess_msix (s : State) : (s.barAccess).msix = s.msix := rfl
@[simp] theorem barAccess_msixTab (s : State) : (s.barAccess).msixTab = s.msixTab := rfl
@[simp] theorem barAccess_msixAt (s : State) : (s.barAccess).msixAt = s.msixAt := rfl
@[simp] theorem barAccess_hostBad (s : State) : (s.barAccess).hostBad = s.hostBad := rfl
@[simp] theorem barAccess_ccSram (s : State) : (s.barAccess).ccSram = s.ccSram := rfl
@[simp] theorem barAccess_fwImage (s : State) : (s.barAccess).fwImage = s.fwImage := rfl
@[simp] theorem barAccess_tilCorr (s : State) : (s.barAccess).tilCorr = s.tilCorr := rfl
@[simp] theorem barAccess_tilUnc (s : State) : (s.barAccess).tilUnc = s.tilUnc := rfl
@[simp] theorem barAccess_tilDtrap (s : State) : (s.barAccess).tilDtrap = s.tilDtrap := rfl
@[simp] theorem barAccess_tiles (s : State) : (s.barAccess).tiles = s.tiles := rfl
@[simp] theorem barAccess_parts (s : State) : (s.barAccess).parts = s.parts := rfl
@[simp] theorem barAccess_stks (s : State) : (s.barAccess).stks = s.stks := rfl
@[simp] theorem barAccess_router (s : State) : (s.barAccess).router = s.router := rfl
@[simp] theorem barAccess_mesh (s : State) : (s.barAccess).mesh = s.mesh := rfl
@[simp] theorem barAccess_ports (s : State) : (s.barAccess).ports = s.ports := rfl
@[simp] theorem barAccess_staging (s : State) : (s.barAccess).staging = s.staging := rfl
@[simp] theorem barAccess_lay (s : State) : (s.barAccess).lay = s.lay := rfl
@[simp] theorem barAccess_sec (s : State) : (s.barAccess).sec = s.sec := rfl
@[simp] theorem barAccess_pwr (s : State) : (s.barAccess).pwr = s.pwr := rfl
@[simp] theorem barAccess_thm (s : State) : (s.barAccess).thm = s.thm := rfl
@[simp] theorem barAccess_cleat (s : State) : (s.barAccess).cleat = s.cleat := rfl
@[simp] theorem barAccess_mgmt (s : State) : (s.barAccess).mgmt = s.mgmt := rfl
@[simp] theorem barAccess_boot (s : State) : (s.barAccess).boot = s.boot := rfl
@[simp] theorem barAccess_rst (s : State) : (s.barAccess).rst = s.rst := rfl
@[simp] theorem barAccess_out (s : State) : (s.barAccess).out = s.out := rfl

/-! ### setDesc -/

@[simp] theorem setDesc_pending (s : State) (k : DescKey) (d : Desc) : (s.setDesc k d).pending = s.pending := rfl
@[simp] theorem setDesc_free (s : State) (k : DescKey) (d : Desc) : (s.setDesc k d).free = s.free := rfl
@[simp] theorem setDesc_now (s : State) (k : DescKey) (d : Desc) : (s.setDesc k d).now = s.now := rfl
@[simp] theorem setDesc_fuses (s : State) (k : DescKey) (d : Desc) : (s.setDesc k d).fuses = s.fuses := rfl
@[simp] theorem setDesc_setup (s : State) (k : DescKey) (d : Desc) : (s.setDesc k d).setup = s.setup := rfl
@[simp] theorem setDesc_shadow (s : State) (k : DescKey) (d : Desc) : (s.setDesc k d).shadow = s.shadow := rfl
@[simp] theorem setDesc_hifErr (s : State) (k : DescKey) (d : Desc) : (s.setDesc k d).hifErr = s.hifErr := rfl
@[simp] theorem setDesc_cxlOn (s : State) (k : DescKey) (d : Desc) : (s.setDesc k d).cxlOn = s.cxlOn := rfl
@[simp] theorem setDesc_cxlDown (s : State) (k : DescKey) (d : Desc) : (s.setDesc k d).cxlDown = s.cxlDown := rfl
@[simp] theorem setDesc_pollAt (s : State) (k : DescKey) (d : Desc) : (s.setDesc k d).pollAt = s.pollAt := rfl
@[simp] theorem setDesc_pollNext (s : State) (k : DescKey) (d : Desc) : (s.setDesc k d).pollNext = s.pollNext := rfl
@[simp] theorem setDesc_launchLast (s : State) (k : DescKey) (d : Desc) : (s.setDesc k d).launchLast = s.launchLast := rfl
@[simp] theorem setDesc_ccReqs (s : State) (k : DescKey) (d : Desc) : (s.setDesc k d).ccReqs = s.ccReqs := rfl
@[simp] theorem setDesc_ccWait (s : State) (k : DescKey) (d : Desc) : (s.setDesc k d).ccWait = s.ccWait := rfl
@[simp] theorem setDesc_lastOff (s : State) (k : DescKey) (d : Desc) : (s.setDesc k d).lastOff = s.lastOff := rfl
@[simp] theorem setDesc_lines (s : State) (k : DescKey) (d : Desc) : (s.setDesc k d).lines = s.lines := rfl
@[simp] theorem setDesc_rings (s : State) (k : DescKey) (d : Desc) : (s.setDesc k d).rings = s.rings := rfl
@[simp] theorem setDesc_jobs (s : State) (k : DescKey) (d : Desc) : (s.setDesc k d).jobs = s.jobs := rfl
@[simp] theorem setDesc_msix (s : State) (k : DescKey) (d : Desc) : (s.setDesc k d).msix = s.msix := rfl
@[simp] theorem setDesc_msixTab (s : State) (k : DescKey) (d : Desc) : (s.setDesc k d).msixTab = s.msixTab := rfl
@[simp] theorem setDesc_msixAt (s : State) (k : DescKey) (d : Desc) : (s.setDesc k d).msixAt = s.msixAt := rfl
@[simp] theorem setDesc_hostBad (s : State) (k : DescKey) (d : Desc) : (s.setDesc k d).hostBad = s.hostBad := rfl
@[simp] theorem setDesc_ccSram (s : State) (k : DescKey) (d : Desc) : (s.setDesc k d).ccSram = s.ccSram := rfl
@[simp] theorem setDesc_fwImage (s : State) (k : DescKey) (d : Desc) : (s.setDesc k d).fwImage = s.fwImage := rfl
@[simp] theorem setDesc_tilCorr (s : State) (k : DescKey) (d : Desc) : (s.setDesc k d).tilCorr = s.tilCorr := rfl
@[simp] theorem setDesc_tilUnc (s : State) (k : DescKey) (d : Desc) : (s.setDesc k d).tilUnc = s.tilUnc := rfl
@[simp] theorem setDesc_tilDtrap (s : State) (k : DescKey) (d : Desc) : (s.setDesc k d).tilDtrap = s.tilDtrap := rfl
@[simp] theorem setDesc_tiles (s : State) (k : DescKey) (d : Desc) : (s.setDesc k d).tiles = s.tiles := rfl
@[simp] theorem setDesc_parts (s : State) (k : DescKey) (d : Desc) : (s.setDesc k d).parts = s.parts := rfl
@[simp] theorem setDesc_stks (s : State) (k : DescKey) (d : Desc) : (s.setDesc k d).stks = s.stks := rfl
@[simp] theorem setDesc_router (s : State) (k : DescKey) (d : Desc) : (s.setDesc k d).router = s.router := rfl
@[simp] theorem setDesc_mesh (s : State) (k : DescKey) (d : Desc) : (s.setDesc k d).mesh = s.mesh := rfl
@[simp] theorem setDesc_ports (s : State) (k : DescKey) (d : Desc) : (s.setDesc k d).ports = s.ports := rfl
@[simp] theorem setDesc_staging (s : State) (k : DescKey) (d : Desc) : (s.setDesc k d).staging = s.staging := rfl
@[simp] theorem setDesc_lay (s : State) (k : DescKey) (d : Desc) : (s.setDesc k d).lay = s.lay := rfl
@[simp] theorem setDesc_sec (s : State) (k : DescKey) (d : Desc) : (s.setDesc k d).sec = s.sec := rfl
@[simp] theorem setDesc_pwr (s : State) (k : DescKey) (d : Desc) : (s.setDesc k d).pwr = s.pwr := rfl
@[simp] theorem setDesc_thm (s : State) (k : DescKey) (d : Desc) : (s.setDesc k d).thm = s.thm := rfl
@[simp] theorem setDesc_cleat (s : State) (k : DescKey) (d : Desc) : (s.setDesc k d).cleat = s.cleat := rfl
@[simp] theorem setDesc_mgmt (s : State) (k : DescKey) (d : Desc) : (s.setDesc k d).mgmt = s.mgmt := rfl
@[simp] theorem setDesc_boot (s : State) (k : DescKey) (d : Desc) : (s.setDesc k d).boot = s.boot := rfl
@[simp] theorem setDesc_rst (s : State) (k : DescKey) (d : Desc) : (s.setDesc k d).rst = s.rst := rfl
@[simp] theorem setDesc_out (s : State) (k : DescKey) (d : Desc) : (s.setDesc k d).out = s.out := rfl

/-! ### setJob -/

@[simp] theorem setJob_pending (s : State) (k : DescKey) (j : Job) : (s.setJob k j).pending = s.pending := rfl
@[simp] theorem setJob_free (s : State) (k : DescKey) (j : Job) : (s.setJob k j).free = s.free := rfl
@[simp] theorem setJob_now (s : State) (k : DescKey) (j : Job) : (s.setJob k j).now = s.now := rfl
@[simp] theorem setJob_fuses (s : State) (k : DescKey) (j : Job) : (s.setJob k j).fuses = s.fuses := rfl
@[simp] theorem setJob_setup (s : State) (k : DescKey) (j : Job) : (s.setJob k j).setup = s.setup := rfl
@[simp] theorem setJob_shadow (s : State) (k : DescKey) (j : Job) : (s.setJob k j).shadow = s.shadow := rfl
@[simp] theorem setJob_hifErr (s : State) (k : DescKey) (j : Job) : (s.setJob k j).hifErr = s.hifErr := rfl
@[simp] theorem setJob_cxlOn (s : State) (k : DescKey) (j : Job) : (s.setJob k j).cxlOn = s.cxlOn := rfl
@[simp] theorem setJob_cxlDown (s : State) (k : DescKey) (j : Job) : (s.setJob k j).cxlDown = s.cxlDown := rfl
@[simp] theorem setJob_pollAt (s : State) (k : DescKey) (j : Job) : (s.setJob k j).pollAt = s.pollAt := rfl
@[simp] theorem setJob_pollNext (s : State) (k : DescKey) (j : Job) : (s.setJob k j).pollNext = s.pollNext := rfl
@[simp] theorem setJob_launchLast (s : State) (k : DescKey) (j : Job) : (s.setJob k j).launchLast = s.launchLast := rfl
@[simp] theorem setJob_ccReqs (s : State) (k : DescKey) (j : Job) : (s.setJob k j).ccReqs = s.ccReqs := rfl
@[simp] theorem setJob_ccWait (s : State) (k : DescKey) (j : Job) : (s.setJob k j).ccWait = s.ccWait := rfl
@[simp] theorem setJob_lastOff (s : State) (k : DescKey) (j : Job) : (s.setJob k j).lastOff = s.lastOff := rfl
@[simp] theorem setJob_lines (s : State) (k : DescKey) (j : Job) : (s.setJob k j).lines = s.lines := rfl
@[simp] theorem setJob_rings (s : State) (k : DescKey) (j : Job) : (s.setJob k j).rings = s.rings := rfl
@[simp] theorem setJob_descs (s : State) (k : DescKey) (j : Job) : (s.setJob k j).descs = s.descs := rfl
@[simp] theorem setJob_msix (s : State) (k : DescKey) (j : Job) : (s.setJob k j).msix = s.msix := rfl
@[simp] theorem setJob_msixTab (s : State) (k : DescKey) (j : Job) : (s.setJob k j).msixTab = s.msixTab := rfl
@[simp] theorem setJob_msixAt (s : State) (k : DescKey) (j : Job) : (s.setJob k j).msixAt = s.msixAt := rfl
@[simp] theorem setJob_hostBad (s : State) (k : DescKey) (j : Job) : (s.setJob k j).hostBad = s.hostBad := rfl
@[simp] theorem setJob_ccSram (s : State) (k : DescKey) (j : Job) : (s.setJob k j).ccSram = s.ccSram := rfl
@[simp] theorem setJob_fwImage (s : State) (k : DescKey) (j : Job) : (s.setJob k j).fwImage = s.fwImage := rfl
@[simp] theorem setJob_tilCorr (s : State) (k : DescKey) (j : Job) : (s.setJob k j).tilCorr = s.tilCorr := rfl
@[simp] theorem setJob_tilUnc (s : State) (k : DescKey) (j : Job) : (s.setJob k j).tilUnc = s.tilUnc := rfl
@[simp] theorem setJob_tilDtrap (s : State) (k : DescKey) (j : Job) : (s.setJob k j).tilDtrap = s.tilDtrap := rfl
@[simp] theorem setJob_tiles (s : State) (k : DescKey) (j : Job) : (s.setJob k j).tiles = s.tiles := rfl
@[simp] theorem setJob_parts (s : State) (k : DescKey) (j : Job) : (s.setJob k j).parts = s.parts := rfl
@[simp] theorem setJob_stks (s : State) (k : DescKey) (j : Job) : (s.setJob k j).stks = s.stks := rfl
@[simp] theorem setJob_router (s : State) (k : DescKey) (j : Job) : (s.setJob k j).router = s.router := rfl
@[simp] theorem setJob_mesh (s : State) (k : DescKey) (j : Job) : (s.setJob k j).mesh = s.mesh := rfl
@[simp] theorem setJob_ports (s : State) (k : DescKey) (j : Job) : (s.setJob k j).ports = s.ports := rfl
@[simp] theorem setJob_staging (s : State) (k : DescKey) (j : Job) : (s.setJob k j).staging = s.staging := rfl
@[simp] theorem setJob_lay (s : State) (k : DescKey) (j : Job) : (s.setJob k j).lay = s.lay := rfl
@[simp] theorem setJob_sec (s : State) (k : DescKey) (j : Job) : (s.setJob k j).sec = s.sec := rfl
@[simp] theorem setJob_pwr (s : State) (k : DescKey) (j : Job) : (s.setJob k j).pwr = s.pwr := rfl
@[simp] theorem setJob_thm (s : State) (k : DescKey) (j : Job) : (s.setJob k j).thm = s.thm := rfl
@[simp] theorem setJob_cleat (s : State) (k : DescKey) (j : Job) : (s.setJob k j).cleat = s.cleat := rfl
@[simp] theorem setJob_mgmt (s : State) (k : DescKey) (j : Job) : (s.setJob k j).mgmt = s.mgmt := rfl
@[simp] theorem setJob_boot (s : State) (k : DescKey) (j : Job) : (s.setJob k j).boot = s.boot := rfl
@[simp] theorem setJob_rst (s : State) (k : DescKey) (j : Job) : (s.setJob k j).rst = s.rst := rfl
@[simp] theorem setJob_out (s : State) (k : DescKey) (j : Job) : (s.setJob k j).out = s.out := rfl

/-! ### dropDesc -/

@[simp] theorem dropDesc_pending (s : State) (k : DescKey) : (s.dropDesc k).pending = s.pending := rfl
@[simp] theorem dropDesc_free (s : State) (k : DescKey) : (s.dropDesc k).free = s.free := rfl
@[simp] theorem dropDesc_now (s : State) (k : DescKey) : (s.dropDesc k).now = s.now := rfl
@[simp] theorem dropDesc_fuses (s : State) (k : DescKey) : (s.dropDesc k).fuses = s.fuses := rfl
@[simp] theorem dropDesc_setup (s : State) (k : DescKey) : (s.dropDesc k).setup = s.setup := rfl
@[simp] theorem dropDesc_shadow (s : State) (k : DescKey) : (s.dropDesc k).shadow = s.shadow := rfl
@[simp] theorem dropDesc_hifErr (s : State) (k : DescKey) : (s.dropDesc k).hifErr = s.hifErr := rfl
@[simp] theorem dropDesc_cxlOn (s : State) (k : DescKey) : (s.dropDesc k).cxlOn = s.cxlOn := rfl
@[simp] theorem dropDesc_cxlDown (s : State) (k : DescKey) : (s.dropDesc k).cxlDown = s.cxlDown := rfl
@[simp] theorem dropDesc_pollAt (s : State) (k : DescKey) : (s.dropDesc k).pollAt = s.pollAt := rfl
@[simp] theorem dropDesc_pollNext (s : State) (k : DescKey) : (s.dropDesc k).pollNext = s.pollNext := rfl
@[simp] theorem dropDesc_launchLast (s : State) (k : DescKey) : (s.dropDesc k).launchLast = s.launchLast := rfl
@[simp] theorem dropDesc_ccReqs (s : State) (k : DescKey) : (s.dropDesc k).ccReqs = s.ccReqs := rfl
@[simp] theorem dropDesc_ccWait (s : State) (k : DescKey) : (s.dropDesc k).ccWait = s.ccWait := rfl
@[simp] theorem dropDesc_lastOff (s : State) (k : DescKey) : (s.dropDesc k).lastOff = s.lastOff := rfl
@[simp] theorem dropDesc_lines (s : State) (k : DescKey) : (s.dropDesc k).lines = s.lines := rfl
@[simp] theorem dropDesc_rings (s : State) (k : DescKey) : (s.dropDesc k).rings = s.rings := rfl
@[simp] theorem dropDesc_jobs (s : State) (k : DescKey) : (s.dropDesc k).jobs = s.jobs := rfl
@[simp] theorem dropDesc_msix (s : State) (k : DescKey) : (s.dropDesc k).msix = s.msix := rfl
@[simp] theorem dropDesc_msixTab (s : State) (k : DescKey) : (s.dropDesc k).msixTab = s.msixTab := rfl
@[simp] theorem dropDesc_msixAt (s : State) (k : DescKey) : (s.dropDesc k).msixAt = s.msixAt := rfl
@[simp] theorem dropDesc_hostBad (s : State) (k : DescKey) : (s.dropDesc k).hostBad = s.hostBad := rfl
@[simp] theorem dropDesc_ccSram (s : State) (k : DescKey) : (s.dropDesc k).ccSram = s.ccSram := rfl
@[simp] theorem dropDesc_fwImage (s : State) (k : DescKey) : (s.dropDesc k).fwImage = s.fwImage := rfl
@[simp] theorem dropDesc_tilCorr (s : State) (k : DescKey) : (s.dropDesc k).tilCorr = s.tilCorr := rfl
@[simp] theorem dropDesc_tilUnc (s : State) (k : DescKey) : (s.dropDesc k).tilUnc = s.tilUnc := rfl
@[simp] theorem dropDesc_tilDtrap (s : State) (k : DescKey) : (s.dropDesc k).tilDtrap = s.tilDtrap := rfl
@[simp] theorem dropDesc_tiles (s : State) (k : DescKey) : (s.dropDesc k).tiles = s.tiles := rfl
@[simp] theorem dropDesc_parts (s : State) (k : DescKey) : (s.dropDesc k).parts = s.parts := rfl
@[simp] theorem dropDesc_stks (s : State) (k : DescKey) : (s.dropDesc k).stks = s.stks := rfl
@[simp] theorem dropDesc_router (s : State) (k : DescKey) : (s.dropDesc k).router = s.router := rfl
@[simp] theorem dropDesc_mesh (s : State) (k : DescKey) : (s.dropDesc k).mesh = s.mesh := rfl
@[simp] theorem dropDesc_ports (s : State) (k : DescKey) : (s.dropDesc k).ports = s.ports := rfl
@[simp] theorem dropDesc_staging (s : State) (k : DescKey) : (s.dropDesc k).staging = s.staging := rfl
@[simp] theorem dropDesc_lay (s : State) (k : DescKey) : (s.dropDesc k).lay = s.lay := rfl
@[simp] theorem dropDesc_sec (s : State) (k : DescKey) : (s.dropDesc k).sec = s.sec := rfl
@[simp] theorem dropDesc_pwr (s : State) (k : DescKey) : (s.dropDesc k).pwr = s.pwr := rfl
@[simp] theorem dropDesc_thm (s : State) (k : DescKey) : (s.dropDesc k).thm = s.thm := rfl
@[simp] theorem dropDesc_cleat (s : State) (k : DescKey) : (s.dropDesc k).cleat = s.cleat := rfl
@[simp] theorem dropDesc_mgmt (s : State) (k : DescKey) : (s.dropDesc k).mgmt = s.mgmt := rfl
@[simp] theorem dropDesc_boot (s : State) (k : DescKey) : (s.dropDesc k).boot = s.boot := rfl
@[simp] theorem dropDesc_rst (s : State) (k : DescKey) : (s.dropDesc k).rst = s.rst := rfl
@[simp] theorem dropDesc_out (s : State) (k : DescKey) : (s.dropDesc k).out = s.out := rfl

/-! ### dropJob -/

@[simp] theorem dropJob_pending (s : State) (k : DescKey) : (s.dropJob k).pending = s.pending := rfl
@[simp] theorem dropJob_free (s : State) (k : DescKey) : (s.dropJob k).free = s.free := rfl
@[simp] theorem dropJob_now (s : State) (k : DescKey) : (s.dropJob k).now = s.now := rfl
@[simp] theorem dropJob_fuses (s : State) (k : DescKey) : (s.dropJob k).fuses = s.fuses := rfl
@[simp] theorem dropJob_setup (s : State) (k : DescKey) : (s.dropJob k).setup = s.setup := rfl
@[simp] theorem dropJob_shadow (s : State) (k : DescKey) : (s.dropJob k).shadow = s.shadow := rfl
@[simp] theorem dropJob_hifErr (s : State) (k : DescKey) : (s.dropJob k).hifErr = s.hifErr := rfl
@[simp] theorem dropJob_cxlOn (s : State) (k : DescKey) : (s.dropJob k).cxlOn = s.cxlOn := rfl
@[simp] theorem dropJob_cxlDown (s : State) (k : DescKey) : (s.dropJob k).cxlDown = s.cxlDown := rfl
@[simp] theorem dropJob_pollAt (s : State) (k : DescKey) : (s.dropJob k).pollAt = s.pollAt := rfl
@[simp] theorem dropJob_pollNext (s : State) (k : DescKey) : (s.dropJob k).pollNext = s.pollNext := rfl
@[simp] theorem dropJob_launchLast (s : State) (k : DescKey) : (s.dropJob k).launchLast = s.launchLast := rfl
@[simp] theorem dropJob_ccReqs (s : State) (k : DescKey) : (s.dropJob k).ccReqs = s.ccReqs := rfl
@[simp] theorem dropJob_ccWait (s : State) (k : DescKey) : (s.dropJob k).ccWait = s.ccWait := rfl
@[simp] theorem dropJob_lastOff (s : State) (k : DescKey) : (s.dropJob k).lastOff = s.lastOff := rfl
@[simp] theorem dropJob_lines (s : State) (k : DescKey) : (s.dropJob k).lines = s.lines := rfl
@[simp] theorem dropJob_rings (s : State) (k : DescKey) : (s.dropJob k).rings = s.rings := rfl
@[simp] theorem dropJob_descs (s : State) (k : DescKey) : (s.dropJob k).descs = s.descs := rfl
@[simp] theorem dropJob_msix (s : State) (k : DescKey) : (s.dropJob k).msix = s.msix := rfl
@[simp] theorem dropJob_msixTab (s : State) (k : DescKey) : (s.dropJob k).msixTab = s.msixTab := rfl
@[simp] theorem dropJob_msixAt (s : State) (k : DescKey) : (s.dropJob k).msixAt = s.msixAt := rfl
@[simp] theorem dropJob_hostBad (s : State) (k : DescKey) : (s.dropJob k).hostBad = s.hostBad := rfl
@[simp] theorem dropJob_ccSram (s : State) (k : DescKey) : (s.dropJob k).ccSram = s.ccSram := rfl
@[simp] theorem dropJob_fwImage (s : State) (k : DescKey) : (s.dropJob k).fwImage = s.fwImage := rfl
@[simp] theorem dropJob_tilCorr (s : State) (k : DescKey) : (s.dropJob k).tilCorr = s.tilCorr := rfl
@[simp] theorem dropJob_tilUnc (s : State) (k : DescKey) : (s.dropJob k).tilUnc = s.tilUnc := rfl
@[simp] theorem dropJob_tilDtrap (s : State) (k : DescKey) : (s.dropJob k).tilDtrap = s.tilDtrap := rfl
@[simp] theorem dropJob_tiles (s : State) (k : DescKey) : (s.dropJob k).tiles = s.tiles := rfl
@[simp] theorem dropJob_parts (s : State) (k : DescKey) : (s.dropJob k).parts = s.parts := rfl
@[simp] theorem dropJob_stks (s : State) (k : DescKey) : (s.dropJob k).stks = s.stks := rfl
@[simp] theorem dropJob_router (s : State) (k : DescKey) : (s.dropJob k).router = s.router := rfl
@[simp] theorem dropJob_mesh (s : State) (k : DescKey) : (s.dropJob k).mesh = s.mesh := rfl
@[simp] theorem dropJob_ports (s : State) (k : DescKey) : (s.dropJob k).ports = s.ports := rfl
@[simp] theorem dropJob_staging (s : State) (k : DescKey) : (s.dropJob k).staging = s.staging := rfl
@[simp] theorem dropJob_lay (s : State) (k : DescKey) : (s.dropJob k).lay = s.lay := rfl
@[simp] theorem dropJob_sec (s : State) (k : DescKey) : (s.dropJob k).sec = s.sec := rfl
@[simp] theorem dropJob_pwr (s : State) (k : DescKey) : (s.dropJob k).pwr = s.pwr := rfl
@[simp] theorem dropJob_thm (s : State) (k : DescKey) : (s.dropJob k).thm = s.thm := rfl
@[simp] theorem dropJob_cleat (s : State) (k : DescKey) : (s.dropJob k).cleat = s.cleat := rfl
@[simp] theorem dropJob_mgmt (s : State) (k : DescKey) : (s.dropJob k).mgmt = s.mgmt := rfl
@[simp] theorem dropJob_boot (s : State) (k : DescKey) : (s.dropJob k).boot = s.boot := rfl
@[simp] theorem dropJob_rst (s : State) (k : DescKey) : (s.dropJob k).rst = s.rst := rfl
@[simp] theorem dropJob_out (s : State) (k : DescKey) : (s.dropJob k).out = s.out := rfl

/-! ### setReg -/

@[simp] theorem setReg_pending (s : State) (off rst v : Nat) : (s.setReg off rst v).pending = s.pending := rfl
@[simp] theorem setReg_free (s : State) (off rst v : Nat) : (s.setReg off rst v).free = s.free := rfl
@[simp] theorem setReg_now (s : State) (off rst v : Nat) : (s.setReg off rst v).now = s.now := rfl
@[simp] theorem setReg_fuses (s : State) (off rst v : Nat) : (s.setReg off rst v).fuses = s.fuses := rfl
@[simp] theorem setReg_shadow (s : State) (off rst v : Nat) : (s.setReg off rst v).shadow = s.shadow := rfl
@[simp] theorem setReg_hifErr (s : State) (off rst v : Nat) : (s.setReg off rst v).hifErr = s.hifErr := rfl
@[simp] theorem setReg_cxlOn (s : State) (off rst v : Nat) : (s.setReg off rst v).cxlOn = s.cxlOn := rfl
@[simp] theorem setReg_cxlDown (s : State) (off rst v : Nat) : (s.setReg off rst v).cxlDown = s.cxlDown := rfl
@[simp] theorem setReg_pollAt (s : State) (off rst v : Nat) : (s.setReg off rst v).pollAt = s.pollAt := rfl
@[simp] theorem setReg_pollNext (s : State) (off rst v : Nat) : (s.setReg off rst v).pollNext = s.pollNext := rfl
@[simp] theorem setReg_launchLast (s : State) (off rst v : Nat) : (s.setReg off rst v).launchLast = s.launchLast := rfl
@[simp] theorem setReg_ccReqs (s : State) (off rst v : Nat) : (s.setReg off rst v).ccReqs = s.ccReqs := rfl
@[simp] theorem setReg_ccWait (s : State) (off rst v : Nat) : (s.setReg off rst v).ccWait = s.ccWait := rfl
@[simp] theorem setReg_lastOff (s : State) (off rst v : Nat) : (s.setReg off rst v).lastOff = s.lastOff := rfl
@[simp] theorem setReg_lines (s : State) (off rst v : Nat) : (s.setReg off rst v).lines = s.lines := rfl
@[simp] theorem setReg_rings (s : State) (off rst v : Nat) : (s.setReg off rst v).rings = s.rings := rfl
@[simp] theorem setReg_descs (s : State) (off rst v : Nat) : (s.setReg off rst v).descs = s.descs := rfl
@[simp] theorem setReg_jobs (s : State) (off rst v : Nat) : (s.setReg off rst v).jobs = s.jobs := rfl
@[simp] theorem setReg_msix (s : State) (off rst v : Nat) : (s.setReg off rst v).msix = s.msix := rfl
@[simp] theorem setReg_msixTab (s : State) (off rst v : Nat) : (s.setReg off rst v).msixTab = s.msixTab := rfl
@[simp] theorem setReg_msixAt (s : State) (off rst v : Nat) : (s.setReg off rst v).msixAt = s.msixAt := rfl
@[simp] theorem setReg_hostBad (s : State) (off rst v : Nat) : (s.setReg off rst v).hostBad = s.hostBad := rfl
@[simp] theorem setReg_ccSram (s : State) (off rst v : Nat) : (s.setReg off rst v).ccSram = s.ccSram := rfl
@[simp] theorem setReg_fwImage (s : State) (off rst v : Nat) : (s.setReg off rst v).fwImage = s.fwImage := rfl
@[simp] theorem setReg_tilCorr (s : State) (off rst v : Nat) : (s.setReg off rst v).tilCorr = s.tilCorr := rfl
@[simp] theorem setReg_tilUnc (s : State) (off rst v : Nat) : (s.setReg off rst v).tilUnc = s.tilUnc := rfl
@[simp] theorem setReg_tilDtrap (s : State) (off rst v : Nat) : (s.setReg off rst v).tilDtrap = s.tilDtrap := rfl
@[simp] theorem setReg_tiles (s : State) (off rst v : Nat) : (s.setReg off rst v).tiles = s.tiles := rfl
@[simp] theorem setReg_parts (s : State) (off rst v : Nat) : (s.setReg off rst v).parts = s.parts := rfl
@[simp] theorem setReg_stks (s : State) (off rst v : Nat) : (s.setReg off rst v).stks = s.stks := rfl
@[simp] theorem setReg_router (s : State) (off rst v : Nat) : (s.setReg off rst v).router = s.router := rfl
@[simp] theorem setReg_mesh (s : State) (off rst v : Nat) : (s.setReg off rst v).mesh = s.mesh := rfl
@[simp] theorem setReg_ports (s : State) (off rst v : Nat) : (s.setReg off rst v).ports = s.ports := rfl
@[simp] theorem setReg_staging (s : State) (off rst v : Nat) : (s.setReg off rst v).staging = s.staging := rfl
@[simp] theorem setReg_lay (s : State) (off rst v : Nat) : (s.setReg off rst v).lay = s.lay := rfl
@[simp] theorem setReg_sec (s : State) (off rst v : Nat) : (s.setReg off rst v).sec = s.sec := rfl
@[simp] theorem setReg_pwr (s : State) (off rst v : Nat) : (s.setReg off rst v).pwr = s.pwr := rfl
@[simp] theorem setReg_thm (s : State) (off rst v : Nat) : (s.setReg off rst v).thm = s.thm := rfl
@[simp] theorem setReg_cleat (s : State) (off rst v : Nat) : (s.setReg off rst v).cleat = s.cleat := rfl
@[simp] theorem setReg_mgmt (s : State) (off rst v : Nat) : (s.setReg off rst v).mgmt = s.mgmt := rfl
@[simp] theorem setReg_boot (s : State) (off rst v : Nat) : (s.setReg off rst v).boot = s.boot := rfl
@[simp] theorem setReg_rst (s : State) (off rst v : Nat) : (s.setReg off rst v).rst = s.rst := rfl
@[simp] theorem setReg_out (s : State) (off rst v : Nat) : (s.setReg off rst v).out = s.out := rfl

/-! ### modRouter -/

@[simp] theorem modRouter_pending (s : State) (f : Router → Router) : (s.modRouter f).pending = s.pending := rfl
@[simp] theorem modRouter_free (s : State) (f : Router → Router) : (s.modRouter f).free = s.free := rfl
@[simp] theorem modRouter_now (s : State) (f : Router → Router) : (s.modRouter f).now = s.now := rfl
@[simp] theorem modRouter_fuses (s : State) (f : Router → Router) : (s.modRouter f).fuses = s.fuses := rfl
@[simp] theorem modRouter_setup (s : State) (f : Router → Router) : (s.modRouter f).setup = s.setup := rfl
@[simp] theorem modRouter_shadow (s : State) (f : Router → Router) : (s.modRouter f).shadow = s.shadow := rfl
@[simp] theorem modRouter_hifErr (s : State) (f : Router → Router) : (s.modRouter f).hifErr = s.hifErr := rfl
@[simp] theorem modRouter_cxlOn (s : State) (f : Router → Router) : (s.modRouter f).cxlOn = s.cxlOn := rfl
@[simp] theorem modRouter_cxlDown (s : State) (f : Router → Router) : (s.modRouter f).cxlDown = s.cxlDown := rfl
@[simp] theorem modRouter_pollAt (s : State) (f : Router → Router) : (s.modRouter f).pollAt = s.pollAt := rfl
@[simp] theorem modRouter_pollNext (s : State) (f : Router → Router) : (s.modRouter f).pollNext = s.pollNext := rfl
@[simp] theorem modRouter_launchLast (s : State) (f : Router → Router) : (s.modRouter f).launchLast = s.launchLast := rfl
@[simp] theorem modRouter_ccReqs (s : State) (f : Router → Router) : (s.modRouter f).ccReqs = s.ccReqs := rfl
@[simp] theorem modRouter_ccWait (s : State) (f : Router → Router) : (s.modRouter f).ccWait = s.ccWait := rfl
@[simp] theorem modRouter_lastOff (s : State) (f : Router → Router) : (s.modRouter f).lastOff = s.lastOff := rfl
@[simp] theorem modRouter_lines (s : State) (f : Router → Router) : (s.modRouter f).lines = s.lines := rfl
@[simp] theorem modRouter_rings (s : State) (f : Router → Router) : (s.modRouter f).rings = s.rings := rfl
@[simp] theorem modRouter_descs (s : State) (f : Router → Router) : (s.modRouter f).descs = s.descs := rfl
@[simp] theorem modRouter_jobs (s : State) (f : Router → Router) : (s.modRouter f).jobs = s.jobs := rfl
@[simp] theorem modRouter_msix (s : State) (f : Router → Router) : (s.modRouter f).msix = s.msix := rfl
@[simp] theorem modRouter_msixTab (s : State) (f : Router → Router) : (s.modRouter f).msixTab = s.msixTab := rfl
@[simp] theorem modRouter_msixAt (s : State) (f : Router → Router) : (s.modRouter f).msixAt = s.msixAt := rfl
@[simp] theorem modRouter_hostBad (s : State) (f : Router → Router) : (s.modRouter f).hostBad = s.hostBad := rfl
@[simp] theorem modRouter_ccSram (s : State) (f : Router → Router) : (s.modRouter f).ccSram = s.ccSram := rfl
@[simp] theorem modRouter_fwImage (s : State) (f : Router → Router) : (s.modRouter f).fwImage = s.fwImage := rfl
@[simp] theorem modRouter_tilCorr (s : State) (f : Router → Router) : (s.modRouter f).tilCorr = s.tilCorr := rfl
@[simp] theorem modRouter_tilUnc (s : State) (f : Router → Router) : (s.modRouter f).tilUnc = s.tilUnc := rfl
@[simp] theorem modRouter_tilDtrap (s : State) (f : Router → Router) : (s.modRouter f).tilDtrap = s.tilDtrap := rfl
@[simp] theorem modRouter_tiles (s : State) (f : Router → Router) : (s.modRouter f).tiles = s.tiles := rfl
@[simp] theorem modRouter_parts (s : State) (f : Router → Router) : (s.modRouter f).parts = s.parts := rfl
@[simp] theorem modRouter_stks (s : State) (f : Router → Router) : (s.modRouter f).stks = s.stks := rfl
@[simp] theorem modRouter_router (s : State) (f : Router → Router) : (s.modRouter f).router = f s.router := rfl
@[simp] theorem modRouter_mesh (s : State) (f : Router → Router) : (s.modRouter f).mesh = s.mesh := rfl
@[simp] theorem modRouter_ports (s : State) (f : Router → Router) : (s.modRouter f).ports = s.ports := rfl
@[simp] theorem modRouter_staging (s : State) (f : Router → Router) : (s.modRouter f).staging = s.staging := rfl
@[simp] theorem modRouter_lay (s : State) (f : Router → Router) : (s.modRouter f).lay = s.lay := rfl
@[simp] theorem modRouter_sec (s : State) (f : Router → Router) : (s.modRouter f).sec = s.sec := rfl
@[simp] theorem modRouter_pwr (s : State) (f : Router → Router) : (s.modRouter f).pwr = s.pwr := rfl
@[simp] theorem modRouter_thm (s : State) (f : Router → Router) : (s.modRouter f).thm = s.thm := rfl
@[simp] theorem modRouter_cleat (s : State) (f : Router → Router) : (s.modRouter f).cleat = s.cleat := rfl
@[simp] theorem modRouter_mgmt (s : State) (f : Router → Router) : (s.modRouter f).mgmt = s.mgmt := rfl
@[simp] theorem modRouter_boot (s : State) (f : Router → Router) : (s.modRouter f).boot = s.boot := rfl
@[simp] theorem modRouter_rst (s : State) (f : Router → Router) : (s.modRouter f).rst = s.rst := rfl
@[simp] theorem modRouter_out (s : State) (f : Router → Router) : (s.modRouter f).out = s.out := rfl

/-! ### Units after a unit was set -/

@[simp] theorem tile_setTile (s : State) (n : Nat) (t : Tile) : (s.setTile n t).tile n = t := get_set_same _ _ _ _
theorem tile_setTile_ne (s : State) {n m : Nat} (t : Tile) (h : m ≠ n) : (s.setTile n t).tile m = s.tile m := get_set_ne _ _ _ h
@[simp] theorem stack_setStack (s : State) (n : Nat) (k : Stack) : (s.setStack n k).stack n = k := get_set_same _ _ _ _
theorem stack_setStack_ne (s : State) {n m : Nat} (k : Stack) (h : m ≠ n) : (s.setStack n k).stack m = s.stack m := get_set_ne _ _ _ h
@[simp] theorem ring_setRing (s : State) (n : Nat) (r : Ring) : (s.setRing n r).ring n = r := get_set_same _ _ _ _
theorem ring_setRing_ne (s : State) {n m : Nat} (r : Ring) (h : m ≠ n) : (s.setRing n r).ring m = s.ring m := get_set_ne _ _ _ h
@[simp] theorem line_setLine (s : State) (n : Nat) (l : Line) : (s.setLine n l).line n = l := get_set_same _ _ _ _
theorem line_setLine_ne (s : State) {n m : Nat} (l : Line) (h : m ≠ n) : (s.setLine n l).line m = s.line m := get_set_ne _ _ _ h
@[simp] theorem port_setPort (s : State) (n : Nat) (p : Port) : (s.setPort n p).port n = p := get_set_same _ _ _ _
theorem port_setPort_ne (s : State) {n m : Nat} (p : Port) (h : m ≠ n) : (s.setPort n p).port m = s.port m := get_set_ne _ _ _ h
@[simp] theorem part_setPart (s : State) (n : Nat) (p : Part) : (s.setPart n p).part n = p := get_set_same _ _ _ _
theorem part_setPart_ne (s : State) {n m : Nat} (p : Part) (h : m ≠ n) : (s.setPart n p).part m = s.part m := get_set_ne _ _ _ h
@[simp] theorem setTile_setTile (s : State) (n : Nat) (a b : Tile) : (s.setTile n a).setTile n b = s.setTile n b := by simp [State.setTile]
@[simp] theorem setPart_setPart (s : State) (n : Nat) (a b : Part) : (s.setPart n a).setPart n b = s.setPart n b := by simp [State.setPart]
@[simp] theorem setStack_setStack (s : State) (n : Nat) (a b : Stack) : (s.setStack n a).setStack n b = s.setStack n b := by simp [State.setStack]
@[simp] theorem setRing_setRing (s : State) (n : Nat) (a b : Ring) : (s.setRing n a).setRing n b = s.setRing n b := by simp [State.setRing]
@[simp] theorem setLine_setLine (s : State) (n : Nat) (a b : Line) : (s.setLine n a).setLine n b = s.setLine n b := by simp [State.setLine]
@[simp] theorem setPort_setPort (s : State) (n : Nat) (a b : Port) : (s.setPort n a).setPort n b = s.setPort n b := by simp [State.setPort]
@[simp] theorem part_setTile_keeps (s : State) (n : Nat) (t : Tile) (m : Nat) : (s.setTile n t).part m = s.part m := rfl
@[simp] theorem stack_setTile_keeps (s : State) (n : Nat) (t : Tile) (m : Nat) : (s.setTile n t).stack m = s.stack m := rfl
@[simp] theorem ring_setTile_keeps (s : State) (n : Nat) (t : Tile) (m : Nat) : (s.setTile n t).ring m = s.ring m := rfl
@[simp] theorem line_setTile_keeps (s : State) (n : Nat) (t : Tile) (m : Nat) : (s.setTile n t).line m = s.line m := rfl
@[simp] theorem port_setTile_keeps (s : State) (n : Nat) (t : Tile) (m : Nat) : (s.setTile n t).port m = s.port m := rfl
@[simp] theorem tile_setPart_keeps (s : State) (n : Nat) (p : Part) (m : Nat) : (s.setPart n p).tile m = s.tile m := rfl
@[simp] theorem stack_setPart_keeps (s : State) (n : Nat) (p : Part) (m : Nat) : (s.setPart n p).stack m = s.stack m := rfl
@[simp] theorem ring_setPart_keeps (s : State) (n : Nat) (p : Part) (m : Nat) : (s.setPart n p).ring m = s.ring m := rfl
@[simp] theorem line_setPart_keeps (s : State) (n : Nat) (p : Part) (m : Nat) : (s.setPart n p).line m = s.line m := rfl
@[simp] theorem port_setPart_keeps (s : State) (n : Nat) (p : Part) (m : Nat) : (s.setPart n p).port m = s.port m := rfl
@[simp] theorem tile_setStack_keeps (s : State) (n : Nat) (k : Stack) (m : Nat) : (s.setStack n k).tile m = s.tile m := rfl
@[simp] theorem part_setStack_keeps (s : State) (n : Nat) (k : Stack) (m : Nat) : (s.setStack n k).part m = s.part m := rfl
@[simp] theorem ring_setStack_keeps (s : State) (n : Nat) (k : Stack) (m : Nat) : (s.setStack n k).ring m = s.ring m := rfl
@[simp] theorem line_setStack_keeps (s : State) (n : Nat) (k : Stack) (m : Nat) : (s.setStack n k).line m = s.line m := rfl
@[simp] theorem port_setStack_keeps (s : State) (n : Nat) (k : Stack) (m : Nat) : (s.setStack n k).port m = s.port m := rfl
@[simp] theorem tile_setRing_keeps (s : State) (n : Nat) (r : Ring) (m : Nat) : (s.setRing n r).tile m = s.tile m := rfl
@[simp] theorem part_setRing_keeps (s : State) (n : Nat) (r : Ring) (m : Nat) : (s.setRing n r).part m = s.part m := rfl
@[simp] theorem stack_setRing_keeps (s : State) (n : Nat) (r : Ring) (m : Nat) : (s.setRing n r).stack m = s.stack m := rfl
@[simp] theorem line_setRing_keeps (s : State) (n : Nat) (r : Ring) (m : Nat) : (s.setRing n r).line m = s.line m := rfl
@[simp] theorem port_setRing_keeps (s : State) (n : Nat) (r : Ring) (m : Nat) : (s.setRing n r).port m = s.port m := rfl
@[simp] theorem tile_setLine_keeps (s : State) (n : Nat) (l : Line) (m : Nat) : (s.setLine n l).tile m = s.tile m := rfl
@[simp] theorem part_setLine_keeps (s : State) (n : Nat) (l : Line) (m : Nat) : (s.setLine n l).part m = s.part m := rfl
@[simp] theorem stack_setLine_keeps (s : State) (n : Nat) (l : Line) (m : Nat) : (s.setLine n l).stack m = s.stack m := rfl
@[simp] theorem ring_setLine_keeps (s : State) (n : Nat) (l : Line) (m : Nat) : (s.setLine n l).ring m = s.ring m := rfl
@[simp] theorem port_setLine_keeps (s : State) (n : Nat) (l : Line) (m : Nat) : (s.setLine n l).port m = s.port m := rfl
@[simp] theorem tile_setPort_keeps (s : State) (n : Nat) (p : Port) (m : Nat) : (s.setPort n p).tile m = s.tile m := rfl
@[simp] theorem part_setPort_keeps (s : State) (n : Nat) (p : Port) (m : Nat) : (s.setPort n p).part m = s.part m := rfl
@[simp] theorem stack_setPort_keeps (s : State) (n : Nat) (p : Port) (m : Nat) : (s.setPort n p).stack m = s.stack m := rfl
@[simp] theorem ring_setPort_keeps (s : State) (n : Nat) (p : Port) (m : Nat) : (s.setPort n p).ring m = s.ring m := rfl
@[simp] theorem line_setPort_keeps (s : State) (n : Nat) (p : Port) (m : Nat) : (s.setPort n p).line m = s.line m := rfl
@[simp] theorem tile_emit_keeps (s : State) (o : Output) (m : Nat) : (s.emit o).tile m = s.tile m := rfl
@[simp] theorem part_emit_keeps (s : State) (o : Output) (m : Nat) : (s.emit o).part m = s.part m := rfl
@[simp] theorem stack_emit_keeps (s : State) (o : Output) (m : Nat) : (s.emit o).stack m = s.stack m := rfl
@[simp] theorem ring_emit_keeps (s : State) (o : Output) (m : Nat) : (s.emit o).ring m = s.ring m := rfl
@[simp] theorem line_emit_keeps (s : State) (o : Output) (m : Nat) : (s.emit o).line m = s.line m := rfl
@[simp] theorem port_emit_keeps (s : State) (o : Output) (m : Nat) : (s.emit o).port m = s.port m := rfl
@[simp] theorem tile_draw_keeps (s : State) (m : Nat) : (s.draw).tile m = s.tile m := rfl
@[simp] theorem part_draw_keeps (s : State) (m : Nat) : (s.draw).part m = s.part m := rfl
@[simp] theorem stack_draw_keeps (s : State) (m : Nat) : (s.draw).stack m = s.stack m := rfl
@[simp] theorem ring_draw_keeps (s : State) (m : Nat) : (s.draw).ring m = s.ring m := rfl
@[simp] theorem line_draw_keeps (s : State) (m : Nat) : (s.draw).line m = s.line m := rfl
@[simp] theorem port_draw_keeps (s : State) (m : Nat) : (s.draw).port m = s.port m := rfl
@[simp] theorem tile_barAccess_keeps (s : State) (m : Nat) : (s.barAccess).tile m = s.tile m := rfl
@[simp] theorem part_barAccess_keeps (s : State) (m : Nat) : (s.barAccess).part m = s.part m := rfl
@[simp] theorem stack_barAccess_keeps (s : State) (m : Nat) : (s.barAccess).stack m = s.stack m := rfl
@[simp] theorem ring_barAccess_keeps (s : State) (m : Nat) : (s.barAccess).ring m = s.ring m := rfl
@[simp] theorem line_barAccess_keeps (s : State) (m : Nat) : (s.barAccess).line m = s.line m := rfl
@[simp] theorem port_barAccess_keeps (s : State) (m : Nat) : (s.barAccess).port m = s.port m := rfl
@[simp] theorem tile_setDesc_keeps (s : State) (k : DescKey) (d : Desc) (m : Nat) : (s.setDesc k d).tile m = s.tile m := rfl
@[simp] theorem part_setDesc_keeps (s : State) (k : DescKey) (d : Desc) (m : Nat) : (s.setDesc k d).part m = s.part m := rfl
@[simp] theorem stack_setDesc_keeps (s : State) (k : DescKey) (d : Desc) (m : Nat) : (s.setDesc k d).stack m = s.stack m := rfl
@[simp] theorem ring_setDesc_keeps (s : State) (k : DescKey) (d : Desc) (m : Nat) : (s.setDesc k d).ring m = s.ring m := rfl
@[simp] theorem line_setDesc_keeps (s : State) (k : DescKey) (d : Desc) (m : Nat) : (s.setDesc k d).line m = s.line m := rfl
@[simp] theorem port_setDesc_keeps (s : State) (k : DescKey) (d : Desc) (m : Nat) : (s.setDesc k d).port m = s.port m := rfl
@[simp] theorem tile_setJob_keeps (s : State) (k : DescKey) (j : Job) (m : Nat) : (s.setJob k j).tile m = s.tile m := rfl
@[simp] theorem part_setJob_keeps (s : State) (k : DescKey) (j : Job) (m : Nat) : (s.setJob k j).part m = s.part m := rfl
@[simp] theorem stack_setJob_keeps (s : State) (k : DescKey) (j : Job) (m : Nat) : (s.setJob k j).stack m = s.stack m := rfl
@[simp] theorem ring_setJob_keeps (s : State) (k : DescKey) (j : Job) (m : Nat) : (s.setJob k j).ring m = s.ring m := rfl
@[simp] theorem line_setJob_keeps (s : State) (k : DescKey) (j : Job) (m : Nat) : (s.setJob k j).line m = s.line m := rfl
@[simp] theorem port_setJob_keeps (s : State) (k : DescKey) (j : Job) (m : Nat) : (s.setJob k j).port m = s.port m := rfl
@[simp] theorem tile_dropDesc_keeps (s : State) (k : DescKey) (m : Nat) : (s.dropDesc k).tile m = s.tile m := rfl
@[simp] theorem part_dropDesc_keeps (s : State) (k : DescKey) (m : Nat) : (s.dropDesc k).part m = s.part m := rfl
@[simp] theorem stack_dropDesc_keeps (s : State) (k : DescKey) (m : Nat) : (s.dropDesc k).stack m = s.stack m := rfl
@[simp] theorem ring_dropDesc_keeps (s : State) (k : DescKey) (m : Nat) : (s.dropDesc k).ring m = s.ring m := rfl
@[simp] theorem line_dropDesc_keeps (s : State) (k : DescKey) (m : Nat) : (s.dropDesc k).line m = s.line m := rfl
@[simp] theorem port_dropDesc_keeps (s : State) (k : DescKey) (m : Nat) : (s.dropDesc k).port m = s.port m := rfl
@[simp] theorem tile_dropJob_keeps (s : State) (k : DescKey) (m : Nat) : (s.dropJob k).tile m = s.tile m := rfl
@[simp] theorem part_dropJob_keeps (s : State) (k : DescKey) (m : Nat) : (s.dropJob k).part m = s.part m := rfl
@[simp] theorem stack_dropJob_keeps (s : State) (k : DescKey) (m : Nat) : (s.dropJob k).stack m = s.stack m := rfl
@[simp] theorem ring_dropJob_keeps (s : State) (k : DescKey) (m : Nat) : (s.dropJob k).ring m = s.ring m := rfl
@[simp] theorem line_dropJob_keeps (s : State) (k : DescKey) (m : Nat) : (s.dropJob k).line m = s.line m := rfl
@[simp] theorem port_dropJob_keeps (s : State) (k : DescKey) (m : Nat) : (s.dropJob k).port m = s.port m := rfl
@[simp] theorem tile_setReg_keeps (s : State) (off rst v : Nat) (m : Nat) : (s.setReg off rst v).tile m = s.tile m := rfl
@[simp] theorem part_setReg_keeps (s : State) (off rst v : Nat) (m : Nat) : (s.setReg off rst v).part m = s.part m := rfl
@[simp] theorem stack_setReg_keeps (s : State) (off rst v : Nat) (m : Nat) : (s.setReg off rst v).stack m = s.stack m := rfl
@[simp] theorem ring_setReg_keeps (s : State) (off rst v : Nat) (m : Nat) : (s.setReg off rst v).ring m = s.ring m := rfl
@[simp] theorem line_setReg_keeps (s : State) (off rst v : Nat) (m : Nat) : (s.setReg off rst v).line m = s.line m := rfl
@[simp] theorem port_setReg_keeps (s : State) (off rst v : Nat) (m : Nat) : (s.setReg off rst v).port m = s.port m := rfl
@[simp] theorem tile_modRouter_keeps (s : State) (f : Router → Router) (m : Nat) : (s.modRouter f).tile m = s.tile m := rfl
@[simp] theorem part_modRouter_keeps (s : State) (f : Router → Router) (m : Nat) : (s.modRouter f).part m = s.part m := rfl
@[simp] theorem stack_modRouter_keeps (s : State) (f : Router → Router) (m : Nat) : (s.modRouter f).stack m = s.stack m := rfl
@[simp] theorem ring_modRouter_keeps (s : State) (f : Router → Router) (m : Nat) : (s.modRouter f).ring m = s.ring m := rfl
@[simp] theorem line_modRouter_keeps (s : State) (f : Router → Router) (m : Nat) : (s.modRouter f).line m = s.line m := rfl
@[simp] theorem port_modRouter_keeps (s : State) (f : Router → Router) (m : Nat) : (s.modRouter f).port m = s.port m := rfl

end Sys2Proof.Machine
end

