-- ==== Sys2Proof/Laws/Mesh.lean ====
section
/-!
SUPPORT. What the shared operations on packets can do: sending into the meshes, answering, the arrival of a flight (05 R138), and the
router's taking of a packet from a port (07 R205).
-/

namespace Sys2Proof.Machine

/-- Sending adds flights behind those under way, and one output; nothing else changes. -/
theorem sendPkt_eq (s : State) (src : MPort) (p : Packet) :
    ∃ l, (∀ f ∈ l, f.pkt = p) ∧ s.sendPkt src p = { s with mesh := s.mesh ++ l, out := s.out ++ [.packet p] } := by
  unfold State.sendPkt
  refine ⟨_, ?_, rfl⟩
  intro f hf
  split at hf
  · split at hf <;> (simp only [List.mem_singleton] at hf; rw [hf])
  · simp only [List.mem_singleton] at hf; rw [hf]
  · simp only [List.mem_singleton] at hf; rw [hf]
  · cases hf

/-- A type that expects no reply is not answered. -/
theorem answer_none (s : State) (p : Packet) (status : Nat) (data : List Byte) (h : expectsReply p.typ = false) :
    s.answer p status data = s := by
  simp [State.answer, h]

/-- One that does is answered by one packet. -/
theorem answer_eq (s : State) (p : Packet) (status : Nat) (data : List Byte) (h : expectsReply p.typ = true) :
    ∃ l, s.answer p status data = { s with mesh := s.mesh ++ l, out := s.out ++ [.packet (p.replyTo status data)] } := by
  obtain ⟨l, -, e⟩ := sendPkt_eq s (s.targetPort p) (p.replyTo status data)
  exact ⟨l, by rw [State.answer, if_pos h, e]⟩

/-- An arrival takes at most one flight, which carried the packet, out of the meshes; nothing else changes. -/
theorem arrive_eq {s v : State} {fits : MPort → Bool} {p : Packet} {d : Option MPort} (h : s.arrive fits p = some (v, d)) :
    (v = s ∧ d = none ∧ ∀ f ∈ s.mesh, f.pkt ≠ p) ∨
    ∃ i f, s.mesh[i]? = some f ∧ f.pkt = p ∧ fits f.dst = true ∧ d = some f.dst ∧ v = { s with mesh := s.mesh.eraseIdx i } := by
  unfold State.arrive at h
  split at h
  · rename_i i hi
    split at h
    · cases h
      obtain ⟨hl, hp, -⟩ := List.findIdx?_eq_some_iff_getElem.1 hi
      rw [Bool.and_eq_true, beq_iff_eq] at hp
      exact .inr ⟨i, s.mesh[i], List.getElem?_eq_getElem hl, hp.1, hp.2, by rw [List.getElem?_eq_getElem hl]; rfl, rfl⟩
    · cases h
  · split at h
    · cases h
    · rename_i hn
      cases h
      refine .inl ⟨rfl, rfl, fun f hf e => hn ?_⟩
      rw [List.any_eq_true]
      exact ⟨f, hf, by rw [e]; exact BEq.rfl⟩

/-- Taking a packet from a port changes that port's list of released packets and the router's hand, and nothing else. -/
theorem rxTake_eq {s v : State} {p : Nat} {k : Packet} (h : s.rxTake p k = some v) :
    v = s ∨ ∃ o l, v = { s with ports := SMap.set s.ports p { s.port p with rxq := l }, router := { s.router with hand := some o } } := by
  unfold State.rxTake at h
  extract_lets x at h
  split at h
  · cases h; exact .inl rfl
  · split at h
    · cases h
    · cases h; exact .inr ⟨_, _, rfl⟩

/-- With no buffer in hand, the end of routing does nothing. -/
theorem handDone_none (s : State) (h : s.router.hand = none) : s.handDone = s := by
  unfold State.handDone State.modRouter
  rw [h]
  have e : { s.router with hand := none } = s.router := by rw [← h]
  show ({ s with router := { s.router with hand := none } } : State) = s
  rw [e]

end Sys2Proof.Machine
end

