-- ==== Sys2Proof/Laws/Run.lean ====
section
/-!
SUPPORT. What running one instruction of a control core can do (02 R36 to R40, R52): the boundary, the retirement, trap entry, and
the scratchpad's reads and writes.
-/

namespace Sys2Proof.Machine

/-- No imprecise trap, late error reply or enabled event waits at the tile's next instruction boundary. -/
def Tile.boundaryClear (x : Tile) : Prop :=
  x.tfault = none ∧ x.vfault = none ∧ x.lateErr = none ∧ ¬ (x.cst.ei = true ∧ x.cst.frm ≠ 7 ∧ x.eventBits ≠ 0)

/-- With nothing waiting, the boundary does nothing. -/
theorem boundary_clear (s : State) (n : Nat) (h : (s.tile n).boundaryClear) : s.boundary n = s := by
  obtain ⟨h1, h2, h3, h4⟩ := h
  unfold State.boundary
  simp only [h1, h2, h3]
  split
  · rfl
  · rfl

/-- The tile after it retired an instruction and continues at `pc`. -/
theorem retire_tile_same (s : State) (n : Nat) (pc : Word) :
    (s.retire n pc).tile n =
      { s.tile n with pc := pc, retired := (s.tile n).retired + 1, wait := .none, lastFc := s.now } := by
  simp [State.retire, State.setTile, State.setPart, State.tile]

/-- Retiring changes the tile and its partition's count alone. -/
theorem retire_eq (s : State) (n : Nat) (pc : Word) :
    s.retire n pc = { s with
      tiles := SMap.set s.tiles n { s.tile n with pc := pc, retired := (s.tile n).retired + 1, wait := .none, lastFc := s.now }
      parts := SMap.set s.parts (n / 72) { s.part (n / 72) with retiredIns := (s.part (n / 72)).retiredIns + 1 } } := rfl

/-- An instruction whose effect is `s'` retires, where nothing waits at the boundary after it. -/
theorem runInstr_next (s s' : State) (n : Nat) (f : Tile → IRes) (hr : (s.tile n).ready = true) (hf : f (s.tile n) = .next s')
    (hb : (s'.tile n).boundaryClear) : s.runInstr n f = s'.retire n ((s.tile n).pc + 4) := by
  unfold State.runInstr
  simp only [hr, hf, Bool.not_true, Bool.false_eq_true, if_false]
  apply boundary_clear
  rw [retire_tile_same]; exact hb

/-- A control transfer retires and continues at its target, where nothing waits at the boundary after it. -/
theorem runInstr_jump (s s' : State) (n : Nat) (f : Tile → IRes) (pc : Word) (hr : (s.tile n).ready = true)
    (hf : f (s.tile n) = .jump s' pc) (hb : (s'.tile n).boundaryClear) : s.runInstr n f = s'.retire n pc := by
  unfold State.runInstr
  simp only [hr, hf, Bool.not_true, Bool.false_eq_true, if_false]
  apply boundary_clear
  rw [retire_tile_same]; exact hb

theorem runInstr_hold (s s' : State) (n : Nat) (f : Tile → IRes) (hr : (s.tile n).ready = true)
    (hf : f (s.tile n) = .hold s') : s.runInstr n f = s' := by
  simp [State.runInstr, hr, hf]

theorem runInstr_stall (s : State) (n : Nat) (f : Tile → IRes) (hf : f (s.tile n) = .stall) : s.runInstr n f = s := by
  simp [State.runInstr, hf]

theorem runInstr_trap (s s' : State) (n : Nat) (f : Tile → IRes) (vec detail : Nat) (xval : Word)
    (hr : (s.tile n).ready = true) (hf : f (s.tile n) = .trap s' vec detail xval) :
    s.runInstr n f = s'.takeTrap n vec detail xval (s.tile n).pc := by
  simp [State.runInstr, hr, hf]

/-- A core that cannot issue runs nothing. -/
theorem runInstr_notReady (s : State) (n : Nat) (f : Tile → IRes) (hr : (s.tile n).ready = false) : s.runInstr n f = s := by
  simp [State.runInstr, hr]

/-- An instruction that writes a register retires with it. -/
theorem runReg_ready (s : State) (n : Nat) (rd : Reg) (f : Tile → Word) (hr : (s.tile n).ready = true)
    (hb : ((s.tile n).setReg rd (f (s.tile n))).boundaryClear) :
    s.runReg n rd f = (s.writeReg n rd (f (s.tile n))).retire n ((s.tile n).pc + 4) :=
  runInstr_next s _ n _ hr rfl (by simpa [State.writeReg] using hb)

/-! ### Registers -/

/-- Writing a register changes the two register arrays alone. -/
theorem setReg_frame (x : Tile) (r : Reg) (v : Word) :
    ∃ c g, x.setReg r v = { x with common := c, groups := g } := by
  unfold Tile.setReg
  split
  · exact ⟨x.common, x.groups, rfl⟩
  · split
    · exact ⟨_, x.groups, rfl⟩
    · split
      · exact ⟨x.common, _, rfl⟩
      · exact ⟨x.common, _, rfl⟩

@[simp] theorem setReg_boundaryClear (x : Tile) (r : Reg) (v : Word) : (x.setReg r v).boundaryClear ↔ x.boundaryClear := by
  obtain ⟨c, g, h⟩ := setReg_frame x r v
  rw [h]; rfl

/-! ### Trap entry -/

/-- Outside window 7 and below DEP 6 a trap is taken as R37 says. -/
theorem takeTrap_enter (s : State) (n vec detail : Nat) (xval xpc : Word) (h7 : (s.tile n).cst.frm ≠ 7)
    (h6 : (s.tile n).cst.dep ≠ 6 ∨ vec = vecOverflow ∨ vec = vecUnderflow) :
    s.takeTrap n vec detail xval xpc = s.setTile n ((s.tile n).enter vec detail xval xpc) := by
  unfold State.takeTrap
  simp only [if_neg h7]
  split
  · rename_i h; rcases h6 with h6 | h6 | h6 <;> simp_all
  · rfl

/-- At DEP 6 the window overflow comes first (R37 step 5). -/
theorem takeTrap_overflow (s : State) (n vec detail : Nat) (xval xpc : Word) (h7 : (s.tile n).cst.frm ≠ 7)
    (h6 : (s.tile n).cst.dep = 6) (h1 : vec ≠ vecOverflow) (h2 : vec ≠ vecUnderflow) :
    s.takeTrap n vec detail xval xpc = s.setTile n ((s.tile n).enter vecOverflow 0 xpc xpc) := by
  unfold State.takeTrap
  simp only [if_neg h7]
  rw [if_pos ⟨h1, h2, h6⟩]

theorem takeTrap_double (s : State) (n vec detail : Nat) (xval xpc : Word) (h7 : (s.tile n).cst.frm = 7) :
    s.takeTrap n vec detail xval xpc = s.doubleTrap n vec detail xpc := by
  unfold State.takeTrap
  simp only [if_pos h7]

end Sys2Proof.Machine
end

