-- ==== Sys2Proof/Tests/Slice0.lean ====
section
/-!
SUPPORT. The model's own tests: the smoke test of the well-formedness checks, and for each statement a concrete state and operands
that meet its hypotheses, with what the command then does there. Expected values come from the tables of the statements, which
write out the spec's rules, or from the spec's own examples.
-/

namespace Sys2Proof.Tests

set_option Elab.async false

open Sys2Proof.Machine Sys2Proof.Claims

/-! ### Well-formedness: each check refuses an ill-formed command -/

theorem test_wf_refuses : ([.firmwareBroadcast 0 [], .ringEnable 0 0 (.ok []), .doorbellRead 0 (.ok [0]),
    .descriptorFetch 0 (.ok []), .teamForm ⟨0, 0⟩ (.ok []) .error, .topologyAccept [1],
    .linkFrame 0 [], .prbsTest 0 0 0 [], .alignDone 0 0 [], .cmp 0 [], .adaptSweepDone 0 0 [], .energyModel ⟨[], [], 0, 0, []⟩,
    .thermalSensorRead [], .steadyWindow [] [] [] [] false false false] : List Instr).all (fun i => !i.wf) = true := by decide +kernel

theorem test_wf_accepts : (([.ringEnable 0 0 .error, .doorbellRead 0 .translation, .prbsTest 0 0 0 (List.replicate 8 []),
    .add 0 9 1 2] : List Instr).all Instr.wf) = true := by decide +kernel

/-! ### States the tests share -/

/-- The step answered a next state whose tiles, partition counts and counters are those of `u`. -/
def goes (o : Host.Outcome State Fault Refusal) (u : State) : Bool :=
  match o with
  | .next v => v.tiles == u.tiles && (v.part 0).retiredIns == (u.part 0).retiredIns && v.out == u.out &&
      v.tilCorr == u.tilCorr && v.tilUnc == u.tilUnc
  | .fault _ => false
  | .refused _ => false

/-- The step answered a next state, and it passes the check. -/
def passes (o : Host.Outcome State Fault Refusal) (f : State → Bool) : Bool :=
  match o with
  | .next v => f v
  | .fault _ => false
  | .refused _ => false

/-- A tile at tenant level in window 0 of 1. -/
def core : Tile := { Tile.fresh with running := true, cst := ⟨0, 1, false, true⟩, pc := 0x8000, spp := 0xBF000 }

/-- The package with its rails up and tile 0 as given. -/
def live (x : Tile) : State := { State.reset with pwr := { Pwr.fresh with rails := .on }, tiles := [(0, x)] }

/-! ### 02 The tile and its control core -/

def regs : Tile := (((core.setReg 1 0xFFFFFFFFFFFFFFF9).setReg 2 3).setReg 16 0x8010).setReg 17 70

theorem test_scalar_results : ([.add 0 9 1 2, .sub 0 9 1 2, .and 0 9 1 2, .or 0 9 1 2, .xor 0 9 1 2, .shl 0 9 1 17,
    .shr 0 9 1 17, .sar 0 9 1 17, .cmpeq 0 9 1 2, .cmplt 0 9 1 2, .cmpltu 0 9 1 2, .mul 0 9 1 2, .mulh 0 9 1 2,
    .mulhu 0 9 1 2, .div 0 9 1 2, .divu 0 9 1 2, .rem 0 9 1 2, .remu 0 9 1 2, .popc 0 9 1, .clz 0 9 2, .ctz 0 9 2,
    .addi 0 9 1 0x8000, .andi 0 9 1 0x8000, .ori 0 9 1 5, .xori 0 9 1 5, .shi 0 9 1 3, .shi 0 9 1 67, .shi 0 0 1 131,
    .lui 0 31 0x8001] : List Instr).all (fun i => match scalarResult (live regs) i with
      | some (t, rd, v) => t == 0 && regs.ready && calm regs && goes (exec i (live regs)) (ran (live regs) 0 (regs.setReg rd v) 0x8004)
      | none => false) = true := by decide +kernel

/-- −7 / 3 is −2 with remainder −1 (R43: rounded toward zero); −7 shifted by 70 mod 64. -/
theorem test_scalar_values : ((scalarResult (live regs) (.div 0 9 1 2)).map (·.2.2) == some 0xFFFFFFFFFFFFFFFE &&
    (scalarResult (live regs) (.rem 0 9 1 2)).map (·.2.2) == some 0xFFFFFFFFFFFFFFFF &&
    (scalarResult (live regs) (.mulh 0 9 1 2)).map (·.2.2) == some 0xFFFFFFFFFFFFFFFF &&
    (scalarResult (live regs) (.clz 0 9 2)).map (·.2.2) == some 62 &&
    (scalarResult (live regs) (.sar 0 9 1 17)).map (·.2.2) == some 0xFFFFFFFFFFFFFFFF) = true := by decide +kernel

theorem test_control_transfers :
    (goes (exec (.br 0 2 1 4) (live regs)) (ran (live regs) 0 regs 0x8010) &&
     goes (exec (.br 0 6 0 0xFFFF) (live regs)) (ran (live regs) 0 regs 0x7FFC) &&
     goes (exec (.br 0 0 1 4) (live regs)) (ran (live regs) 0 regs 0x8004) &&
     goes (exec (.jmpl 0 9 16 0x10) (live regs)) (ran (live regs) 0 (regs.setReg 9 0x8004) 0x8020) &&
     goes (exec (.call 0 8) (live regs)) (ran (live regs) 0 (called regs) 0x8020) &&
     goes (exec (.callr 0 16) (live regs)) (ran (live regs) 0 (called regs) 0x8010)) = true := by decide +kernel

/-- The callee reads the return address in p7, and RET goes there (R32). -/
def callee : Tile := called { regs with cst := ⟨6, 2, false, true⟩ }

theorem test_ret : (callee.cst.frm == 0 && callee.reg 23 == 0x8004 &&
    goes (exec (.ret 0) (live callee)) (ran (live callee) 0 { callee with cst := ⟨6, 2, false, true⟩ } 0x8004)) = true := by decide +kernel

def handler : Tile := { regs with cst := ⟨1, 2, true, false⟩, xcst := ⟨0, 1, false, true⟩, xpc := 0x9000 }

theorem test_xret : (calm handler &&
    goes (exec (.xret 0) (live handler)) (ran (live handler) 0 { handler with cst := handler.xcst } 0x9000)) = true := by decide +kernel

def traps (s : State) (i : Instr) (vec : Nat) : Bool :=
  match trapOf s i with
  | some (t, v, d, xv) => v == vec && (s.tile t.val).ready && (s.tile t.val).cst.frm != 7 &&
      ((s.tile t.val).cst.dep != 6 || v == 1) && goes (exec i s) (withTile s t.val (entered (s.tile t.val) v d xv))
  | none => false

theorem test_trap_entry :
    (traps (live regs) (.div 0 9 1 5) 12 && traps (live regs) (.divu 0 9 1 5) 12 && traps (live regs) (.rem 0 9 1 5) 12 &&
     traps (live regs) (.remu 0 9 1 5) 12 && traps (live regs) (.brk ⟨0, 0x4C000006⟩) 13 && traps (live regs) (.brk ⟨0, 0⟩) 3 && traps (live regs) (.shi 0 9 1 0xC0) 3 &&
     traps (live regs) (.br 0 7 1 0) 3 && traps (live regs) (.br 0 6 1 0) 3 && traps (live regs) (.ret 0) 2 &&
     traps (live regs) (.xret 0) 4 && traps (live regs) (.halt 0) 4 && traps (live regs) (.crr 0 9 6) 4 &&
     traps (live regs) (.crw 0 9 8) 4 && traps (live regs) (.spill 0) 4 && traps (live regs) (.fill 0) 4 &&
     traps (live handler) (.spill 0) 3 && traps (live handler) (.fill 0) 3 &&
     traps (live { regs with cst := ⟨0, 6, false, true⟩ }) (.call 0 0) 1 &&
     traps (live { regs with cst := ⟨0, 6, false, true⟩ }) (.callr 0 0) 1) = true := by decide +kernel

/-- At DEP 6 a breakpoint takes the window overflow first (R37). -/
theorem test_overflow_first : goes (exec (.brk ⟨0, 0x4C000006⟩) (live { regs with cst := ⟨0, 6, false, true⟩ }))
    (withTile (live { regs with cst := ⟨0, 6, false, true⟩ }) 0
      (entered { regs with cst := ⟨0, 6, false, true⟩ } 1 0 0x8000)) = true := by decide +kernel

/-- In window 7, at firmware level. -/
def window7 : Tile := { regs with cst := ⟨7, 6, true, false⟩, xcst := ⟨5, 6, false, true⟩ }

theorem test_double_trap : (trapOf (live window7) (.brk ⟨0, 0x4C000006⟩) == some (0, 13, 0, 0x8000) && window7.ready &&
    passes (exec (.brk ⟨0, 0x4C000006⟩) (live window7)) (fun u =>
      u.tile 0 == { window7 with running := false, halted := true } && u.tilDtrap == 1)) = true := by decide +kernel

def stored : Tile := (regs.store 0x8010 [0x80, 0xFF, 0x12, 0x34, 0x56, 0x78, 0x9A, 0xBC]).setReg 18 0xB7FF9

theorem test_loads : ([.ldd 0 9 16 0, .ldw 0 9 16 4, .ldh 0 9 16 0, .ldb 0 9 16 1] : List Instr).all (fun i =>
    match spadAccess i with
    | some (_, n, rd, a, imm, _) =>
      let off := (stored.reg a + imm.signExtend 64).toNat
      off % n == 0 && goes (exec i (live stored)) (ran (live stored) 0
        (stored.setReg rd (BitVec.ofInt 64 (sext (8 * n) (leNat (stored.scratch.readN off n))))) 0x8004)
    | none => false) = true := by decide +kernel

/-- The values that those loads read: little-endian, sign-extended. -/
theorem test_load_values : (passes (exec (.ldh 0 9 16 0) (live stored)) (fun u => (u.tile 0).reg 9 == 0xFFFFFFFFFFFFFF80) &&
    passes (exec (.ldw 0 9 16 4) (live stored)) (fun u => (u.tile 0).reg 9 == 0xFFFFFFFFBC9A7856)) = true := by decide +kernel

theorem test_load_uncorrectable : passes (exec (.ldb 0 9 16 5) (live { stored with upsets := [(0x8010 / 8, true)] })) (fun u =>
    (u.tile 0).pc == 0xE0 && (u.tile 0).xcause == 7 && (u.tile 0).xval == 0x8010 && u.tilUnc == 1) = true := by decide +kernel

theorem test_stores : ([.std 0 1 16 8, .stw 0 1 16 8, .sth 0 1 16 8, .stb 0 1 16 0x7000] : List Instr).all (fun i =>
    match spadAccess i with
    | some (_, n, rd, a, imm, _) =>
      let off := (regs.reg a + imm.signExtend 64).toNat
      passes (exec i (live regs)) (fun u => (u.tile 0).scratch.readN off n == leBytes n (regs.reg rd).toNat &&
        (u.tile 0).scratch.read (off + n) == 0 && (u.tile 0).pc == 0x8004 && (u.tile 0).retired == 1)
    | none => false) = true := by decide +kernel

/-- The last byte a tenant may reach, and the first it may not (R45); misaligned in reach (R36). -/
theorem test_access_traps :
    (passes (exec (.ldb 0 9 18 0x7006) (live (stored.setReg 18 0xB7FF9))) (fun u => (u.tile 0).pc == 0x8004) &&
     goes (exec (.ldb 0 9 18 0x7007) (live (stored.setReg 18 0xB7FF9)))
       (withTile (live (stored.setReg 18 0xB7FF9)) 0 (entered (stored.setReg 18 0xB7FF9) 6 0 0xBF000)) &&
     goes (exec (.std 0 9 16 4) (live stored)) (withTile (live stored) 0 (entered stored 5 0 0x8014))) = true := by decide +kernel

theorem test_control_registers :
    (([0, 1, 2, 3, 4, 5, 6, 7, 8, 9, 10, 11, 12, 13, 14, 15] : List (BitVec 4)).all (fun k =>
      goes (exec (.crr 0 9 k) (live handler)) (ran (live handler) 0 (handler.setReg 9 (controlWord (live handler) 0 k)) 0x8004)) &&
     ([1, 2, 3, 4, 5, 6, 7, 8, 9, 10, 11, 12, 13, 14, 15] : List (BitVec 4)).all (fun k =>
      goes (exec (.crw 0 1 k) (live handler)) (ran (live handler) 0 (controlWritten handler k (handler.reg 1)) 0x8004)) &&
     goes (exec (.crw 0 2 0) (live handler)) (ran (live handler) 0 (controlWritten handler 0 3) 0x8004) &&
     goes (exec (.crr 0 9 7) (live regs)) (ran (live regs) 0 (regs.setReg 9 0) 0x8004) &&
     goes (exec (.crw 0 9 14) (live regs)) (ran (live regs) 0 (controlWritten regs 14 0) 0x8004) &&
     goes (exec (.layr 0 9) (live regs)) (ran (live regs) 0 regs 0x8004)) = true := by decide +kernel

/-- The word of CST: FRM 1, DEP 2, PL 1 (R34). -/
theorem test_cst_word : controlWord (live handler) 0 0 = 0x51 := by decide +kernel

/-- The example of 02: the sixth call's handler spills group (5 + 2) mod 7 = 0 at 0xB_F000, SPP becomes 0xB_F040 and DEP 5. -/
theorem test_spill_example : passes (exec (.spill 0) (live window7)) (fun u =>
    (u.tile 0).spp == 0xBF040 && (u.tile 0).xcst.dep == 5 && (u.tile 0).pc == 0x8004 &&
    (u.tile 0).scratch.readN 0xBF000 16 == [0x10, 0x80, 0, 0, 0, 0, 0, 0, 70, 0, 0, 0, 0, 0, 0, 0]) = true := by decide +kernel

/-- FILL after that SPILL puts the group back one window below. -/
theorem test_fill : passes (exec (.spill 0) (live window7)) (fun u => passes (exec (.fill 0) u) (fun v =>
    (v.tile 0).spp == 0xBF000 && (v.tile 0).xcst.dep == 6 && (v.tile 0).groups.toList.getD 32 0 == 0x8010 &&
    (v.tile 0).groups.toList.getD 33 0 == 70)) = true := by decide +kernel

def fwArgs : Tile := ((core.setReg 24 0x500).setReg 25 0x8100).setReg 26 7

theorem test_firmware_calls :
    (goes (exec (.trapi 0 3) (live regs)) (ran (live regs) 0 (fwReturned regs 3 0xFFFFFFFFFFFFFFFF) 0x8004) &&
     goes (exec (.phaseReleaseArm 0) (live regs)) (ran (live regs) 0 (fwReturned regs 0x10 2) 0x8004) &&
     passes (exec (.phaseReleaseArm 0) (live fwArgs)) (fun u =>
       (u.part 0).cal == [(0x500, 0, false, PCal.phase fwArgs.key 0x8100 7)] && (u.tile 0).reg 24 == 0 &&
       (u.tile 0).xcause == 0x100E && (u.tile 0).pc == 0x8004) &&
     passes (exec (.trapi 0 0x10) (live fwArgs)) (fun u => u.lay.armNo == 1)) = true := by decide +kernel

theorem test_phase_calendar_full : passes (exec (.phaseReleaseArm 0) { live fwArgs with
    parts := [(0, { Part.fresh 15 with cal := List.replicate 12 (5, 0, false, PCal.phase ⟨0, 0⟩ 0 0) })] })
    (fun u => u.lay.fullCnt == 1 && (u.tile 0).reg 24 == 1) = true := by decide +kernel

/-- A job of the tiles 0 and 1 on partition 0. -/
def job01 : Job := ⟨1, 1, 0x8000, [], [0], [], [0, 1], 0, [], none, [], none, 0⟩

/-- The same with a started descriptor, and tile 1 running beside tile 0. -/
def withJob (x : Tile) (j : Job) : State :=
  { live x with tiles := [(0, x), (1, { x with pc := 0x8100 })], jobs := [(⟨0, 0⟩, j)],
                descs := [(⟨0, 0⟩, { bytes := [], tenant := 1, cq := 1, ready := true, late := false, busy := true, gone := false,
                                     wiped := false, aux := 0, pasid := none })],
                parts := [(0, { Part.fresh 15 with psw := { Psw.fresh with state := .active, tenant := 1 }, jobs := [⟨0, 0⟩],
                                                    arm := some ⟨List.range 70, [], 1⟩ })] }

theorem test_done : (core.doneReady && passes (exec (.done 0) (withJob core job01)) (fun u =>
      !(u.tile 0).running && u.job? ⟨0, 0⟩ == some { job01 with finished := [0] } && (u.tile 1).running) &&
    passes (exec (.done 0) (withJob core { job01 with finished := [1] })) (fun u =>
      u.job? ⟨0, 0⟩ == none && (u.psw 0).state == .idle && u.desc? ⟨0, 0⟩ == none) &&
    goes (exec (.done 0) (withJob { core with vq := [⟨.smax, 0, 0, 0, 0, 0, []⟩] } job01))
      (withTile (withJob { core with vq := [⟨.smax, 0, 0, 0, 0, 0, []⟩] } job01) 0
        { core with vq := [⟨.smax, 0, 0, 0, 0, 0, []⟩], wait := .done })) = true := by decide +kernel

theorem test_halt : passes (exec (.halt 0) (withJob { core with cst := ⟨0, 1, true, false⟩ } job01)) (fun u =>
    (u.tile 0).halted && (u.job? ⟨0, 0⟩).map (fun j => (j.fault, j.resets.length, j.resets.contains 1)) == some (some 0, 70, true) &&
    u.rst.nextSeq == 1) = true := by decide +kernel

theorem test_faulted_job_ends : passes (exec (.tileFaultJobEnd ⟨0, 0⟩) (withJob core { job01 with fault := some 3 })) (fun u =>
    u.job? ⟨0, 0⟩ == none && u.desc? ⟨0, 0⟩ == none) = true := by decide +kernel

def global : Tile := (core.setReg 16 0x10).setReg 17 0x2000000000000010

theorem test_global_reads : ([.gld 0 9 16, .atomSwap 0 9 1 16 2, .atomAdd 0 9 1 16 2, .atomCas 0 9 1 16 2,
    .atomMax 0 9 1 16 2, .atomMin 0 9 1 16 2] : List Instr).all (fun i =>
    match globalRead (live global) i with
    | some (_, rd, a, typ, kind, pl) =>
      let p := request (live global) 0 0 typ a (if typ = 3 then 24 else 8) pl
      freeTag global.reads == some 0 && !(live global).targetOff a && !(live global).held a &&
      goes (exec i (live global)) (sent (withTile (live global) 0 { global with
        reads := [(0, ⟨a, 0, false, 0x8000, kind, false, p, 0, none⟩)], wait := .reply rd 0 }) [.packet p])
    | none => false) = true := by decide +kernel

theorem test_global_stores :
    (goes (exec (.gst 0 17 1) (live global)) (ran (sent (live global) [.packet (request (live global) 0 0 2 0x2000000000000010 8
        [0, 0, 0, 0, 0, 0, 0, 0])]) 0 global 0x8004) &&
     passes (exec (.gst 0 16 1) (live global)) (fun u => (u.tile 0).writes.length == 1 && u.out.length == 1 &&
        (u.tile 0).pc == 0x8004)) = true := by decide +kernel

/-- A transfer of one row by the engine of the tile: source, destination, bytes. -/
def moves (src dst : Word) (len : Nat) : Xfer := ⟨src, dst, len, 1, 0, 0, false, false, true, 0, 0, [], none⟩

/-- A descriptor at 0x8020: 16 bytes from a source to a destination. -/
def dmaTile (src dst : Word) : Tile := (core.setReg 16 0x8020).store 0x8020
  (leBytes 8 src.toNat ++ leBytes 8 dst.toNat ++ leBytes 4 16 ++ leBytes 2 1 ++ leBytes 2 0 ++ leBytes 8 0)

def own9000 : Word := 0x10000009000

theorem test_dma_go :
    (passes (exec (.dmaGo 0 9 16) (withJob (dmaTile own9000 0x1000000A000) job01)) (fun u =>
      (u.tile 0).handles.toList.getD 0 .free == .running (moves own9000 0x1000000A000 16) &&
      (u.tile 0).reg 9 == 0 && (u.tile 0).pc == 0x8004 && u.out == []) &&
     passes (exec (.dmaGo 0 9 16) (withJob (dmaTile 0x40 own9000) job01)) (fun u =>
      (u.tile 0).handles.toList.getD 0 .free == .running { moves 0x40 own9000 16 with asked := 1 } &&
      u.out == [.packet (request (withJob core job01) 0 0 0 0x40 16 [])] && (u.tile 0).reads.length == 1) &&
     passes (exec (.dmaGo 0 9 0) (live { core with cst := ⟨0, 1, false, false⟩ })) (fun u =>
      (u.tile 0).handles.toList.getD 0 .free == .completed 1 && (u.tile 0).pc == 0x8004 && (u.tile 0).event == 4)) = true := by
  decide +kernel

/-- With no handle free the core stalls while one runs; with all eight completed it traps (R55). -/
theorem test_dma_no_handle :
    (passes (exec (.dmaGo 0 9 0) (live { core with handles := (Vector.replicate 8 (.completed 0)).setIfInBounds 2 (.running (moves 0 0 1)) }))
       (fun u => (u.tile 0).pc == 0x8000 && (u.tile 0).xcause == 0) &&
     passes (exec (.dmaGo 0 9 0) (live { core with handles := Vector.replicate 8 (.completed 0) })) (fun u =>
       (u.tile 0).xcause == 0x10A)) = true := by decide +kernel

/-- With events enabled the failing transfer sets EVENT[2], and the tile event is taken after DMA.GO has retired (R34, R36). -/
theorem test_dma_event : passes (exec (.dmaGo 0 9 0) (live core)) (fun u => (u.tile 0).pc == 0x200 && (u.tile 0).xpc == 0x8004 &&
    (u.tile 0).xcause == 0x10 && (u.tile 0).retired == 1) = true := by decide +kernel

def handleOf (h : Handle) : Tile := { (core.setReg 16 2) with handles := (Vector.replicate 8 Handle.free).setIfInBounds 2 h }

theorem test_dma_handles :
    ([.dmaWait 0 9 16, .dmaTest 0 9 16] : List Instr).all (fun i =>
      goes (exec i (live (handleOf (.completed 0)))) (ran (live (handleOf (.completed 0))) 0 (handleOf .free) 0x8004) &&
      goes (exec i (live (handleOf .free))) (ran (live (handleOf .free)) 0 ((handleOf .free).setReg 9 6) 0x8004) &&
      goes (exec i (live ((handleOf .free).setReg 16 8))) (withTile (live ((handleOf .free).setReg 16 8)) 0
        (entered ((handleOf .free).setReg 16 8) 10 2 0x8000))) = true := by decide +kernel

theorem test_dma_running : (passes (exec (.dmaTest 0 9 16) (live (handleOf (.running (moves 0 0 1))))) (fun u =>
      (u.tile 0).reg 9 == 0xFF && (u.tile 0).pc == 0x8004) &&
    passes (exec (.dmaWait 0 9 16) (live (handleOf (.running (moves 0 0 1))))) (fun u =>
      (u.tile 0).wait == .dmaWait 9 2 && (u.tile 0).pc == 0x8000)) = true := by decide +kernel

def busyTile : Tile :=
  { ((core.setReg 16 0x8100).setReg 17 5) with
    vq := [⟨.smax, 0, 0, 0, 0, 0, []⟩]
    wto := 100
    tq := [⟨.tmm, 0, 0, 0, 0, 0, [], none, none⟩]
    handles := (Vector.replicate 8 Handle.free).setIfInBounds 2 (.running (moves 0 0 1)) }

theorem test_core_waits_hold :
    (goes (exec (.fence 0) (live busyTile)) (withTile (live busyTile) 0 { busyTile with wait := .fence }) &&
     goes (exec (.bar 0) (live busyTile)) (withTile (live busyTile) 0 { busyTile with bars := 1, wait := .bar }) &&
     goes (exec (.twait 0 0) (live busyTile)) (withTile (live busyTile) 0 { busyTile with wait := .twait 0 }) &&
     goes (exec (.vwait 0 0) (live busyTile)) (withTile (live busyTile) 0 { busyTile with wait := .vwait 0 }) &&
     goes (exec (.layw 0 9 17) (live busyTile)) (withTile (live busyTile) 0 { busyTile with wait := .layw 5 9 }) &&
     goes (exec (.waitvEq 0 9 16 17) (live busyTile)) (withTile (live busyTile) 0
       { busyTile with wait := .waitv false 0x8100 5 9 (some 100) false }) &&
     goes (exec (.waitvGe 0 9 16 17) (live busyTile)) (withTile (live busyTile) 0
       { busyTile with wait := .waitv true 0x8100 5 9 (some 100) false })) = true := by decide +kernel

theorem test_core_waits_pass :
    (goes (exec (.fence 0) (live core)) (ran (live core) 0 core 0x8004) &&
     goes (exec (.twait 0 17) (live busyTile)) (ran (live busyTile) 0 busyTile.seeT 0x8004) &&
     goes (exec (.vwait 0 17) (live busyTile)) (ran (live busyTile) 0 busyTile.seeV 0x8004) &&
     goes (exec (.layw 0 9 0) (live busyTile)) (ran (live busyTile) 0 busyTile 0x8004) &&
     goes (exec (.waitvEq 0 9 16 0) (live busyTile)) (ran (live busyTile) 0 busyTile 0x8004) &&
     goes (exec (.waitvGe 0 9 16 1) (live (busyTile.setReg 1 0xFFFFFFFFFFFFFFFF)))
       (ran (live (busyTile.setReg 1 0xFFFFFFFFFFFFFFFF)) 0 (busyTile.setReg 1 0xFFFFFFFFFFFFFFFF) 0x8004)) = true := by
  decide +kernel

theorem test_waits_end :
    (goes (exec (.waitvWake 0) (live { busyTile with wait := .waitv true 0x8100 0 9 none false }))
       (ran (live busyTile) 0 busyTile 0x8004) &&
     goes (exec (.waitvWake 0) (live { busyTile with wait := .waitv false 0x8100 5 9 none true }))
       (ran (live busyTile) 0 busyTile 0x8004) &&
     goes (exec (.waitvTimeout 0) (live { busyTile with wait := .waitv false 0x8100 5 9 (some 0) false }))
       (ran (live busyTile) 0 (busyTile.setReg 9 1) 0x8004) &&
     goes (exec (.laywWake 0) (live { busyTile with wait := .layw 0 9 })) (ran (live busyTile) 0 busyTile 0x8004)) = true := by
  decide +kernel

theorem test_barrier : ((withJob { core with wait := .bar, bars := 1 } job01).barMet ⟨0, 0⟩ job01 &&
    passes (exec (.barRelease ⟨0, 0⟩) (withJob { core with wait := .bar, bars := 1 } job01)) (fun u =>
      (u.tile 0).pc == 0x8004 && (u.tile 1).pc == 0x8104 && (u.tile 1).wait == .none &&
      u.job? ⟨0, 0⟩ == some { job01 with barriers := 1 })) = true := by decide +kernel

theorem test_scrub : passes (exec (.scratchpadScrub 0 []) (withJob { core with upsets := [(3, false), (200, false)] } job01)) (fun u =>
    (u.tile 0).upsets == [(200, false)] && (u.tile 0).scrubPos == 1024 && u.tilCorr == 1) = true := by decide +kernel

theorem test_dma_complete :
    (passes (exec (.dmaComplete 0 0 2) (withJob { handleOf (.running (moves own9000 0x1000000A000 2)) with
        cst := ⟨0, 1, false, false⟩, scratch := [(0x9001, 7)] } job01)) (fun u =>
      (u.tile 0).handles.toList.getD 2 .free == .completed 0 && (u.tile 0).scratch == [(0x9001, 7), (0xA001, 7)]) &&
     passes (exec (.dmaComplete 0 0 2) (withJob { handleOf (.running { moves 0x40 0x80 2 with failed := some 5 }) with
        cst := ⟨0, 1, false, false⟩ } job01)) (fun u =>
      (u.tile 0).handles.toList.getD 2 .free == .completed 5 && (u.tile 0).event == 4 && u.out == [])) = true := by
  decide +kernel

def waitingEntry : Outst := ⟨0x40, 0, false, 0x8000, 0, true, request (live core) 0 5 0 0x40 8 [], 0, none⟩

theorem test_retry_resend :
    (passes (exec (.retryResend (.tile 0) 5 false) (live { core with reads := [(5, waitingEntry)] })) (fun u =>
      u.out == [.packet waitingEntry.pkt] && (u.tile 0).reads == [(5, { waitingEntry with retry := false })]) &&
     passes (exec (.retryResend (.tile 0) 5 true) (live { core with writes := [(5, waitingEntry)] })) (fun u =>
      u.out == [.packet waitingEntry.pkt])) = true := by decide +kernel

def inbound (typ : BitVec 4) (ten : BitVec 7) (pl : List Byte) : Packet :=
  { request (live core) 1 0 typ 0x10000008010 (if typ = 0 then 8 else pl.length) pl with tenant := ten }

theorem test_tile_port :
    (passes (exec (.tilePortInbound 0 (inbound 1 0 [1, 2, 3])) (withJob core job01)) (fun u =>
      (u.tile 0).scratch.readN 0x8010 4 == [1, 2, 3, 0] && u.out == [.packet ((inbound 1 0 [1, 2, 3]).replyTo 0 [])]) &&
     passes (exec (.tilePortInbound 0 (inbound 2 0 [1])) (withJob core job01)) (fun u => (u.tile 0).scratch.read 0x8010 == 1 && u.out == []) &&
     passes (exec (.tilePortInbound 0 (inbound 0 0 [])) (withJob (core.store 0x8010 [9]) job01)) (fun u =>
      u.out == [.packet ((inbound 0 0 []).replyTo 0 [9, 0, 0, 0, 0, 0, 0, 0])]) &&
     passes (exec (.tilePortInbound 0 (inbound 3 0 (leBytes 8 5 ++ leBytes 8 0 ++ leBytes 8 1))) (withJob (core.store 0x8010 [9]) job01))
      (fun u => (u.tile 0).scratch.read 0x8010 == 14) &&
     passes (exec (.tilePortInbound 0 (inbound 1 9 [1])) (withJob core job01)) (fun u =>
      (u.tile 0).scratch == [] && u.out == [.packet ((inbound 1 9 [1]).replyTo 3 [])] && u.rst.nextSeq == 1)) = true := by decide +kernel

/-! ### 03 The units, and 09 fused collectives -/

def tIssue : List Instr := [.tmm 0 1, .tmmAg 0 1 2, .tanc 0 1 2, .tmmxRs 0 0 1 2 3 4, .tmmxAr 0 0 1 2 3 4, .tmmxAg 0 0 1 2 3 4,
  .tmmxA2a 0 0 1 2 3 4]

def vIssue : List Instr := [.vadd 0 0 1 2 3 4, .vsub 0 1 1 2 3 4, .vmul 0 2 1 2 3 4, .vfma 0 0 1 2 3 4, .vmax 0 0 1 2 3 4,
  .vmin 0 0 1 2 3 4, .vscl 0 0 1 2 3 4, .vexp 0 1 1 2 4, .vrcp 0 0 1 2 4, .vrsq 0 0 1 2 4, .vrsum 0 2 1 2 4, .vrmax 0 0 1 2 4,
  .vsmax 0 1 2 4, .vrmsn 0 1 2 3 4, .vcvt 0 9 1 2 4, .vbse 0 7 1 2 3 4, .vbsd 0 0x21 1 2 3 4, .vwsanc 0 1 2 4, .vwsenc 0 1 2 3 4,
  .vwsaln 0 1 2 4, .vwsadd 0 1 2 4, .vwsrnd 0 true 1 2 4, .vwsamx 0 1 2 4]

theorem test_unit_issue :
    (tIssue.all (fun i => match unitEntry (live regs) i with
      | some (_, .inl q) => passes (exec i (live regs)) (fun u => (u.tile 0).tq == [q] && (u.tile 0).pc == 0x8004)
      | _ => false) &&
     vIssue.all (fun i => match unitEntry (live regs) i with
      | some (_, .inr q) => passes (exec i (live regs)) (fun u => (u.tile 0).vq == [q] && (u.tile 0).pc == 0x8004)
      | _ => false) &&
     passes (exec (.vsmax 0 1 2 4) (live { regs with vq := List.replicate 8 ⟨.smax, 0, 0, 0, 0, 0, []⟩ })) (fun u => (u.tile 0).pc == 0x8000) &&
     passes (exec (.vadd 0 3 1 2 3 4) (live regs)) (fun u => (u.tile 0).pc == 0x60) &&
     passes (exec (.vcvt 0 10 1 2 4) (live regs)) (fun u => (u.tile 0).pc == 0x60)) = true := by decide +kernel

/-- One row of 32 FP4 weights at 0x9000 (the first is 1.0), one of E4M3 activations at 0xA000 (the first is 2.0), their scales
(2⁰) at 0x9100 and 0xA100, an FP32 result at 0xB000. -/
def mulDesc : List Byte := leBytes 4 0x9000 ++ leBytes 4 0x9100 ++ leBytes 4 0xA000 ++ leBytes 4 0xA100 ++ leBytes 4 0xB000 ++ leBytes 4 0 ++
  leBytes 2 1 ++ leBytes 2 1 ++ leBytes 4 32 ++ [3, 6, 0x10, 0] ++ leBytes 4 64 ++ leBytes 4 64 ++ leBytes 4 64 ++ List.replicate 16 0

def mulEntry (op : TOp) (req : Option (Nat × Nat)) : TEntry := ⟨op, 0x8100, 0x8040, 0x8040, 0, 0, [], req, none⟩

def mulTile (op : TOp) (req : Option (Nat × Nat)) : Tile :=
  { ((((core.store 0x8040 mulDesc).store 0x9000 [0x02]).store 0xA000 [0x40]).store 0x9100 [127]).store 0xA100 [127] with tq := [mulEntry op req] }

def charged (c : Nat) (x : Tile) : State := { live x with parts := [(0, { Part.fresh 15 with charge := c, tcAcc := 64000 })] }

theorem test_charge_request :
    (passes (exec (.chargeRequest 0) (charged 40 (mulTile .tmm none))) (fun u => (u.tile 0).tq == [mulEntry .tmm (some (64, 100))]) &&
     passes (exec (.chargeRequest 0) (charged 40 (mulTile .tanc none))) (fun u => (u.tile 0).tq == [mulEntry .tanc (some (0, 100))])) = true := by
  decide +kernel

/-- 1.0 × 2.0: the start holds the result back, the finish writes FP32 2.0 = 0x4000_0000. -/
theorem test_tensor_start_finish :
    (passes (exec (.tensorStart 0) (charged 72 (mulTile .tmm (some (64, 0))))) (fun u =>
       (u.part 0).charge == 8 && (u.tile 0).scratch.readN 0xB000 4 == [0, 0, 0, 0] &&
       passes (exec (.tensorFinish 0) u) (fun v => (v.tile 0).scratch.readN 0xB000 4 == [0, 0, 0, 0x40] && (v.tile 0).tq == [] &&
         (v.tile 0).tAst.length == 1)) &&
     passes (exec (.halfRateStart 0) (charged 40 (mulTile .tmm (some (64, 0))))) (fun u =>
       (u.part 0).halfStarts == 1 && (u.part 0).charge == 40 && ((u.tile 0).tq.map (fun e => (e.run.map (·.half)).getD false)) == [true]) &&
     passes (exec (.tensorStart 0) (charged 40 { mulTile .tanc (some (0, 0)) with tq := [{ mulEntry .tanc (some (0, 0)) with a := 0xB000 }] }))
       (fun u => passes (exec (.tensorFinish 0) u) (fun v => v.out == [] && (v.tile 0).tq == []))) = true := by decide +kernel

/-- 1.0 + 2.0 = 3.0 over two words; the queue's fault for a count of 0 has code 0x01. -/
def addTile (n : Word) : Tile :=
  { core.store 0x9000 [0, 0, 0x80, 0x3F, 0, 0, 0, 0x40] with vq := [⟨.add 0, 0x8100, 0xA000, 0x9000, 0x9004, n, []⟩] }

theorem test_vector_finish :
    ((addTile 1).vq.all (fun e => e.check == none) &&
     passes (exec (.vectorFinish 0) (live { addTile 1 with vq := [⟨.max 0, 0x8100, 0xA000, 0x9000, 0x9004, 1, []⟩] })) (fun u =>
      (u.tile 0).vq == []) &&
     passes (exec (.vectorFinish 0) (live { addTile 0 with wait := .bar })) (fun u =>
      (u.tile 0).vfault == some (1, 0x8100, 0) && (u.tile 0).vq == [])) = true := by decide +kernel

theorem test_exact_values : ((f32add 0x3F800000 0x40000000 == (0x40400000, 0)) && f32mul 0x3FC00000 0x3FC00000 == (0x40100000, 0) &&
    (f32add 0x7F7FFFFF 0x7F7FFFFF).1 == 0x7F800000) = true := by decide +kernel

/-- A team of two tiles of this chip, number 5, of tenant 1. -/
def team5 : Team := { tenant := 1, num := 5, relay := false, chips := [0], tlist := [0, 1], n := 2, mcIdx := 0, lmask := 0, ckts := [],
                      aborted := none }

def colOf (typ : BitVec 4) (kind slot off : Nat) (pl : List Byte) : Packet :=
  { inbound typ 0 pl with ext := 3, exts := [colExt 5 kind 7 slot 3 off 0] }

/-- Tile 0 is open on step 7 of team 5 with chunk (1, 3) in flight. -/
def openRun (r : TRun) : TRun := { r with opened := true, team := 5, step := 7, rank := 0, n := 2, flying := [(1, 3)], tdesc := mulDesc,
                                          phase := 4, due := some 0 }

def openTile : Tile := { core with tenant := 1, tq := [⟨.rs, 0x8100, 0, 0, 7, 5, [], none, some (openRun (TRun.plain false 0 [] 0))⟩] }

def slot9 : Slot := ⟨1, 5, 7, 0, 0, 3, 0, 0, [0], [], 0, none, 128⟩

def teamState (x : Tile) : State :=
  { withJob x job01 with staging := { Staging.fresh with teams := [team5], slots := [(9, slot9)] }, now := 1600000 }

theorem test_slot_req : passes (exec (.slotReq (colOf 11 1 0 0 (slotPayload 1 0 3 1 0))) (teamState openTile)) (fun u =>
    u.staging.reqs == [⟨colOf 11 1 0 0 (slotPayload 1 0 3 1 0), 1, 5, 7, 1, 0, 3, 0⟩] &&
    passes (exec (.grant 0) u) (fun v => v.staging.reqs == [] && (SMap.find? v.staging.slots 0).isSome && v.staging.lastTile == 0 &&
      v.out.length == 1)) = true := by decide +kernel

theorem test_chunk_life :
    (passes (exec (.chunk (colOf 8 0 9 1 [1, 2])) (teamState openTile)) (fun u =>
       u.staging.slots == [(9, { slot9 with image := [(64, [1, 2])], first := some 1600000 })]) &&
     passes (exec (.checked (colOf 12 3 0 0 (slotPayload 0 1 3 1 0))) (teamState openTile)) (fun u =>
       ((u.tile 0).openRun.map (fun x => x.2.flying)) == some []) &&
     passes (exec (.resend (colOf 12 4 0 0 (slotPayload 0 1 3 1 0))) (teamState openTile)) (fun u =>
       ((u.tile 0).openRun.map (fun x => (x.2.flying, x.2.asked.length))) == some ([], 1)) &&
     passes (exec (.slotTimeout 9) (teamState openTile)) (fun u => u.staging.slots == [] && u.staging.checkFail == 1 && u.out.length == 1) &&
     passes (exec (.abort (colOf 12 5 0 0 [1, 0x24, 0, 0, 1, 0, 0, 0])) (teamState openTile)) (fun u =>
       u.staging.slots == [] && u.openTiles 1 5 7 == [])) = true := by decide +kernel

def doneRun : TRun := { openRun (TRun.plain false 0 [] 0) with flying := [] }

theorem test_fused_ends :
    (passes (exec (.fusedFinish 0) (teamState { openTile with tq := [⟨.ag, 0x8100, 0, 0, 7, 5, [], none, some doneRun⟩] })) (fun u =>
       (u.tile 0).tq == [] && (u.tile 0).tAst.length == 1 && u.out == []) &&
     passes (exec (.fusedTimeout 0) (teamState { openTile with wait := .bar })) (fun u =>
       (u.tile 0).tq == [] && (u.tile 0).tfault == some (0x25, 0x8100, 0, true))) = true := by decide +kernel

/-! ### 04 Stacked memory and the pointing engine -/

/-- The example of R107 to R109: band 20 interleaved. -/
theorem test_address_mapping : (memMap (2 ^ 20) 0x3C00123A40 == (3, 0x500018A40) && pcOf 0x500018A40 == 20 && bankOf 0x500018A40 == 1 &&
    rowOfL 0x500018A40 == 10240 && memMap 0 0x3C00123A40 == (0, 0x500123A40)) = true := by decide +kernel

/-- Stack 0 with 8 bytes at L = 0x40, written under key 7; tag 0 has key 7. -/
def stack7 : Stack := { Stack.fresh with mem := Memory.writeN [] 0x40 [1, 2, 3, 4, 5, 6, 7, 8], keyOf := [(1, 7)] }

def stackState (k : Stack) (st : PState) : State :=
  { live core with stks := [(0, k)], sec := { State.reset.sec with keys := [(0, 7)] },
                   parts := [(0, { Part.fresh 15 with psw := { Psw.fresh with state := st }, arm := some ⟨List.range 70, [], 1⟩ })] }

def memReq (typ : BitVec 4) (a : Word) (len : Nat) (pl : List Byte) : Packet :=
  { addr := a, ver := 1, typ := typ, phase := 0, nonmin := false, ext := 0, plen := BitVec.ofNat 13 len, tenant := 0, srcChip := 0,
    rid := 5, exts := [], payload := pl, tail := .good }

def line1 : List Byte := List.replicate 64 0xAA

theorem test_stack_request :
    (passes (exec (.stackRequest 0 (memReq 0 0x40 8 [])) (stackState stack7 .idle)) (fun u =>
       (u.stack 0).queue == [⟨memReq 0 0x40 8 [], 7, false, 0⟩] && u.out == []) &&
     passes (exec (.stackRequest 0 (memReq 1 0x40 64 line1)) (stackState stack7 .idle)) (fun u =>
       (u.stack 0).queue == [⟨memReq 1 0x40 64 line1, 7, true, 0⟩] && u.out == [.packet ((memReq 1 0x40 64 line1).replyTo 0 [])]) &&
     [(memReq 0 0x40 8 [], PState.fenced, 6), (memReq 0 0x40 8 [], .off, 5), ({ memReq 0 0x40 8 [] with tenant := 3 }, .idle, 3),
      (memReq 0 0x8D3FF00000 8 [], .idle, 3)].all (fun c =>
       passes (exec (.stackRequest 0 c.1) (stackState stack7 c.2.1)) (fun u =>
         u.out == [.packet (c.1.replyTo c.2.2 [])] && (u.stack 0).queue == []))) = true := by decide +kernel

def served (k : Stack) (p : Packet) (acked : Bool) (f : State → Bool) : Bool :=
  passes (exec (.stackAccess 0 []) (stackState { k with queue := [⟨p, 7, acked, 0⟩] } .idle)) (fun u => (u.stack 0).queue == [] && f u)

theorem test_stack_access :
    (served stack7 (memReq 0 0x42 2 []) false (fun u => u.out == [.packet ((memReq 0 0x42 2 []).replyTo 0 [3, 4])]) &&
     served stack7 (memReq 1 0x42 2 [9, 9]) false (fun u => u.out == [.packet ((memReq 1 0x42 2 [9, 9]).replyTo 0 [])] &&
       (u.stack 0).mem.readN 0x40 8 == [1, 2, 9, 9, 5, 6, 7, 8]) &&
     served stack7 (memReq 1 0x40 64 line1) true (fun u => u.out == [] && (u.stack 0).mem.readN 0x40 64 == line1) &&
     served stack7 (memReq 4 0x42 0 (leBytes 8 0x5000 ++ leBytes 4 2 ++ leBytes 4 0)) false (fun u =>
       u.out == [.packet (memReq 5 0x5000 2 [3, 4])]) &&
     served stack7 (memReq 3 0x40 24 (leBytes 8 1 ++ leBytes 8 0 ++ leBytes 8 1)) false (fun u =>
       u.out.length == 1 && (u.stack 0).mem.readN 0x40 2 == [2, 2])) = true := by decide +kernel

theorem test_stack_poison :
    (served { stack7 with poison := [1] } (memReq 0 0x42 2 []) false (fun u => u.out == [.packet ((memReq 0 0x42 2 []).replyTo 4 [])]) &&
     served { stack7 with poison := [1] } (memReq 1 0x42 2 [9, 9]) false (fun u => (u.stack 0).mem == stack7.mem && u.out.length == 1) &&
     served { stack7 with poison := [1] } (memReq 1 0x40 64 line1) true (fun u => (u.stack 0).poison == [])) = true := by decide +kernel

def waiting1 : Stack := { stack7 with queue := [⟨memReq 0 0x40 8 [], 7, false, 0⟩] }

theorem test_stack_waits :
    (passes (exec (.stackAccess 0 []) (stackState { waiting1 with selfRef := true } .parked))
       (fun u => (u.stack 0).queue.length == 1 && u.out == []) &&
     passes (exec (.stackAccess 0 []) (stackState { waiting1 with badRows := [(2, 0x80000000)] } .idle)) (fun u => (u.stack 0).queue.length == 1 && u.out == [])) = true := by decide +kernel

/-- Row 5 of bank 3 listed in entry 18 (pseudo-channel 1, spare 2), not remapped; AUTO_REMAP is 1 at reset. -/
def listed : Stack := { stack7 with badRows := [(18, 0x80018005)] }

theorem test_stack_upkeep :
    (passes (exec (.patrolScrub 0 .correctable) (stackState { stack7 with scrubPos := 0xBFFFFFFC0 } .idle)) (fun u =>
       (u.stack 0).corrected == 1 && (u.stack 0).scrubPos == 0 && (u.stack 0).mem == stack7.mem) &&
     passes (exec (.rowRemap 0 18 [3]) (stackState listed .idle)) (fun u => SMap.get 0 (u.stack 0).badRows 18 == 0x80518005) &&
     passes (exec (.autoRemap 0x1818 []) ((stackState listed .idle).setReg offMemCfg 0x1818 0x818)) (fun u =>
       SMap.get 0 (u.stack 0).badRows 18 == 0x80418005 && u.autoRemap) &&
     passes (exec (.stackTempRead 0 (some 341)) (stackState stack7 .idle)) (fun u => (u.stack 0).hot && (u.stack 0).tempC == 85) &&
     passes (exec (.stackTempRead 0 (some 328)) (stackState { stack7 with hot := true } .idle)) (fun u => !(u.stack 0).hot) &&
     passes (exec (.stackTempRead 0 (some 340)) (stackState { stack7 with hot := true } .idle)) (fun u => (u.stack 0).hot) &&
     passes (exec (.stackTempRead 0 none) (stackState { stack7 with sensFails := 2 } .idle)) (fun u => (u.stack 0).hot) &&
     passes (exec (.refresh 0 7) { stackState stack7 .idle with now := 9 }) (fun u => (u.stack 0).refreshed == [(7, 9)]) &&
     passes (exec (.selfRefreshExit 0) (stackState { stack7 with selfRef := true, queue := [⟨memReq 0 0x40 8 [], 7, false, 0⟩] } .parked))
       (fun u => !(u.stack 0).selfRef) &&
     passes (exec (.selfRefreshEntry 0) { stackState stack7 .parked with now := 80000 }) (fun u => (u.stack 0).selfRef)) = true := by
  decide +kernel

/-- The codebook of VQ-3.0 whose entry 1 is the bytes 0x21, 0x43. -/
def book3 : List Byte := [0, 0, 0x21, 0x43] ++ List.replicate 0x1FFC 0

/-- An expansion of 7 weights: indices 1 and 0, three bytes and a half. -/
def expandTo : Stream := ⟨4, 0, 2, false, 2, 1, 9, 0, 0x40, 0, 7, 4, 1, false, 4, 0⟩

def streaming (x : Stream) (b : Bank) : State :=
  { (stackState { stack7 with mem := Memory.writeN [] 0x40 [1, 0, 0], streams := [x], banks := #v[.empty, b] } .idle) with
    tiles := [(0, { handleOf (.running { moves 0x40 own9000 x.len with pe := true, written := if x.active then 1 else 0 }) with
      cst := ⟨0, 1, false, false⟩ })] }

theorem test_streams :
    (expandBytes 2 (book3.take 4) [1, 0, 0] 0 2 7 == [0x21, 0x43, 0, 0] &&
     passes (exec (.expand 0 4 []) (streaming expandTo ⟨2, 2, 9, 0, book3.take 4⟩)) (fun u =>
       (u.stack 0).streams == [{ expandTo with active := true }] && (u.tile 0).scratch.readN 0x9000 4 == [0x21, 0x43, 0, 0]) &&
     passes (exec (.expand 0 4 []) (streaming expandTo .empty)) (fun u =>
       (u.stack 0).streams == [] && (u.stack 0).lastErr == 4 && (u.tile 0).handles.toList.getD 2 .free == .completed 5) &&
     passes (exec (.streamEnd 0 4) (streaming { expandTo with active := true } .empty)) (fun u =>
       (u.stack 0).streams == [] && (u.tile 0).handles.toList.getD 2 .free == .completed 0)) = true := by decide +kernel

/-- A load of the VQ-3.0 codebook at 0 into bank 0: 8 KiB, all of it zero but for 8 bytes. -/
def loadTo : Stream := ⟨4, 0, 2, true, 2, 0, 9, 0, 0, 0, 0, 64, 1, false, 4, 0⟩

def loading : State :=
  { streaming loadTo .empty with stks := [(0, { stack7 with keyOf := (List.range 128).map (fun i => (i, 7)), streams := [loadTo],
                                                            banks := #v[⟨1, 0, 0, 0, []⟩, .empty] })] }

theorem test_load : passes (exec (.load 0 4 []) loading) (fun u => ((u.stack 0).banks.toList.getD 0 .empty).state == 2 &&
    ((u.stack 0).banks.toList.getD 0 .empty).tag == 9 && (((u.stack 0).banks.toList.getD 0 .empty).data.drop 0x40).take 3 == [1, 2, 3]) =
    true := by decide +kernel

/-! ### 05 Armature and seams -/

/-- The example of R147: partition 5 with physical index 30 retired. -/
def arm5 : Armature := (buildArm [30] 1).getD ⟨[], [], 0⟩

theorem test_armature_example : (arm5.spares == [(30, true), (71, false)] && arm5.lmap.getD 67 0 == 68 && arm5.lmap.length == 70 &&
    (buildArm [1, 2, 3] 1).isNone && (arm5.bytes 5).length == 80) = true := by decide +kernel

/-- Partition 0 has become Idle; physical index 4 has the highest score. -/
def worked : State :=
  { live core with now := 1600000000, tiles := [(4, { Tile.fresh with scratch := [(5, 9)] })],
                   parts := [(0, { Part.fresh 15 with psw := { Psw.fresh with state := .idle }, becameIdle := true,
                                                       heat := [(4, 10), (9, 10)], arm := some arm5 })] }

def turning (r : RotState) : State :=
  { worked with parts := [(0, { Part.fresh 15 with arm := some arm5, rot := some r, heat := [(4, 10)] })] }

def turn (step : Nat) : RotState := ⟨[(4, 4, 71)], [(4, none, 0)], step, [], 0⟩

theorem test_rotation :
    (passes (exec (.rotation 0) worked) (fun u => ((u.part 0).rot.map (fun r => (r.moves, r.step))) == some ([(4, 4, 71)], 3)) &&
     passes (exec (.drainMarker 4 ⟨none, 0⟩) { turning (turn 3) with now := 15999 }) (fun u => ((u.part 0).rot.map (fun r => (r.markers, r.step))) == some ([], 4)) &&
     passes (exec (.rotationCopyDone 0) (turning (turn 4))) (fun u => (u.tile 71).scratch == [(5, 9)] && (u.part 0).epoch == 2 &&
       ((u.part 0).arm.map (fun a => (a.lmap.getD 4 0, a.spares))) == some (71, [(4, false), (30, true)])) &&
     passes (exec (.rotationRelease 0) (turning (turn 5))) (fun u => (u.part 0).rot == none && (u.part 0).rotations == 1 &&
       (u.part 0).heat == []) &&
     passes (exec (.rotationAbandon 0 4) (turning (turn 3))) (fun u => (u.part 0).rot == none && (u.part 0).lastAbort == 4 &&
       (u.part 0).arm == some arm5)) = true := by decide +kernel

/-- The causes of 16,000 fc without the markers and of a double-bit word. -/
theorem test_abandon_causes :
    (passes (exec (.rotationAbandon 0 1) (turning (turn 3))) (fun u => (u.part 0).lastAbort == 1 && u.out.length == 1) &&
     passes (exec (.rotationAbandon 0 3) { turning (turn 4) with tiles := [(4, { Tile.fresh with upsets := [(9, true)] })] }) (fun u =>
       (u.part 0).lastAbort == 3 && u.tilUnc == 1) &&
     passes (exec (.rotationAbandon 0 1) { turning (turn 3) with now := 15999 }) (fun u => (u.part 0).rot.isSome)) = true := by
  decide +kernel

/-- The clauses of FIRMWARE_CRC_CHECK can each be met; 32 KiB are too long to compute with here. -/
theorem witness_firmware_check :
    (0 % 72 ∉ ((live core).part (0 / 72)).retired) ∧ ({ live core with fwImage := [0] } : State).fwImage ≠ [] ∧
    ({ core with fwCrc := crc32c (core.scratch.readN 0 32768) } : Tile).fwCrc = crc32c (core.scratch.readN 0 32768) ∧ ({ core with fwTry := 1 } : Tile).fwTry ≥ 1 ∧
    (match exec (.firmwareBroadcast 1 [0]) (live core) with | .fault f => f == .illFormed | _ => false) = true := by
  refine ⟨?_, ?_, rfl, ?_, ?_⟩ <;> decide +kernel

def seams (n : Nat) : State :=
  { live core with router := { State.reset.router with seamWest := 0xFFFFFF, seamFails := [(3, n)] } }

theorem test_seam_resend :
    (passes (exec (.seamResend false 3 false) (seams 2)) (fun u => u.router.seamFails == [] && u.router.seamRetry == 1) &&
     passes (exec (.seamResend false 3 true) (seams 2)) (fun u => u.router.seamFails == [(3, 3)]) &&
     passes (exec (.seamResend false 3 true) (seams 7)) (fun u => u.router.seamWest == 0xFFFFF7)) = true := by decide +kernel

/-- What FIRMWARE_BROADCAST's clause asks can be met. -/
theorem witness_broadcast : (List.replicate 32768 (7 : Byte)).length = 32768 ∧ (live core).railsOn = true :=
  ⟨List.length_replicate, by decide +kernel⟩

/-! ### 06 The host interface and 19 the setup register map -/

/-- Every bank of registers answers: the start has reached step 11. -/
def open0 : State := { live core with boot := { State.reset.boot with ready := true } }

def wide (off : Nat) (v : Nat) (s : State) : State := { s with setup := SMap.set s.setup off (BitVec.ofNat 64 v) }

theorem test_setup_access :
    (open0.barLive &&
     passes (exec (.setupRead ⟨.setup, 0⟩ .w64) open0) (fun u => u.out == [.setupData 0x400101B840]) &&
     passes (exec (.setupRead ⟨.setup, 0x480000⟩ .w32) { open0 with lay := { State.reset.lay with time := 0x700000005 } }) (fun u =>
       u.out == [.setupData 5] && passes (exec (.setupRead ⟨.setup, 0x480004⟩ .w32) { u with lay := { u.lay with time := 0x900000000 }, out := [] })
         (fun v => v.out == [.setupData 7] && v.shadow == none)) &&
     passes (exec (.setupRead ⟨.setup, 3⟩ .w32) open0) (fun u => u.out == [.setupData 0] && u.hifErr == 1 && u.lastOff == 3) &&
     passes (exec (.setupWrite ⟨.setup, 4⟩ .w64 0) open0) (fun u => u.hifErr == 1 && u.lastOff == 4) &&
     passes (exec (.setupWrite ⟨.setup, 4⟩ (.other 2) 0) open0) (fun u => u.hifErr == 1) &&
     plainTable.all (fun e => passes (exec (.setupWrite ⟨.setup, e.1⟩ .w64 0xFFFFFFFFFFFFFFFF) open0) (fun u => u.reg e.1 e.2.2.2 == e.2.1) &&
       passes (exec (.setupWrite ⟨.setup, e.1⟩ .w64 0) (wide 8 1 open0)) (fun u => u.reg e.1 e.2.2.2 == if e.2.2.1 then e.2.2.2 else 0))) = true := by
  decide +kernel

/-- Line 3 for tenant 1; completion ring 5 and submission ring 6 of tenant 1, each of 64 entries, in slots 1 and 2 of line 3. -/
def cqCfg : Nat := 1 + 2 * 1 + 8 * 6 + 256 * 1 + 2 ^ 35 * 3 + 2 ^ 45 * 1
def sqCfg : Nat := 1 + 8 * 6 + 256 * 1 + 2 ^ 16 * 5 + 2 ^ 35 * 3 + 2 ^ 45 * 2
def ringsOn : State :=
  { (wide (offRngCfg 6) sqCfg (wide (offRngCfg 5) cqCfg (wide (offDblCtl 3) 3 (wide (offDblAddr 3) 0x1000 (wide 8 0x4640 open0))))) with
    rings := [(5, Ring.fresh), (6, { Ring.fresh with lead := 2, asked := 2 })] }

def fresh6 : State := { wide (offRngCfg 6) rngCfgReset ringsOn with rings := [(5, Ring.fresh)] }

/-- Tenant 1 sees its number, its partition 2 and that partition's state word (R160). -/
theorem test_tenant_view :
    (let s : State := { open0 with parts := [(2, { Part.fresh 15 with psw := { Psw.fresh with state := .idle, tenant := 1 } })] }
     passes (exec (.setupRead ⟨.view 0, 0⟩ .w64) s) (fun u => u.out == [.setupData 0x401]) &&
     passes (exec (.setupRead ⟨.view 0, 0x110⟩ .w64) s) (fun u => u.out == [.setupData (BitVec.ofNat 64 (s.psw 2).word)]) &&
     passes (exec (.setupRead ⟨.view 1, 0x110⟩ .w64) s) (fun u => u.out == [.setupData 0]) &&
     passes (exec (.setupRead ⟨.view 0, 0x300⟩ .w64) s) (fun u => u.out == [.setupData 0]) &&
     passes (exec (.setupWrite ⟨.view 0, 0⟩ .w64 5) s) (fun u => u.hifErr == 2 && u.setup == s.setup)) = true := by decide +kernel

theorem test_configuration :
    (passes (exec (.configurationRequest ⟨0, .plain⟩) (live core)) (fun u => u.out == [.configStatus true]) &&
     passes (exec (.configurationRequest ⟨0, .plain⟩) open0) (fun u => u.out == [.configStatus false]) &&
     passes (exec (.configurationRequest ⟨2, .advertised .ats⟩) open0) (fun u => u.out == [.configStatus false, .advertises 2 .ats true]) &&
     passes (exec (.configurationRequest ⟨2, .advertised .ptm⟩) open0) (fun u => u.out == [.configStatus false, .advertises 2 .ptm false]) &&
     passes (exec (.configurationRequest ⟨0, .cxlCache true true⟩) open0) (fun u => u.cxlOn) &&
     passes (exec (.configurationRequest ⟨0, .cxlCache true false⟩) (wide 8 0x642 open0)) (fun u => !u.cxlOn && u.cxlDown && u.hifErr == 4) &&
     passes (exec (.configurationRequest ⟨0, .translate 16 32 false⟩) open0) (fun u => u.hostFails 31 4 && !u.hostFails 32 4)) = true := by
  decide +kernel

theorem test_host_functions :
    (passes (exec (.vfWrite 0 8 1) open0) (fun u => u.hifErr == 2) &&
     passes (exec (.setupLock 0x13) open0) (fun u => u.setupLocked && u.hifCtl == 0x13) &&
     passes (exec (.setupLock 0x4001) (wide 8 0x641 open0)) (fun u => u.hifCtl == 0x4641 && u.fetchEn) &&
     passes (exec (.fetchEn 0x4000) open0) (fun u => u.fetchEn) &&
     passes (exec (.fetchEn 0x4000) (wide 8 0x640 { ringsOn with rings := [(6, { Ring.fresh with lead := 2 })] })) (fun u =>
       (u.ring 6).asked == 2 && u.out == [.hostRead ⟨1, none⟩ 0 128]) &&
     passes (exec .cxlCacheError (wide 8 0x642 open0)) (fun u => u.hifErr == 4 && !u.coherent) &&
     passes (exec .pfFlr ringsOn) (fun u => !cfgEn (u.rngCfg 6) && u.rings == [] && !u.fetchEn) &&
     cfgTenant (ringsOn.rngCfg 6) == 1 && lineTenant (ringsOn.dblCtl 3) == 1 && lineEn (ringsOn.dblCtl 3)) = true := by decide +kernel

theorem test_ring_enable :
    (passes (exec (.doorbellLineEnable 3 3) open0) (fun u => u.dblCtl 3 == 3) &&
     passes (exec (.doorbellLineEnable 3 0x83) open0) (fun u => u.dblCtl 3 == 0x82) &&
     passes (exec (.ringEnable 6 (BitVec.ofNat 64 sqCfg) (.ok [9, 0, 0, 0, 0, 0, 0, 0])) fresh6) (fun u =>
       cfgEn (u.rngCfg 6) && (u.ring 6).pkgIndex == 9 && (u.ring 6).hostIdx == 9 && u.out == [.hostRead ⟨1, none⟩ 0x1010 8]) &&
     passes (exec (.ringEnable 6 (BitVec.ofNat 64 sqCfg) .translation) fresh6) (fun u => (u.ring 6).err == 4 && (u.ring 6).stopped) &&
     passes (exec (.ringEnable 6 (BitVec.ofNat 64 (sqCfg + 2 ^ 35)) .error) fresh6) (fun u => !cfgEn (u.rngCfg 6) && (u.ring 6).err == 1) &&
     passes (exec (.ringDisable 6 0) ringsOn) (fun u => !cfgEn (u.rngCfg 6) && (u.ring 6).lead == 0) &&
     passes (exec (.ringDisable 5 0) ringsOn) (fun u => cfgEn (u.rngCfg 5) && (u.ring 5).err == 6)) = true := by decide +kernel

def lineBytes (n : Nat) : List Byte := List.replicate 16 0 ++ leBytes 8 n ++ List.replicate 40 0

theorem test_lines :
    (passes (exec (.snoopInvalidation 3) { wide 8 0x4642 ringsOn with cxlOn := true }) (fun u =>
       u.out == [.snoopAnswer 0x1000, .rdShared ⟨1, none⟩ 0x1000] && (u.line 3).busy) &&
     passes (exec .doorbellPoll { ringsOn with now := 160000, pollNext := 4 }) (fun u =>
       u.out == [.hostRead ⟨1, none⟩ 0x1000 64] && (u.line 3).busy && u.pollAt == 160000) &&
     passes (exec .doorbellPoll { ringsOn with now := 159999, pollNext := 4 }) (fun u => u.out == []) &&
     ringsOn.hostLive && lineEn (ringsOn.dblCtl 3) && !(ringsOn.line 3).busy &&
     passes (exec (.doorbellRead 3 (.ok (lineBytes 5))) ringsOn) (fun u => (u.ring 6).lead == 5 && !(u.ring 6).stopped) &&
     passes (exec (.doorbellRead 3 (.ok (lineBytes 64))) ringsOn) (fun u => (u.ring 6).err == 3 && (u.ring 6).stopped) &&
     passes (exec (.doorbellRead 3 .error) ringsOn) (fun u => u.hifErr == 16 && u.rings == ringsOn.rings)) = true := by decide +kernel

theorem test_interrupts :
    (passes (exec (.moderationTimer 5) { ringsOn with now := 8, msixTab := [(64, (0x9000, 33))], rings := [(5, { Ring.fresh with timer := some 7, unsent := 2 })], msix := [(64, (false, false))] }) (fun u => u.out == [.msix 1 0 0x9000 33] && (u.ring 5).timer == none) &&
     passes (exec (.msixVectorUnmask 1 0) { ringsOn with msix := [(64, (true, true))] }) (fun u => u.out == [.msix 1 0 0 0] &&
        u.msix == [(64, (false, false))]) &&
     passes (exec (.msixVectorUnmask 1 0) ringsOn) (fun u => u.out == [])) = true := by decide +kernel

/-- A descriptor of a class with TAG 0x2A17 and the given bytes at 0x10. -/
def descOf (cls : Nat) (b : List Byte) : List Byte :=
  [1, BitVec.ofNat 8 cls, 0, 0] ++ leBytes 4 0x2A17 ++ leBytes 8 0 ++ b ++ List.replicate (48 - b.length) 0

def sqKey : DescKey := ⟨6, 0⟩

theorem test_descriptor_fetch :
    ((refusalOf 1 (descOf 8 [])).isNone &&
     passes (exec (.descriptorFetch 6 (.ok (descOf 8 []))) ringsOn) (fun u => (u.desc? sqKey).isSome && (u.ring 6).pkgIndex == 1 &&
       (u.ring 6).lead == 1 && (u.ring 5).reserved == 1 && (u.ring 6).inflight == 1) &&
     passes (exec (.descriptorFetch 6 (.ok (descOf 6 []))) ringsOn) (fun u => (u.desc? sqKey).isNone && (u.ring 6).completed == 1 &&
       u.out == [.hostWrite ⟨1, none⟩ 0 [0x17, 0x2A, 0, 0, 1, 0, 6, 0x80, 5, 6, 0, 0, 0, 0, 0, 0]]) &&
     passes (exec (.descriptorFetch 6 .error) ringsOn) (fun u => (u.ring 6).err == 4)) = true := by decide +kernel

/-- The descriptor with these bytes has started; its index was 0. -/
def started (b : List Byte) : State :=
  { ringsOn with
    rings := [(5, { Ring.fresh with reserved := 1 }), (6, { Ring.fresh with pkgIndex := 1, started := 1, inflight := 1 })]
    descs := [(sqKey, { bytes := b, tenant := 1, cq := 5, ready := true, late := false, busy := false, gone := false, wiped := false,
                        aux := 9, pasid := none })] }

def endedAs (b : List Byte) (u : State) (st info value : Nat) : Bool :=
  (u.desc? sqKey).isNone && (u.ring 6).inflight == 0 && (u.ring 6).completed == 1 && (u.ring 5).reserved == 0 &&
    u.out.contains (.hostWrite ⟨1, none⟩ 0 (entryBytesOf ⟨b, 1, none, 5, true, false, false, false, false, 9⟩ 1 6 1 st info value))

def launchDesc : List Byte := descOf 1 (leBytes 4 1 ++ leBytes 4 0x8000)

def launchable (ten : BitVec 7) : State :=
  { started launchDesc with
    parts := [(0, { Part.fresh 15 with psw := { Psw.fresh with state := .idle, tenant := ten, verdict := .inService },
                                        arm := some ⟨[4, 5], [], 1⟩ })] }

theorem test_descriptor_classes :
    (passes (exec (.diagEcho sqKey) (started (descOf 8 []))) (fun u => endedAs (descOf 8 []) u 0 0 0) &&
     passes (exec (.layScheduledEvent sqKey) (started (descOf 5 []))) (fun u => endedAs (descOf 5 []) u 0 0 9) &&
     passes (exec (.diagErrlog sqKey) (started (descOf 8 [1]))) (fun u => endedAs (descOf 8 [1]) u 0 0 0) &&
     (let b := descOf 8 ([3] ++ List.replicate 7 0 ++ leBytes 8 0x4000 ++ leBytes 4 200)
      passes (exec (.diagPrtstate sqKey) (started b)) (fun u => endedAs b u 0 0 96)) &&
     (let b := descOf 8 ([2] ++ List.replicate 7 0 ++ leBytes 8 0x4000 ++ leBytes 4 120)
      passes (exec (.diagProgress sqKey) (started b)) (fun u => endedAs b u 0 0 112)) &&
     (let b := descOf 2 (leBytes 8 0x4000 ++ leBytes 8 0x40 ++ leBytes 4 16 ++ [0])
      passes (exec (.dma sqKey) (started b)) (fun u => u.out == [.hostRead ⟨1, none⟩ 0x4000 16])) &&
     (let b := descOf 2 (leBytes 8 0x40 ++ leBytes 8 0x4000 ++ leBytes 4 2 ++ [1])
      let d : Desc := ⟨b, 1, none, 5, true, false, true, false, false, 2⟩
      passes (exec (.hostDmaComplete sqKey (.moved [7, 8])) { started b with descs := [(sqKey, d)] }) (fun u =>
        endedAs b u 0 0 2 && u.out.contains (.hostWrite ⟨1, none⟩ 0x4000 [7, 8])))) = true := by decide +kernel

theorem test_job_launch :
    (passes (exec (.jobLaunch sqKey) (launchable 1)) (fun u => (u.psw 0).state == .active && (u.tile 4).running && (u.tile 5).pc == 0x8000 &&
       (u.tile 5).key == sqKey && ((u.job? sqKey).map (fun j => (j.admitted, j.tiles))) == some ([0], [4, 5])) &&
     passes (exec (.jobLaunch sqKey) (launchable 2)) (fun u => endedAs launchDesc u 5 0 0) &&
     passes (exec (.jobLaunch sqKey) ((launchable 1).setPart 0 { (launchable 1).part 0 with psw := { ((launchable 1).psw 0) with verdict := .unknown } }))
       (fun u => endedAs launchDesc u 6 0 0)) = true := by decide +kernel

/-! ### 07 Packets, routing and circuits -/

/-- A request of the package itself to the SRAM, and its payload. -/
def sramReq (typ : BitVec 4) (len : Nat) (pl : List Byte) : Packet := memReq typ 0x20000000008 len pl

def sram : State := { live core with ccSram := Memory.writeN [] 8 [1, 2, 3, 4, 5, 6, 7, 8] }

theorem test_sram :
    (passes (exec (.rd (sramReq 0 4 [])) sram) (fun u => u.out == [.packet ((sramReq 0 4 []).replyTo 0 [1, 2, 3, 4])]) &&
     passes (exec (.wr (sramReq 1 2 [9, 9])) sram) (fun u => u.ccSram.readN 8 3 == [9, 9, 3] && u.out.length == 1) &&
     passes (exec (.wrp (sramReq 2 2 [9, 9])) sram) (fun u => u.ccSram.readN 8 3 == [9, 9, 3] && u.out == []) &&
     passes (exec (.fwr (sramReq 5 2 [9, 9])) sram) (fun u => u.ccSram.readN 8 3 == [9, 9, 3] && u.out.length == 1) &&
     (let b := leBytes 8 1 ++ leBytes 8 0 ++ leBytes 8 1
      passes (exec (.atm (sramReq 3 24 b)) sram) (fun u => u.ccSram.readN 8 2 == [2, 2] && u.out.length == 1)) &&
     (let b := leBytes 8 0x40 ++ leBytes 4 2 ++ leBytes 4 0
      passes (exec (.push (sramReq 4 16 b)) sram) (fun u => u.out == [.packet { sramReq 4 16 b with
        addr := 0x40, typ := 5, plen := 2, payload := [1, 2] }])) &&
     passes (exec (.rd (memReq 0 0x30000000000 8 [])) sram) (fun u => u.router.address == 1 &&
       u.out == [.packet ((memReq 0 0x30000000000 8 []).replyTo 2 [])])) = true := by decide +kernel

theorem test_requests_at_targets :
    (passes (exec (.rd (memReq 0 0x40 8 [])) (stackState stack7 .idle)) (fun u => (u.stack 0).queue.length == 1) &&
     passes (exec (.wr (inbound 1 0 [1, 2, 3])) (withJob core job01)) (fun u => (u.tile 0).scratch.readN 0x8010 4 == [1, 2, 3, 0])) =
    true := by decide +kernel

/-- A write that the mesh brings to the port of tile 0. -/
def inMesh (p : Packet) : State :=
  { withJob core job01 with mesh := [⟨.part 0, .tile 0, 0, p⟩, ⟨.mem 0 0, .tile 0, 3, memReq 6 0x40 8 []⟩] }

theorem test_flight_arrives :
    (passes (exec (.wr (inbound 1 0 [1, 2, 3])) (inMesh (inbound 1 0 [1, 2, 3]))) (fun u => (u.tile 0).scratch.readN 0x8010 4 == [1, 2, 3, 0] &&
       u.mesh.head?.map (fun f => (f.dst, f.chan)) == some (.tile 0, 3))) &&
    passes (exec (.wr (inbound 1 0 [1, 2, 3])) { inMesh (inbound 1 0 [1, 2, 3]) with
        mesh := [⟨.part 0, .tile 0, 0, memReq 0 0x40 8 []⟩, ⟨.part 0, .tile 0, 0, inbound 1 0 [1, 2, 3]⟩] }) (fun u =>
      u.mesh.length == 2 && (u.tile 0).scratch == []) = true := by decide +kernel

/-- Tile 0 waits for the reply of request 3, and its write 3 is under way. -/
def waiting3 : State :=
  let e : Outst := ⟨0x40, 0, false, 0x8000, 0, false, memReq 0 0x40 8 [], 0, none⟩
  withJob { core with reads := [(3, e)], wait := .reply 9 3, writes := [(3, { e with kind := 4 })] } job01

def replyPkt (typ : BitVec 4) (st : Nat) (pl : List Byte) : Packet := { memReq typ (replyAddr 3 st 0) pl.length pl with tenant := 1 }

theorem test_replies :
    (passes (exec (.rdr (replyPkt 6 0 [7, 0, 0, 0, 0, 0, 0, 0])) waiting3) (fun u => (u.tile 0).reg 9 == 7 && (u.tile 0).pc == 0x8004 &&
       (u.tile 0).reads == []) &&
     passes (exec (.rdr (replyPkt 6 4 [])) waiting3) (fun u => (u.tile 0).pc == 0x160 && (u.tile 0).xval == 0x40 && (u.tile 0).xcause == 11) &&
     passes (exec (.rdr (replyPkt 6 1 [])) waiting3) (fun u => (u.tile 0).reads.any (fun e => e.2.retry)) &&
     passes (exec (.ack (replyPkt 7 0 [])) waiting3) (fun u => (u.tile 0).writes == [])) = true := by decide +kernel

/-- Read 3 of tile 0 fetches the one piece of the transfer of handle 1, into the tile's own scratch. -/
def joining : State :=
  withJob { core with reads := [(3, ⟨0x40, 0, false, 0, 0, false, memReq 0 0x40 8 [], 0, some (1, 0)⟩)],
                      handles := (Vector.replicate 8 Handle.free).setIfInBounds 1
                        (.running { moves 0x40 own9000 8 with asked := 1 }) } job01

theorem test_piece_joins :
    passes (exec (.rdr (replyPkt 6 0 [7, 0, 0, 0, 0, 0, 0, 1])) joining) (fun u => (u.tile 0).reads == [] &&
      (u.tile 0).handles.toList.getD 1 .free == .running { moves 0x40 own9000 8 with asked := 1, written := 1 } &&
      (u.tile 0).scratch.readN 0x9000 8 == [7, 0, 0, 0, 0, 0, 0, 1]) = true := by decide +kernel

/-- A record of one group with members 0 and 1; this package is chip 0, and local port 0 leads to chip 1. -/
def pairRec : List Byte :=
  [1, 1] ++ leBytes 2 0 ++ leBytes 2 1 ++ List.replicate 58 0 ++ leBytes 8 (1 + 8 * 14 + 256) ++ List.replicate 760 0 ++ leBytes 2 3 ++
    List.replicate 4094 0

def pair : State :=
  { started (descOf 4 ([0, 4, 0, 0] ++ leBytes 2 1)) with
    router := { State.reset.router with topo := some ⟨pairRec, 0⟩ }
    ports := [(0, { Port.fresh with inService := true, state := .up, credits := fullCredits 0 })] }

/-- The packets that a state's links have carried. -/
def linked (u : State) : List (Nat × Nat × Packet) :=
  u.out.filterMap (fun o => match o with | .linkOut p vc k => some (p, vc, k) | _ => none)

def toChip (c : Nat) (typ : BitVec 4) (pl : List Byte) : Packet := memReq typ (BitVec.ofNat 64 c <<< 44) pl.length pl

theorem test_packet_route :
    (passes (exec (.packetRoute .spine (toChip 0 7 [])) (live core)) (fun u => u.out == [.packet (toChip 0 7 [])]) &&
     passes (exec (.packetRoute .spine (toChip 5 7 [])) (live core)) (fun u => u.out == [] && u.router.unreach == 1) &&
     passes (exec (.packetRoute .spine (toChip 5 1 [1])) pair) (fun u => u.out.length == 1 && u.router.unreach == 1) &&
     passes (exec (.packetRoute (.part 0) (toChip 1 7 [])) pair) (fun u => linked u == [(0, 3, toChip 1 7 [])] &&
       (u.port 0).replay.length == 1) &&
     passes (exec (.packetRoute .spine { toChip 0 7 [] with ver := 2 }) pair) (fun u => u.router.malformed == 1 && u.out == []) &&
     passes (exec (.packetRoute .spine { toChip 0 1 [1] with plen := 2 }) pair) (fun u => u.router.framing == 1 && u.out.length == 1) &&
     passes (exec (.tailCheck .spine { toChip 0 1 [1] with tail := .bad } false) pair) (fun u => u.router.framing == 1 &&
       u.out.length == 1) &&
     passes (exec (.tailCheck .spine { toChip 1 1 [1] with tail := .stomped } false) pair) (fun u => u.router.stomped == 1 &&
       u.out == []) &&
     passes (exec (.tailCheck .spine { toChip 1 1 [1] with tail := .bad } true) pair) (fun u => u.router.framing == 1) &&
     passes (exec (.tailCheck .spine { toChip 0 1 [1] with tail := .stomped } false) pair) (fun u => u.router.stomped == 1 &&
       u.out.length == 1)) = true := by decide +kernel

/-- A circuit packet of owner 1, CID 5. -/
def cktPkt (typ : BitVec 4) (fin : Bool) : Packet := { toChip 0 typ [] with ext := 2, exts := [cktExt fin false 1 5 4] }

def cktEntry (inPort out : Option Nat) (owner : BitVec 16) : Ckt :=
  ⟨owner, 5, inPort, out, 0, 0, 4, 0, false, false, 1, 0, true, false, none, none, none, none⟩

def cktState (l : List Ckt) : State :=
  { pair with router := { pair.router with ckts := l }, descs := [],
              ports := [(0, { Port.fresh with inService := true, state := .up, credits := fullCredits 0 }), (16, Port.fresh)] }

theorem test_circuits :
    (passes (exec (.csu (.port 0) (cktPkt 9 false)) (cktState [])) (fun u => (u.router.ckt 1 5).isSome) &&
     passes (exec (.crl (.port 0) (cktPkt 10 false)) (cktState [])) (fun u => u.out.length == 1) &&
     passes (exec (.crl (.port 0) (cktPkt 10 false)) (cktState [cktEntry (some 0) none 1])) (fun u => u.router.ckts == []) &&
     passes (exec (.ckt (.port 0) (cktPkt 8 false)) (cktState [])) (fun u => u.router.circuit == 1) &&
     passes (exec (.ckt (.port 0) (cktPkt 8 false)) (cktState [cktEntry (some 0) (some 16) 1])) (fun u =>
       ((u.port 16).txq.toList.getD 9 []).map (·.pkt) == [cktPkt 8 false]) &&
     (let s := cktState [cktEntry (some 0) none 1]
      passes (exec (.ckt (.port 0) (cktPkt 8 false)) (s.setPort 0 { s.port 0 with rxq := [(7, 9, cktPkt 8 false)], rxUsed := .replicate 12 1 }))
        (fun u => (u.port 0).rxq == [] && (u.port 0).rxUsed.toList.getD 9 1 == 0 && (u.port 0).rxUsed.toList.getD 8 0 == 1 &&
          u.router.circuit == 0 && u.router.hand.isNone)) &&
     passes (exec (.circuitEnd (.port 0) (cktPkt 8 true)) (cktState [cktEntry (some 0) (some 16) 1])) (fun u => u.router.ckts == []) &&
     passes (exec (.portLeaveService 16) { cktState [cktEntry (some 16) none 1] with
       ports := [(16, { Port.fresh with leaving := true, replay := [⟨0, 0, [], none, none⟩],
                                          txq := .replicate 12 [⟨none, toChip 1 7 []⟩] })] }) (fun u => !(u.port 16).leaving &&
         (u.port 16).replay == [] && (u.port 16).txq == .replicate 12 [] && u.router.ckts == []) &&
     passes (exec (.circuitBrokenNotice 0 5) (cktState [cktEntry none (some 16) 0])) (fun u => u.router.ckts == [] && u.router.cktBroken == 1) &&
     passes (exec (.teardownAckTimeout 0 5) (cktState [{ cktEntry none (some 16) 0 with closing := true, due := some 0 }])) (fun u =>
       u.router.ckts == [])) = true := by decide +kernel

theorem test_circuit_descriptors :
    (passes (exec (.circuitSetUp sqKey) pair) (fun u => u.router.ckts.map (fun c => (c.dst, c.share, c.up, c.key)) == [(1, 4, false, some sqKey)] &&
       (u.desc? sqKey).any (·.busy)) &&
     passes (exec (.circuitSetUp sqKey) { pair with router := State.reset.router }) (fun u =>
       endedAs (descOf 4 ([0, 4, 0, 0] ++ leBytes 2 1)) u 0xD 3 0) &&
     (let b := descOf 4 ([1, 0, 0, 0, 0, 0] ++ leBytes 2 5)
      let s := { started b with router := { pair.router with ckts := [cktEntry none (some 16) 0] },
                                descs := [(sqKey, ⟨b, 0, none, 5, true, false, false, false, false, 9⟩)] }
      passes (exec (.circuitTearDown sqKey) s) (fun u => u.router.ckts.map (fun c => (c.closing, c.key)) == [(true, some sqKey)]) &&
      passes (exec (.circuitTearDown sqKey) { s with router := pair.router }) (fun u => u.out.length == 1 && (u.desc? sqKey).isNone))) = true := by
  decide +kernel

/-- A team of chip 0 alone with tiles 0 and 1, numbered 5, multicast index 7. -/
def teamDesc (op : Byte) : List Byte := descOf 3 ([op, 5] ++ leBytes 2 1 ++ leBytes 2 7 ++ [4] ++ List.replicate 17 0 ++ leBytes 2 2)

def teamReady (op : Byte) (teams : List Team) : State :=
  { started (teamDesc op) with
    staging := { Staging.fresh with teams := teams }
    parts := [(0, { Part.fresh 15 with psw := { Psw.fresh with tenant := 1 } })] }

theorem test_teams :
    (passes (exec (.teamForm sqKey (.ok (1 :: List.replicate 255 0)) (.ok [0, 0, 1, 0])) (teamReady 0 [])) (fun u =>
       u.staging.teams.map (fun t => (t.num, t.tlist, t.n)) == [(5, [0, 1], 2)] && (SMap.find? u.router.mc 7).isSome) &&
     passes (exec (.teamForm sqKey (.ok (1 :: List.replicate 255 0)) (.ok [0, 0, 1, 0])) (teamReady 0 [team5])) (fun u =>
       endedAs (teamDesc 0) u 0xD 1 0) &&
     passes (exec (.teamForm sqKey .error (.ok [0, 0, 1, 0])) (teamReady 0 [])) (fun u => endedAs (teamDesc 0) u 9 0 0 &&
       u.hifErr.getLsbD 4 && u.staging.teams == []) &&
     passes (exec (.teamForm sqKey (.ok (1 :: List.replicate 255 0)) (.ok [1, 0, 0, 0])) (teamReady 0 [])) (fun u =>
       endedAs (teamDesc 0) u 4 0x20 0 && u.staging.teams == []) &&
     passes (exec (.teamDissolve sqKey) { teamReady 1 [team5] with tiles := [(0, openTile)] }) (fun u =>
       endedAs (teamDesc 1) u 0xD 8 0 && u.staging.teams == [team5]) &&
     passes (exec (.teamDissolve sqKey) (teamReady 1 [team5])) (fun u => u.staging.teams == [] && (u.desc? sqKey).isNone) &&
     passes (exec (.teamDissolve sqKey) (teamReady 1 [])) (fun u => endedAs (teamDesc 1) u 0xD 1 0)) = true := by decide +kernel


/-! A record that is accepted: its check bytes are the CRC of the rest, left as a term. -/

/-- An acceptable record of one group, around its check bytes. -/
def recA : List Byte := [1, 1] ++ leBytes 2 0 ++ leBytes 2 1 ++ List.replicate 54 0
def recB : List Byte := leBytes 8 (1 + 8 * 14 + 256) ++ List.replicate 760 0 ++ leBytes 2 3 ++ List.replicate 4094 0
def recAround (l : List Byte) : List Byte := recA ++ (l ++ recB)
def recCheck : Nat := (crc32c (recAround [0, 0, 0, 0])).toNat
def goodRec : List Byte := recAround (leBytes 4 recCheck)

theorem recA_length : recA.length = 60 := by decide +kernel
theorem recB_length : recB.length = 4864 := by
  have h (n v : Nat) : (leBytes n v).length = n := by
    induction n generalizing v with
    | zero => rfl
    | succ n ih => exact congrArg (· + 1) (ih _)
  simp only [recB, List.length_append, List.length_replicate, h]

theorem around_field (a b : List Byte) (c : Nat) (h : a.length = 60) :
    fieldLE (a ++ (leBytes 4 c ++ b)) 0x3C 4 = c % 2 ^ 32 := by
  simp [fieldLE, h, leBytes, leNat]
  omega

theorem around_cut (a b : List Byte) (c : Nat) (h : a.length = 60) :
    (a ++ (leBytes 4 c ++ b)).take 0x3C ++ [0, 0, 0, 0] ++ (a ++ (leBytes 4 c ++ b)).drop 0x40 = a ++ ([0, 0, 0, 0] ++ b) := by
  simp [List.drop_append, h, leBytes]

theorem around_length (a b : List Byte) (c : Nat) (h : a.length = 60) : (a ++ (leBytes 4 c ++ b)).length = 64 + b.length := by
  simp [h, leBytes]; omega

theorem goodRec_length : goodRec.length = 4928 :=
  (around_length recA recB recCheck recA_length).trans (congrArg (64 + ·) recB_length)

theorem goodRec_crc : (⟨goodRec, 0⟩ : Topo).crcOk = true := by
  have h : recCheck < 2 ^ 32 := BitVec.isLt _
  have hf : fieldLE goodRec 0x3C 4 = recCheck := (around_field recA recB recCheck recA_length).trans (Nat.mod_eq_of_lt h)
  have hc : goodRec.take 0x3C ++ [0, 0, 0, 0] ++ goodRec.drop 0x40 = recAround [0, 0, 0, 0] :=
    around_cut recA recB recCheck recA_length
  rw [Topo.crcOk, Topo.f, hf, hc, recCheck, decide_eq_true_eq]

theorem goodRec_reserved : (⟨goodRec, 0⟩ : Topo).reservedOk = true := by decide +kernel
theorem goodRec_rest : ((⟨goodRec, 0⟩ : Topo).f 0 1 == 1 && (⟨goodRec, 0⟩ : Topo).shapeOk && (⟨goodRec, 0⟩ : Topo).countOk) = true := by
  decide +kernel

theorem test_topology_good : goodRec.length = 4928 ∧ (live core).topoReject ⟨goodRec, 0⟩ = 0 := by
  refine ⟨goodRec_length, ?_⟩
  have h := goodRec_rest
  simp only [Bool.and_eq_true, beq_iff_eq] at h
  rw [State.topoReject, goodRec_crc, goodRec_reserved, h.1.1, h.1.2, h.2]
  rfl

/-- The calendar holds the activation of an accepted record, whose time has come. -/
def activating : State := { live core with
  lay := { State.reset.lay with time := 9, cal := [⟨8, 0, false, .topology, 1⟩] }
  router := { State.reset.router with nextTopos := [⟨goodRec, 8⟩] } }

theorem test_topology_activation : (activating.railsOn && firstDue activating.dues == some (.pkg ⟨8, 0, false, .topology, 1⟩) &&
    (activating.router.nextTopos.find? (fun r => r.actLt == 8)).isSome && (live core).lay.freeEntry false != none) = true := by
  decide +kernel

/-! ### 08 The link layer and training -/

def seqOf (typ rate : Byte) : TrainSeq :=
  let t : TrainSeq := ⟨typ, 0, 0x12, rate, 0xFF, 1, 14, 0, 0, 0, 0⟩
  { t with check := crc8 (tsBytes t) }

/-- Port 0 as given, 10 ms after the start. -/
def withPort (x : Port) : State := { open0 with ports := [(0, x)], now := 16000000 }

def port0 (st : LState) : Port :=
  { Port.fresh with state := st, usable := 0xFF, laneMap := 0x76543210, rxGood := 0xFF, txGood := 0xFF, credits := fullCredits 0, sinceTrain := 0 }

def upPort : Port := { port0 .up with inService := true }

/-- The command ends in a port 0 that passes the check. -/
def portEnds (i : Instr) (s : State) (f : Port → Bool) : Bool := passes (exec i s) (fun u => f (u.port 0))

/-! #### The code on the lanes, and Align -/

/-- Symbols as characters, from a running disparity on. -/
def charsOf (plus : Bool) : List Sym → List (BitVec 10)
  | [] => []
  | .comma :: r => comma10 plus :: charsOf (dispChar plus (comma10 plus)) r
  | .data b :: r => enc10 plus b :: charsOf (dispChar plus (enc10 plus b)) r
  | .bad :: r => 0 :: charsOf plus r

/-- The sequence on a lane. -/
def laneSeq (lane : Byte) : TrainSeq :=
  let t : TrainSeq := ⟨0x5A, lane, 0x22, 2, 0xFF, 1, 14, 0, 0, 0, 0⟩
  { t with check := crc8 (tsBytes t) }

def symsOf (t : TrainSeq) : List Sym := .comma :: (tsBytes t ++ [t.check]).map .data

/-- A receive lane that has brought a sequence, inverted or not. -/
def hears (t : TrainSeq) (inv : Bool) : LaneRx :=
  let c := charsOf false (symsOf t)
  ⟨[3, 3, 3, 3], if inv then c.map (~~~ ·) else c⟩

def silent : LaneRx := ⟨[], []⟩

/-- Characters of the published 8b/10b tables (D0.0, D21.5, D7.7 at both disparities, K28.5) and the CRC-8 of "123456789". -/
theorem test_codes : (enc10 false 0x00 == 0b1001110100 && enc10 true 0x00 == 0b0110001011 && enc10 false 0xB5 == 0b1010101010 &&
    enc10 false 0xE7 == 0b1110001110 && enc10 true 0xE7 == 0b0001110001 && comma10 false == 0b0011111010 &&
    crc8 [0x31, 0x32, 0x33, 0x34, 0x35, 0x36, 0x37, 0x38, 0x39] == 0xF4) = true := by decide +kernel

theorem test_symbol_lock : (!symbolLock [3, 3, 3] [.comma] && !symbolLock [3, 3, 4, 3] [.comma] && symbolLock [1, 3, 3, 3, 3] [.comma] &&
    !symbolLock [3, 3, 3, 3] (List.replicate 8 .bad)) = true := by decide +kernel

theorem test_lane_heard : (laneHeard false (hears (laneSeq 5) false) == some (laneSeq 5, false) &&
    laneHeard true (hears (laneSeq 5) true) == some (laneSeq 5, true) && laneHeard false silent == none) = true := by decide +kernel

theorem test_most_named : (mostNamed [(1, 2), (1, 2), (7, 2)] == some (1, 2) && mostNamed [(1, 2), (7, 2)] == none) = true := by
  decide +kernel

/-- Eight lanes, the last inverted, with transmit lane l on receive lane 7 - l. -/
def eightLanes : List LaneRx := (List.range 8).map (fun l => hears (laneSeq (BitVec.ofNat 8 (7 - l))) (l == 7))

theorem test_align :
    (portEnds (.linkRelease 0) (withPort (port0 .down)) (fun x => x.state == .align && x.holdCause == 0) &&
     portEnds (.alignDone 0 0x80 eightLanes) (withPort { port0 .align with usable := 0 }) (fun x => x.state == .exchange && x.usable == 0xFF &&
       x.laneMap == 0x81234567) &&
     portEnds (.alignDone 0 0 (hears (laneSeq 2) false :: List.replicate 7 silent)) (withPort (port0 .align)) (fun x => x.state == .failed)) =
    true := by decide +kernel

/-- Lane 0 lacks the last sequence of each kind. -/
def sevens : Vector Nat 8 := Vector.ofFn (fun i => if i.val = 0 then 7 else 8)

/-- The types of the sequences that have left. -/
def tsSent (u : State) : List Byte := u.out.filterMap (fun o => match o with | .linkTs _ l => l.head?.map (·.typ) | _ => none)

theorem test_exchange :
    (tsValid (seqOf 0x5A 2) 0x5A && (port0 .exchange).usableTx.getLsbD 0 && !tsValid { seqOf 0x5A 2 with rate := 3 } 0x5A &&
     portEnds (.tsa 0 (seqOf 0x5A 2)) (withPort (port0 .exchange)) (fun x => x.state == .exchange && x.tsaCount.toList.getD 0 0 == 1) &&
     passes (exec (.tsa 0 (seqOf 0x5A 2)) (withPort { port0 .exchange with tsaCount := sevens, lastTs := some (tsKey (seqOf 0x5A 2)) }))
       (fun u => tsSent u == [0xA5] && (u.port 0).tsbAt == some u.now) &&
     portEnds (.tsb 0 (seqOf 0xA5 2)) (withPort { port0 .exchange with lastTs := some (tsKey (seqOf 0xA5 2)), tsbAt := some 0 })
       (fun x => x.tsbGot.toList.getD 0 0 == 1 && x.state == .exchange) &&
     (let x := { port0 .exchange with tsaCount := .replicate 8 8, tsbGot := sevens, lastTs := some (tsKey (seqOf 0xA5 2)) }
      portEnds (.tsb 0 (seqOf 0xA5 2)) (withPort { x with tsbAt := some 0 }) (fun x => x.state == .hold && x.holdCause == 1 && x.peerChip == 1) &&
      portEnds (.tsb 0 (seqOf 0xA5 2)) (withPort { x with tsbAt := some 15999900 }) (fun x => x.state == .exchange))) = true := by decide +kernel

/-! #### Adaptation and lock -/

/-- A sweep whose margins are 30 up and 18 down, and one with none. -/
def swept48 : Sweep := ⟨List.replicate 30 false ++ [true], List.replicate 18 false ++ [true]⟩
def blind : Sweep := ⟨[true], [true]⟩
def sweep9 : List Sweep := List.replicate 9 blind ++ [swept48, swept48] ++ List.replicate 21 blind

theorem test_adapt :
    (bestCode 0 sweep9 == some (9, 48) && sweepEmm ⟨List.replicate 128 false, List.replicate 128 false⟩ == 255 &&
     portEnds (.rate 0 (seqOf 0x3C 2)) (withPort { port0 .adapt with rateStep := 2, rateGot := sevens }) (fun x => x.adaptSub == 1 && x.rate == 2) &&
     portEnds (.rate 0 (seqOf 0x3C 2)) (withPort { port0 .adapt with rateStep := 2 }) (fun x => x.adaptSub == 0 && x.rateGot.toList.getD 0 0 == 1) &&
     portEnds (.adaptSweepDone 0 0 sweep9) (withPort { port0 .adapt with adaptSub := 1 })
       (fun x => x.eq.toList.getD 0 0 == 9 && x.emm.toList.getD 0 0 == 48 && x.state == .adapt && x.swept == 1) &&
     portEnds (.adaptSweepDone 0 0 sweep9) (withPort { port0 .adapt with adaptSub := 1, swept := 0xFE, emm := .replicate 8 0x30, rateStep := 2 })
       (fun x => x.state == .lock) &&
     portEnds (.adaptSweepDone 0 0 [blind]) (withPort { port0 .adapt with adaptSub := 1, stored := true })
       (fun x => x.checked == 1 && x.swept == 0 && x.state == .adapt)) = true := by decide +kernel

/-- Lane 7 comes 16 ns, or 1 ps more, after the others. -/
def cmpRound (late : Nat) : List CmpLane := (List.range 8).map (fun l => ⟨BitVec.allOnes 64, if l = 7 then late else 0, cmpBytes⟩)

theorem test_lock :
    (portEnds (.cmp 0 (cmpRound 16000)) (withPort (port0 .lock)) (fun x => x.aligned && x.state == .lock && x.blockLock == 0xFF &&
       x.rxScr.toList.getD 3 0 == 0x1ABC0003) &&
     portEnds (.cmp 0 (cmpRound 16001)) (withPort (port0 .lock)) (fun x => !x.aligned && x.state == .align && x.badLanes == 0x80) &&
     isCmp (osCMP :: List.replicate 19 0xAA) && !isCmp (osCMP :: List.replicate 14 0xAA)) = true := by decide +kernel

/-- A frame of null flits. With the scramblers of a port at zero, its bytes are those on the lanes. -/
def idleFrame (cred : List Nat) (rdy : Bool) : List Byte := frameBytes [] 0 0 false cred rdy
def noCred : List Nat := List.replicate 12 0

/-- The frame with a wrong TCRC. -/
def badFrame : List Byte := (idleFrame noCred true).take 207 ++ [0]

theorem test_frame_bytes :
    ((idleFrame noCred true).length == 208 && badFrame.length == 208 && badFrame != idleFrame noCred true &&
     parseFrame (idleFrame noCred true) == ⟨List.replicate 3 nullIn, 0, 0, false, noCred, true, true⟩ &&
     parseFrame (frameBytes [(9, List.replicate 64 5)] 2047 3 true (List.replicate 12 7) false) ==
       ⟨[⟨9, List.replicate 64 5, true⟩, nullIn, nullIn], 2047, 3, true, List.replicate 12 7, false, true⟩ &&
     !(parseFrame badFrame).tcrcOk) = true := by decide +kernel

/-! With the scramblers at zero the bytes of a frame pass as they are. -/

theorem scrByte_zero : ∀ b : Byte, scrByte 0 b = (0, b) := by decide +kernel

theorem zeros_getD (n : Nat) : ∀ k, (List.replicate n (0 : BitVec 31)).getD k 0 = 0 := by
  induction n with
  | zero => intro k; rfl
  | succ n ih => intro k; cases k with
    | zero => rfl
    | succ k => exact ih k

theorem rxFrame_zero (s : State) (p : Nat) (raw : List Byte) (h : (s.port p).rxScr = .replicate 8 0) :
    s.rxFrame p raw = (s.setPort p { s.port p with
      rxPos := ((s.port p).rxPos + raw.length) % (16 * max 1 (lanesOf (s.port p).rxGood).length) }, parseFrame raw) := by
  have fold (n : Nat) : ∀ (l : List (Nat × Byte)) (acc : List Byte),
      l.foldl (fun (a : List (BitVec 31) × List Byte) e =>
        let k := (lanesOf (s.port p).rxGood).getD (((s.port p).rxPos + e.1) % n) 0
        let (r, b) := scrByte (a.1.getD k 0) e.2
        (a.1.set k r, b :: a.2)) (List.replicate 8 0, acc) = (List.replicate 8 0, (l.map (·.2)).reverse ++ acc) := by
    intro l
    induction l with
    | nil => intro acc; rfl
    | cons e l ih =>
      intro acc
      have hg := zeros_getD 8
      simp only [List.foldl_cons, hg, scrByte_zero, List.set_replicate_self, ih, List.map_cons, List.reverse_cons, List.append_assoc,
        List.singleton_append]
  have hm : (raw.mapIdx (fun i b => (i, b))).map (·.2) = raw := by
    apply List.ext_getElem <;> simp
  simp only [State.rxFrame, h]
  rw [show (Vector.replicate 8 (0 : BitVec 31)).toList = List.replicate 8 0 from rfl, fold, hm, List.append_nil, List.reverse_reverse]
  have hv : (Vector.ofFn fun i : Fin 8 => (List.replicate 8 (0 : BitVec 31)).getD i.val 0) = .replicate 8 0 := by decide
  rw [hv, ← h]


/-- What a port 0 with its scramblers at zero does with a frame, given what the frame says. -/
theorem frame_ends {x : Port} {raw : List Byte} {f : LinkFrame} {t : State → Bool} (hx : x.rxScr = .replicate 8 0) (hf : parseFrame raw = f)
    (hw : ((withPort x).windowTick 0) = withPort x)
    (h : passes (if raw.length ≠ 208 then .fault .illFormed
      else .next (if !(withPort x).railsOn then withPort x
        else if !(x.live || (x.stage == .lock && x.aligned)) then withPort x
        else
          let s := (withPort x).setPort 0 { x with rxPos := (x.rxPos + raw.length) % (16 * max 1 (lanesOf x.rxGood).length) }
          if x.stage == .lock then s.frameLock 0 f
          else if !f.tcrcOk then (s.crcFail 0).sendNak 0
          else (s.frameIn 0 f).windowTick 0)) t = true) : passes (exec (.linkFrame 0 raw) (withPort x)) t = true := by
  have hr : (withPort x).rxFrame 0 raw = ((withPort x).setPort 0
      { x with rxPos := (x.rxPos + raw.length) % (16 * max 1 (lanesOf x.rxGood).length) }, f) := by
    rw [rxFrame_zero (withPort x) 0 raw hx, hf]; rfl
  simp only [exec, execLinkFrame]
  rw [show (0 : PortNo).val = 0 from rfl, hw, hr]
  exact h

theorem idle_read : parseFrame (idleFrame noCred true) = ⟨List.replicate 3 nullIn, 0, 0, false, noCred, true, true⟩ := by decide +kernel

theorem test_into_operation :
    portEnds (.linkFrame 0 (idleFrame noCred true)) (withPort { port0 .lock with aligned := true }) (fun x => x.goodTrail == 1) = true ∧
    portEnds (.linkFrame 0 (idleFrame noCred true)) (withPort { port0 .lock with aligned := true, goodTrail := 7, anew := true })
      (fun x => x.state == .up && x.inService) = true :=
  ⟨frame_ends rfl idle_read (by decide +kernel) (by decide +kernel), frame_ends rfl idle_read (by decide +kernel) (by decide +kernel)⟩

/-- What a lane sends comes back unscrambled at a receiver whose scramblers were loaded with it. -/
theorem test_scrambler :
    (let x := { upPort with txScr := upPort.reload.rxScr, rxScr := upPort.reload.rxScr }
     (scrBytes (scrLoad 2) (scrBytes (scrLoad 2) [1, 2, 3]).2).2 == [1, 2, 3] && (scrBytes (scrLoad 2) [0]).2 != [0] &&
     x.rxScr.toList.getD 2 0 == scrLoad 2) = true := by decide +kernel

theorem test_training_again :
    (portEnds (.trainingTimeout 0) (withPort (port0 .exchange)) (fun x => x.state == .align) &&
     portEnds (.trainingTimeout 0) (withPort { port0 .adapt with rateStep := 1, attempts := 1 }) (fun x => x.state == .align) &&
     portEnds (.failedRestart 0) { withPort (port0 .failed) with now := fcPerS } (fun x => x.state == .align) &&
     portEnds (.lb 0 (seqOf 0xC3 3)) (wide (offLnkCtl 0) 0x80409 (withPort (port0 .hold))) (fun x => x.state == .loopback && x.loopPeer &&
       x.rate == 2) &&
     portEnds (.farBightLoopbackEnd 0) (withPort { port0 .loopback with loopPeer := true }) (fun x => x.state == .align)) = true := by
  decide +kernel

/-! #### Operation -/

/-- A read of one flit. -/
def linkReq : Packet := memReq 0 0x40 8 []

theorem test_packet_bytes : (linkReq.flits.length == 1 && packetOf linkReq.bytes == some linkReq &&
    packetOf (placeBytes linkReq.bytes 0 [0x41]) == some { linkReq with addr := 0x41, tail := .bad } &&
    packetOf { linkReq with tail := .stomped }.bytes == some { linkReq with tail := .stomped }) = true := by decide +kernel

/-- Frames that return credits, that bring a flit, and that fail their check. -/
def credFrame : List Byte := idleFrame [2, 0, 0, 0, 0, 0, 0, 0, 0, 0, 0, 0] true
def flitFrame : List Byte := frameBytes [(0, linkReq.bytes)] 0 0 false noCred true

theorem cred_read : parseFrame credFrame = ⟨List.replicate 3 nullIn, 0, 0, false, [2, 0, 0, 0, 0, 0, 0, 0, 0, 0, 0, 0], true, true⟩ := by
  decide +kernel
theorem flit_read : parseFrame flitFrame = ⟨[⟨0, linkReq.bytes, true⟩, nullIn, nullIn], 0, 0, false, noCred, true, true⟩ := by decide +kernel
theorem bad_read : parseFrame badFrame = { parseFrame badFrame with flits := List.replicate 3 nullIn, tcrcOk := false } := by decide +kernel

theorem test_credits_return : passes (exec (.linkFrame 0 credFrame) (withPort { upPort with credits := .replicate 12 0 })) (fun u =>
    u.out == [] && (u.port 0).credits.toList.getD 9 1 == 0 && (u.port 0).credits.toList.getD 0 9 == 2) = true :=
  frame_ends rfl cred_read (by decide +kernel) (by decide +kernel)

theorem test_flit_arrives : passes (exec (.linkFrame 0 flitFrame) (withPort upPort)) (fun u =>
    u.out.contains (.toRouter 0 linkReq) && (u.port 0).rxSeq == 1 && (u.port 0).rxUsed.toList.getD 0 0 == 1 &&
    (u.port 0).rxq == [(0, 0, linkReq)]) = true := frame_ends rfl flit_read (by decide +kernel) (by decide +kernel)

theorem test_bad_trailer : passes (exec (.linkFrame 0 badFrame) (withPort upPort)) (fun u =>
    (u.port 0).crcErr == 1 && (u.port 0).waitResend && u.out.length == 2) = true :=
  frame_ends rfl bad_read (by decide +kernel) (by decide +kernel)

theorem test_nak : passes (exec (.nakTimeout 0) (withPort { upPort with waitResend := true })) (fun u =>
    u.out.contains (.linkFrame 0 (nullOut upPort 2047 true))) = true := by decide +kernel

/-- The codes of the ordered sets that have left, one for each round. -/
def setsOut (u : State) : List Nat := u.out.filterMap (fun o => match o with
  | .linkRound _ ((_, b) :: _) => if bits b.toNat 1 0 = 1 then some (bits b.toNat 9 2) else none
  | _ => none)

def os8 (code : Byte) (body : List Byte) : List (List Byte) := List.replicate 8 (osBytes code body)

theorem test_retrains :
    (passes (exec (.ackStallTimeout 0) (withPort { upPort with replay := [⟨0, 0, [], none, none⟩] })) (fun u => (u.port 0).state == .retrain &&
       (u.port 0).retrains == 1 && setsOut u == List.replicate 4 0x7E) &&
     portEnds (.retrain ⟨0, os8 0x7E []⟩) (withPort upPort) (fun x => x.state == .retrain) &&
     portEnds (.retrain ⟨0, os8 0x7E []⟩) (withPort { upPort with retrainAt := List.replicate 8 9 }) (fun x => x.state == .failed) &&
     portEnds (.retrain ⟨0, [(osBytes 0x7E []).take 15 ++ [1]]⟩) (withPort upPort) (fun x => x.state == .up) &&
     portEnds (.blockLockLoss 0 ⟨3, 0xFFFF⟩) (withPort upPort) (fun x => x.state == .retrain && x.lockLoss == 1) &&
     portEnds (.blockLockLoss 0 ⟨3, 0x7FFF⟩) (withPort upPort) (fun x => x.state == .up) &&
     portEnds (.lnkCtlRetrain 0 0x80402) (withPort upPort) (fun x => x.state == .retrain) &&
     portEnds (.retrainTimeout 0) (withPort { upPort with state := .retrain, under := .adapt }) (fun x => x.state == .adapt && !x.inService)) =
    true := by decide +kernel

theorem test_pauses_and_windows :
    (portEnds (.pause 0 (os8 0x50 [3, 0])) (withPort upPort) (fun x => x.pauseEnd == some (some 3000)) &&
     portEnds (.pause 0 (os8 0x50 [0xFF, 0xFF])) (withPort upPort) (fun x => x.pauseEnd == some none) &&
     portEnds (.pause 0 (os8 0x50 [0, 0])) (withPort { upPort with pauseEnd := some none }) (fun x => x.pauseEnd == none) &&
     portEnds (.pauseExpiry 0) (withPort { upPort with pauseEnd := some (some 0) }) (fun x => x.pauseEnd == none) &&
     passes (exec (.send 0 0x10005) (withPort upPort)) (fun u => u.out == [osRound upPort 0 (osBytes 0x50 [5, 0])]) &&
     portEnds (.windowQuiet 0) (withPort { upPort with window := some (20000, 30000) }) (fun x => x.quiet) &&
     passes (exec (.linkWindow 0) (withPort { upPort with window := some (0, 30000) })) (fun u => (u.port 0).state == .window &&
       setsOut u == List.replicate 4 0xE1) &&
     portEnds (.windowEnd 0) (withPort { upPort with state := .window, window := some (0, 0) }) (fun x => x.state == .retrain && x.window == none) &&
     portEnds (.windowEnd 0) (withPort { port0 .window with window := some (0, 0) }) (fun x => x.state == .align)) = true := by decide +kernel

/-- The one control packet that has left port 0. -/
def ctlSent (u : State) (f : Packet → Bool) : Bool := match linked u with
  | [(0, 11, k)] => k.typ == 13 && k.payload.length == 44 && f k
  | _ => false

theorem test_control_packets :
    (passes (exec (.echo 0 7) (withPort upPort)) (fun u => ctlSent u (fun k => k.payload.getD 0 0 == 0x11 && fieldLE k.payload 8 8 == 7)) &&
     portEnds (.echoReply 0 0 0 0) { withPort upPort with lay := { State.reset.lay with time := 90 } } (fun x => x.rtt == 90) &&
     passes (exec (.echoTimer 0) { withPort upPort with now := fcPerS }) (fun u => ctlSent u (fun k => k.payload.getD 0 0 == 0x10) &&
       (u.port 0).echoAt == fcPerS) &&
     passes (exec (.laneQuery 0) (withPort { upPort with emm := .replicate 8 5 })) (fun u => ctlSent u (fun k =>
       k.payload.getD 0 0 == 0x13 && k.payload.getD 1 0 == 0xFF && k.payload.getD 15 0 == 5)) &&
     passes (exec (.laneReport 0 []) (withPort upPort)) (fun u => u == withPort upPort)) = true := by decide +kernel

/-! #### LNK_CTL_p -/

/-- Port 0 offline. -/
def offline0 : State := wide (offLnkCtl 0) 0x80401 (withPort (port0 .hold))

/-- 64 bits and more of PRBS7 from a register of ones, then one that is wrong. -/
def prbs7 : List Bool := (prbsGo 0 0x7F 80).2 ++ [!((prbsGo 0 0x7F 81).2.getD 80 false)]

theorem test_prbs : ((prbsGo 0 0x7F 127).1.toNat % 128 == 127 && (PrbsChk.start.run' 0 prbs7).2 == 1 && (PrbsChk.start.run' 0 prbs7).1.sync) = true := by
  decide +kernel

theorem test_link_control :
    (portEnds (.offline 0 true) (withPort upPort) (fun x => x.state == .hold && x.holdCause == 7 && !x.inService) &&
     portEnds (.offline 0 false) offline0 (fun x => x.state == .align) &&
     passes (exec (.nearBightLoopback 0 0x80411) offline0) (fun u => (u.port 0).state == .loopback && tsSent u == [0x5A]) &&
     passes (exec (.nearBightLoopback 0 0x80491) offline0) (fun u => (u.port 0).state == .loopback && u.out.contains (.linkSet 0 kPRBS 1)) &&
     passes (exec (.farBightLoopback 0 0x80421) offline0) (fun u => (u.port 0).state == .loopback && tsSent u == [0xC3]) &&
     portEnds (.prbsTest 0 0x80431 100 (prbs7 :: List.replicate 7 [])) offline0 (fun x => x.state == .test && x.prbsErr.toList.getD 0 0 == 1 &&
       x.prbsSync == 1) &&
     passes (exec (.injSingle 0 0x85400) (withPort { port0 .align with inService := false })) (fun u => u.out == [.linkSet 0 kINJECT 10]) &&
     passes (exec (.injBurst 0 0x088C00) (withPort (port0 .align))) (fun u => u.out == [.linkSet 0 kINJECT 65]) &&
     portEnds (.injSingle 0 0x85400) (withPort upPort) (fun x => x.inject.isSome) &&
     portEnds (.injBurst 0 0x088C00) (withPort upPort) (fun x => x.inject.isSome) &&
     portEnds (.errClr 0 0x1080400) (withPort { upPort with crcErr := 3, lockLoss := 2 }) (fun x => x.crcErr == 0 && x.lockLoss == 0)) = true := by
  decide +kernel

/-! ### 10 Lay time and the event calendar -/

def withLay (l : Lay) : State := { withPort upPort with lay := l }
def lay0 : Lay := State.reset.lay
def locked0 : Lay := { lay0 with state := 2, firstDone := true, everLocked := true, time := 999999500, pps := true }

theorem test_lay_tick :
    (passes (exec .layTick (withLay lay0)) (fun u => u.lay.frac == 2684354560 && u.lay.time == 0 && u.now == 16000001) &&
     passes (exec .layTick (withLay { lay0 with frac := 2684354560 })) (fun u => u.lay.time == 1 && u.lay.frac == 1073741824) &&
     passes (exec .layTick State.reset) (fun u => u == { State.reset with now := 1 })) = true := by decide +kernel

theorem test_pps :
    ((withLay lay0).isMaster &&
     passes (exec .ppsEdge (withLay { lay0 with second := some 3 })) (fun u => u.lay.time == 3000000000 && u.lay.state == 2) &&
     passes (exec .ppsEdge (withLay locked0)) (fun u => u.lay.freq == 128000 && u.lay.slew == 15 && u.lay.offset == 127) &&
     passes (exec .ppsEdge (withLay { locked0 with time := 999998000 })) (fun u => u.lay.ppsIgn == 1 && u.lay.freq == 0) &&
     passes (exec .ppsTimeout { withLay locked0 with now := 4000000000 }) (fun u => u.lay.state == 3)) = true := by decide +kernel

theorem test_sync :
    (passes (exec (.syncReq 0 9) (withLay locked0)) (fun u => match linked u with
       | [(0, 11, k)] => k.payload.take 16 == [2, 6, 0, 0, 0, 0, 0, 0, 9, 0, 0, 0, 0, 0, 0, 0] && fieldLE k.payload 16 8 == 999999500
       | _ => false) &&
     passes (exec .syncTimer (withLay locked0)) (fun u => (linked u).length == 1 && u.lay.syncDue == 16000000 + 25600) &&
     (let s := withLay { locked0 with parent := some 0 }
      passes (exec (.syncResp 0 2 true 3 4 999999400 999999460 999999460) s) (fun u => u.lay.freq == 2560 && u.lay.hops == 5 && u.lay.master == 3) &&
      passes (exec (.syncResp 0 2 true 3 4 999999400 999999460 999999460) (s.setPort 0 { upPort with syncBest := [(50, 16000000)] }))
        (fun u => u.lay.discarded == 1 && u.lay.freq == 0)) &&
     (withLay locked0).bestParent == none &&
     passes (exec .parentTimeout (withLay locked0)) (fun u => u.lay.state == 3)) = true := by decide +kernel

def dueDesc : State :=
  let b := descOf 5 []
  { open0 with
    descs := [(sqKey, ⟨b, 0, none, 5, false, false, false, false, false, 9⟩)]
    lay := { lay0 with time := 100, cal := [⟨90, 1, true, .desc sqKey, 40⟩, ⟨90, 0, false, .sample 0, 0⟩, ⟨80, 2, false, .desc sqKey, 41⟩] } }

theorem test_calendar :
    (passes (exec .calendarFire open0) (fun u => u == open0) &&
     firstDue dueDesc.dues == some (.pkg ⟨80, 2, false, .desc sqKey, 41⟩) &&
     passes (exec .calendarFire dueDesc) (fun u => (u.desc? sqKey).any (fun d => d.ready && !d.late && d.aux == 100) && u.lay.cal.length == 2 &&
       passes (exec .calendarFire u) (fun v => v.lay.cal.length == 1 && (SMap.find? v.mgmt.samples 0).isSome &&
         passes (exec .calendarFire v) (fun w => w.lay.cal == [] && w.lay.lateCnt == 1)))) = true := by decide +kernel

/-- A job of tile 0 on partition 0 whose release at offset 0x9000 is due. -/
def phased : State :=
  let s := withJob { core with tenant := 1 } job01
  { s with
    lay := { lay0 with time := 100 }
    parts := SMap.set s.parts 0 { s.part 0 with cal := [(90, 7, false, .phase ⟨0, 0⟩ 0x9000 77)] } }

theorem test_phase :
    (phased.dues == [.part 0 90 7 false (.phase ⟨0, 0⟩ 0x9000 77)] && (phased.job? ⟨0, 0⟩).isSome &&
     passes (exec (.phaseRelease 0) phased) (fun u => fieldLE ((u.tile 0).scratch.readN 0x9000 8) 0 8 == 77 && (u.part 0).cal == [])) = true := by
  decide +kernel

/-! ### 11 Tenants, security and debug -/

/-- The management controller runs, and the rails are up. -/
def plinthOn (s : State) : State := { s with mgmt := { s.mgmt with standby := true } }

/-- The command is answered so, in a state that passes the check. -/
def replies (i : Instr) (s : State) (p : MgmtPath) (code detail : Nat) (data : List Byte) (f : State → Bool) : Bool :=
  passes (exec i s) (fun u => u.out.getLast? == some (.response p code detail data) && f u)

def withSec (c : Sec) : State := plinthOn { open0 with sec := c }
def sec0 : Sec := { State.reset.sec with debug := .locked }

def idle0 : Part := { Part.fresh 15 with psw := { Psw.fresh with state := .idle, verdict := .inService, tenant := 3 } }

def changing0 : State :=
  { withSec sec0 with parts := [(0, idle0)], tiles := [(0, { core with tenant := 3, scratch := [(0x7FFF, 1), (0x8000, 2)] })] }

theorem test_tenant_change :
    (passes (exec (.tenAssign 0x850) changing0) (fun u => (u.sec.tenChange).any (fun c => c.part == 0 && c.tenant == 5) && (u.tile 0).tenant == 0 &&
       passes (exec (.tenAssign 0x840) u) (fun v => v.sec.tenStatus == 5 && v.sec.tenChange == u.sec.tenChange) &&
       passes (exec .tenantChangeDone u) (fun v => (v.psw 0).tenant == 5 && (v.tile 0).tenant == 5 && (v.tile 0).scratch == [(0x7FFF, 1)] &&
         v.sec.tenChange == none)) &&
     passes (exec (.tenAssign 0x85C) changing0) (fun u => u.sec.tenStatus == 1) &&
     passes (exec (.tenAssign 0xC50) changing0) (fun u => u.sec.tenStatus == 2) &&
     passes (exec (.tenAssign 0x850) { changing0 with sec := { sec0 with debug := .unlocked } }) (fun u => u.sec.tenStatus == 4)) = true := by
  decide +kernel

def window1 : Word := BitVec.ofNat 64 (7 + 256 * 4 + 2 ^ 32 * 8)

theorem test_windows :
    (passes (exec (.windowEnable 0 1 window1) open0) (fun u => u.reg 0x201088 0 == window1.toNat &&
       passes (exec (.windowEnable 0 1 1) u) (fun v => v.reg 0x201088 0 == window1.toNat)) &&
     passes (exec (.windowEnable 0 1 7) open0) (fun u => u.reg 0x201088 0 == 6 && SMap.find? u.sec.winErr 1 == some 1)) = true := by
  decide +kernel

/-- A key command with GO. -/
def keyV (op t id : Nat) : Word := BitVec.ofNat 64 (op + 8 * t + 1024 + 65536 * id)
def blob : List Byte := [1, 0, 5, 0, 9, 0] ++ List.replicate 74 0

theorem test_keys :
    (passes (exec (.generate (keyV 0 5 0)) (withSec sec0)) (fun u => SMap.find? u.sec.keys 5 == some sec0.nextKey && u.sec.keyStatus == 0 &&
       passes (exec (.generate (keyV 0 5 0)) u) (fun v => v.sec.keyStatus == 2 && v.sec.keys == u.sec.keys) &&
       passes (exec (.erase (keyV 1 5 0)) u) (fun v => v.sec.keys == [] && v.sec.keyStatus == 0)) &&
     passes (exec (.generate (keyV 0 0 0)) (withSec sec0)) (fun u => u.sec.keyStatus == 1) &&
     passes (exec (.importKey (keyV 2 5 9) (.ok blob) true) (withSec { sec0 with sessions := [(0, true)] })) (fun u =>
       (u.fabOf 5).map (·.id) == [9] && u.sec.keyStatus == 0 &&
       passes (exec (.eraseFabric (keyV 3 5 9)) u) (fun v => v.fabOf 5 == [] && v.sec.keyStatus == 0)) &&
     passes (exec (.importKey (keyV 2 5 9) (.ok blob) false) (withSec { sec0 with sessions := [(0, true)] })) (fun u => u.sec.keyStatus == 6) &&
     passes (exec (.eraseFabric (keyV 3 5 9)) (withSec sec0)) (fun u => u.sec.keyStatus == 3)) = true := by decide +kernel

/-- A token for device 0 with a nonce of zeros, SCOPE 3, valid for 600 s. -/
def token : List Byte := [1, 3, 0, 0] ++ leBytes 8 0 ++ List.replicate 16 0 ++ leBytes 4 600 ++ List.replicate 192 0
def challenged : State := withSec { sec0 with nonce := some (List.replicate 16 0, 0), keys := [(5, 0)] }

theorem test_unlock :
    (passes (exec (.fidChal (some .tray)) (withSec sec0)) (fun u => (u.sec.nonce).any (fun n => n.1.length == 16 && n.2 == 0)) &&
     replies (.fidLoad (some .tray) [] ⟨true, true⟩) challenged .tray 2 4 [] (fun u => u.sec == challenged.sec) &&
     token.length == 224 && challenged.tokenOk token &&
     replies (.fidLoad (some .tray) token ⟨true, true⟩) challenged .tray 0 0 [] (fun u => u.sec.debug == .unlocked && u.sec.scope == 3 &&
       u.sec.keys == [] && u.sec.resetDue) &&
     passes (exec (.fidLoad (some .tray) token ⟨true, false⟩) challenged) (fun u => u.sec.unlockFail == 1 && u.sec.debug == .locked)) = true := by
  decide +kernel

theorem test_jtag :
    (passes (exec .boundaryDrive challenged) (fun u => u.sec.boundary && u.sec.keys == [] && u.tiles == [] && u.sec.zeroCount == 1 &&
       passes (exec .boundaryDriveExit u) (fun v => !v.sec.boundary && v.sec.resetDue && v.boot.step == 0) &&
       passes (exec .boundaryDriveExit { u with now := u.now + 2 * fcPerMs }) (fun v => !v.sec.boundary && v.boot.step == 1 && v.boot.kind == 3)) &&
     passes (exec (.internalScan 1) (withSec { sec0 with debug := .unlocked, scope := 3, keys := [(5, 0)] })) (fun u =>
       u.sec.keys == [] && u.sec.resetDue) &&
     passes (exec (.internalScan 1) challenged) (fun u => u == challenged)) = true := by decide +kernel

def svns (l : List Nat) : Vector Nat 6 := Vector.ofFn (fun i => l.getD i.val 0)

theorem test_svn :
    (passes (exec (.svnCommit .tray) (withSec { sec0 with running := svns [3, 0, 1, 0, 0, 63] })) (fun u =>
       u.fuses.svn == svns [3, 0, 1, 0, 0, 63]) &&
     (let s := withSec { sec0 with running := svns [3] }
      replies (.svnCommit .tray) { s with mgmt := { s.mgmt with fallback := true } } .tray 6 0xFF [] (fun u => u.fuses == s.fuses)) &&
     replies (.svnCommit .host) (withSec sec0) .host 3 0 [] (fun u => u.fuses == State.reset.fuses)) = true := by decide +kernel

theorem test_spdm :
    (let s := withSec { sec0 with sessions := [(7, false), (8, true)], nextSess := 9 }
     replies (.getVersion .tray) s .tray 0 0 [0, 0x13] (fun u => u.sec == s.sec) &&
     replies (.negotiateAlgorithms .host false) s .host 1 0 [] (fun u => u.sec == s.sec) &&
     replies (.getCertificate .tray 1) s .tray 1 0 [] (fun _ => true) && replies (.challenge .tray 1 []) s .tray 1 0 [] (fun _ => true) &&
     replies (.keyExchange .tray) s .tray 0 0 [9, 0, 0, 0] (fun u => u.sec.sessions == [(7, false), (8, true), (9, false)]) &&
     replies (.keyExchange .tray) (withSec { sec0 with sessions := [(1, true), (2, true), (3, true), (4, true)] }) .tray 0x0A 0 [] (fun _ => true) &&
     replies (.finish .tray 7 true) s .tray 0 0 [] (fun u => u.sec.sessions == [(7, true), (8, true)]) &&
     replies (.finish .tray 7 false) s .tray 6 0 [] (fun u => u.sec.sessions == [(8, true)]) &&
     replies (.endSession .tray 8) s .tray 0 0 [] (fun u => u.sec.sessions == [(7, false)]) &&
     replies (.heartbeat .tray 8) s .tray 0 0 [] (fun _ => true) && replies (.keyUpdate .tray 8) s .tray 0 0 [] (fun _ => true) &&
     replies (.heartbeat .tray 7) s .tray 4 0 [] (fun u => u.sec == s.sec)) = true := by decide +kernel

theorem test_spdm_free :
    (let s := withSec sec0
     ([.getCapabilities .tray, .negotiateAlgorithms .tray true, .getDigests .tray, .getCertificate .tray 0, .challenge .tray 0 [],
       .getMeasurements .tray 3 []] : List Instr).all (fun i => passes (exec i s) (fun u => u.out.length == 1 && u.sec == s.sec))) = true := by
  decide +kernel

/-! ### 12 Power and 13 Thermals -/

/-- A started descriptor of the class and body of `b`, in a package whose start is over and whose partitions 0 and 2 are as given. -/
def powered (b : List Byte) (p : Part) : State :=
  { started b with
    boot := { State.reset.boot with ready := true }
    parts := [(0, p), (2, p)]
    mgmt := { State.reset.mgmt with standby := true } }

def part (st : PState) : Part := { Part.fresh 15 with psw := { Psw.fresh with state := st, verdict := .inService } }

theorem test_hints :
    (let w := descOf 6 ([0, 0] ++ leBytes 2 5 ++ [3, 9])
     passes (exec (.hintWindow sqKey) (powered w (part .idle))) (fun u => (u.part 2).floor == 3 && (u.part 2).ceil == 9 && endedAs w u 0 0 0) &&
     (let s := powered w (part .idle)
      passes (exec (.hintWindow sqKey) { s with pwr := { s.pwr with alerting := true } }) (fun u => (u.part 0).newWindow == some (3, 9) &&
        (u.part 0).floor == (part .idle).floor)) &&
     (let h := descOf 6 ([1, 0, 0, 0, 0, 0] ++ leBytes 2 500)
      passes (exec (.hintHostLimit sqKey) (powered h (part .idle))) (fun u => u.pwr.hostW == 500 && u.limit.1 == 500 && endedAs h u 0 0 500)) &&
     (let z := descOf 6 [2]
      (powered z (part .idle)).sleepBar (some sqKey) == 0 &&
      passes (exec (.hintSleep sqKey) (powered z (part .idle))) (fun u => u.pwr.rails == .ps3 && u.descs == [] &&
        (List.range 12).all (fun n => (u.psw n).state == .off)) &&
      passes (exec (.hintSleep sqKey) (powered z (part .active))) (fun u => endedAs z u 0xD 1 0))) = true := by decide +kernel

theorem test_park :
    (let b (op : Byte) := descOf 7 (leBytes 2 5 ++ [op])
     passes (exec (.park sqKey) (powered (b 0) (part .idle))) (fun u => (u.psw 0).state == .parked && (u.stack 2).selfRef && endedAs (b 0) u 0 0 0) &&
     passes (exec (.park sqKey) (powered (b 0) (part .active))) (fun u => endedAs (b 0) u 6 0 0 && (u.psw 2).state == .active) &&
     passes (exec (.unpark sqKey) (powered (b 1) (part .idle))) (fun u => endedAs (b 1) u 6 0 0) &&
     passes (exec (.unpark sqKey) (powered (b 1) (part .parked))) (fun u => (u.part 0).cal == [(1, 0, false, .unparkStep sqKey)] &&
       (u.desc? sqKey).any (·.busy)) &&
     (let s := powered (b 1) (part .parked)
      let s := { s with descs := [(sqKey, ⟨b 1, 1, none, 5, true, false, true, false, false, 1⟩)], now := 16000 }
      s.lay.inSlot && namedSet ⟨b 1, 1, none, 5, true, false, true, false, false, 1⟩ 0x10 == [0, 2])) = true := by decide +kernel

/-- The rails are up with a limit of 1,200 W; partition 0 is as given. -/
def looped (p : Part) (w : Nat) : State :=
  { open0 with
    parts := [(0, p)]
    pwr := { open0.pwr with usW := List.replicate 10 w, rampW := 2000, railSet := .replicate 6 1000 } }

def mid : Part := { part .active with opPt := 8, duty := 10, floor := 2, ceil := 12, ageCeil := 15 }

theorem test_duty :
    (passes (exec .dutyEvaluation (looped mid 1300)) (fun u => (u.part 0).duty == 8) &&
     passes (exec .dutyEvaluation (looped mid 1000)) (fun u => (u.part 0).duty == 11)) = true := by decide +kernel

theorem test_operating_point :
    (passes (exec .opEvaluation (looped { mid with dutyLow := true } 10)) (fun u => (u.part 0).opPt == 7 && (u.part 0).stepDue == some false) &&
     passes (exec .opEvaluation (looped mid 10)) (fun u => (u.part 0).raiseArmed && (u.part 0).opPt == 8) &&
     passes (exec (.opStep 0) (looped { mid with stepDue := some true } 10)) (fun u => (u.part 0).opPt == 9 && (u.part 0).stepDue == none) &&
     passes (exec (.opStep 0) (looped { mid with stepDue := some false } 10)) (fun u => (u.part 0).opPt == 8 && (u.part 0).volt == 710) &&
     passes (exec (.droopTrip 0) (looped mid 10)) (fun u => (u.part 0).stretch == .half) &&
     passes (exec (.droopRecovery 0) (looped { mid with stretch := .half } 10)) (fun u => (u.part 0).stretchEnd == 32)) = true := by
  decide +kernel

theorem test_ramp_and_notice :
    (let r := { looped mid 10 with lay := { State.reset.lay with time := 500000000 } }
     passes (exec .rampStep r) (fun u => !u.pwr.rampFirst && u.pwr.rampPeak == 0 && u.pwr.rampAt == 1 &&
       passes (exec .rampStep u) (fun v => v == u)) &&
     passes (exec .rampStep (looped mid 10)) (fun u => u == looped mid 10) &&
     (let s := looped mid 10
      passes (exec .limitNoticeWindow { s with pwr := { s.pwr with noticeEnd := some 0 } }) (fun u => u.pwr.noticeEnd == none &&
        u.pwr.noticed == some s.limit))) = true := by decide +kernel

/-- Partition 0 is as given, and the ramp has just room for it. -/
def roomy (p : Part) : State :=
  { powered (descOf 7 (leBytes 2 1 ++ [1])) p with
    now := 16000
    pwr := { open0.pwr with usW := [], rampW := Config.activePower 0 p.opPt 0 } }

/-- The same with no room: 2,000 W are in use already. -/
def crowded (p : Part) : State := { roomy p with pwr := { open0.pwr with usW := [2000], rampW := 1000 } }

theorem test_room (p : Part) : (roomy p).fitsRamp 0 = true ∧ (crowded p).fitsRamp 0 = false := by
  have h1 : (roomy p).partTemp 0 = 0 := rfl
  have h2 : ((roomy p).part 0) = p := rfl
  constructor
  · simp only [State.fitsRamp, h1, h2, decide_eq_true_eq]
    show 0 + Config.activePower 0 p.opPt 0 ≤ Config.activePower 0 p.opPt 0
    omega
  · simp only [State.fitsRamp, decide_eq_false_iff_not]
    show ¬ (2000 + Config.activePower 0 ((crowded p).part 0).opPt ((crowded p).partTemp 0) ≤ 1000)
    omega

/-- What the commands of the ramp need besides room: a waiting descriptor, and the last of an unpark. -/
theorem test_ramp_ready :
    (let w := roomy { mid with waiting := [sqKey] }
     (w.part 0).waiting == [sqKey] && decide (w.pwr.admitLast + 10 * fcPerUs ≤ w.now) && w.railsOn &&
     (let d : Desc := ⟨descOf 7 (leBytes 2 1 ++ [1]), 0, none, 5, true, false, true, false, false, 0⟩
      let s := { roomy (part .parked) with descs := [(sqKey, d)] }
      s.lay.inSlot && (namedSet d 0x10).drop d.aux == [0] && (s.psw 0).state == .parked && fieldLE d.bytes 1 1 == 7)) = true := by decide +kernel

theorem test_alert :
    (passes (exec (.vralert 2) (looped mid 10)) (fun u => u.pwr.alerting && u.pwr.alerts == 4 && (u.part 0).opPt == 0 && (u.part 0).alertOp == some 8 &&
       passes (exec .vralertRelease { u with pwr := { u.pwr with newHostW := some 700 } }) (fun v => !v.pwr.alerting && v.pwr.hostW == 700 &&
         (v.part 0).target == some 8))) = true := by decide +kernel

theorem test_energy :
    (let e : EnergyUs := ⟨List.replicate 12 2, List.replicate 12 1, 5, 6, []⟩
     passes (exec (.energyModel e) (looped { mid with dutyWhy := [4] } 10)) (fun u => (u.part 0).energyUj == 3 && u.pwr.energyUj == 47 &&
       u.pwr.spineUj == 11 && u.pwr.thrTime.toList == [0, 0, 0, 1, 0, 0, 0, 0, 0])) = true := by decide +kernel

/-- All die sensors read 50 °C but for sensor 3. -/
def reads (r : SensorRead) : List SensorRead := (List.replicate 54 (some 200)).set 3 r

theorem test_sensors :
    (passes (exec (.thermalSensorRead (reads (some 405))) open0) (fun u => u.thm.hot && SMap.get 0 u.thm.temps 3 == 405 && u.thm.failed == []) &&
     passes (exec (.thermalSensorRead (reads (some 601))) open0) (fun u => u.thm.failed == [3] && !u.thm.hot) &&
     passes (exec (.thermalSensorRead (reads none)) { open0 with thm := { open0.thm with fails := [(3, 2)] } }) (fun u => u.thm.failed == [3]) &&
     passes (exec .hotClear { open0 with thm := { open0.thm with hot := true, coolSince := some 0 }, now := 160000000 }) (fun u => !u.thm.hot) &&
     passes (exec .inletAge (plinthOn { open0 with thm := { open0.thm with inletAt := some 0, inletSrc := 1 }, now := 20000000000 })) (fun u =>
       u.thm.inletSrc == 2)) = true := by decide +kernel

theorem test_thermal_model :
    (let s := { open0 with thm := { open0.thm with inletSrc := 1, inlet := 100 } }
     passes (exec (.steadyWindow [1000] [100] [260] [220] false false false) s) (fun u => u.thm.thetaDie == 4000 && u.thm.thetaStk == 3000 &&
       passes (exec .thermalCap u) (fun v => v.pwr.thermW == 1675)) &&
     passes (exec (.steadyWindow [1000] [100] [260] [220] false false true) s) (fun u => u == s) &&
     passes (exec (.steadyWindow [1000, 1200] [100] [260] [220] false false false) s) (fun u => u == s) &&
     passes (exec (.steadyWindow [1000, 1200] [100] [400] [220] false false true) s) (fun u => u.thm.windows == 1 && u.thm.thetaStk == 0)) = true := by
  decide +kernel

/-- The example of 13 R370 and R371: 1,080 W, an inlet of 32.00 °C, dies at 78.20 °C and stacks at 70.40 °C. -/
theorem test_spec_thermal :
    (let s := { open0 with thm := { open0.thm with inletSrc := 1, inlet := 128 } }
     passes (exec (.steadyWindow (List.replicate 5 1080) [128] [313, 313, 313, 313, 312] [282, 282, 282, 281, 281] false false false) s) (fun u =>
       u.thm.thetaDie == 4278 && u.thm.thetaStk == 3556 && passes (exec .thermalCap u) (fun v => v.pwr.thermW == 1402))) = true := by
  decide +kernel

theorem test_ageing :
    (let p := { part .idle with opPt := 4, ageDue := true, slack := (Vector.replicate 16 []).set 4 [5, 9] }
     passes (exec (.ageingMeasurement 0 3 false) (looped p 0)) (fun u => !(u.part 0).ageDue && (u.part 0).slack.toList.getD 4 [] == [3, 5, 9] &&
       (u.part 0).ageOffset.toList.getD 4 0 == 1 && u.mgmt.writes.map (·.1) == [4])) = true := by decide +kernel

/-! ### 14 The Cleat and wake -/

def cleat0 : Cleat := State.reset.cleat
def source (t : BitVec 3) (en pend insvc : Bool) : Source := { Source.fresh with target := t, en := en, pend := pend, insvc := insvc }
def withCleat (c : Cleat) : State := plinthOn { open0 with cleat := c }

/-- Sources 5 and 9 are deliverable to target 1, source 12 is in service there. -/
def three : State := withCleat { cleat0 with src := [(5, source 1 true true false), (9, source 1 true true false), (12, source 1 true true true)] }

theorem test_complete :
    (passes (exec (.complete 1 12) three) (fun u => u.cleat.source 12 == source 1 true true false && u.cleat.best 1 == some 12) &&
     passes (exec (.complete 2 12) three) (fun u => u == { three with cleat := { three.cleat with badCompl := 1 } }) &&
     passes (exec (.complete 1 0) three) (fun u => u.cleat.badCompl == 1) &&
     passes (exec (.sourceEdge 12) { three with cleat := { three.cleat with src := [(12, source 1 true false true)] } }) (fun u =>
       u.cleat.source 12 == source 1 true true true)) = true := by decide +kernel

theorem test_claim :
    (three.cleat.best 1 == some 9 && decide (three.cleat.src.map (·.1)).Nodup &&
     passes (exec (.claim 1) three) (fun u => u.out == [.claim 1 9] && u.cleat.source 9 == source 1 true false true) &&
     passes (exec (.claim 2) three) (fun u => u.out == [.claim 2 0]) &&
     passes (exec (.claim 2) { three with cleat := { three.cleat with wasHigh := 4 } }) (fun u => u.out == [.claim 2 2047])) = true := by
  decide +kernel

theorem test_source_writes :
    (passes (exec (.set 7 true) three) (fun u => u.cleat.source 7 == source 0 false true false) &&
     passes (exec (.pendClear 9) three) (fun u => u.cleat.source 9 == source 1 true false false && u.cleat.best 1 == some 5) &&
     passes (exec (.sourceEnable 7 0xA) three) (fun u => u.cleat.source 7 == source 2 true false false) &&
     passes (exec (.sourceEnable 9 0x12) three) (fun u => u.cleat.source 9 == source 1 false false false)) = true := by decide +kernel

/-- The Belay watches in PS3, with entry 3 naming source 1,500. -/
def watching : State :=
  { State.reset with
    mgmt := { State.reset.mgmt with standby := true }
    pwr := { State.reset.pwr with rails := .ps3 }
    cleat := { cleat0 with belay := [(3, (1500, true))], watching := true } }

theorem test_belay :
    (passes (exec (.belayLatch 1500) watching) (fun u => u.cleat.latched == 8 && u.boot.step == 1 && u.boot.kind == 2 &&
       (let v := { u with pwr := { u.pwr with rails := .on }, boot := { u.boot with step := 4 } }
        passes (exec .belayWake v) (fun w => w.cleat.wakeSrc == 1500 && w.cleat.wakeCnt == 1 && (w.cleat.source 1500).pend && !w.cleat.watching))) &&
     passes (exec .belayWake { watching with pwr := { watching.pwr with rails := .on }, boot := { watching.boot with step := 4, kind := 2 } })
       (fun w => w.cleat.wakeSrc == 1530 && w.cleat.wakeCnt == 0)) = true := by decide +kernel

theorem test_wakes :
    (passes (exec .inBandInterrupt watching) (fun u => (u.cleat.source 1531).pend) &&
     passes (exec .plinthTemperature115 watching) (fun u => (u.cleat.source 1532).pend) &&
     passes (exec .testLogicResetExit watching) (fun u => (u.cleat.source 1534).pend) &&
     passes (exec (.pciePerstN true) { watching with boot := { watching.boot with perst := false } }) (fun u => (u.cleat.source 1529).pend && u.boot.perst) &&
     passes (exec (.pciePerstN false) (plinthOn { ringsOn with boot := { ringsOn.boot with perst := true } })) (fun u => u.rings == [] && !cfgEn (u.rngCfg 6)) &&
     replies (.wake .tray) watching .tray 0 0 [] (fun u => u.boot.step == 1 && (u.cleat.source 1530).pend) &&
     replies (.wake .tray) { watching with pwr := State.reset.pwr } .tray 4 0 [] (fun u => u.boot == watching.boot)) = true := by decide +kernel

/-! ### 15 Package management -/

/-- Standby power, the rails up and the start over. -/
def tray0 : State := plinthOn { open0 with boot := { open0.boot with step := 11 } }
def withMgmt (m : Mgmt) : State := { tray0 with mgmt := { m with standby := true } }
def mgmt0 : Mgmt := State.reset.mgmt
/-- Standby power alone. -/
def ps5 : State := { State.reset with mgmt := { mgmt0 with standby := true } }

theorem test_mctp :
    (replies (.setEndpointId .host 9) tray0 .host 0 0 [] (fun u => u.mgmt.eidHost == 9 && u.mgmt.eidTray == mgmt0.eidTray) &&
     passes (exec (.mctpDrop .tray 2 10) tray0) (fun u => u.mgmt.dropped == 1 && u.out == []) &&
     passes (exec (.mctpDrop .tray 1 1025) tray0) (fun u => u.mgmt.dropped == 1) &&
     passes (exec (.setdasa 9) tray0) (fun u => u.mgmt.i3c && passes (exec .rstdaa u) (fun v => !v.mgmt.i3c)) &&
     replies (.getpldmversion .tray 3) tray0 .tray 0x83 0 [] (fun _ => true) &&
     replies (.getpldmtypes .tray) tray0 .tray 0 0 [0x25, 0, 0, 0, 0, 0, 0, 0] (fun _ => true) &&
     ([.gettid .tray, .getpldmversion .tray 0, .getpldmcommands .tray 0, .getpdrrepositoryinfo .host] : List Instr).all (fun i =>
       passes (exec i tray0) (fun u => u.out.length == 1 && u.pwr == tray0.pwr))) = true := by decide +kernel

theorem test_pdr : (match exec (.getpdr .tray 0) tray0 with | .next u => u.parts == tray0.parts | _ => false) = true := by
  simp [exec, execGetpdr, State.type2, State.served, State.reach, tray0, plinthOn, State.heard, State.freeAnswer, State.emit, State.draw]
  decide +kernel

theorem test_sensors_read :
    (replies (.getsensorreading .tray 2) tray0 .tray 0 0 (leBytes 4 1200) (fun _ => true) &&
     replies (.getsensorreading .tray 2) ps5 .tray 0 2 [] (fun _ => true) &&
     replies (.getsensorreading .tray 0) tray0 .tray 0x80 0 [] (fun _ => true) &&
     replies (.getstatesensorreadings .tray 0xA0) { tray0 with parts := [(0, part .parked)] } .tray 0 0 [3] (fun _ => true) &&
     replies (.getnumericeffectervalue .tray 0x101) { tray0 with pwr := { tray0.pwr with rackW := 900 } } .tray 0 0 (leBytes 4 900) (fun _ => true) &&
     replies (.getstateeffecterstates .tray 0x110) { tray0 with parts := [(0, { part .idle with rackVerdict := some false })] } .tray 0 0 [2] (fun _ => true) &&
     replies (.getsensorreading .tray 1) (withMgmt { mgmt0 with romRecov := true }) .tray 0x20 0 [] (fun _ => true)) = true := by decide +kernel

theorem test_events :
    (let s := withMgmt { mgmt0 with queue := [(6, 3, 9), (7, 1, 10)], lostNew := 0, receiver := none }
     replies (.pollforplatformeventmessage .tray) s .tray 0 0 (leBytes 2 6 ++ leBytes 4 3 ++ leBytes 8 9) (fun u => u.mgmt.queue == [(7, 1, 10)]) &&
     replies (.seteventreceiver .tray 8) s .tray 0 0 [] (fun u => u.mgmt.receiver == some 8 && u.out.take 2 == [.report 6 3 9, .report 7 1 10]) &&
     replies (.seteventreceiver .host 8) s .host 5 0 [] (fun u => u.mgmt == s.mgmt)) = true := by decide +kernel

theorem test_effecters :
    (replies (.effecterRackLimit .tray 900) tray0 .tray 0 0 [] (fun u => u.pwr.rackW == 900 && u.limit.1 == 900) &&
     replies (.effecterInlet .tray 100) tray0 .tray 0 0 [] (fun u => u.thm.inlet == 100 && u.thm.inletSrc == 1) &&
     replies (.effecterRackVerdict .tray 0 2) { tray0 with parts := [(0, part .idle)] } .tray 0 0 [] (fun u =>
       (u.part 0).rackVerdict == some false && (u.psw 0).verdict == .outOfService) &&
     replies (.effecterRackVerdict .tray 0 3) tray0 .tray 2 0 [] (fun u => u.parts == tray0.parts) &&
     replies (.effecterRackVerdict .host 0 2) tray0 .host 5 0 [] (fun u => (u.part 0).rackVerdict == none) &&
     replies (.effecterCurrentLimit .tray 2 50) tray0 .tray 0 0 [] (fun u => u.pwr.regLimit.toList == [0, 0, 50, 0, 0, 0])) = true := by
  decide +kernel

theorem test_denxon_reads :
    (replies (.readPsw .tray 0) { tray0 with parts := [(0, part .parked)] } .tray 0 0 [3, 0, 0, 1, 0, 0, 0, 0] (fun _ => true) &&
     replies (.readPsw .tray 12) tray0 .tray 2 4 [] (fun _ => true) &&
     (let s := withMgmt { mgmt0 with slots := [(2, (⟨4, true, [1, 2, 3, 4, 5]⟩, ⟨3, true, []⟩))] }
      replies (.readRecord .tray 2 3) s .tray 0 0 [4, 5] (fun _ => true) && replies (.readRecord .tray 3 0) s .tray 0 0 [] (fun _ => true) &&
      replies (.readRecord .tray 8 0) s .tray 2 4 [] (fun _ => true)) &&
     replies (.readErrlog .tray 0) tray0 .tray 0 0 [] (fun _ => true) &&
     replies (.readSample .tray 1) (withMgmt { mgmt0 with samples := [(1, [7, 8])] }) .tray 0 0 [7, 8] (fun _ => true) &&
     replies (.readSample .tray 4) tray0 .tray 2 4 [] (fun _ => true)) = true := by decide +kernel

theorem test_power_orders :
    (replies (.on .tray) ps5 .tray 0 0 [] (fun u => u.boot.step == 1 && u.boot.kind == 0) &&
     replies (.on .tray) tray0 .tray 4 0 [] (fun u => u.boot == tray0.boot) &&
     replies (.off .tray) tray0 .tray 0 0 [] (fun u => u.boot.shutdown &&
       replies (.sleep .tray) u .tray 5 0 [] (fun v => v.boot == u.boot)) &&
     replies (.off .tray) ps5 .tray 4 0 [] (fun u => u.boot == ps5.boot) &&
     tray0.sleepBar none == 0 && replies (.sleep .tray) tray0 .tray 0 0 [] (fun u => u.pwr.rails == .ps3) &&
     replies (.sleep .tray) { tray0 with parts := [(0, part .active)] } .tray 6 2 [] (fun u => u.pwr == tray0.pwr) &&
     replies (.on .host) tray0 .host 3 0 [] (fun u => u == { tray0 with out := u.out })) = true := by decide +kernel

theorem test_limits_and_trip :
    (replies (.rackLimit .tray 900 0) tray0 .tray 0 0 [] (fun u => u.pwr.rackW == 900) &&
     replies (.rackLimit .tray 900 50) tray0 .tray 0 0 [] (fun u => u.pwr.rackPend == some (900, 50) && u.pwr.rackW == 0) &&
     replies (.rackLimit .tray 900 50) ps5 .tray 4 0 [] (fun u => u.pwr == ps5.pwr) &&
     (let s := { ps5 with thm := { ps5.thm with tripLow := true } }
      replies (.tripRelease .tray) { s with now := 60 * fcPerS } .tray 0 0 [] (fun u => !u.thm.tripLow && u.out.length == 2) &&
      replies (.tripRelease .tray) { s with now := 5 * fcPerS } .tray 6 5 [] (fun u => u.thm.tripLow))) = true := by decide +kernel

theorem test_lay_orders :
    (replies (.layRole .tray 1) tray0 .tray 0 0 [] (fun u => u.mgmt.settingsRole) && replies (.layRole .tray 2) tray0 .tray 2 4 [] (fun _ => true) &&
     replies (.laySecond .tray 7) tray0 .tray 0 0 [] (fun u => u.lay.second == some 7) && replies (.laySecond .tray 7) ps5 .tray 4 0 [] (fun _ => true) &&
     replies (.stepSlot .tray 10 3) tray0 .tray 0 0 [] (fun u => u.lay.period == 10 && u.lay.slotOff == 3) &&
     replies (.windowArm .tray 5 100000 200000) tray0 .tray 0 0 [] (fun u => (u.port 2).window == some (100000, 200000) && u.lay.cal.length == 1) &&
     replies (.windowArm .tray 5 99999 200000) tray0 .tray 6 1 [] (fun u => u.lay == tray0.lay) &&
     replies (.sampleArm .tray 1 80) (withMgmt { mgmt0 with samples := [(1, [7])] }) .tray 0 0 [] (fun u => u.mgmt.samples == [] && u.lay.cal.length == 1) &&
     replies (.sampleArm .tray 4 80) tray0 .tray 2 4 [] (fun _ => true)) = true := by decide +kernel

theorem test_topology_parts :
    (passes (exec (.topologyWrite .tray 0 0 [1, 2, 3]) tray0) (fun u => u.mgmt.topoPart == some ([1, 2, 3], 0) &&
       passes (exec .topologyPartTimeout { u with now := 60 * fcPerS }) (fun v => v.mgmt.topoPart == none)) &&
     replies (.topologyWrite .tray 4927 0 [1, 2]) tray0 .tray 2 4 [] (fun u => u.mgmt.topoPart == none) &&
     passes (exec .bmcPresenceTimeout { withMgmt { mgmt0 with bmc := true, bmcAt := some 0 } with now := 11 * fcPerS }) (fun u => !u.mgmt.bmc)) =
    true := by decide +kernel

/-- An update in the given state. -/
def updating (st : Nat) (comp : Option (Nat × Nat)) (got : List Byte) (done : List Nat) : State :=
  withMgmt { mgmt0 with update := some { table := [1], comp := comp, got := got, done := done, state := st, lastCmd := 0 } }

def stateOf (u : State) : Option Nat := u.mgmt.update.map (·.state)

theorem test_update :
    (replies (.requestupdate .tray) tray0 .tray 0 0 [] (fun u => stateOf u == some 1 && u.mgmt.idleBank.state == .staging) &&
     replies (.requestupdate .tray) (updating 1 none [] []) .tray 0x81 0 [] (fun u => stateOf u == some 1) &&
     replies (.getstatus .tray) tray0 .tray 0 0 [0] (fun _ => true) && replies (.getstatus .tray) (updating 4 none [] []) .tray 0 0 [4] (fun _ => true) &&
     replies (.cancelupdate .tray) tray0 .tray 0x80 0 [] (fun _ => true) &&
     replies (.passcomponenttable .tray [1, 2]) (updating 1 none [] []) .tray 0 0 [] (fun u => stateOf u == some 2) &&
     replies (.updatecomponent .tray 1 300) (updating 2 none [] []) .tray 0 0 [] (fun u => stateOf u == some 3 &&
       u.out.head? == some (.response .tray 0 0x15 (leBytes 4 0 ++ leBytes 4 256))) &&
     replies (.requestfirmwaredata .tray 1 [5]) (updating 3 (some (1, 2)) [9] []) .tray 0 0 [] (fun u => u.mgmt.update.map (·.got) == some [9, 5]) &&
     replies (.transfercomplete .tray true) (updating 3 (some (1, 2)) [9, 5] []) .tray 0 0x16 [] (fun u => stateOf u == some 4)) = true := by
  decide +kernel

theorem test_update_ends :
    ((updating 4 (some (1, 4)) [0, 1, 3, 0] []).verifies 1 [0, 1, 3, 0] ⟨true, true⟩ &&
     replies (.verifycomplete .tray ⟨true, true⟩) (updating 4 (some (1, 4)) [0, 1, 3, 0] []) .tray 0 0x17 [] (fun u => stateOf u == some 5) &&
     replies (.verifycomplete .tray ⟨true, false⟩) (updating 4 (some (1, 4)) [0, 1, 3, 0] []) .tray 1 0x17 [] (fun u => stateOf u == some 2) &&
     replies (.applycomplete .tray true) (updating 5 (some (1, 4)) [0, 1, 3, 0] []) .tray 0 0x18 [] (fun u => stateOf u == some 2 &&
       SMap.find? u.mgmt.idleBank.comps 1 == some (3, [0, 1, 3, 0])) &&
     replies (.activatefirmware .tray false true) (updating 2 none [] [1]) .tray 0 0 [] (fun u => stateOf u == none && u.mgmt.idleBank.state == .staged) &&
     replies (.cancelupdatecomponent .tray) (updating 3 (some (1, 4)) [] []) .tray 0 0 [] (fun u => stateOf u == some 2) &&
     replies (.cancelupdate .tray) (updating 3 (some (1, 4)) [] []) .tray 0 0 [] (fun u => stateOf u == none) &&
     passes (exec .updateIdleTimeout { updating 2 none [] [] with now := 120 * fcPerS }) (fun u => stateOf u == none) &&
     replies (.getfirmwareparameters .tray) tray0 .tray 0 0 [0, 0, 0, 0, 0, 0] (fun _ => true) &&
     passes (exec (.querydeviceidentifiers .tray) tray0) (fun u => u.out.length == 1)) = true := by decide +kernel

theorem test_flash :
    (let s := withMgmt { mgmt0 with writes := [(2, [7]), (3, [8])], slots := [(2, (⟨4, true, [1]⟩, ⟨3, false, []⟩))] }
     passes (exec (.flashWrite true) s) (fun u => u.mgmt.writes == [(3, [8])] && u.mgmt.record 2 == some [7] && (u.cleat.source 1535).pend &&
       SMap.find? u.mgmt.slots 2 == some (⟨4, true, [1]⟩, ⟨5, true, [7]⟩)) &&
     passes (exec (.flashWrite false) s) (fun u => u.mgmt.jfail == 1 && u.mgmt.record 2 == some [1]) &&
     passes (exec .plinthOverheat s) (fun u => u.mgmt.overheat && u.mgmt.writes == [] && u.mgmt.aborted == s.mgmt.writes &&
       passes (exec .flashRetryAfterCool u) (fun v => !v.mgmt.overheat && v.mgmt.writes == s.mgmt.writes))) = true := by decide +kernel

theorem test_supplies :
    (let t : RegTelemetry := ⟨0, 800, 10, 40, 0, false⟩
     passes (exec (.regulatorPoll 1 (some t)) { tray0 with parts := [(4, { part .idle with regDown := true })] }) (fun u =>
       !(u.part 4).regDown && SMap.find? u.pwr.regData 1 == some t) &&
     passes (exec (.regulatorPoll 1 none) { tray0 with pwr := { tray0.pwr with regMiss := .replicate 6 2 } }) (fun u =>
       (u.part 3).regDown && (u.part 5).regDown && u.pwr.regMiss.toList.getD 1 0 == 3) &&
     passes (exec (.stackRailFault true) tray0) (fun u => u.pwr.rails == .ps5 && u.tiles == []) &&
     passes (exec (.outputBelowSetting 2) tray0) (fun u => u.pwr.rails == .ps5) &&
     passes (exec (.railRangeTimeout 4) { ps5 with boot := { ps5.boot with step := 2 } }) (fun u => u.boot.cause == 3 && u.boot.failStep == 2 &&
       u.boot.step == 0)) = true := by decide +kernel

/-! ### 16 Starts and shutdowns, 17 Resets -/

def startAtStep (k n : Nat) : State := { ps5 with boot := { ps5.boot with step := n, kind := k } }
def goodStep : StepReport := ⟨none, 0, 0, true, true, [], [], [], [], [], []⟩
/-- The core rails hold nothing. -/
def anew (u : State) : Bool := u.tiles == [] && u.descs == [] && u.jobs == [] && u.rings == [] && u.setup == []
def zeroTile (x : Tile) : Bool := x.common == .replicate 16 0 && x.groups == .replicate 64 0 && x.pc == 0 && !x.running && x.drain == none &&
  x.tq == [] && x.vq == [] && Memory.read x.scratch 0x8000 == 0 && Memory.read x.scratch 0x8100 == 0

theorem test_standby :
    (passes (exec (.standbyPowerOn true 0) State.reset) (fun u => u == State.reset) &&
     passes (exec (.standbyPowerOn false 0) { State.reset with mgmt := { State.reset.mgmt with standby := false } }) (fun u =>
       u.mgmt.standby && u.mgmt.romRecov && u.pwr.rails == .ps5 && anew u) &&
     passes (exec .standbyLoss tray0) (fun u => !u.mgmt.standby && u.pwr.rails == .ps5 && anew u && u.sec.keys == [])) = true := by decide +kernel

theorem test_start_steps :
    (passes (exec (.startStep goodStep) (startAtStep 3 1)) (fun u => u.boot.step == 2) &&
     passes (exec (.startStep goodStep) (startAtStep 0 2)) (fun u => u.boot.step == 3 && u.railsOn && u.pwr.pwrOk) &&
     passes (exec (.startStep goodStep) (startAtStep 0 3)) (fun u => u.boot.step == 4 && u.lay.time == 0 && u.lay.role == ps5.mgmt.settingsRole) &&
     [4, 5, 6, 7, 8, 9].all (fun n => passes (exec (.startStep goodStep) (startAtStep 0 n)) (fun u => u.boot.step == n + 1))) = true := by
  decide +kernel

/-- The last step is due; no seam port of the west die is in service. -/
def lastStep : State := { startAtStep 0 10 with router := { State.reset.router with seamWest := 0xFFFFFF } }

theorem test_start_ends :
    passes (exec (.startStep goodStep) lastStep) (fun u => u.boot.ready && u.boot.cause == 0 &&
      (u.psw 0).state == .idle && (u.psw 11).state == .fenced && (u.psw 11).fenceCause == 4) = true := by decide +kernel

theorem test_start_fails :
    (passes (exec (.startStep { goodStep with fail := some 3 }) (startAtStep 0 2)) (fun u => u.boot.step == 0 && u.boot.cause == 3 &&
       u.boot.failStep == 2 && u.pwr.rails == .ps5 && anew u) &&
     passes (exec (.startStepTimeout []) (startAtStep 0 6)) (fun u => u.boot.step == 0 && u.boot.cause == 6 && u.boot.failStep == 6 && anew u) &&
     passes (exec (.startStepTimeout [2]) (startAtStep 0 7)) (fun u => u.boot.step == 8 && u.boot.bad == [(2, 3)]) &&
     (let s := { startAtStep 0 8 with boot := { (startAtStep 0 8).boot with testLeft := [2, 3] }, stks := [(2, stack7)] }
      passes (exec (.memoryTestDone 2 []) s) (fun u => u.boot.testLeft == [3] && (u.stack 2).mem == [] && u.boot.bad == []))) = true := by
  decide +kernel

theorem test_falls :
    (passes (exec (.shutdownSelftestDone [] 0 5) { tray0 with boot := { tray0.boot with shutdown := true } }) (fun u => u.pwr.rails == .ps5 &&
       anew u && u.mgmt.writes.any (fun w => w.1 == 6 && w.2.take 4 == [1, 1, 0, 0])) &&
     trips 3 440 && !trips 3 439 && trips 75 420 && !trips 60 500 &&
     passes (exec (.thermalTrip 3 440) tray0) (fun u => u.pwr.rails == .ps5 && anew u && u.thm.tripLow && u.thm.tripId == 3 && u.thm.tripTemp == 440 &&
       u.out.contains (.land "THERMTRIP_N" false))) = true := by decide +kernel

/-- Partition 0 is as given; tile 30 has written registers and memory. -/
def resettable (st : PState) : State :=
  { open0 with parts := [(0, { part st with arm := buildArm [] 1 })], tiles := [(30, { (core.setReg 1 5) with scratch := [(0x8100, 7)], running := false })] }

theorem test_tile_resets :
    (passes (exec (.clusterReset 5 true) { open0 with rst := { open0.rst with busy := true } }) (fun u => u.rst.status == 4 && u.rst.busy) &&
     (resettable .idle).ltidOf 30 == some 30 && (resettable .idle).physOf 30 == some 30 &&
     passes (exec (.tileReset 30 true true) (resettable .active)) (fun u => u.rst.status == 2 && !u.rst.busy) &&
     passes (exec (.tileReset 30 true true) (resettable .idle)) (fun u => zeroTile (u.tile 30) && u.rst.status == 0 && !u.rst.busy) &&
     clusterOf 30 == [30, 31, 42, 43] &&
     passes (exec (.clusterReset (BitVec.ofNat 64 (5 + 65536 * 30)) true) (resettable .idle)) (fun u => zeroTile (u.tile 30) && u.rst.status == 0 &&
       u.tile 5 == Tile.fresh)) = true := by decide +kernel

theorem test_drain_and_late :
    (let x := { core with drain := some (false, true), reads := [(3, { waitingEntry with old := false })] }
     passes (exec (.drainLimit 30) { open0 with parts := [(0, part .active)], tiles := [(30, x)] }) (fun u => zeroTile (u.tile 30) &&
       (u.tile 30).reads.all (fun e => e.2.old) && (u.tile 30).reads.length == 1 && !(u.tile 30).halted) &&
     (let y := { core with reads := [(3, { waitingEntry with old := true })] }
      passes (exec (.lateReply 30 (replyPkt 6 0 [])) { open0 with tiles := [(30, y)] }) (fun u => (u.tile 30).reads == [] &&
        (u.part 0).lateDrops == 1))) = true := by decide +kernel

theorem test_package_reset :
    ([.pkgRstN, .packageReset 7] : List Instr).all (fun i => passes (exec i { open0 with stks := [(2, stack7)] }) (fun u => anew u &&
      u.boot.step == 1 && u.boot.kind == 3 && u.pwr.rails == .on && u.sec.keys == [] && (u.stack 2).mem == stack7.mem)) = true := by decide +kernel

/-- While a zeroization runs, the land's order waits. -/
def zeroizing0 : State := { open0 with sec := { open0.sec with zeroEnd := some 5 } }

theorem test_package_reset_waits : passes (exec .pkgRstN zeroizing0) (fun u => u.sec.resetDue && u.boot.step == 0 && u.pwr.rails == .on) = true := by
  decide +kernel

theorem test_reset_registers :
    (passes (exec (.free (BitVec.ofNat 64 (2 ^ 20 + 1))) { open0 with rst := { open0.rst with samples := [(1, ([7], 0))] } }) (fun u => u.rst.samples == []) &&
     passes (exec (.clear 0x8000000000000000) { open0 with tilCorr := 5 }) (fun u => u.tilCorr == 0) &&
     (let p := { part .fenced with psw := { (part .fenced).psw with fenceCause := 2, seq := 9 } }
      passes (exec (.prtRecon (BitVec.ofNat 64 (16 + 256 * 9))) { open0 with parts := [(0, p)] }) (fun u => u.rst.recon == 0 && (u.psw 0).state == .idle) &&
      passes (exec (.prtRecon (BitVec.ofNat 64 (16 + 256 * 8))) { open0 with parts := [(0, p)] }) (fun u => u.rst.recon == 2 && (u.psw 0).state == .fenced))) = true := by
  decide +kernel

def reset0 (step : Nat) : ResetRun :=
  { step := step, cause := 1, entered := 0, recorded := [], standing := [], jobs := [], driver := true, sample := none, retired := 0,
    holds := false, overfull := [] }

def resetting (step : Nat) : State :=
  { open0 with parts := [(0, { part .resetting with reset := some (reset0 step) })], tiles := [(3, { core with reads := [(3, waitingEntry)] })] }

theorem test_partition_reset :
    (passes (exec (.partitionReset (BitVec.ofNat 64 (6 + 16 * 3))) { open0 with parts := [(0, part .idle), (1, part .idle)] }) (fun u => u.rst.busy &&
       (u.psw 0).state == .resetting && (u.psw 1).state == .resetting && (u.psw 0).gen == 1) &&
     passes (exec (.partitionReset (BitVec.ofNat 64 (6 + 16 * 3))) { open0 with parts := [(0, part .idle)] }) (fun u => u.rst.status == 2 && !u.rst.busy) &&
     passes (exec (.hardTrip 0 true) { open0 with parts := [(0, part .idle)] }) (fun u => (u.psw 0).state == .resetting &&
       (u.part 0).reset.any (fun r => r.step == 2 && r.cause == 2 && r.holds)) &&
     passes (exec (.hardTrip 0 true) open0) (fun u => u == open0)) = true := by decide +kernel

theorem test_reset_stops :
    (((resetting 2).part 0).reset == some (reset0 2) && (resetting 2).rst.tiles == [] && (resetting 2).railsOn &&
      (List.range 72).all (fun t => ((resetting 2).tile t).tq == [])) = true := by decide +kernel

theorem test_reset_samples :
    passes (exec (.resetStep 0 [] false []) (resetting 3)) (fun u => (u.part 0).reset.any (·.step == 4)) = true := by decide +kernel

theorem test_reset_drains :
    passes (exec (.resetStep 0 [] false []) (resetting 4)) (fun u => (u.part 0).reset.any (·.step == 5) && (u.tile 3).reads.all (·.2.old)) = true := by
  decide +kernel

theorem test_reset_clears :
    (passes (exec (.resetStep 0 [] false []) (resetting 5)) (fun u => (u.part 0).reset.any (·.step == 6) && zeroTile (u.tile 3))) = true := by
  decide +kernel

theorem test_reset_ends :
    (passes (exec (.resetStep 0 [] false []) (resetting 6)) (fun u => (u.part 0).reset.any (·.step == 7) && (u.psw 0).state == .resetting) &&
     passes (exec (.partitionResetDone 0) (resetting 7)) (fun u => (u.psw 0).state == .idle && (u.part 0).reset == none && (u.part 0).lastCause == 1 &&
       (u.part 0).resets == 1) &&
     (let s := resetting 7
      let p := { s.part 0 with reset := (s.part 0).reset.map (fun r => { r with standing := [3], recorded := [4] }) }
      passes (exec (.partitionResetDone 0) { s with parts := [(0, p)] }) (fun u => (u.psw 0).state == .fenced && (u.psw 0).fenceCause == topCause [3, 4]))) = true := by
  decide +kernel

/-! ### The whole block -/

theorem test_step_front :
    (match step { open0 with pending := [.layTick, .standbyLoss], lay := locked0 } with
     | .next u => u.pending == [.standbyLoss] && u.now == open0.now + 1 && u.fuses == open0.fuses
     | _ => false) = true := by decide +kernel

theorem test_reset_state :
    (State.reset.memWf && State.reset.queueWf && (State.reset.psw 5) == Psw.fresh && !State.reset.railsOn &&
      State.reset.pwr.rails == .ps5 && (State.reset.cleat.source 9) == Source.fresh) = true := by decide +kernel

/-- A state whose partition 0 has its views in agreement, and the order that makes them disagree: CONFLICT follows. -/
theorem test_conflict :
    (let s := { tray0 with parts := [(0, part .active)] }
     !(s.psw 0).conflict && passes (exec (.effecterRackVerdict .tray 0 2) s) (fun u => (u.psw 0).conflict && (u.psw 0).verdict == .outOfService &&
       (u.psw 0).fencePend && (u.psw 0).fenceCause == 2)) = true := by decide +kernel

theorem test_memory_form :
    (let s := { live core with ccSram := [(8, 1)] }
     s.memWf && passes (exec (.wr (sramReq 1 8 [0, 2, 3, 4, 5, 6, 7, 8])) s) (fun u => u.memWf && u.ccSram.length == 7)) = true := by decide +kernel

theorem test_only_these :
    (clearsCores (.layTick) || changesTime .layTick && !changesKeys .layTick && !changesStacks .layTick) = true ∧
    (let s := withSec { sec0 with keys := [(5, 7)] }
     passes (exec .layTick s) (fun u => u.sec == s.sec && u.stks == s.stks && u.pwr == s.pwr && u.thm == s.thm && u.boot == s.boot)) = true := by
  decide +kernel

end Sys2Proof.Tests
end

namespace Sys2Proof.Machine

/-! ### The canonical form of every memory: what the parts of a state give -/

theorem memWf_iff (s : State) :
    s.memWf = true ↔ (∀ e ∈ s.tiles, e.2.scratch.wf = true) ∧ (∀ e ∈ s.stks, e.2.mem.wf = true) ∧ s.ccSram.wf = true := by
  simp [State.memWf, List.all_eq_true, and_assoc]

/-- What holds of every listed value and of the reset value holds of the value under any key. -/
theorem get_of_forall {α : Type} {p : α → Prop} {d : α} {m : SMap α} (hm : ∀ e ∈ m, p e.2) (hd : p d) (k : Nat) : p (SMap.get d m k) := by
  induction m with
  | nil => exact hd
  | cons e r ih =>
    obtain ⟨j, v⟩ := e
    have hr := ih fun x hx => hm x (List.mem_cons_of_mem _ hx)
    by_cases hj : j = k
    · simpa [SMap.get, SMap.find?, hj] using hm (j, v) List.mem_cons_self
    · simpa [SMap.get, SMap.find?, hj] using hr

theorem forall_set {α : Type} {p : α → Prop} {m : SMap α} {k : Nat} {v : α} (hm : ∀ e ∈ m, p e.2) (hv : p v) :
    ∀ e ∈ SMap.set m k v, p e.2 := fun e he => by
  rcases mem_set m k v e he with rfl | he
  · exact hv
  · exact hm e he

variable {s u : State}

theorem wf_tile (hw : s.memWf) {n : Nat} : (s.tile n).scratch.wf :=
  get_of_forall (p := fun t : Tile => t.scratch.wf = true) ((memWf_iff s).1 hw).1 rfl n

theorem wf_stack (hw : s.memWf) {n : Nat} : (s.stack n).mem.wf :=
  get_of_forall (p := fun k : Stack => k.mem.wf = true) ((memWf_iff s).1 hw).2.1 rfl n

theorem wf_ccSram (hw : s.memWf) : s.ccSram.wf := ((memWf_iff s).1 hw).2.2

/-- An update of any other field leaves the memories alone. The record is written out, so that unification finds the state before. -/
theorem memWf_update
    {pending : List Instr} {free : Nat} {now : Nat} {fuses : Fuses} {setup : SMap Word} {shadow : Option (Nat × BitVec 32)}
    {hifErr : BitVec 5} {cxlOn : Bool} {cxlDown : Bool} {pollAt : Nat} {pollNext : Nat} {launchLast : Nat} {ccReqs : List CcReq}
    {ccWait : List Packet} {lastOff : BitVec 24} {lines : SMap Line} {rings : SMap Ring} {descs : List (DescKey × Desc)}
    {jobs : List (DescKey × Job)} {msix : SMap (Bool × Bool)} {msixTab : SMap (Word × BitVec 32)} {msixAt : SMap Nat}
    {hostBad : List (Nat × Nat)} {fwImage : List Byte} {tilCorr : Nat} {tilUnc : Nat} {tilDtrap : Nat} {parts : SMap Part}
    {router : Router} {mesh : List Flight} {ports : SMap Port} {staging : Staging} {lay : Lay} {sec : Sec} {pwr : Pwr} {thm : Thm}
    {cleat : Cleat} {mgmt : Mgmt} {boot : Boot} {rst : Rst} {out : List Output}
    (hw : s.memWf) :
    State.memWf
      { pending := pending, free := free, now := now, fuses := fuses, setup := setup, shadow := shadow, hifErr := hifErr, cxlOn := cxlOn,
        cxlDown := cxlDown, pollAt := pollAt, pollNext := pollNext, launchLast := launchLast, ccReqs := ccReqs, ccWait := ccWait,
        lastOff := lastOff, lines := lines, rings := rings, descs := descs, jobs := jobs, msix := msix, msixTab := msixTab,
        msixAt := msixAt, hostBad := hostBad, ccSram := s.ccSram, fwImage := fwImage, tilCorr := tilCorr, tilUnc := tilUnc,
        tilDtrap := tilDtrap, tiles := s.tiles, parts := parts, stks := s.stks, router := router, mesh := mesh, ports := ports,
        staging := staging, lay := lay, sec := sec, pwr := pwr, thm := thm, cleat := cleat, mgmt := mgmt, boot := boot, rst := rst,
        out := out } := by
  rw [memWf_iff] at hw ⊢
  exact hw

/-- An update of any other field of a tile leaves its scratchpad alone. -/
theorem wf_scratch_update
    {common : Vector Word 16} {groups : Vector Word 64} {pc : Word} {cst : Cst} {xcst : Cst} {xpc : Word} {xcause : Word} {xval : Word}
    {xbase : Word} {spp : Nat} {wto : Word} {tenant : BitVec 7} {job : BitVec 32} {ring : BitVec 13} {cycle0 : Nat} {astat : Word}
    {event : BitVec 3} {evSeen : BitVec 3} {running : Bool} {halted : Bool} {marked : Bool} {wait : Wait} {bars : Nat}
    {jobs : List DescKey} {upsets : SMap Bool} {scrubPos : Nat} {tq : List TEntry} {vq : List VEntry}
    {tfault : Option (Byte × Word × Nat × Bool)} {vfault : Option (Byte × Word × Nat)} {lateErr : Option (Word × Word)}
    {tAst : List (BitVec 8 × Option (BitVec 10) × Option (BitVec 8))} {vAst : List (BitVec 8 × Option (BitVec 8))}
    {drain : Option (Bool × Bool)} {handles : Vector Handle 8} {reads : SMap Outst} {writes : SMap Outst} {retired : Nat}
    {fwCrc : BitVec 32} {fwTry : Nat} {lastFc : Nat}
    {t : Tile} (ht : t.scratch.wf) :
    Memory.wf (Tile.scratch
      { common := common, groups := groups, pc := pc, cst := cst, xcst := xcst, xpc := xpc, xcause := xcause, xval := xval,
        xbase := xbase, spp := spp, wto := wto, tenant := tenant, job := job, ring := ring, cycle0 := cycle0, astat := astat,
        event := event, evSeen := evSeen, running := running, halted := halted, marked := marked, wait := wait, bars := bars,
        jobs := jobs, scratch := t.scratch, upsets := upsets, scrubPos := scrubPos, tq := tq, vq := vq, tfault := tfault,
        vfault := vfault, lateErr := lateErr, tAst := tAst, vAst := vAst, drain := drain, handles := handles, reads := reads,
        writes := writes, retired := retired, fwCrc := fwCrc, fwTry := fwTry, lastFc := lastFc }) := ht

/-- An update of any other field of a stack leaves its bytes alone. -/
theorem wf_mem_update
    {queue : List StackReq} {keyOf : SMap Nat} {poison : List Nat} {badRows : SMap (BitVec 32)} {watch : List (Nat × Nat)}
    {uncRows : List (Nat × Nat × Nat)} {retrains : List (Nat × Nat)} {corrected : Nat} {uncorr : Nat} {spareExh : Bool}
    {exhRows : List Nat} {refused : Nat} {tempC : Nat} {sensFails : Nat} {hot : Bool} {scrubPos : Nat} {refreshed : SMap Nat}
    {selfRef : Bool} {lastUse : Nat} {banks : Vector Bank 2} {streams : List Stream} {lastErr : BitVec 8} {nextOrder : Nat}
    {suspects : List Nat}
    {k : Stack} (hk : k.mem.wf) :
    Memory.wf (Stack.mem
      { queue := queue, mem := k.mem, keyOf := keyOf, poison := poison, badRows := badRows, watch := watch, uncRows := uncRows,
        retrains := retrains, corrected := corrected, uncorr := uncorr, spareExh := spareExh, exhRows := exhRows, refused := refused,
        tempC := tempC, sensFails := sensFails, hot := hot, scrubPos := scrubPos, refreshed := refreshed, selfRef := selfRef,
        lastUse := lastUse, banks := banks, streams := streams, lastErr := lastErr, nextOrder := nextOrder, suspects := suspects }) := hk

theorem memWf_setTile {n : Nat} {t : Tile} (hw : s.memWf) (ht : t.scratch.wf) : (s.setTile n t).memWf := by
  obtain ⟨h1, h2, h3⟩ := (memWf_iff s).1 hw
  exact (memWf_iff _).2 ⟨forall_set (p := fun t : Tile => t.scratch.wf = true) h1 ht, h2, h3⟩

theorem memWf_setStack {n : Nat} {k : Stack} (hw : s.memWf) (hk : k.mem.wf) : (s.setStack n k).memWf := by
  obtain ⟨h1, h2, h3⟩ := (memWf_iff s).1 hw
  exact (memWf_iff _).2 ⟨h1, forall_set (p := fun k : Stack => k.mem.wf = true) h2 hk, h3⟩

/-- Every tile and every stack is replaced by one whose memory is still in the canonical form. -/
theorem memWf_map {f : Tile → Tile} {g : Stack → Stack} (hw : s.memWf) (hf : ∀ t, t.scratch.wf → (f t).scratch.wf)
    (hg : ∀ k, k.mem.wf → (g k).mem.wf) :
    ({ s with tiles := s.tiles.map (fun e => (e.1, f e.2)), stks := s.stks.map (fun e => (e.1, g e.2)) } : State).memWf := by
  obtain ⟨h1, h2, h3⟩ := (memWf_iff s).1 hw
  refine (memWf_iff _).2 ⟨fun e he => ?_, fun e he => ?_, h3⟩
  · obtain ⟨x, hx, rfl⟩ := List.mem_map.1 he
    exact hf _ (h1 x hx)
  · obtain ⟨x, hx, rfl⟩ := List.mem_map.1 he
    exact hg _ (h2 x hx)

theorem memWf_mapStacks {g : Stack → Stack} (hw : s.memWf) (hg : ∀ k, k.mem.wf → (g k).mem.wf) :
    ({ s with stks := s.stks.map (fun e => (e.1, g e.2)) } : State).memWf := by
  obtain ⟨h1, h2, h3⟩ := (memWf_iff s).1 hw
  refine (memWf_iff _).2 ⟨h1, fun e he => ?_, h3⟩
  obtain ⟨x, hx, rfl⟩ := List.mem_map.1 he
  exact hg _ (h2 x hx)

theorem memWf_noTiles (hw : s.memWf) : ({ s with tiles := [], ccSram := [] } : State).memWf :=
  (memWf_iff _).2 ⟨fun _ he => (by cases he), ((memWf_iff s).1 hw).2.1, rfl⟩

theorem memWf_setCcSram {m : Memory} (hw : s.memWf) (hm : m.wf) : ({ s with ccSram := m } : State).memWf := by
  obtain ⟨h1, h2, -⟩ := (memWf_iff s).1 hw
  exact (memWf_iff _).2 ⟨h1, h2, hm⟩

/-! Choices, loops and results that hold a state. -/

theorem memWf_ite {c : Prop} [Decidable c] (hs : s.memWf) (hu : u.memWf) : (if c then s else u).memWf := by
  split
  · exact hs
  · exact hu

theorem memWf_foldl {α : Type} {f : State → α → State} {l : List α} (hf : ∀ v x, v.memWf → (f v x).memWf) (hw : s.memWf) :
    (l.foldl f s).memWf := by
  induction l generalizing s with
  | nil => exact hw
  | cons x r ih => exact ih (hf s x hw)

theorem memWf_foldl_fst {α β : Type} {f : State × β → α → State × β} {l : List α} {a : State × β}
    (hf : ∀ v x, v.1.memWf → (f v x).1.memWf) (hw : a.1.memWf) : (l.foldl f a).1.memWf := by
  induction l generalizing a with
  | nil => exact hw
  | cons x r ih => exact ih (hf a x hw)

theorem memWf_fst_ite {β : Type} {c : Prop} [Decidable c] {a b : State × β} (ha : a.1.memWf) (hb : b.1.memWf) :
    (if c then a else b).1.memWf := by
  split
  · exact ha
  · exact hb

theorem memWf_pair {β : Type} {x : β} (hw : s.memWf) : (s, x).1.memWf := hw

/-- The state of a pair that a function returned. -/
theorem memWf_of_fst {β : Type} {a : State × β} {x : β} (e : a = (u, x)) (ha : a.1.memWf) : u.memWf := by
  rw [e] at ha
  exact ha

theorem wf_scratch_ite {c : Prop} [Decidable c] {t x : Tile} (ht : t.scratch.wf) (hx : x.scratch.wf) : (if c then t else x).scratch.wf := by
  split
  · exact ht
  · exact hx

theorem wf_scratch_foldl {α : Type} {f : Tile → α → Tile} {l : List α} {t : Tile} (hf : ∀ v x, v.scratch.wf → (f v x).scratch.wf)
    (ht : t.scratch.wf) : (l.foldl f t).scratch.wf := by
  induction l generalizing t with
  | nil => exact ht
  | cons x r ih => exact ih (hf t x ht)

/-- A state that may be returned has its memories in the canonical form. -/
def SomeMemWf (o : Option State) : Prop := ∀ v ∈ o, v.memWf

theorem someMemWf_none : SomeMemWf none := fun _ e => by cases e

theorem someMemWf_some (hw : s.memWf) : SomeMemWf (some s) := fun _ e => by
  cases e
  exact hw

theorem someMemWf_ite {c : Prop} [Decidable c] {a b : Option State} (ha : SomeMemWf a) (hb : SomeMemWf b) : SomeMemWf (if c then a else b) := by
  split
  · exact ha
  · exact hb

/-- The same for a state that is returned with something else. -/
def SomeFstMemWf {β : Type} (o : Option (State × β)) : Prop := ∀ v ∈ o, v.1.memWf

theorem someFstMemWf_none {β : Type} : SomeFstMemWf (none : Option (State × β)) := fun _ e => by cases e

theorem someFstMemWf_some {β : Type} {a : State × β} (hw : a.1.memWf) : SomeFstMemWf (some a) := fun _ e => by
  cases e
  exact hw

theorem someFstMemWf_ite {β : Type} {c : Prop} [Decidable c] {a b : Option (State × β)} (ha : SomeFstMemWf a) (hb : SomeFstMemWf b) :
    SomeFstMemWf (if c then a else b) := by
  split
  · exact ha
  · exact hb

/-- The state that an instruction's result carries has its memories in the canonical form. -/
def IRes.MemWf : IRes → Prop
  | .next s => s.memWf
  | .jump s _ => s.memWf
  | .hold s => s.memWf
  | .trap s _ _ _ => s.memWf
  | .stall => True

theorem IRes.memWf_ite {c : Prop} [Decidable c] {a b : IRes} (ha : a.MemWf) (hb : b.MemWf) : (if c then a else b).MemWf := by
  split
  · exact ha
  · exact hb

/-- The next state, if there is one, has its memories in the canonical form. -/
def NextMemWf (o : Host.Outcome State Fault Refusal) : Prop := ∀ u, o = .next u → u.memWf

theorem nextMemWf_next (hu : u.memWf) : NextMemWf (.next u) := fun _ e => by
  cases e
  exact hu

theorem nextMemWf_fault {r : Fault} : NextMemWf (.fault r) := fun _ e => by cases e

theorem nextMemWf_ite {c : Prop} [Decidable c] {a b : Host.Outcome State Fault Refusal} (ha : NextMemWf a) (hb : NextMemWf b) :
    NextMemWf (if c then a else b) := by
  split
  · exact ha
  · exact hb

/-! ### Machine/Ops.lean -/

theorem memWf_setPart {n : Nat} {p : Part} (hw : s.memWf) : (s.setPart n p).memWf :=
  memWf_update hw

theorem memWf_setRing {n : Nat} {r : Ring} (hw : s.memWf) : (s.setRing n r).memWf :=
  memWf_update hw

theorem memWf_setLine {n : Nat} {l : Line} (hw : s.memWf) : (s.setLine n l).memWf :=
  memWf_update hw

theorem memWf_setPort {n : Nat} {p : Port} (hw : s.memWf) : (s.setPort n p).memWf :=
  memWf_update hw

theorem memWf_emit {o : Output} (hw : s.memWf) : (s.emit o).memWf :=
  memWf_update hw

theorem memWf_barAccess (hw : s.memWf) : s.barAccess.memWf :=
  memWf_update hw

theorem memWf_draw (hw : s.memWf) : s.draw.memWf :=
  memWf_update hw

theorem memWf_setDesc {k : DescKey} {d : Desc} (hw : s.memWf) : (s.setDesc k d).memWf :=
  memWf_update hw

theorem memWf_setJob {k : DescKey} {j : Job} (hw : s.memWf) : (s.setJob k j).memWf :=
  memWf_update hw

theorem memWf_dropDesc {k : DescKey} (hw : s.memWf) : (s.dropDesc k).memWf :=
  memWf_update hw

theorem memWf_dropJob {k : DescKey} (hw : s.memWf) : (s.dropJob k).memWf :=
  memWf_update hw

theorem memWf_setReg {off rst v : Nat} (hw : s.memWf) : (s.setReg off rst v).memWf :=
  memWf_update hw

theorem memWf_raise {n : Nat} (hw : s.memWf) : (s.raise n).memWf :=
  memWf_ite hw (memWf_update hw)

theorem memWf_partEvent {n k : Nat} (hw : s.memWf) : (s.partEvent n k).memWf :=
  memWf_raise hw

theorem memWf_report {code detail : Nat} (hw : s.memWf) : (s.report code detail).memWf := by
  unfold State.report
  extract_lets
  split
  · exact memWf_ite (memWf_emit hw) (memWf_emit (memWf_emit (memWf_update hw)))
  · exact memWf_ite (memWf_update hw) (memWf_update hw)

theorem memWf_logErr {r : ErrRec} (hw : s.memWf) : (s.logErr r).memWf :=
  memWf_ite hw (memWf_ite (memWf_update hw) (memWf_update hw))

theorem memWf_refusedOrder {row party : Nat} (hw : s.memWf) : (s.refusedOrder row party).memWf :=
  memWf_logErr hw

theorem memWf_sendMsix {fn vec : Nat} (hw : s.memWf) : (s.sendMsix fn vec).memWf :=
  memWf_ite (memWf_update hw) (memWf_ite hw (memWf_emit (memWf_update hw)))

theorem memWf_hifSet {b : Nat} (hw : s.memWf) : (s.hifSet b).memWf :=
  memWf_ite hw (memWf_raise (memWf_update hw))

theorem memWf_ringEntry {r : Nat} {now : Bool} (hw : s.memWf) : (s.ringEntry r now).memWf :=
  memWf_ite hw (memWf_ite (memWf_sendMsix (memWf_setRing hw)) (memWf_setRing hw))

theorem memWf_putEntry {r : Nat} {bytes : List Byte} {now : Bool} (hw : s.memWf) : (s.putEntry r bytes now).1.memWf :=
  memWf_fst_ite (memWf_pair (memWf_raise (memWf_hifSet (memWf_setRing hw)))) (memWf_pair (memWf_ringEntry (memWf_emit (memWf_setRing hw))))

theorem memWf_noticeTo {t code part detail data : Nat} (hw : s.memWf) : (s.noticeTo t code part detail data).1.memWf := by
  unfold State.noticeTo
  split
  · exact hw
  · exact memWf_fst_ite hw (memWf_fst_ite (memWf_putEntry hw) (memWf_pair (memWf_setRing hw)))

theorem memWf_noticeOne {t code part detail data : Nat} (hw : s.memWf) : (s.noticeOne t code part detail data).memWf := by
  unfold State.noticeOne
  split
  · exact hw
  · exact memWf_ite (memWf_noticeTo hw) (memWf_noticeTo (memWf_noticeTo hw))

theorem memWf_notice0 {code detail data : Nat} (hw : s.memWf) : (s.notice0 code detail data).memWf :=
  memWf_noticeOne hw

theorem memWf_noticePart {n code detail data : Nat} (hw : s.memWf) : (s.noticePart n code detail data).memWf := by
  unfold State.noticePart
  extract_lets _ s₁
  have h₁ : s₁.memWf := memWf_noticeOne hw
  exact memWf_ite h₁ (memWf_noticeOne h₁)

theorem memWf_overflowNotice {r : Nat} (hw : s.memWf) : (s.overflowNotice r).memWf := by
  unfold State.overflowNotice
  extract_lets
  refine memWf_ite hw ?_
  split
  · rename_i e₁
    exact memWf_setRing (memWf_of_fst e₁ (memWf_putEntry hw))
  · rename_i e₂
    have h₁ := memWf_of_fst e₂ (memWf_putEntry hw)
    exact memWf_ite h₁ (memWf_noticeTo h₁)

theorem memWf_stopRing {r err : Nat} (hw : s.memWf) : (s.stopRing r err).memWf := by
  unfold State.stopRing
  extract_lets _ _ _ s₁
  have h₁ : s₁.memWf := memWf_noticeOne (memWf_raise (memWf_setRing hw))
  exact memWf_ite h₁ (memWf_noticeOne h₁)

theorem memWf_complete {k : DescKey} {status info value : Nat} (hw : s.memWf) : (s.complete k status info value).memWf := by
  unfold State.complete
  split
  · exact hw
  · extract_lets _ s₁ _ _ _ s₂
    have h₁ : s₁.memWf := memWf_dropDesc hw
    have h₂ : s₂.memWf := memWf_setRing (memWf_setRing h₁)
    refine memWf_ite h₁ (memWf_ite h₂ ?_)
    split
    · rename_i e₁
      exact memWf_of_fst e₁ (memWf_putEntry h₂)
    · rename_i e₂
      exact memWf_stopRing (memWf_of_fst e₂ (memWf_putEntry h₂))

theorem memWf_pswWrite {n : Nat} {f : Psw → Psw} (hw : s.memWf) : (s.pswWrite n f).memWf := by
  unfold State.pswWrite
  extract_lets _ _ _ s₁ s₂ s₃
  have h₁ : s₁.memWf := memWf_setPart hw
  have h₂ : s₂.memWf := memWf_ite (memWf_partEvent h₁) h₁
  have h₃ : s₃.memWf := memWf_ite (memWf_noticePart h₂) h₂
  exact memWf_ite (memWf_partEvent (memWf_logErr (memWf_noticePart h₃))) h₃

theorem memWf_fenceNow {n : Nat} {cause : BitVec 8} (hw : s.memWf) : (s.fenceNow n cause).memWf := by
  unfold State.fenceNow
  extract_lets
  split
  · exact hw
  · split
    · exact memWf_setPart hw
    · exact hw
  · exact memWf_pswWrite hw
  · exact memWf_pswWrite hw
  · exact memWf_ite (memWf_ite (memWf_pswWrite hw) hw) (memWf_pswWrite hw)
  · exact memWf_ite (memWf_pswWrite hw) hw

theorem memWf_cast {mask : Nat} {what : Cast} (hw : s.memWf) : (s.cast mask what).memWf :=
  memWf_emit hw

theorem memWf_dropRotation {n : Nat} (hw : s.memWf) : (s.dropRotation n).memWf := by
  unfold State.dropRotation
  extract_lets
  split
  · exact hw
  · exact memWf_cast (memWf_partEvent (memWf_setPart hw))

theorem memWf_fence {n : Nat} {cause : BitVec 8} (hw : s.memWf) : (s.fence n cause).memWf := by
  unfold State.fence
  refine memWf_ite (memWf_setPart hw) ?_
  split
  · exact memWf_ite (memWf_fenceNow (memWf_dropRotation hw)) (memWf_setPart hw)
  · exact memWf_fenceNow hw

theorem memWf_pswChange {n : Nat} {f : Psw → Psw} (hw : s.memWf) : (s.pswChange n f).memWf := by
  unfold State.pswChange
  extract_lets _ s₁
  have h₁ : s₁.memWf := memWf_pswWrite hw
  exact memWf_ite (memWf_fence h₁) h₁

theorem memWf_writeVerdict {n : Nat} {byFinding : Bool} (hw : s.memWf) : (s.writeVerdict n byFinding).memWf := by
  unfold State.writeVerdict
  extract_lets _ _ s₁
  have h₁ : s₁.memWf := memWf_ite (memWf_pswChange hw) hw
  exact memWf_ite (memWf_report h₁) h₁

/-! ### Machine/Flags.lean -/

theorem wf_scratch_seeT {t : Tile} (ht : t.scratch.wf) : t.seeT.scratch.wf :=
  wf_scratch_update ht

theorem wf_scratch_seeV {t : Tile} (ht : t.scratch.wf) : t.seeV.scratch.wf :=
  wf_scratch_update ht

/-! ### Machine/Operands.lean -/

theorem wf_scratch_setGroupReg {t : Tile} {g i : Nat} {v : Word} (ht : t.scratch.wf) : (t.setGroupReg g i v).scratch.wf :=
  wf_scratch_update ht

theorem wf_scratch_setReg {t : Tile} {r : Reg} {v : Word} (ht : t.scratch.wf) : (t.setReg r v).scratch.wf :=
  wf_scratch_ite ht (wf_scratch_ite (wf_scratch_update ht) (wf_scratch_ite (wf_scratch_setGroupReg ht) (wf_scratch_setGroupReg ht)))

theorem wf_scratch_correct {t : Tile} {off n : Nat} (ht : t.scratch.wf) : (t.correct off n).scratch.wf :=
  wf_scratch_update ht

theorem wf_scratch_recheck {t : Tile} {off n : Nat} (ht : t.scratch.wf) : (t.recheck off n).scratch.wf := by
  unfold Tile.recheck
  split
  · exact wf_scratch_ite (wf_scratch_update ht) ht
  · exact ht

theorem wf_scratch_store {t : Tile} {off : Nat} {b : List Byte} (ht : t.scratch.wf) : (t.store off b).scratch.wf :=
  wf_scratch_recheck (wf_writeN _ _ _ ht)

theorem memWf_countSp {corr unc : Nat} (hw : s.memWf) : (s.countSp corr unc).memWf :=
  memWf_update hw

theorem memWf_spRead {n off len : Nat} (hw : s.memWf) : (s.spRead n off len).1.memWf := by
  unfold State.spRead
  extract_lets
  split <;> exact memWf_pair (memWf_countSp (memWf_setTile hw (wf_scratch_correct (wf_tile hw))))

theorem memWf_spWrite {n off : Nat} {b : List Byte} (hw : s.memWf) : (s.spWrite n off b).memWf :=
  memWf_countSp (memWf_setTile hw (wf_scratch_store (wf_tile hw)))

/-! ### Machine/Jobs.lean -/

theorem wf_scratch_launch {t : Tile} {k : DescKey} {j : Job} (ht : t.scratch.wf) : (t.launch k j).scratch.wf :=
  wf_scratch_update ht

theorem memWf_launchTile {k : DescKey} {n : Nat} (hw : s.memWf) : (s.launchTile k n).memWf := by
  unfold State.launchTile
  split
  · exact hw
  · exact memWf_ite (memWf_setTile hw (wf_scratch_update (wf_tile hw)))
        (memWf_setTile hw (wf_scratch_update (wf_scratch_launch (wf_tile hw))))

theorem memWf_nextOnTile {n : Nat} (hw : s.memWf) : (s.nextOnTile n).memWf := by
  unfold State.nextOnTile
  extract_lets
  split
  · exact hw
  · exact memWf_launchTile (memWf_setTile hw (wf_scratch_update (wf_tile hw)))

theorem memWf_partJobEnd {k : DescKey} {n : Nat} (hw : s.memWf) : (s.partJobEnd k n).memWf := by
  unfold State.partJobEnd
  extract_lets _ _ s₁
  have h₁ : s₁.memWf := memWf_setPart hw
  exact memWf_ite h₁ (memWf_ite (memWf_pswChange h₁) (memWf_setPart (memWf_pswChange h₁)))

theorem memWf_jobEnd {k : DescKey} {status info : Nat} (hw : s.memWf) : (s.jobEnd k status info).memWf := by
  unfold State.jobEnd
  split
  · exact hw
  · exact memWf_complete (memWf_dropJob (memWf_foldl (fun _ _ hv => memWf_partJobEnd hv) hw))

theorem memWf_tileFinished {n : Nat} (hw : s.memWf) : (s.tileFinished n).memWf := by
  unfold State.tileFinished
  extract_lets _ _ s₁
  have h₁ : s₁.memWf := memWf_setTile hw (wf_scratch_update (wf_tile hw))
  split
  · exact memWf_nextOnTile h₁
  · extract_lets _ s₂ s₃
    have h₂ : s₂.memWf := memWf_setJob h₁
    have h₃ : s₃.memWf := memWf_ite (memWf_partEvent h₂) h₂
    exact memWf_nextOnTile (memWf_ite (memWf_jobEnd h₃) h₃)

theorem memWf_tileRecord {n cause : Nat} {data : List Byte} (hw : s.memWf) : (s.tileRecord n cause data).memWf :=
  memWf_logErr hw

theorem memWf_tileFault {n cause : Nat} {data : List Byte} (hw : s.memWf) : (s.tileFault n cause data).memWf := by
  unfold State.tileFault
  extract_lets _ _ _ _ s₁
  have h₁ : s₁.memWf := memWf_noticePart (memWf_partEvent (memWf_tileRecord hw))
  split
  · exact h₁
  · exact memWf_ite h₁ (memWf_setJob (memWf_foldl (fun _ _ hv => memWf_setTile hv (wf_scratch_update (wf_tile hv)))
        (memWf_foldl (fun _ _ hv => memWf_setPart hv) h₁)))

/-! ### Machine/TileRun.lean -/

theorem wf_scratch_enter {t : Tile} {vec detail : Nat} {xval xpc : Word} (ht : t.scratch.wf) : (t.enter vec detail xval xpc).scratch.wf :=
  wf_scratch_update ht

theorem memWf_doubleTrap {n vec detail : Nat} {pc : Word} (hw : s.memWf) : (s.doubleTrap n vec detail pc).memWf :=
  memWf_tileFault (memWf_update (memWf_setTile hw (wf_scratch_update (wf_tile hw))))

theorem memWf_takeTrap {n vec detail : Nat} {xval xpc : Word} (hw : s.memWf) : (s.takeTrap n vec detail xval xpc).memWf :=
  memWf_ite (memWf_doubleTrap hw) (memWf_ite (memWf_setTile hw (wf_scratch_enter (wf_tile hw)))
    (memWf_setTile hw (wf_scratch_enter (wf_tile hw))))

theorem memWf_boundary {n : Nat} (hw : s.memWf) : (s.boundary n).memWf := by
  unfold State.boundary
  extract_lets
  refine memWf_ite hw ?_
  split
  · exact memWf_takeTrap (memWf_ite hw (memWf_setTile hw (wf_scratch_update (wf_scratch_seeT (wf_tile hw)))))
  · split
    · exact memWf_takeTrap (memWf_ite hw (memWf_setTile hw (wf_scratch_update (wf_scratch_seeV (wf_tile hw)))))
    · split
      · exact memWf_takeTrap (memWf_setTile hw (wf_scratch_update (wf_tile hw)))
      · exact memWf_ite (memWf_takeTrap (memWf_ite hw (memWf_setTile hw (wf_scratch_update (wf_tile hw))))) hw

theorem memWf_retire {n : Nat} {pc : Word} (hw : s.memWf) : (s.retire n pc).memWf :=
  memWf_setPart (memWf_setTile hw (wf_scratch_update (wf_tile hw)))

theorem memWf_runInstr {n : Nat} {f : Tile → IRes} (hf : ∀ x : Tile, x.scratch.wf → (f x).MemWf) (hw : s.memWf) :
    (s.runInstr n f).memWf := by
  have hr := hf _ (wf_tile hw (n := n))
  unfold State.runInstr
  refine memWf_ite hw ?_
  split <;> rename_i e <;> rw [e] at hr
  · exact memWf_boundary (memWf_retire hr)
  · exact memWf_boundary (memWf_retire hr)
  · exact hr
  · exact memWf_takeTrap hr
  · exact hw

theorem memWf_writeReg {n : Nat} {rd : Reg} {v : Word} (hw : s.memWf) : (s.writeReg n rd v).memWf :=
  memWf_setTile hw (wf_scratch_setReg (wf_tile hw))

theorem memWf_runReg {n : Nat} {rd : Reg} {f : Tile → Word} (hw : s.memWf) : (s.runReg n rd f).memWf :=
  memWf_runInstr (fun _ _ => memWf_writeReg hw) hw

theorem wf_scratch_retireHandle {t : Tile} {rd : Reg} {h : Nat} {st : Byte} (ht : t.scratch.wf) : (t.retireHandle rd h st).scratch.wf :=
  wf_scratch_update (wf_scratch_setReg ht)

theorem memWf_settle {n : Nat} (hw : s.memWf) : (s.settle n).memWf := by
  unfold State.settle
  extract_lets t
  refine memWf_ite hw ?_
  have hr {t : Tile} {pc : Word} (ht : t.scratch.wf) : (((s.setTile n t).retire n pc).boundary n).memWf :=
    memWf_boundary (memWf_retire (memWf_setTile hw ht))
  have ht : t.scratch.wf := wf_tile hw
  cases t.wait with
  | none => exact memWf_boundary hw
  | twait k => exact memWf_ite (hr (wf_scratch_seeT ht)) hw
  | vwait k => exact memWf_ite (hr (wf_scratch_seeV ht)) hw
  | fence => exact memWf_ite (memWf_boundary (memWf_retire hw)) hw
  | dmaWait rd h =>
    dsimp only
    split
    · exact hr (wf_scratch_retireHandle ht)
    · exact hw
  | done =>
    exact memWf_ite (memWf_boundary (memWf_setTile hw (wf_scratch_update ht))) (memWf_ite (memWf_tileFinished (memWf_retire hw)) hw)
  | waitv | bar | layw | reply => exact hw

/-! ### Machine/PktOps.lean -/

theorem memWf_sendPkt {src : MPort} {p : Packet} (hw : s.memWf) : (s.sendPkt src p).memWf :=
  memWf_emit (memWf_update hw)

theorem memWf_arrive {fits : MPort → Bool} {p : Packet} (hw : s.memWf) : SomeFstMemWf (s.arrive fits p) := by
  unfold State.arrive
  split
  · exact someFstMemWf_ite (someFstMemWf_some (memWf_pair (memWf_update hw))) someFstMemWf_none
  · exact someFstMemWf_ite someFstMemWf_none (someFstMemWf_some hw)

theorem memWf_answer {p : Packet} {status : Nat} {data : List Byte} (hw : s.memWf) : (s.answer p status data).memWf :=
  memWf_ite (memWf_sendPkt hw) hw

theorem memWf_modRouter {f : Router → Router} (hw : s.memWf) : (s.modRouter f).memWf :=
  memWf_update hw

theorem memWf_cntFraming (hw : s.memWf) : s.cntFraming.memWf :=
  memWf_modRouter hw

theorem memWf_cntMalformed (hw : s.memWf) : s.cntMalformed.memWf :=
  memWf_modRouter hw

theorem memWf_cntStomped (hw : s.memWf) : s.cntStomped.memWf :=
  memWf_modRouter hw

theorem memWf_cntMisroute (hw : s.memWf) : s.cntMisroute.memWf :=
  memWf_modRouter hw

theorem memWf_cntAddress (hw : s.memWf) : s.cntAddress.memWf :=
  memWf_modRouter hw

theorem memWf_cntUnreach (hw : s.memWf) : s.cntUnreach.memWf :=
  memWf_modRouter hw

theorem memWf_cntRefused (hw : s.memWf) : s.cntRefused.memWf :=
  memWf_modRouter hw

theorem memWf_cntCircuit (hw : s.memWf) : s.cntCircuit.memWf :=
  memWf_modRouter hw

theorem memWf_cntLate (hw : s.memWf) : s.cntLate.memWf :=
  memWf_modRouter hw

theorem memWf_cntMc (hw : s.memWf) : s.cntMc.memWf :=
  memWf_modRouter hw

theorem memWf_absorb {n : Nat} (hw : s.memWf) : (s.absorb n).memWf :=
  memWf_setPart hw

theorem memWf_bar {n : Nat} {p : Packet} (hw : s.memWf) : (s.bar n p).memWf :=
  memWf_ite (memWf_answer hw) (memWf_absorb hw)

theorem memWf_journal {id : Nat} {data : List Byte} (hw : s.memWf) : (s.journal id data).memWf :=
  memWf_ite (memWf_update hw) (memWf_update hw)

/-! ### Machine/Stack.lean -/

theorem memWf_journalRows (hw : s.memWf) : s.journalRows.memWf :=
  memWf_journal (memWf_update hw)

theorem memWf_listRow {n l source : Nat} (hw : s.memWf) : (s.listRow n l source).memWf := by
  unfold State.listRow
  extract_lets
  refine memWf_ite hw ?_
  split
  · exact memWf_ite hw (memWf_partEvent (memWf_noticePart (memWf_report (memWf_setStack hw (wf_mem_update (wf_stack hw))))))
  · exact memWf_journalRows (memWf_setStack hw (wf_mem_update (wf_stack hw)))

theorem memWf_lineCorrected {n l : Nat} (hw : s.memWf) : (s.lineCorrected n l).memWf := by
  unfold State.lineCorrected
  extract_lets
  split
  · extract_lets s₁
    have h₁ : s₁.memWf := memWf_setStack hw (wf_mem_update (wf_stack hw))
    exact memWf_ite (memWf_listRow h₁) h₁

theorem memWf_stackFault {n : Nat} (hw : s.memWf) : (s.stackFault n).memWf :=
  memWf_fence (memWf_noticePart (memWf_partEvent hw))

theorem memWf_lineUncorrectable {n l : Nat} (hw : s.memWf) : (s.lineUncorrectable n l).memWf := by
  unfold State.lineUncorrectable
  extract_lets _ _ _ s₁
  have h₁ : s₁.memWf := memWf_listRow (memWf_setStack hw (wf_mem_update (wf_stack hw)))
  exact memWf_ite (memWf_stackFault h₁) h₁

theorem memWf_channelFails {n l : Nat} (hw : s.memWf) : (s.channelFails n l).memWf := by
  unfold State.channelFails
  extract_lets _ _ _ s₁
  have h₁ : s₁.memWf := memWf_setStack hw (wf_mem_update (wf_stack hw))
  exact memWf_ite (memWf_stackFault h₁) h₁

theorem memWf_lineWrite {n l key : Nat} {b : List Byte} (hw : s.memWf) : (s.lineWrite n l key b).memWf :=
  memWf_setStack hw (wf_writeN _ _ _ (wf_stack hw))

theorem memWf_lineRead {n l key : Nat} {err : LineErr} (hw : s.memWf) : (s.lineRead n l key err).1.memWf := by
  unfold State.lineRead
  extract_lets s₁
  have h₁ : s₁.memWf := by
    unfold s₁
    split
    · exact memWf_lineCorrected hw
    · exact memWf_lineUncorrectable hw
    · exact hw
  exact memWf_fst_ite h₁ (memWf_fst_ite (memWf_pair (memWf_draw h₁)) h₁)

theorem memWf_memRead {ilv o len key : Nat} {errs : List LineErr} (hw : s.memWf) : (s.memRead ilv o len key errs).1.memWf := by
  unfold State.memRead
  split
  · rename_i u₁ _ _ e₁
    have h₁ : u₁.memWf := by
      refine memWf_of_fst e₁ (memWf_foldl_fst ?_ hw)
      intro _ _ hv
      split
      · split
        · rename_i e₂
          exact memWf_of_fst e₂ (memWf_lineRead hv)
        · rename_i e₃
          exact memWf_of_fst e₃ (memWf_lineRead hv)
    exact h₁

theorem memWf_memWrite {ilv o key : Nat} {b : List Byte} {errs : List LineErr} (hw : s.memWf) : (s.memWrite ilv o key b errs).1.memWf := by
  unfold State.memWrite
  split
  · rename_i u₁ _ _ e₁
    have h₁ : u₁.memWf := by
      refine memWf_of_fst e₁ (memWf_foldl_fst (fun _ _ hv => memWf_fst_ite hv ?_) hw)
      split
      · split
        · rename_i e₂
          exact memWf_of_fst e₂ (memWf_lineRead hv)
        · rename_i e₃
          exact memWf_of_fst e₃ (memWf_lineRead hv)
    split
    · exact h₁
    · exact memWf_pair (memWf_foldl (fun _ _ hv => memWf_lineWrite hv) h₁)

theorem memWf_refuse {p : Packet} {st : Nat} (hw : s.memWf) : (s.refuse p st).memWf :=
  memWf_answer hw

theorem memWf_stackAdmit {n : Nat} {p : Packet} (hw : s.memWf) : (s.stackAdmit n p).memWf := by
  unfold State.stackAdmit
  extract_lets
  split
  · refine memWf_ite (memWf_bar hw) (memWf_ite (memWf_refuse hw)
        (memWf_ite (memWf_refuse (memWf_cntRefused hw)) (memWf_ite (memWf_refuse (memWf_setStack hw (wf_mem_update (wf_stack hw)))) ?_)))
    split
    · exact memWf_refuse hw
    · extract_lets _ s₁
      have h₁ : s₁.memWf := memWf_setStack hw (wf_mem_update (wf_stack hw))
      exact memWf_ite (memWf_answer h₁) h₁

theorem memWf_readDone {p : Packet} {b : List Byte} (hw : s.memWf) : (s.readDone p b).memWf :=
  memWf_ite (memWf_sendPkt hw) (memWf_answer hw)

theorem memWf_serve {r : StackReq} {errs : List LineErr} (hw : s.memWf) : (s.serve r errs).memWf := by
  unfold State.serve
  extract_lets
  refine memWf_ite ?_ ?_
  · split
    · rename_i e₁
      exact memWf_readDone (memWf_of_fst e₁ (memWf_memRead hw))
    · rename_i e₂
      exact memWf_answer (memWf_of_fst e₂ (memWf_memRead hw))
  · refine memWf_ite ?_ ?_
    · split
      · rename_i e₃
        exact memWf_answer (memWf_of_fst e₃ (memWf_memRead hw))
      · rename_i e₄
        have h₁ := memWf_of_fst e₄ (memWf_memRead hw)
        split
        · exact memWf_answer h₁
        · exact memWf_answer (memWf_memWrite h₁)
    · split
      · rename_i e₅
        have h₂ := memWf_of_fst e₅ (memWf_memWrite hw)
        exact memWf_ite h₂ (memWf_answer h₂)
      · rename_i e₆
        have h₃ := memWf_of_fst e₆ (memWf_memWrite hw)
        exact memWf_ite h₃ (memWf_answer h₃)

theorem nextMemWf_execStackRequest {n : PartNo} {pkt : Packet} (hw : s.memWf) : NextMemWf (execStackRequest n pkt s) := by
  unfold execStackRequest
  refine nextMemWf_next (memWf_ite hw ?_)
  split
  · rename_i e₁
    exact memWf_stackAdmit (memWf_arrive hw _ e₁)
  · exact hw

theorem nextMemWf_execStackAccess {n : PartNo} {errs : List LineErr} (hw : s.memWf) : NextMemWf (execStackAccess n errs s) := by
  unfold execStackAccess
  extract_lets
  refine nextMemWf_next ?_
  split
  · exact hw
  · refine memWf_ite hw ?_
    split
    · exact memWf_channelFails hw
    · exact memWf_serve (memWf_setStack hw (wf_mem_update (wf_stack hw)))

theorem memWf_remapRow {n e : Nat} {bad : List Nat} (hw : s.memWf) : (s.remapRow n e bad).memWf :=
  memWf_ite hw (memWf_journalRows (memWf_setStack hw (wf_mem_update (wf_stack hw))))

theorem nextMemWf_execAutoRemap {v : Word} {bad : List Nat} (hw : s.memWf) : NextMemWf (execAutoRemap v bad s) :=
  nextMemWf_next (memWf_ite hw (memWf_foldl (fun _ _ hv => memWf_foldl (fun _ _ h₁ => memWf_remapRow h₁) hv) (memWf_setReg hw)))

theorem nextMemWf_execPatrolScrub {n : PartNo} {err : LineErr} (hw : s.memWf) : NextMemWf (execPatrolScrub n err s) := by
  unfold execPatrolScrub
  extract_lets _ _ _ s₁
  have h₁ : s₁.memWf := memWf_ite (memWf_channelFails hw) (memWf_lineRead hw)
  exact nextMemWf_next (memWf_ite hw (memWf_setStack h₁ (wf_mem_update (wf_stack h₁))))

/-! ### Machine/Tensor.lean -/

theorem memWf_unitReads {n : Nat} {l : List (Nat × Nat)} (hw : s.memWf) : (s.unitReads n l).1.memWf := by
  unfold State.unitReads
  refine memWf_foldl_fst ?_ hw
  intro _ _ hv
  split
  · rename_i e₁
    exact memWf_of_fst e₁ (memWf_spRead hv)
  · rename_i e₂
    exact memWf_of_fst e₂ (memWf_spRead hv)

theorem memWf_anchorPhase {n : Nat} {d : TDesc} {given : Option Int} (hw : s.memWf) : (s.anchorPhase n d given).1.memWf := by
  unfold State.anchorPhase
  split
  · exact hw
  · exact memWf_pair (memWf_unitReads hw)

theorem memWf_runPasses {n : Nat} {d : TDesc} {a : Int} {mem : Memory} {l : List (List Nat × List Nat)}
    {acc : List (Nat × Byte) × BitVec 8} (hw : s.memWf) : (s.runPasses n d a mem l acc).1.memWf := by
  induction l generalizing s acc with
  | nil => exact hw
  | cons p r ih => exact memWf_fst_ite (memWf_pair (memWf_draw (memWf_unitReads hw))) (ih (memWf_unitReads hw))

theorem memWf_multiply {n : Nat} {d : TDesc} {a : Int} {late : List (Nat × List Byte)} (hw : s.memWf) :
    (s.multiply n d a late).1.memWf := by
  have hp {l acc mem} : ((if late.isEmpty then s else s.draw).runPasses n d a mem l acc).1.memWf :=
    memWf_runPasses (memWf_ite hw (memWf_draw hw))
  unfold State.multiply
  extract_lets mem
  split
  rename_i v r e
  have hv : v.memWf := memWf_of_fst e hp
  split
  · exact memWf_fst_ite (memWf_pair (memWf_draw hv)) (memWf_pair hv)
  · exact hv

theorem memWf_tancAnchor {n : Nat} {d : TDesc} {word : Word} (hw : s.memWf) : (s.tancAnchor n d word).1.memWf :=
  memWf_fst_ite (memWf_pair (memWf_unitReads hw)) (memWf_pair (memWf_unitReads hw))

theorem memWf_readTDesc {n : Nat} {off : Word} (hw : s.memWf) : (s.readTDesc n off).1.memWf := by
  unfold State.readTDesc
  split
  · exact hw
  · split
    · rename_i e₁
      exact memWf_of_fst e₁ (memWf_spRead hw)
    · rename_i e₂
      exact memWf_of_fst e₂ (memWf_spRead hw)

theorem memWf_unitWrites {n : Nat} {w : List (Nat × Byte)} (hw : s.memWf) : (s.unitWrites n w).memWf :=
  memWf_foldl (fun _ _ hv => memWf_spWrite hv) hw

theorem memWf_tensorFault {n code : Nat} {spoiled : List (Nat × Byte)} {fused : Bool} {sticky : BitVec 8} (hw : s.memWf) :
    (s.tensorFault n code spoiled fused sticky).memWf := by
  unfold State.tensorFault
  extract_lets s₁
  have h₁ : s₁.memWf := memWf_unitWrites hw
  split
  · exact h₁
  · exact memWf_settle (memWf_setTile h₁ (wf_scratch_update (wf_tile h₁)))

theorem memWf_tensorDone {n : Nat} {w : List (Nat × Byte)} {sticky : BitVec 8} {a : Int} (hw : s.memWf) :
    (s.tensorDone n w sticky a).memWf := by
  unfold State.tensorDone
  extract_lets s₁
  have h₁ : s₁.memWf := memWf_unitWrites hw
  exact memWf_settle (memWf_setTile h₁ (wf_scratch_update (wf_tile h₁)))

theorem memWf_setRun {n : Nat} {r : TRun} (hw : s.memWf) : (s.setRun n r).memWf := by
  unfold State.setRun
  extract_lets
  split
  · exact hw
  · exact memWf_setTile hw (wf_scratch_update (wf_tile hw))

theorem memWf_tensorBegin {n : Nat} {e : TEntry} {half : Bool} (hw : s.memWf) : (s.tensorBegin n e half).memWf := by
  unfold State.tensorBegin
  split
  · split
    · rename_i e₁
      exact memWf_tensorFault (memWf_of_fst e₁ (memWf_readTDesc hw))
    · rename_i e₂
      have h₁ := memWf_of_fst e₂ (memWf_readTDesc hw)
      split
      · exact memWf_tensorFault h₁
      · split
        · split
          · rename_i e₃
            exact memWf_setRun (memWf_of_fst e₃ (memWf_tancAnchor h₁))
          · rename_i e₄
            exact memWf_tensorFault (memWf_of_fst e₄ (memWf_tancAnchor h₁))
        · split
          · rename_i e₅
            exact memWf_setRun (memWf_of_fst e₅ (memWf_anchorPhase h₁))
          · rename_i e₆
            exact memWf_tensorFault (memWf_of_fst e₆ (memWf_anchorPhase h₁))

theorem memWf_heatAdd {n tc : Nat} (hw : s.memWf) : (s.heatAdd n tc).memWf :=
  memWf_setPart hw

theorem memWf_tensorEnd {n : Nat} {e : TEntry} {r : TRun} (hw : s.memWf) : (s.tensorEnd n e r).memWf := by
  unfold State.tensorEnd
  refine memWf_ite (memWf_tensorDone hw) ?_
  split
  · rename_i e₁
    exact memWf_tensorDone (memWf_heatAdd (memWf_of_fst e₁ (memWf_multiply hw)))
  · rename_i e₂
    exact memWf_tensorFault (memWf_of_fst e₂ (memWf_multiply hw))

/-! ### Machine/DmaOps.lean -/

theorem memWf_sendRead {n tag : Nat} {kind : BitVec 4} {dma : Option (Nat × Nat)} {p : Packet} (hw : s.memWf) :
    (s.sendRead n tag kind dma p).memWf :=
  memWf_sendPkt (memWf_setTile hw (wf_scratch_update (wf_tile hw)))

theorem memWf_sendWrite {n tag : Nat} {kind : BitVec 4} {dma : Option (Nat × Nat)} {p : Packet} (hw : s.memWf) :
    (s.sendWrite n tag kind dma p).memWf :=
  memWf_sendPkt (memWf_setTile hw (wf_scratch_update (wf_tile hw)))

theorem memWf_setXfer {n h : Nat} {x : Xfer} (hw : s.memWf) : (s.setXfer n h x).memWf :=
  memWf_setTile hw (wf_scratch_update (wf_tile hw))

theorem memWf_dmaWrite {n h : Nat} {ten : BitVec 7} {x : Xfer} (hw : s.memWf) : SomeMemWf (s.dmaWrite n h ten x) := by
  unfold State.dmaWrite
  split
  · exact someMemWf_none
  · extract_lets
    refine someMemWf_ite (someMemWf_some (memWf_setXfer hw))
        (someMemWf_ite (someMemWf_some (memWf_spWrite (memWf_setXfer hw)))
        (someMemWf_ite (someMemWf_some (memWf_setXfer hw)) (someMemWf_ite someMemWf_none
        (someMemWf_ite (someMemWf_some (memWf_sendPkt (memWf_setXfer hw))) ?_))))
    split
    · exact someMemWf_none
    · exact someMemWf_some (memWf_sendWrite (memWf_setXfer hw))

theorem memWf_dmaAsk {n h : Nat} {ten : BitVec 7} {x : Xfer} (hw : s.memWf) : SomeMemWf (s.dmaAsk n h ten x) := by
  unfold State.dmaAsk
  refine someMemWf_ite someMemWf_none ?_
  split
  · extract_lets
    refine someMemWf_ite ?_ ?_
    · split
      · rename_i e₁
        exact someMemWf_some (memWf_setXfer (memWf_of_fst e₁ (memWf_spRead hw)))
      · rename_i e₂
        exact someMemWf_some (memWf_setXfer (memWf_of_fst e₂ (memWf_spRead hw)))
    · refine someMemWf_ite (someMemWf_some (memWf_setXfer hw)) (someMemWf_ite someMemWf_none (someMemWf_ite ?_ ?_))
      · split
        · exact someMemWf_none
        · exact someMemWf_some (memWf_sendWrite (memWf_setXfer hw))
      · split
        · exact someMemWf_none
        · exact someMemWf_some (memWf_sendRead (memWf_setXfer hw))

theorem memWf_dmaRun {n h k : Nat} (hw : s.memWf) : (s.dmaRun n h k).memWf := by
  induction k generalizing s with
  | zero => exact hw
  | succ k ih =>
    unfold State.dmaRun
    split
    · exact hw
    · refine memWf_ite hw ?_
      split
      · rename_i e
        exact ih (memWf_dmaWrite hw _ e)
      · split
        · rename_i e
          exact ih (memWf_dmaAsk hw _ e)
        · exact hw

theorem memWf_dmaPump {n h : Nat} (hw : s.memWf) : (s.dmaPump n h).memWf := by
  unfold State.dmaPump
  split
  · exact hw
  · exact memWf_dmaRun hw

theorem memWf_dmaPumpAll {n : Nat} (hw : s.memWf) : (s.dmaPumpAll n).memWf :=
  memWf_foldl (fun _ _ hv => memWf_dmaPump hv) hw

theorem memWf_dmaReply {n h i : Nat} {write : Bool} {p : Packet} (hw : s.memWf) : (s.dmaReply n h i write p).memWf := by
  unfold State.dmaReply
  split
  · exact hw
  · exact memWf_ite (memWf_setXfer hw) (memWf_ite hw (memWf_setXfer hw))

theorem memWf_dmaSpoil {n : Nat} {x : Xfer} {first : Nat} (hw : s.memWf) : (s.dmaSpoil n x first).memWf :=
  memWf_unitWrites (memWf_draw hw)

theorem memWf_dmaMark {n h st : Nat} (hw : s.memWf) : (s.dmaMark n h st).memWf :=
  memWf_setTile hw (wf_scratch_update (wf_tile hw))

theorem memWf_dmaEnd {n h st : Nat} (hw : s.memWf) : (s.dmaEnd n h st).memWf :=
  memWf_settle (memWf_dmaMark hw)

theorem memWf_dmaFinish {n h : Nat} {x : Xfer} (hw : s.memWf) : (s.dmaFinish n h x).memWf :=
  memWf_dmaEnd (memWf_ite (memWf_dmaSpoil hw) (memWf_ite (memWf_dmaSpoil hw) hw))

/-! ### Machine/Pointing.lean -/

theorem memWf_engineErr {n code : Nat} (hw : s.memWf) : (s.engineErr n code).memWf :=
  memWf_setStack hw (wf_mem_update (wf_stack hw))

theorem memWf_engineError {n tile h code : Nat} (hw : s.memWf) : (s.engineError n tile h code).memWf :=
  memWf_dmaMark (memWf_engineErr hw)

theorem memWf_streamRows {tile h : Nat} {b : List Byte} {upTo : Nat} {fail : Option Nat} (hw : s.memWf) :
    (s.streamRows tile h b upTo fail).memWf := by
  unfold State.streamRows
  split
  · exact hw
  · exact memWf_dmaPump (memWf_setXfer hw)

theorem memWf_engineFail {n tile h code : Nat} {b : List Byte} {rows : Nat} (hw : s.memWf) : (s.engineFail n tile h code b rows).memWf := by
  unfold State.engineFail
  extract_lets s₁
  have h₁ : s₁.memWf := memWf_streamRows (memWf_engineErr hw)
  split
  · exact memWf_ite (memWf_dmaFinish h₁) h₁
  · exact h₁

theorem memWf_dropStream {n sid : Nat} (hw : s.memWf) : (s.dropStream n sid).memWf :=
  memWf_setStack hw (wf_mem_update (wf_stack hw))

theorem memWf_streamAdmit {tile h len rows : Nat} {owner : BitVec 7} {b : List Byte} (hw : s.memWf) :
    (s.streamAdmit tile h len rows owner b).1.memWf :=
  memWf_fst_ite (memWf_pair (memWf_dmaMark hw)) (memWf_fst_ite hw
    (memWf_fst_ite (memWf_pair (memWf_engineError hw)) (memWf_fst_ite (memWf_pair (memWf_engineError hw))
    (memWf_fst_ite (memWf_pair (memWf_engineError hw)) (memWf_fst_ite (memWf_pair (memWf_engineError hw))
    (memWf_pair (memWf_setStack hw (wf_mem_update (wf_stack hw)))))))))

theorem nextMemWf_execExpand {n : PartNo} {sid : Nat} {errs : List LineErr} (hw : s.memWf) : NextMemWf (execExpand n sid errs s) := by
  unfold execExpand
  extract_lets
  refine nextMemWf_next ?_
  split
  · exact hw
  · split
    · refine memWf_ite hw ?_
      split
      · exact memWf_channelFails hw
      · extract_lets
        split
        · exact memWf_engineFail (memWf_dropStream hw)
        · refine memWf_ite (memWf_engineFail (memWf_dropStream hw)) ?_
          split
          · exact memWf_engineFail (memWf_dropStream hw)
          · split
            · rename_i e₁
              have h₁ := memWf_of_fst e₁ (memWf_memRead hw)
              exact memWf_streamRows (memWf_setStack h₁ (wf_mem_update (wf_stack h₁)))
            · rename_i e₂
              have h₂ := memWf_of_fst e₂ (memWf_memRead hw)
              extract_lets
              split
              · rename_i e₃
                exact memWf_engineFail (memWf_dropStream (memWf_of_fst e₃ (memWf_memRead h₂)))
              · rename_i e₄
                exact memWf_engineFail (memWf_dropStream (memWf_of_fst e₄ (memWf_memRead h₂)))

theorem nextMemWf_execLoad {n : PartNo} {sid : Nat} {errs : List LineErr} (hw : s.memWf) : NextMemWf (execLoad n sid errs s) := by
  unfold execLoad
  extract_lets
  refine nextMemWf_next ?_
  split
  · exact hw
  · split
    · refine memWf_ite hw ?_
      split
      · exact memWf_channelFails hw
      · extract_lets
        refine memWf_ite (memWf_engineFail (memWf_dropStream (memWf_setStack hw (wf_mem_update (wf_stack hw))))) ?_
        split
        · exact memWf_engineFail (memWf_dropStream (memWf_setStack hw (wf_mem_update (wf_stack hw))))
        · split
          · rename_i e₁
            have h₁ := memWf_of_fst e₁ (memWf_memRead hw)
            exact memWf_engineFail (memWf_dropStream (memWf_setStack h₁ (wf_mem_update (wf_stack h₁))))
          · rename_i e₂
            have h₂ := memWf_of_fst e₂ (memWf_memRead hw)
            extract_lets s₁
            have h₃ : s₁.memWf := memWf_setStack h₂ (wf_mem_update (wf_stack h₂))
            exact memWf_streamRows (memWf_setStack h₃ (wf_mem_update (wf_stack h₃)))

theorem nextMemWf_execStreamEnd {n : PartNo} {sid : Nat} (hw : s.memWf) : NextMemWf (execStreamEnd n sid s) := by
  unfold execStreamEnd
  refine nextMemWf_next ?_
  split
  · exact hw
  · refine memWf_ite hw ?_
    extract_lets s₁
    have h₁ : s₁.memWf := memWf_dropStream hw
    split
    · exact memWf_ite (memWf_dmaFinish h₁) h₁
    · exact h₁

theorem memWf_cutStreams {n : Nat} (hw : s.memWf) : (s.cutStreams n).memWf :=
  memWf_foldl (fun _ _ hv => memWf_engineFail hv) (memWf_setStack hw (wf_mem_update (wf_stack hw)))

/-! ### Machine/Vector.lean -/

theorem memWf_issueV {t : TileNo} {legal : Bool} {op : VOp} {a b c d : Reg} (hw : s.memWf) : NextMemWf (s.issueV t legal op a b c d) :=
  nextMemWf_next (memWf_runInstr (fun _ hv => IRes.memWf_ite hw (IRes.memWf_ite trivial (memWf_setTile hw (wf_scratch_update hv)))) hw)

theorem memWf_vectorFault {n code : Nat} {sticky : BitVec 8} (hw : s.memWf) : (s.vectorFault n code sticky).memWf := by
  unfold State.vectorFault
  extract_lets
  split
  · exact hw
  · exact memWf_settle (memWf_setTile hw (wf_scratch_update (wf_tile hw)))

theorem nextMemWf_execVectorFinish {t : TileNo} (hw : s.memWf) : NextMemWf (execVectorFinish t s) := by
  unfold execVectorFinish
  extract_lets
  refine nextMemWf_next (memWf_ite hw ?_)
  split
  · exact hw
  · split
    · exact memWf_vectorFault hw
    · split
      · rename_i e₁
        exact memWf_vectorFault (memWf_draw (memWf_of_fst e₁ (memWf_unitReads hw)))
      · rename_i e₂
        have h₁ := memWf_of_fst e₂ (memWf_unitReads hw)
        split
        · exact memWf_vectorFault (memWf_draw h₁)
        · extract_lets s₁
          have h₂ : s₁.memWf := memWf_unitWrites (memWf_ite h₁ (memWf_draw h₁))
          exact memWf_settle (memWf_setTile h₂ (wf_scratch_update (wf_tile h₂)))

/-! ### Machine/TileMemory.lean -/

theorem wf_scratch_noteLate {t : Tile} {off n : Nat} (ht : t.scratch.wf) : (t.noteLate off n).scratch.wf :=
  wf_scratch_update ht

theorem memWf_loadBytes {n off len : Nat} (hw : s.memWf) : (s.loadBytes n off len).1.memWf := by
  unfold State.loadBytes
  extract_lets
  split
  · rename_i e₁
    have h₁ := memWf_of_fst e₁ (memWf_spRead hw)
    exact memWf_fst_ite (memWf_pair (memWf_draw h₁)) h₁
  · exact memWf_spRead hw

theorem memWf_runLoad {t : TileNo} {n : Nat} {rd rs1 : Reg} {imm : BitVec 16} (hw : s.memWf) : NextMemWf (s.runLoad t n rd rs1 imm) := by
  unfold State.runLoad
  refine nextMemWf_next (memWf_runInstr ?_ hw)
  intro _ _
  extract_lets
  split
  · exact hw
  · split
    · rename_i e₁
      exact memWf_writeReg (memWf_of_fst e₁ (memWf_loadBytes hw))
    · rename_i e₂
      exact memWf_of_fst e₂ (memWf_loadBytes hw)

theorem memWf_runStore {t : TileNo} {n : Nat} {rd rs1 : Reg} {imm : BitVec 16} (hw : s.memWf) : NextMemWf (s.runStore t n rd rs1 imm) := by
  unfold State.runStore
  refine nextMemWf_next (memWf_runInstr ?_ hw)
  intro _ hv
  extract_lets
  split
  · exact hw
  · exact memWf_spWrite (memWf_setTile hw (wf_scratch_noteLate hv))

/-! ### Machine/TilePort.lean -/

theorem memWf_readAccess {n : Nat} {x : Tile} {rd : Reg} {kind typ : BitVec 4} {a : Word} {pl : List Byte} {atomic : Bool}
    (hw : s.memWf) : (s.readAccess n x rd kind typ a pl atomic).MemWf := by
  unfold State.readAccess
  split
  · exact hw
  · refine IRes.memWf_ite hw (IRes.memWf_ite trivial ?_)
    extract_lets _ _ s₁
    have h₁ : s₁.memWf := memWf_sendRead hw
    exact memWf_setTile h₁ (wf_scratch_update (wf_tile h₁))

theorem nextMemWf_execGst {t : TileNo} {rs1 rs2 : Reg} (hw : s.memWf) : NextMemWf (execGst t rs1 rs2 s) := by
  unfold execGst
  refine nextMemWf_next (memWf_runInstr ?_ hw)
  intro _ _
  extract_lets
  split
  · exact hw
  · exact IRes.memWf_ite (IRes.memWf_ite hw hw) (IRes.memWf_ite trivial (IRes.memWf_ite (memWf_sendPkt hw) (memWf_sendWrite hw)))

theorem memWf_runAtom {t : TileNo} {op : Nat} {a b c d : Reg} (hw : s.memWf) : NextMemWf (s.runAtom t op a b c d) :=
  nextMemWf_next (memWf_runInstr (fun _ _ => memWf_readAccess hw) hw)

theorem memWf_dmaStart {n h : Nat} {fw : Bool} {ten : BitVec 7} {off : Word} (hw : s.memWf) : (s.dmaStart n h fw ten off).memWf := by
  unfold State.dmaStart
  extract_lets
  refine memWf_ite (memWf_dmaMark hw) ?_
  split
  · rename_i e₁
    exact memWf_dmaMark (memWf_of_fst e₁ (memWf_spRead hw))
  · rename_i e₂
    have h₁ := memWf_of_fst e₂ (memWf_spRead hw)
    extract_lets
    refine memWf_ite (memWf_dmaMark h₁) (memWf_ite (memWf_dmaMark h₁)
        (memWf_ite (memWf_dmaMark h₁) (memWf_ite (memWf_dmaMark h₁)
        (memWf_ite ?_ (memWf_ite (memWf_setXfer h₁) (memWf_dmaPump (memWf_setXfer h₁)))))))
    split
    · rename_i e₃
      exact memWf_dmaMark (memWf_of_fst e₃ (memWf_spRead h₁))
    · rename_i e₄
      have h₂ := memWf_of_fst e₄ (memWf_spRead h₁)
      split
      · rename_i e₅
        exact memWf_of_fst e₅ (memWf_streamAdmit (memWf_setXfer h₂))
      · rename_i e₆
        have h₃ := memWf_of_fst e₆ (memWf_streamAdmit (memWf_setXfer h₂))
        exact memWf_setTile h₃ (wf_scratch_update (wf_tile h₃))

theorem nextMemWf_execDmaGo {t : TileNo} {a b : Reg} (hw : s.memWf) : NextMemWf (execDmaGo t a b s) := by
  unfold execDmaGo
  refine nextMemWf_next (memWf_runInstr ?_ hw)
  intro _ _
  split
  · exact IRes.memWf_ite trivial hw
  · exact IRes.memWf_ite trivial (memWf_dmaStart (memWf_writeReg hw))

theorem nextMemWf_execDmaWait {t : TileNo} {a b : Reg} (hw : s.memWf) : NextMemWf (execDmaWait t a b s) := by
  unfold execDmaWait
  refine nextMemWf_next (memWf_runInstr (fun _ hv => IRes.memWf_ite hw ?_) hw)
  split
  · exact memWf_writeReg hw
  · exact memWf_setTile hw (wf_scratch_retireHandle hv)
  · exact memWf_setTile hw (wf_scratch_update hv)

theorem nextMemWf_execDmaTest {t : TileNo} {a b : Reg} (hw : s.memWf) : NextMemWf (execDmaTest t a b s) := by
  unfold execDmaTest
  refine nextMemWf_next (memWf_runInstr (fun _ hv => IRes.memWf_ite hw ?_) hw)
  split
  · exact memWf_writeReg hw
  · exact memWf_setTile hw (wf_scratch_retireHandle hv)
  · exact memWf_writeReg hw

theorem nextMemWf_execDmaComplete {n : PartNo} {x : Fin 72} {h : Fin 8} (hw : s.memWf) : NextMemWf (execDmaComplete n x h s) := by
  unfold execDmaComplete
  extract_lets _ s₁
  have h₁ : s₁.memWf := memWf_dmaPump hw
  refine nextMemWf_next (memWf_ite hw ?_)
  split
  · exact h₁
  · exact memWf_ite (memWf_dmaFinish h₁) h₁

theorem memWf_runWaitv {t : TileNo} {ge : Bool} {a b c : Reg} (hw : s.memWf) : NextMemWf (s.runWaitv t ge a b c) := by
  unfold State.runWaitv
  refine nextMemWf_next (memWf_runInstr ?_ hw)
  intro _ _
  extract_lets
  split
  · exact hw
  · split
    · rename_i e₁
      exact memWf_of_fst e₁ (memWf_spRead hw)
    · rename_i e₂
      have h₁ := memWf_of_fst e₂ (memWf_spRead hw)
      exact IRes.memWf_ite (memWf_writeReg h₁) (memWf_setTile h₁ (wf_scratch_update (wf_tile h₁)))

theorem nextMemWf_execWaitvWake {t : TileNo} (hw : s.memWf) : NextMemWf (execWaitvWake t s) := by
  unfold execWaitvWake
  extract_lets
  refine nextMemWf_next ?_
  split
  · exact memWf_ite (memWf_boundary (memWf_retire (memWf_writeReg hw))) hw
  · exact hw

theorem nextMemWf_execWaitvTimeout {t : TileNo} (hw : s.memWf) : NextMemWf (execWaitvTimeout t s) := by
  unfold execWaitvTimeout
  extract_lets
  refine nextMemWf_next ?_
  split
  · exact memWf_ite (memWf_boundary (memWf_retire (memWf_writeReg hw))) hw
  · exact hw

theorem nextMemWf_execBarRelease {key : DescKey} (hw : s.memWf) : NextMemWf (execBarRelease key s) := by
  unfold execBarRelease
  refine nextMemWf_next ?_
  split
  · exact hw
  · exact memWf_ite (memWf_foldl (fun _ _ hv => memWf_boundary (memWf_retire hv)) (memWf_setJob hw)) hw

theorem nextMemWf_execLayw {t : TileNo} {a b : Reg} (hw : s.memWf) : NextMemWf (execLayw t a b s) :=
  nextMemWf_next (memWf_runInstr (fun _ hv => IRes.memWf_ite (memWf_writeReg hw) (memWf_setTile hw (wf_scratch_update hv))) hw)

theorem nextMemWf_execLaywWake {t : TileNo} (hw : s.memWf) : NextMemWf (execLaywWake t s) := by
  unfold execLaywWake
  extract_lets
  refine nextMemWf_next ?_
  split
  · exact memWf_ite (memWf_boundary (memWf_retire (memWf_writeReg hw))) hw
  · exact hw

theorem wf_scratch_freeEntry {t : Tile} {write : Bool} {tag : Nat} (ht : t.scratch.wf) : (t.freeEntry write tag).scratch.wf :=
  wf_scratch_ite (wf_scratch_update ht) (wf_scratch_update ht)

theorem memWf_lateDrop {n : Nat} {write : Bool} {tag : Nat} (hw : s.memWf) : (s.lateDrop n write tag).memWf :=
  memWf_setPart (memWf_setTile hw (wf_scratch_freeEntry (wf_tile hw)))

theorem memWf_tileReply {n : Nat} {p : Packet} (hw : s.memWf) : (s.tileReply n p).memWf := by
  unfold State.tileReply
  extract_lets tag write t s₁ t₁ s₂
  have h₁ : s₁.memWf := memWf_setTile hw (wf_scratch_freeEntry (wf_tile hw))
  have h₂ : s₂.memWf := memWf_dmaPumpAll h₁
  generalize (s.tile n).entry write tag = o
  cases o with
  | none => exact hw
  | some e =>
    refine memWf_ite (memWf_lateDrop hw) (memWf_ite hw (memWf_ite ?_ ?_))
    · exact memWf_ite (memWf_setTile hw (wf_scratch_freeEntry (wf_tile hw)))
        (memWf_ite (memWf_setTile hw (wf_scratch_update (wf_tile hw))) (memWf_setTile hw (wf_scratch_update (wf_tile hw))))
    · refine memWf_ite h₁ ?_
      generalize e.dma = o
      cases o with
      | some x => exact memWf_settle (memWf_dmaPumpAll (memWf_dmaReply h₁))
      | none =>
        refine memWf_ite (memWf_ite (memWf_settle h₂) (memWf_settle (memWf_setTile h₂ (wf_scratch_update (wf_tile h₂))))) ?_
        split
        · exact memWf_ite h₂ (memWf_ite (memWf_boundary (memWf_retire (memWf_writeReg h₂)))
            (memWf_takeTrap (memWf_setTile h₂ (wf_scratch_update (wf_tile h₂)))))
        · exact h₂

theorem memWf_tileResend {n : Nat} {tag : BitVec 6} {write : Bool} (hw : s.memWf) : (s.tileResend n tag write).memWf := by
  unfold State.tileResend
  extract_lets
  split
  · exact hw
  · refine memWf_ite hw (memWf_ite ?_ (memWf_ite (memWf_sendPkt (memWf_setTile hw (wf_scratch_update (wf_tile hw))))
        (memWf_sendPkt (memWf_setTile hw (wf_scratch_update (wf_tile hw))))))
    extract_lets
    split
    · split
      · rename_i e₁
        have h₁ := memWf_of_fst e₁ (memWf_streamAdmit hw)
        exact memWf_settle (memWf_setTile h₁ (wf_scratch_freeEntry (wf_tile h₁)))
      · rename_i e₂
        exact memWf_of_fst e₂ (memWf_streamAdmit hw)
    · exact memWf_setTile hw (wf_scratch_freeEntry (wf_tile hw))

theorem nextMemWf_execLateReply {t : TileNo} {pkt : Packet} (hw : s.memWf) : NextMemWf (execLateReply t pkt s) := by
  unfold execLateReply
  extract_lets
  refine nextMemWf_next ?_
  split
  · refine memWf_ite hw ?_
    split
    · rename_i e₁
      exact memWf_lateDrop (memWf_arrive hw _ e₁)
    · exact hw
  · exact hw

theorem memWf_portRefuse {n : Nat} {p : Packet} {st cause : Nat} (hw : s.memWf) : (s.portRefuse n p st cause).memWf :=
  memWf_answer (memWf_tileRecord hw)

theorem wf_scratch_countFused {t : Tile} {ten : BitVec 7} {o n : Nat} (ht : t.scratch.wf) : (t.countFused ten o n).scratch.wf := by
  unfold Tile.countFused
  split
  · exact ht
  · split
    · exact ht
    · exact wf_scratch_ite ht (wf_scratch_update ht)

theorem memWf_portServe {n : Nat} {p : Packet} (hw : s.memWf) : (s.portServe n p).memWf := by
  unfold State.portServe
  extract_lets _ s₁
  have h₁ : s₁.memWf := memWf_spWrite hw
  refine memWf_ite ?_ ?_
  · split
    · rename_i e₁
      have h₂ := memWf_of_fst e₁ (memWf_spRead hw)
      exact memWf_ite (memWf_answer h₂) (memWf_sendPkt h₂)
    · rename_i e₂
      exact memWf_answer (memWf_of_fst e₂ (memWf_spRead hw))
  · refine memWf_ite ?_ (memWf_answer (memWf_ite (memWf_setTile h₁ (wf_scratch_countFused (wf_tile h₁))) h₁))
    split
    · rename_i e₃
      exact memWf_answer (memWf_of_fst e₃ (memWf_spRead hw))
    · rename_i e₄
      have h₃ := memWf_of_fst e₄ (memWf_spRead hw)
      split
      · exact memWf_answer h₃
      · exact memWf_answer (memWf_spWrite h₃)

theorem memWf_portInbound {n : Nat} {p : Packet} (hw : s.memWf) : (s.portInbound n p).memWf :=
  memWf_ite (memWf_bar hw) (memWf_ite (memWf_answer hw) (memWf_ite (memWf_portRefuse hw)
    (memWf_ite (memWf_portRefuse hw) (memWf_ite (memWf_portRefuse hw) (memWf_portServe hw)))))

theorem nextMemWf_execScratchpadScrub {t : TileNo} {upsets : List (BitVec 20 × Bool)} (hw : s.memWf) : NextMemWf
    (execScratchpadScrub t upsets s) := by
  unfold execScratchpadScrub
  extract_lets _ _ _ _ s₁
  have h₁ : s₁.memWf := memWf_setTile hw (wf_scratch_update (wf_tile hw))
  exact nextMemWf_next (memWf_ite h₁ (memWf_foldl (fun _ _ hv => memWf_foldl (fun _ _ h₂ => memWf_tileRecord h₂) (memWf_spRead hv))
      (memWf_setTile h₁ (wf_scratch_update (wf_tile h₁)))))

theorem nextMemWf_execTileFaultJobEnd {key : DescKey} (hw : s.memWf) : NextMemWf (execTileFaultJobEnd key s) := by
  unfold execTileFaultJobEnd
  refine nextMemWf_next ?_
  split
  · split
    · exact memWf_ite (memWf_jobEnd hw) hw
    · exact hw
  · exact hw

/-! ### Machine/Fused.lean -/

theorem memWf_setTeam {t : Team} (hw : s.memWf) : (s.setTeam t).memWf :=
  memWf_update hw

theorem memWf_modRun {n : Nat} {f : TRun → TRun} (hw : s.memWf) : (s.modRun n f).memWf := by
  unfold State.modRun
  extract_lets
  split
  · split
    · exact memWf_setTile hw (wf_scratch_update (wf_tile hw))
    · exact hw
  · exact hw

theorem memWf_askSlots {n k : Nat} (hw : s.memWf) : (s.askSlots n k).memWf := by
  induction k generalizing s with
  | zero => exact hw
  | succ k ih =>
    unfold State.askSlots
    extract_lets t
    split
    · exact hw
    · split
      · exact memWf_ite hw (ih (memWf_modRun (memWf_sendPkt (memWf_setTile hw (wf_scratch_update (wf_tile hw))))))
      · exact hw

theorem memWf_queueSends {n : Nat} {l : List (Nat × Nat)} (hw : s.memWf) : (s.queueSends n l).memWf :=
  memWf_askSlots (memWf_modRun hw)

theorem memWf_dropStep {ten : BitVec 7} {num step : Nat} (hw : s.memWf) : (s.dropStep ten num step).memWf :=
  memWf_foldl (fun _ _ hv => memWf_sendPkt hv) (memWf_update hw)

theorem memWf_clearMarks {n : Nat} (hw : s.memWf) : (s.clearMarks n).memWf :=
  memWf_update hw

theorem memWf_fusedFault {n code : Nat} (hw : s.memWf) : (s.fusedFault n code).memWf := by
  unfold State.fusedFault
  extract_lets
  split
  · exact memWf_tensorFault (memWf_clearMarks hw)
  · exact memWf_tensorFault (memWf_clearMarks (memWf_draw hw))

theorem memWf_abortMember {n : Nat} (hw : s.memWf) : (s.abortMember n).memWf := by
  unfold State.abortMember
  extract_lets s₁
  have h₁ : s₁.memWf := memWf_fusedFault hw
  exact memWf_setTile h₁ (wf_scratch_update (wf_tile h₁))

theorem memWf_abortQueued {num step n : Nat} (hw : s.memWf) : (s.abortQueued num step n).memWf := by
  unfold State.abortQueued
  extract_lets
  split
  · exact hw
  · split
    · exact hw
    · exact memWf_settle (memWf_setTile hw (wf_scratch_update (wf_tile hw)))

theorem memWf_stepAborted {ten : BitVec 7} {num step : Nat} {skip : Option Nat} (hw : s.memWf) :
    (s.stepAborted ten num step skip).memWf := by
  unfold State.stepAborted
  extract_lets s₁ s₂
  have h₁ : s₁.memWf := memWf_dropStep hw
  have h₂ : s₂.memWf := by
    unfold s₂
    split
    · exact memWf_setTeam h₁
    · exact h₁
  exact memWf_foldl (fun _ _ hv => memWf_abortQueued hv) (memWf_foldl (fun _ _ hv => memWf_ite hv (memWf_abortMember hv)) h₂)

theorem memWf_memberFault {n code : Nat} (hw : s.memWf) : (s.memberFault n code).memWf := by
  unfold State.memberFault
  extract_lets _ s₁
  have h₁ : s₁.memWf := memWf_fusedFault hw
  split
  · exact h₁
  · split
    · exact h₁
    · exact memWf_stepAborted (memWf_update (memWf_foldl (fun _ _ hv => memWf_sendPkt hv) h₁))

theorem memWf_teamCast {tm : Team} {off : Nat} {b : List Byte} (hw : s.memWf) : (s.teamCast tm off b).memWf :=
  memWf_foldl (fun _ _ hv => memWf_foldl (fun _ _ h₁ => memWf_sendPkt h₁) hv) hw

theorem memWf_castAnchors {n : Nat} (hw : s.memWf) : (s.castAnchors n).memWf := by
  unfold State.castAnchors
  extract_lets
  split
  · exact hw
  · extract_lets
    refine memWf_ite hw ?_
    split
    · exact memWf_teamCast hw
    · exact hw

theorem memWf_putGroup {n : Nat} {d : TDesc} {g : Nat} {v : Nat × List Int} (hw : s.memWf) : (s.putGroup n d g v).memWf :=
  memWf_spWrite (memWf_spWrite hw)

theorem memWf_addChunk {n first : Nat} {b : List Byte} (hw : s.memWf) : (s.addChunk n first b).memWf := by
  unfold State.addChunk
  split
  · exact hw
  · exact memWf_foldl (fun _ _ hv => memWf_putGroup hv) hw

theorem memWf_finishShard {n : Nat} (hw : s.memWf) : (s.finishShard n).memWf := by
  unfold State.finishShard
  extract_lets
  split
  · exact hw
  · extract_lets
    refine memWf_ite hw ?_
    split
    · extract_lets s₁
      have h₁ : s₁.memWf := memWf_modRun hw
      refine memWf_ite (memWf_spWrite h₁) ?_
      split
      · exact memWf_teamCast h₁
      · exact h₁

theorem memWf_reanchor {n : Nat} (hw : s.memWf) : (s.reanchor n).memWf := by
  unfold State.reanchor
  extract_lets
  split
  · exact hw
  · extract_lets
    refine memWf_ite hw ?_
    split
    · rename_i e₁
      exact memWf_finishShard (memWf_queueSends (memWf_modRun
          (memWf_foldl (fun _ _ hv => memWf_addChunk hv) (memWf_modRun
          (memWf_of_fst e₁ (memWf_fst_ite hw (memWf_foldl_fst (fun _ _ hv => memWf_pair (memWf_putGroup hv)) hw)))))))

theorem memWf_fusedMultiplied {n : Nat} (hw : s.memWf) : (s.fusedMultiplied n).memWf := by
  unfold State.fusedMultiplied
  extract_lets
  split
  · exact hw
  · extract_lets
    split
    · rename_i e₁
      exact memWf_tensorFault (memWf_clearMarks (memWf_of_fst e₁ (memWf_multiply hw)))
    · rename_i e₂
      extract_lets s₁ _ _ _ _ s₂
      have h₁ : s₁.memWf := memWf_modRun (memWf_unitWrites (memWf_heatAdd (memWf_of_fst e₂ (memWf_multiply hw))))
      have h₂ : s₂.memWf := memWf_modRun h₁
      split
      · exact memWf_modRun h₁
      · exact memWf_queueSends (memWf_modRun (memWf_unitWrites h₁))
      · exact memWf_ite (memWf_reanchor h₂) (memWf_castAnchors (memWf_queueSends h₂))

theorem memWf_fusedMultiply {n : Nat} (hw : s.memWf) : (s.fusedMultiply n).memWf := by
  unfold State.fusedMultiply
  split
  · exact hw
  · split
    · rename_i e₁
      exact memWf_modRun (memWf_of_fst e₁ (memWf_anchorPhase hw))
    · rename_i e₂
      exact memWf_tensorFault (memWf_clearMarks (memWf_of_fst e₂ (memWf_anchorPhase hw)))

theorem memWf_gatherDone {n : Nat} (hw : s.memWf) : (s.gatherDone n).memWf := by
  unfold State.gatherDone
  split
  · exact memWf_ite (memWf_fusedMultiply hw) hw
  · exact hw

theorem memWf_readFDesc {n : Nat} {e : TEntry} (hw : s.memWf) : (s.readFDesc n e).1.memWf := by
  unfold State.readFDesc
  refine memWf_fst_ite hw ?_
  split
  · rename_i e₁
    exact memWf_of_fst e₁ (memWf_spRead hw)
  · rename_i e₂
    exact memWf_of_fst e₂ (memWf_spRead hw)

theorem memWf_fusedBegin {n : Nat} {e : TEntry} {half : Bool} (hw : s.memWf) : (s.fusedBegin n e half).memWf := by
  unfold State.fusedBegin
  extract_lets
  split
  · rename_i e₁
    exact memWf_tensorFault (memWf_of_fst e₁ (memWf_readFDesc hw))
  · rename_i e₂
    have h₁ := memWf_of_fst e₂ (memWf_readFDesc hw)
    extract_lets
    refine memWf_ite (memWf_tensorFault h₁) ?_
    split
    · rename_i e₃
      exact memWf_tensorFault (memWf_of_fst e₃ (memWf_readTDesc h₁))
    · rename_i e₄
      have h₂ := memWf_of_fst e₄ (memWf_readTDesc h₁)
      split
      · exact memWf_tensorFault h₂
      · exact memWf_tensorFault h₂
      · refine memWf_ite ?_ ?_
        · extract_lets s₁
          have h₃ : s₁.memWf := memWf_tensorFault h₂
          exact memWf_setTile h₃ (wf_scratch_update (wf_tile h₃))
        · extract_lets _ _ _ s₂
          have h₄ : s₂.memWf := memWf_setRun (memWf_setTeam h₂)
          exact memWf_ite (memWf_gatherDone (memWf_queueSends h₄)) (memWf_fusedMultiply h₄)

theorem memWf_sendChunk {n dst seq slot : Nat} {retry : Bool} (hw : s.memWf) : (s.sendChunk n dst seq slot retry).memWf := by
  unfold State.sendChunk
  extract_lets
  split
  · exact hw
  · extract_lets
    split
    · split
      · rename_i u₁ _ e₁
        have h₁ : u₁.memWf := by
          refine memWf_of_fst e₁ (memWf_foldl_fst ?_ hw)
          intro _ _ hv
          split
          · rename_i e₂
            exact memWf_of_fst e₂ (memWf_spRead hv)
          · rename_i e₃
            exact memWf_of_fst e₃ (memWf_spRead hv)
        split
        · exact memWf_tensorFault (memWf_clearMarks h₁)
        · extract_lets _ _ _ s₁
          have h₂ : s₁.memWf := memWf_foldl (fun _ _ hv => memWf_sendPkt hv) h₁
          exact memWf_modRun (memWf_ite (memWf_update h₂) h₂)
    · exact hw

theorem memWf_stray (hw : s.memWf) : s.stray.memWf :=
  memWf_update hw

theorem memWf_slotReply {n : Nat} {p : Packet} (hw : s.memWf) : (s.slotReply n p).memWf := by
  unfold State.slotReply
  extract_lets _ s₁ s₂
  have h₁ : s₁.memWf := memWf_setTile hw (wf_scratch_freeEntry (wf_tile hw))
  have h₂ : s₂.memWf := memWf_modRun h₁
  split
  · exact hw
  · refine memWf_ite (memWf_tileReply hw) (memWf_ite (memWf_stray hw) ?_)
    split
    · exact h₁
    · split
      · exact h₁
      · exact memWf_ite (memWf_memberFault h₂) (memWf_ite (memWf_abortMember h₂) (memWf_askSlots (memWf_sendChunk h₂)))

/-! ### Machine/Staging.lean -/

theorem memWf_noSlot {p : Packet} {c : Col} (hw : s.memWf) : (s.noSlot p c).memWf :=
  memWf_sendPkt hw

theorem nextMemWf_execSlotReq {pkt : Packet} (hw : s.memWf) : NextMemWf (execSlotReq pkt s) := by
  unfold execSlotReq
  refine nextMemWf_next (memWf_ite hw ?_)
  split
  · exact memWf_stray hw
  · extract_lets
    split
    · exact memWf_answer hw
    · exact memWf_ite (memWf_answer hw) (memWf_ite (memWf_noSlot hw) (memWf_ite (memWf_answer hw) (memWf_update hw)))

theorem nextMemWf_execGrant {i : Nat} (hw : s.memWf) : NextMemWf (execGrant i s) := by
  unfold execGrant
  refine nextMemWf_next (memWf_ite hw ?_)
  split
  · exact hw
  · split
    · exact memWf_sendPkt (memWf_update hw)
    · exact hw

theorem memWf_freeSlotNo {k : Nat} (hw : s.memWf) : (s.freeSlotNo k).memWf :=
  memWf_update hw

theorem memWf_chunkMsg {k : Slot} {kind : Nat} (hw : s.memWf) : (s.chunkMsg k kind).memWf :=
  memWf_sendPkt hw

theorem memWf_collectiveRecord {t : Nat} {k : Slot} {cause : Nat} (hw : s.memWf) : (s.collectiveRecord t k cause).memWf :=
  memWf_logErr hw

theorem memWf_chunkFail {no : Nat} {k : Slot} (hw : s.memWf) : (s.chunkFail no k).memWf := by
  unfold State.chunkFail
  extract_lets _ _ _ _ _ _ s₁
  have h₁ : s₁.memWf := memWf_raise (memWf_update (memWf_freeSlotNo hw))
  exact memWf_ite (memWf_chunkMsg h₁) (memWf_foldl (fun _ _ hv => memWf_memberFault (memWf_collectiveRecord hv)) h₁)

theorem memWf_deliverChunk {t : Nat} {k : Slot} {b : List Byte} (hw : s.memWf) : (s.deliverChunk t k b).memWf := by
  unfold State.deliverChunk
  split
  · exact hw
  · extract_lets _ _ _ _ s₁ _ _ _ _ s₂
    have h₁ : s₁.memWf := memWf_modRun hw
    have h₂ : s₂.memWf := memWf_spWrite (memWf_draw h₁)
    split
    · exact memWf_castAnchors (memWf_modRun h₁)
    · exact memWf_ite (memWf_finishShard (memWf_addChunk h₂)) (memWf_modRun h₂)
    · exact memWf_unitWrites h₁
    · exact memWf_gatherDone (memWf_unitWrites h₁)

theorem memWf_chunkCheck {no : Nat} {k : Slot} {b : List Byte} (hw : s.memWf) : (s.chunkCheck no k b).memWf := by
  unfold State.chunkCheck
  refine memWf_ite (memWf_chunkFail hw) ?_
  extract_lets s₁
  have h₁ : s₁.memWf := memWf_freeSlotNo hw
  exact memWf_ite (memWf_chunkMsg (memWf_foldl (fun _ _ hv => memWf_deliverChunk hv) h₁))
      (memWf_foldl (fun _ _ hv => memWf_memberFault (memWf_collectiveRecord hv)) h₁)

theorem memWf_flushSlots {t : Nat} (hw : s.memWf) : (s.flushSlots t).memWf := by
  unfold State.flushSlots
  refine memWf_foldl ?_ hw
  intro _ _ hv
  split
  · exact hv
  · split
    · exact memWf_ite hv (memWf_chunkCheck hv)
    · exact hv

theorem memWf_chunkArrives {pkt : Packet} (hw : s.memWf) : (s.chunkArrives pkt).memWf := by
  unfold State.chunkArrives
  refine memWf_ite hw ?_
  split
  · exact memWf_stray hw
  · split
    · exact memWf_stray hw
    · refine memWf_ite (memWf_stray hw) (memWf_ite (memWf_freeSlotNo hw) ?_)
      extract_lets _ _ keep₁
      have h₁ : keep₁.memWf := memWf_update hw
      split
      · exact memWf_ite h₁ (memWf_chunkCheck hw)
      · exact h₁

theorem nextMemWf_execSlotTimeout {slot : Fin 384} (hw : s.memWf) : NextMemWf (execSlotTimeout slot s) := by
  unfold execSlotTimeout
  refine nextMemWf_next ?_
  split
  · exact hw
  · exact memWf_ite (memWf_chunkFail hw) hw

theorem nextMemWf_execChecked {pkt : Packet} (hw : s.memWf) : NextMemWf (execChecked pkt s) := by
  unfold execChecked
  refine nextMemWf_next (memWf_ite hw ?_)
  split
  · exact memWf_stray hw
  · split
    · exact hw
    · exact memWf_modRun hw

theorem nextMemWf_execResend {pkt : Packet} (hw : s.memWf) : NextMemWf (execResend pkt s) := by
  unfold execResend
  refine nextMemWf_next (memWf_ite hw ?_)
  split
  · exact memWf_stray hw
  · split
    · exact hw
    · exact memWf_askSlots (memWf_modRun hw)

theorem nextMemWf_execAbort {pkt : Packet} (hw : s.memWf) : NextMemWf (execAbort pkt s) := by
  unfold execAbort
  refine nextMemWf_next (memWf_ite hw ?_)
  split
  · exact memWf_stray hw
  · exact memWf_stepAborted (memWf_raise hw)

theorem memWf_tileInbound {n : Nat} {p : Packet} (hw : s.memWf) : (s.tileInbound n p).memWf :=
  memWf_flushSlots (memWf_reanchor (memWf_portInbound hw))

theorem nextMemWf_execTilePortInbound {t : TileNo} {pkt : Packet} (hw : s.memWf) : NextMemWf (execTilePortInbound t pkt s) := by
  unfold execTilePortInbound
  refine nextMemWf_next (memWf_ite hw ?_)
  split
  · rename_i e₁
    exact memWf_tileInbound (memWf_arrive hw _ e₁)
  · exact hw

theorem memWf_issueT {t : TileNo} {legal : Bool} {op : TOp} {a b c d : Reg} (hw : s.memWf) : NextMemWf (s.issueT t legal op a b c d) :=
  nextMemWf_next (memWf_runInstr (fun _ hv => IRes.memWf_ite hw (IRes.memWf_ite trivial (memWf_setTile hw (wf_scratch_update hv)))) hw)

theorem nextMemWf_execChargeRequest {t : TileNo} (hw : s.memWf) : NextMemWf (execChargeRequest t s) := by
  unfold execChargeRequest
  extract_lets
  refine nextMemWf_next ?_
  split
  · exact hw
  · exact memWf_ite hw (memWf_setTile hw (wf_scratch_update (wf_tile hw)))

theorem memWf_startHead {t : Nat} {e : TEntry} {half : Bool} (hw : s.memWf) : (s.startHead t e half).memWf :=
  memWf_ite (memWf_fusedBegin hw) (memWf_tensorBegin hw)

theorem nextMemWf_execTensorStart {t : TileNo} (hw : s.memWf) : NextMemWf (execTensorStart t s) := by
  unfold execTensorStart
  extract_lets
  refine nextMemWf_next ?_
  split
  · exact hw
  · split
    · exact memWf_ite hw (memWf_ite (memWf_startHead hw) (memWf_ite (memWf_startHead (memWf_setPart hw)) hw))
    · exact hw

theorem nextMemWf_execHalfRateStart {t : TileNo} (hw : s.memWf) : NextMemWf (execHalfRateStart t s) := by
  unfold execHalfRateStart
  extract_lets
  refine nextMemWf_next ?_
  split
  · exact hw
  · split
    · exact memWf_ite hw (memWf_startHead (memWf_setPart hw))
    · exact hw

theorem nextMemWf_execTensorFinish {t : TileNo} (hw : s.memWf) : NextMemWf (execTensorFinish t s) := by
  unfold execTensorFinish
  extract_lets
  refine nextMemWf_next ?_
  split
  · exact hw
  · split
    · exact hw
    · exact memWf_ite hw (memWf_ite (memWf_ite (memWf_fusedMultiplied hw) hw) (memWf_tensorEnd hw))

theorem nextMemWf_execFusedFinish {t : TileNo} (hw : s.memWf) : NextMemWf (execFusedFinish t s) := by
  unfold execFusedFinish
  extract_lets
  refine nextMemWf_next ?_
  split
  · exact hw
  · exact memWf_ite hw (memWf_tensorDone (memWf_clearMarks (memWf_draw hw)))

theorem nextMemWf_execFusedTimeout {t : TileNo} (hw : s.memWf) : NextMemWf (execFusedTimeout t s) := by
  unfold execFusedTimeout
  extract_lets
  refine nextMemWf_next ?_
  split
  · exact hw
  · split
    · exact memWf_ite (memWf_memberFault hw) hw
    · exact hw

/-! ### Machine/Armature.lean -/

theorem nextMemWf_execSeamResend {east : Bool} {q : Fin 24} {failed : Bool} (hw : s.memWf) : NextMemWf (execSeamResend east q failed s) :=
  nextMemWf_next (memWf_ite hw (memWf_ite (memWf_update hw) (memWf_ite (memWf_update hw)
    (memWf_fence (memWf_partEvent (memWf_update hw))))))

theorem memWf_setArm {n : Nat} {a : Armature} (hw : s.memWf) : (s.setArm n a).memWf :=
  memWf_cast (memWf_setPart hw)

theorem nextMemWf_execRotation {n : PartNo} (hw : s.memWf) : NextMemWf (execRotation n s) := by
  unfold execRotation
  extract_lets
  refine nextMemWf_next ?_
  split
  · exact memWf_ite hw (memWf_cast (memWf_setPart hw))
  · exact hw

theorem nextMemWf_execDrainMarker {t : TileNo} {m : MarkerSrc} (hw : s.memWf) : NextMemWf (execDrainMarker t m s) := by
  unfold execDrainMarker
  extract_lets
  refine nextMemWf_next ?_
  split
  · exact memWf_ite hw (memWf_setPart hw)
  · exact hw

theorem memWf_abandonRotation {n : Nat} {cause : BitVec 8} (hw : s.memWf) : (s.abandonRotation n cause).memWf := by
  unfold State.abandonRotation
  extract_lets
  split
  · exact hw
  · extract_lets
    refine memWf_foldl ?_ (memWf_cast (memWf_partEvent (memWf_setPart hw)))
    intro _ _ hv
    split
    · exact memWf_tileInbound hv
    · exact hv

theorem memWf_copyTile {n x y : Nat} (hw : s.memWf) : (s.copyTile n x y).memWf := by
  unfold State.copyTile
  split
  · rename_i e₁
    have h₁ := memWf_of_fst e₁ (memWf_spRead hw)
    exact memWf_setTile h₁ (wf_scratch_update (wf_tile h₁))

theorem nextMemWf_execRotationCopyDone {n : PartNo} (hw : s.memWf) : NextMemWf (execRotationCopyDone n s) := by
  unfold execRotationCopyDone
  extract_lets
  refine nextMemWf_next ?_
  split
  · exact memWf_ite hw (memWf_ite (memWf_abandonRotation (memWf_countSp hw))
        (memWf_setPart (memWf_setArm (memWf_foldl (fun _ _ hv => memWf_copyTile hv) hw))))
  · exact hw

theorem memWf_releaseRotation {n : Nat} (hw : s.memWf) : (s.releaseRotation n).memWf := by
  unfold State.releaseRotation
  extract_lets
  split
  · exact hw
  · extract_lets
    refine memWf_foldl ?_ (memWf_cast (memWf_partEvent (memWf_setPart hw)))
    intro _ _ hv
    split
    · exact memWf_tileInbound hv
    · exact hv

theorem memWf_endRotation {n : Nat} (hw : s.memWf) : (s.endRotation n).memWf := by
  unfold State.endRotation
  split
  · exact memWf_ite (memWf_releaseRotation hw) (memWf_dropRotation hw)
  · exact hw

theorem nextMemWf_execRotationRelease {n : PartNo} (hw : s.memWf) : NextMemWf (execRotationRelease n s) := by
  unfold execRotationRelease
  extract_lets
  refine nextMemWf_next ?_
  split
  · exact memWf_ite hw (memWf_foldl (fun _ _ hv => memWf_fence hv) (memWf_setPart (memWf_releaseRotation hw)))
  · exact hw

theorem nextMemWf_execRotationAbandon {n : PartNo} {cause : BitVec 3} (hw : s.memWf) : NextMemWf (execRotationAbandon n cause s) := by
  unfold execRotationAbandon
  refine nextMemWf_next ?_
  split
  · exact memWf_ite hw (memWf_abandonRotation (memWf_ite (memWf_countSp hw) hw))
  · exact hw

theorem memWf_putFirmware {image : List Byte} {t : Nat} (hw : s.memWf) : (s.putFirmware image t).memWf := by
  unfold State.putFirmware
  extract_lets s₁
  have h₁ : s₁.memWf := memWf_spWrite hw
  exact memWf_setTile h₁ (wf_scratch_update (wf_tile h₁))

theorem nextMemWf_execFirmwareBroadcast {mask : BitVec 12} {image : List Byte} (hw : s.memWf) : NextMemWf
    (execFirmwareBroadcast mask image s) :=
  nextMemWf_ite nextMemWf_fault (nextMemWf_ite (nextMemWf_next hw)
    (nextMemWf_next (memWf_cast (memWf_update (memWf_foldl (fun _ _ hv => memWf_foldl (fun _ _ h₁ => memWf_putFirmware h₁) hv) hw)))))

theorem nextMemWf_execFirmwareCrcCheck {n : PartNo} {i : Fin 72} (hw : s.memWf) : NextMemWf (execFirmwareCrcCheck n i s) := by
  unfold execFirmwareCrcCheck
  extract_lets _ _ s₁
  have h₁ : s₁.memWf := memWf_putFirmware hw
  exact nextMemWf_next (memWf_ite hw (memWf_ite (memWf_setTile hw (wf_scratch_update (wf_tile hw)))
      (memWf_ite (memWf_setTile hw (wf_scratch_update (wf_tile hw))) (memWf_setTile h₁ (wf_scratch_update (wf_tile h₁))))))

/-! ### Machine/LinkOps.lean -/

theorem memWf_portState {p : Nat} {st : LState} (hw : s.memWf) : (s.portState p st).memWf := by
  unfold State.portState
  refine memWf_ite hw ?_
  extract_lets _ s₁
  have h₁ : s₁.memWf := memWf_raise (memWf_setPort hw)
  exact memWf_ite (memWf_notice0 h₁) h₁

theorem memWf_toStage {p : Nat} {st : LState} (hw : s.memWf) : (s.toStage p st).memWf :=
  memWf_ite (memWf_setPort hw) (memWf_portState (memWf_setPort hw))

theorem memWf_sendRound {p : Nat} {blocks : List (Nat × BitVec 130)} (hw : s.memWf) : (s.sendRound p blocks).memWf := by
  unfold State.sendRound
  extract_lets
  split
  · exact memWf_emit hw
  · exact memWf_ite (memWf_emit hw) (memWf_emit (memWf_setPort hw))

theorem memWf_sendOs {p n : Nat} {b : List Byte} (hw : s.memWf) : (s.sendOs p n b).memWf :=
  memWf_foldl (fun _ _ hv => memWf_sendRound hv) hw

theorem memWf_sendCmp {p : Nat} (hw : s.memWf) : (s.sendCmp p).memWf :=
  memWf_setPort (memWf_sendOs hw)

theorem memWf_dataRound {p : Nat} {b : List Byte} (hw : s.memWf) : (s.dataRound p b).memWf := by
  unfold State.dataRound
  extract_lets _ _ _ _ _ s₁
  have h₁ : s₁.memWf := memWf_sendRound (memWf_setPort hw)
  exact memWf_ite (memWf_sendCmp h₁) h₁

theorem memWf_drainTx {p k : Nat} (hw : s.memWf) : (s.drainTx p k).memWf := by
  induction k generalizing s with
  | zero => exact hw
  | succ k ih => exact memWf_ite hw (ih (memWf_dataRound (memWf_setPort hw)))

theorem memWf_sendFrame {p : Nat} {flits : List (Nat × List Byte)} {seq : BitVec 11} {cred : List Nat} {rdy : Bool} (hw : s.memWf) :
    (s.sendFrame p flits seq cred rdy).memWf :=
  memWf_drainTx (memWf_emit (memWf_setPort hw))

theorem memWf_nullFrame {p : Nat} {rdy : Bool} (hw : s.memWf) : (s.nullFrame p rdy).memWf :=
  memWf_sendFrame (memWf_setPort hw)

theorem memWf_creditFrames {p k : Nat} (hw : s.memWf) : (s.creditFrames p k).memWf := by
  induction k generalizing s with
  | zero => exact hw
  | succ k ih => exact memWf_ite hw (ih (memWf_nullFrame hw))

theorem memWf_rxFree {o : Org} (hw : s.memWf) : (s.rxFree o).memWf := by
  unfold State.rxFree
  extract_lets _ _ s₁
  have h₁ : s₁.memWf := memWf_setPort hw
  exact memWf_ite (memWf_creditFrames h₁) h₁

theorem memWf_orgLeaves {o : Option Org} (hw : s.memWf) : (s.orgLeaves o).memWf := by
  unfold State.orgLeaves
  split
  · exact memWf_ite hw (memWf_rxFree hw)
  · exact hw

theorem memWf_sendAgain {p : Nat} {l : List Sent} (hw : s.memWf) : (s.sendAgain p l).memWf := by
  unfold State.sendAgain
  refine memWf_foldl ?_ hw
  intro _ _ hv
  split
  · exact hv
  · exact memWf_sendFrame hv

theorem memWf_sendNew {p k : Nat} {l : List Sent} (hw : s.memWf) : (s.sendNew p k l).memWf := by
  induction k generalizing s l with
  | zero =>
    unfold State.sendNew
    exact hw
  | succ k ih =>
    cases l with
    | nil =>
      unfold State.sendNew
      exact hw
    | cons a r => exact ih (memWf_sendFrame (memWf_setPort hw))

theorem memWf_startPacket {p vc : Nat} {k : Queued} {r : List Queued} (hw : s.memWf) : (s.startPacket p vc k r).memWf :=
  memWf_orgLeaves (memWf_emit (memWf_setPort hw))

theorem memWf_flitOut {p n : Nat} (hw : s.memWf) : SomeFstMemWf (s.flitOut p n) := by
  unfold State.flitOut
  extract_lets
  split
  · exact someFstMemWf_ite someFstMemWf_none (someFstMemWf_some (memWf_pair (memWf_setPort hw)))
  · exact someFstMemWf_none

theorem memWf_gather {p : Nat} {acc : List Sent} {k : Nat} (hw : s.memWf) : (s.gather p acc k).1.memWf := by
  induction k generalizing s acc with
  | zero => exact hw
  | succ k ih =>
    unfold State.gather
    split
    · rename_i e
      exact ih (memWf_flitOut hw _ e)
    · extract_lets x next
      refine memWf_fst_ite hw ?_
      cases next with
      | none => exact hw
      | some y => exact ih (memWf_startPacket hw)

theorem memWf_pump {p : Nat} (hw : s.memWf) : (s.pump p).memWf := by
  unfold State.pump
  extract_lets x todo
  refine memWf_ite hw ?_
  split
  rename_i e
  exact memWf_sendNew (memWf_of_fst e (memWf_gather hw))

theorem memWf_enqueue {p vc : Nat} {k : Queued} (hw : s.memWf) : (s.enqueue p vc k).memWf :=
  memWf_pump (memWf_setPort hw)

theorem memWf_portSend {p vc : Nat} {k : Packet} (hw : s.memWf) : (s.portSend p vc k).memWf :=
  memWf_enqueue hw

theorem memWf_ctlSend {p kind : Nat} {fields : List (Nat × List Byte)} (hw : s.memWf) : (s.ctlSend p kind fields).memWf :=
  memWf_portSend hw

theorem memWf_unpause {p : Nat} (hw : s.memWf) : (s.unpause p).memWf := by
  unfold State.unpause
  extract_lets _ _ s₁
  have h₁ : s₁.memWf := memWf_setPort hw
  exact memWf_pump (memWf_ite (memWf_sendAgain h₁) h₁)

theorem memWf_sendTs {p : Nat} {typ : Byte} {rate : Nat} {hold : Bool} (hw : s.memWf) : (s.sendTs p typ rate hold).memWf :=
  memWf_emit hw

theorem memWf_leaveService {p : Nat} (hw : s.memWf) : (s.leaveService p).memWf :=
  memWf_ite (memWf_setPort hw) (memWf_setPort hw)

theorem memWf_miswire {p : Nat} {v : Bool} (hw : s.memWf) : (s.miswire p v).memWf :=
  memWf_modRouter hw

theorem memWf_toAlign {p : Nat} (hw : s.memWf) : (s.toAlign p).memWf :=
  memWf_sendTs (memWf_toStage (memWf_miswire (memWf_setPort hw)))

theorem memWf_portFail {p : Nat} (hw : s.memWf) : (s.portFail p).memWf :=
  memWf_setPort (memWf_portState (memWf_miswire (memWf_leaveService hw)))

theorem memWf_beginRetrain {p : Nat} {decides : Bool} (hw : s.memWf) : (s.beginRetrain p decides).memWf := by
  unfold State.beginRetrain
  extract_lets _ _ _ s₁ s₂
  have h₁ : s₁.memWf := memWf_setPort hw
  have h₂ : s₂.memWf := memWf_ite (memWf_sendOs h₁) h₁
  exact memWf_ite hw (memWf_ite (memWf_portFail h₂) (memWf_toAlign (memWf_portState h₂)))

/-! ### Machine/Lay.lean -/

theorem memWf_ppsSet {old : Word} (hw : s.memWf) : (s.ppsSet old).memWf :=
  memWf_ite hw (memWf_emit (memWf_update hw))

theorem memWf_layState {st : Nat} (hw : s.memWf) : (s.layState st).memWf :=
  memWf_ite hw (memWf_raise (memWf_ppsSet (memWf_update hw)))

theorem memWf_tickParts (hw : s.memWf) : s.tickParts.memWf :=
  memWf_foldl (fun _ _ hv => memWf_ite (memWf_setPart hv) hv) hw

theorem nextMemWf_execLayTick (hw : s.memWf) : NextMemWf (execLayTick s) := by
  unfold execLayTick
  extract_lets s₁
  have h₁ : s₁.memWf := memWf_update hw
  exact nextMemWf_next (memWf_ite h₁ (memWf_ppsSet (memWf_tickParts (memWf_update (memWf_ite h₁ (memWf_draw h₁))))))

theorem memWf_calFull {order : Nat} (hw : s.memWf) : (s.calFull order).memWf := by
  unfold State.calFull
  extract_lets _ s₁
  have h₁ : s₁.memWf := memWf_update hw
  exact memWf_ite h₁ (memWf_report h₁)

theorem memWf_armPkg {lt : Word} {c : Cal} (hw : s.memWf) : (s.armPkg lt c).1.memWf := by
  unfold State.armPkg
  extract_lets
  split
  · exact memWf_pair (memWf_calFull hw)
  · exact memWf_pair (memWf_update hw)

theorem memWf_armPart {n : Nat} {lt : Word} {c : PCal} (hw : s.memWf) : (s.armPart n lt c).memWf :=
  memWf_setPart (memWf_update hw)

theorem memWf_markPassed (hw : s.memWf) : s.markPassed.memWf :=
  memWf_foldl (fun _ _ hv => memWf_ite hv (memWf_setPart hv)) (memWf_update hw)

theorem memWf_firstLock {theta : Int} (hw : s.memWf) : (s.firstLock theta).1.memWf :=
  memWf_fst_ite (memWf_pair (memWf_markPassed (memWf_update hw)))
    (memWf_fst_ite (memWf_pair (memWf_update hw)) (memWf_pair (memWf_report (memWf_update hw))))

theorem nextMemWf_execPpsEdge (hw : s.memWf) : NextMemWf (execPpsEdge s) := by
  unfold execPpsEdge
  extract_lets
  refine nextMemWf_next (memWf_ite hw (memWf_ite ?_ (memWf_ite (memWf_update hw) (memWf_layState (memWf_update hw)))))
  split
  · exact hw
  · exact memWf_ite (memWf_layState (memWf_update (memWf_firstLock (memWf_update hw)))) (memWf_firstLock (memWf_update hw))

theorem memWf_parentSample {theta : Int} (hw : s.memWf) : (s.parentSample theta).memWf :=
  memWf_ite (memWf_ite (memWf_layState (memWf_firstLock (memWf_update hw))) (memWf_firstLock (memWf_update hw)))
    (memWf_layState (memWf_update hw))

theorem memWf_demote {m : BitVec 16} (hw : s.memWf) : (s.demote m).memWf :=
  memWf_report (memWf_raise (memWf_layState (memWf_update hw)))

theorem memWf_reparent (hw : s.memWf) : s.reparent.memWf :=
  memWf_ite hw (memWf_update hw)

theorem memWf_validSample {p : Nat} {theta : Int} (hw : s.memWf) : (s.validSample p theta).memWf := by
  unfold State.validSample
  refine memWf_ite hw ?_
  extract_lets _ _ _ s₁ _ s₂
  have h₁ : s₁.memWf := memWf_update hw
  have h₂ : s₂.memWf := by
    unfold s₂
    refine memWf_ite ?_ h₁
    split
    · exact memWf_parentSample (memWf_update h₁)
    · exact h₁
  exact memWf_reparent h₂

theorem nextMemWf_execSyncResp {p : PortNo} {st : BitVec 2} {pps : Bool} {master : BitVec 16} {hops : BitVec 6} {t1 t2 t3 : Word}
    (hw : s.memWf) : NextMemWf (execSyncResp p st pps master hops t1 t2 t3 s) := by
  unfold execSyncResp
  extract_lets _ _ _ _ _ _ _ s₁ s₂
  have h₁ : s₁.memWf := memWf_setPort hw
  have h₂ : s₂.memWf := memWf_ite (memWf_demote h₁) h₁
  exact nextMemWf_next (memWf_ite hw (memWf_ite (memWf_reparent (memWf_update h₂)) (memWf_validSample (memWf_setPort h₂))))

/-! ### Machine/Rings.lean -/

theorem memWf_readLine {l : Nat} (hw : s.memWf) : (s.readLine l).memWf :=
  memWf_emit (memWf_setLine hw)

theorem memWf_fillLines (hw : s.memWf) : s.fillLines.memWf :=
  memWf_foldl (fun _ _ hv => memWf_ite hv (memWf_readLine hv)) hw

theorem memWf_checkCxl (hw : s.memWf) : s.checkCxl.memWf :=
  memWf_ite (memWf_update (memWf_hifSet hw)) hw

theorem memWf_writeDblCtl {l v : Nat} (hw : s.memWf) : (s.writeDblCtl l v).memWf := by
  unfold State.writeDblCtl
  extract_lets _ _ _ _ s₁
  have h₁ : s₁.memWf := memWf_setReg hw
  exact memWf_ite (memWf_ite hw (memWf_setLine (memWf_setReg hw))) (memWf_ite (memWf_readLine h₁) h₁)

theorem nextMemWf_execSnoopInvalidation {l : LineNo} (hw : s.memWf) : NextMemWf (execSnoopInvalidation l s) := by
  unfold execSnoopInvalidation
  extract_lets _ s₁
  have h₁ : s₁.memWf := memWf_raise (memWf_emit hw)
  exact nextMemWf_next (memWf_ite hw (memWf_ite (memWf_setLine h₁) (memWf_readLine (memWf_setLine h₁))))

theorem memWf_pollBegin (hw : s.memWf) : s.pollBegin.memWf :=
  memWf_ite (memWf_update hw) hw

theorem nextMemWf_execDoorbellPoll (hw : s.memWf) : NextMemWf (execDoorbellPoll s) := by
  unfold execDoorbellPoll
  refine nextMemWf_next (memWf_ite hw ?_)
  extract_lets
  refine memWf_foldl ?_ (memWf_pollBegin hw)
  intro _ _ hv
  extract_lets s₁
  have h₁ : s₁.memWf := memWf_update hv
  exact memWf_ite h₁ (memWf_readLine h₁)

theorem memWf_askFetch {r : Nat} (hw : s.memWf) : (s.askFetch r).memWf := by
  unfold State.askFetch
  extract_lets _ _ _ _ _ _ s₁
  have h₁ : s₁.memWf := memWf_emit (memWf_setRing hw)
  exact memWf_ite hw (memWf_ite h₁ (memWf_emit h₁))

theorem memWf_slotSeen {r : Nat} {v : BitVec 32} (hw : s.memWf) : (s.slotSeen r v).memWf := by
  unfold State.slotSeen
  extract_lets _ _ _ s₁
  have h₁ : s₁.memWf := memWf_setRing hw
  exact memWf_ite hw (memWf_ite (memWf_ite (memWf_askFetch (memWf_setRing hw)) (memWf_ite (memWf_stopRing hw) hw))
      (memWf_ite (memWf_ite (memWf_overflowNotice h₁) h₁) hw))

theorem memWf_hostReadErr {ats : Bool} (hw : s.memWf) : (s.hostReadErr ats).memWf :=
  memWf_hifSet hw

theorem memWf_lineDone {l : Nat} (hw : s.memWf) : (s.lineDone l).memWf := by
  unfold State.lineDone
  extract_lets _ s₁
  have h₁ : s₁.memWf := memWf_setLine hw
  exact memWf_ite (memWf_readLine h₁) h₁

theorem nextMemWf_execDoorbellRead {l : LineNo} {rd : HostRead} (hw : s.memWf) : NextMemWf (execDoorbellRead l rd s) := by
  unfold execDoorbellRead
  refine nextMemWf_ite (nextMemWf_next hw) ?_
  split
  · exact nextMemWf_next (memWf_lineDone (memWf_hostReadErr hw))
  · exact nextMemWf_next (memWf_lineDone (memWf_hostReadErr hw))
  · refine nextMemWf_ite nextMemWf_fault ?_
    extract_lets _ _ _ s₁
    have h₁ : s₁.memWf := memWf_setLine hw
    exact nextMemWf_next (memWf_lineDone (memWf_foldl (fun _ _ hv => memWf_slotSeen hv) (memWf_ite (memWf_raise h₁) h₁)))

theorem nextMemWf_execRingEnable {r : RingNo} {v : Word} {slot : HostRead} (hw : s.memWf) : NextMemWf (execRingEnable r v slot s) := by
  unfold execRingEnable
  extract_lets s₁ _ _ s₂ _ _ _ s₃
  have h₁ : s₁.memWf := memWf_barAccess hw
  have h₂ : s₂.memWf := memWf_setReg h₁
  have h₃ : s₃.memWf := memWf_emit (memWf_setReg h₂)
  refine nextMemWf_ite (nextMemWf_next h₁) ?_
  split
  · exact nextMemWf_next (memWf_setRing h₂)
  · split
    · exact nextMemWf_ite nextMemWf_fault (nextMemWf_next (memWf_setRing h₃))
    · exact nextMemWf_next (memWf_stopRing (memWf_hostReadErr (memWf_setRing h₃)))
    · exact nextMemWf_next (memWf_stopRing (memWf_hostReadErr (memWf_setRing h₃)))

theorem memWf_ringOff {r : Nat} (hw : s.memWf) : (s.ringOff r).memWf :=
  memWf_setRing (memWf_setReg hw)

theorem memWf_writeRngCfg {r v : Nat} (hw : s.memWf) : (s.writeRngCfg r v).memWf :=
  memWf_ite (memWf_setReg hw) (memWf_ite (memWf_setRing hw) (memWf_ringOff hw))

theorem nextMemWf_execModerationTimer {r : RingNo} (hw : s.memWf) : NextMemWf (execModerationTimer r s) := by
  unfold execModerationTimer
  extract_lets
  refine nextMemWf_next ?_
  split
  · exact memWf_ite (memWf_sendMsix (memWf_setRing hw)) hw
  · exact hw

theorem memWf_maskVector {fn vec : Nat} {mask : Bool} (hw : s.memWf) : (s.maskVector fn vec mask).memWf := by
  unfold State.maskVector
  extract_lets
  split
  · extract_lets s₁
    have h₁ : s₁.memWf := memWf_update hw
    exact memWf_ite (memWf_sendMsix h₁) h₁

theorem memWf_writeMsix {fn off v : Nat} (hw : s.memWf) : (s.writeMsix fn off v).memWf :=
  memWf_ite hw (memWf_ite (memWf_update hw) (memWf_maskVector (memWf_update hw)))

theorem memWf_cfgAsk {fn : Nat} {req : CfgReq} (hw : s.memWf) : (s.cfgAsk fn req).memWf := by
  unfold State.cfgAsk
  split
  · exact hw
  · exact memWf_emit hw
  · exact memWf_ite hw (memWf_ite (memWf_emit (memWf_draw hw)) (memWf_draw hw))
  · extract_lets _ s₁
    have h₁ : s₁.memWf := memWf_checkCxl (memWf_update hw)
    exact memWf_ite (memWf_fillLines h₁) h₁
  · exact memWf_update hw

theorem memWf_writeHifCtl {v : Nat} (hw : s.memWf) : (s.writeHifCtl v).memWf := by
  unfold State.writeHifCtl
  extract_lets _ _ _ s₁
  have h₁ : s₁.memWf := memWf_checkCxl (memWf_setReg hw)
  exact memWf_foldl (fun _ _ hv => memWf_askFetch hv) (memWf_ite (memWf_fillLines h₁) h₁)

theorem memWf_flrAll (hw : s.memWf) : s.flrAll.memWf :=
  memWf_update hw

theorem nextMemWf_execVfFlr {ten : Fin 64} (hw : s.memWf) : NextMemWf (execVfFlr ten s) :=
  nextMemWf_next (memWf_ite hw (memWf_update (memWf_foldl (fun _ _ hv => memWf_ite (memWf_setLine (memWf_setReg hv)) hv)
    (memWf_foldl (fun _ _ hv => memWf_ringOff hv) (memWf_raise hw)))))

/-! ### Machine/Descriptors.lean -/

theorem memWf_startDesc {k : DescKey} {b : List Byte} (hw : s.memWf) : (s.startDesc k b).memWf :=
  memWf_update (memWf_setRing (memWf_setRing hw))

theorem nextMemWf_execDescriptorFetch {r : RingNo} {rd : HostRead} (hw : s.memWf) : NextMemWf (execDescriptorFetch r rd s) := by
  unfold execDescriptorFetch
  extract_lets
  refine nextMemWf_ite (nextMemWf_next hw) ?_
  split
  · exact nextMemWf_next (memWf_stopRing (memWf_hostReadErr hw))
  · exact nextMemWf_next (memWf_stopRing (memWf_hostReadErr hw))
  · refine nextMemWf_ite nextMemWf_fault ?_
    split
    · exact nextMemWf_next (memWf_complete (memWf_startDesc hw))
    · refine nextMemWf_ite (nextMemWf_next hw) ?_
      extract_lets _ s₁
      have h₁ : s₁.memWf := memWf_startDesc hw
      refine nextMemWf_ite (nextMemWf_next h₁) ?_
      split
      · rename_i e₁
        exact nextMemWf_next (memWf_complete (memWf_of_fst e₁ (memWf_armPkg h₁)))
      · rename_i e₂
        have h₂ := memWf_of_fst e₂ (memWf_armPkg h₁)
        split
        · exact nextMemWf_next (memWf_setDesc h₂)
        · exact nextMemWf_next h₂

theorem memWf_admitTiles {k : DescKey} {n : Nat} (hw : s.memWf) : (s.admitTiles k n).memWf := by
  unfold State.admitTiles
  split
  · exact hw
  · exact memWf_foldl (fun _ _ hv => memWf_launchTile hv) (memWf_setJob hw)

theorem memWf_partTakes {k : DescKey} {n : Nat} {wait : Bool} (hw : s.memWf) : (s.partTakes k n wait).memWf :=
  memWf_pswChange (memWf_setPart hw)

theorem nextMemWf_execJobLaunch {key : DescKey} (hw : s.memWf) : NextMemWf (execJobLaunch key s) := by
  unfold execJobLaunch
  refine nextMemWf_next ?_
  split
  · exact hw
  · extract_lets _ _ s₁
    have h₁ : s₁.memWf := memWf_ite (memWf_update hw) hw
    refine memWf_ite h₁ ?_
    split
    · exact memWf_complete h₁
    · split
      · exact memWf_complete h₁
      · exact memWf_foldl (fun _ _ hv => memWf_admitTiles hv)
            (memWf_foldl (fun _ _ hv => memWf_partTakes hv) (memWf_update (memWf_setDesc h₁)))

theorem memWf_ccSend {k : Packet} (hw : s.memWf) : (s.ccSend k).memWf := by
  unfold State.ccSend
  refine memWf_ite (memWf_sendPkt hw) ?_
  generalize (List.range ccRids).find? _ = o
  cases o with
  | none => exact memWf_update hw
  | some i => exact memWf_ite (memWf_update hw) (memWf_sendPkt (memWf_update hw))

theorem memWf_ccPump (hw : s.memWf) : s.ccPump.memWf :=
  memWf_foldl (fun _ _ hv => memWf_ccSend hv) (memWf_update hw)

theorem memWf_ccReply {rid : BitVec 16} {status : Nat} (hw : s.memWf) : (s.ccReply rid status).memWf :=
  memWf_ite (memWf_update hw) (memWf_ccPump (memWf_update hw))

theorem memWf_ccResend {rid : BitVec 16} (hw : s.memWf) : (s.ccResend rid).memWf := by
  unfold State.ccResend
  split
  · exact memWf_sendPkt (memWf_update hw)
  · exact hw

theorem nextMemWf_execDma {key : DescKey} (hw : s.memWf) : NextMemWf (execDma key s) := by
  unfold execDma
  refine nextMemWf_next ?_
  split
  · exact hw
  · extract_lets _ s₁
    have h₁ : s₁.memWf := memWf_setDesc hw
    exact memWf_ite (memWf_complete h₁) (memWf_ite (memWf_emit h₁) (memWf_foldl (fun _ _ hv => memWf_ccSend hv) h₁))

theorem memWf_dmaOut {d : Desc} {b : List Byte} (hw : s.memWf) : (s.dmaOut d b).memWf :=
  memWf_ite hw (memWf_ite (memWf_emit hw) (memWf_foldl (fun _ _ hv => memWf_ccSend hv) hw))

theorem nextMemWf_execHostDmaComplete {key : DescKey} {r : HostDmaEnd} (hw : s.memWf) : NextMemWf (execHostDmaComplete key r s) := by
  unfold execHostDmaComplete
  split
  · exact nextMemWf_next hw
  · refine nextMemWf_ite (nextMemWf_next hw) ?_
    extract_lets
    split
    · exact nextMemWf_ite nextMemWf_fault (nextMemWf_next (memWf_complete (memWf_dmaOut hw)))
    · exact nextMemWf_ite nextMemWf_fault (nextMemWf_next (memWf_complete (memWf_dmaOut (memWf_hostReadErr hw))))
    · exact nextMemWf_ite nextMemWf_fault (nextMemWf_next (memWf_complete (memWf_dmaOut hw)))
    · exact nextMemWf_ite nextMemWf_fault (nextMemWf_next (memWf_complete (memWf_dmaOut (memWf_ite (memWf_hostReadErr hw) hw))))

theorem nextMemWf_execLayScheduledEvent {key : DescKey} (hw : s.memWf) : NextMemWf (execLayScheduledEvent key s) := by
  unfold execLayScheduledEvent
  refine nextMemWf_next ?_
  split
  · exact hw
  · exact memWf_complete hw

theorem memWf_diagCopy {k : DescKey} {d : Desc} {recs : List (List Byte)} (hw : s.memWf) : (s.diagCopy k d recs).memWf :=
  memWf_ite (memWf_complete hw) (memWf_ite (memWf_complete (memWf_hifSet hw)) (memWf_complete (memWf_emit hw)))

theorem nextMemWf_execDiagEcho {key : DescKey} (hw : s.memWf) : NextMemWf (execDiagEcho key s) := by
  unfold execDiagEcho
  refine nextMemWf_next ?_
  split
  · exact hw
  · exact memWf_complete hw

theorem nextMemWf_execDiagErrlog {key : DescKey} (hw : s.memWf) : NextMemWf (execDiagErrlog key s) := by
  unfold execDiagErrlog
  refine nextMemWf_next ?_
  split
  · exact hw
  · exact memWf_diagCopy hw

theorem nextMemWf_execDiagProgress {key : DescKey} (hw : s.memWf) : NextMemWf (execDiagProgress key s) := by
  unfold execDiagProgress
  refine nextMemWf_next ?_
  split
  · exact hw
  · exact memWf_diagCopy hw

theorem nextMemWf_execDiagPrtstate {key : DescKey} (hw : s.memWf) : NextMemWf (execDiagPrtstate key s) := by
  unfold execDiagPrtstate
  refine nextMemWf_next ?_
  split
  · exact hw
  · exact memWf_diagCopy hw

/-! ### Machine/Router.lean -/

theorem memWf_chooseVia {t : Topo} {k : Packet} (hw : s.memWf) : (s.chooseVia t k).1.memWf := by
  unfold State.chooseVia
  extract_lets
  refine memWf_fst_ite hw ?_
  split
  · exact hw
  · extract_lets
    split
    · exact memWf_pair (memWf_draw (memWf_draw (memWf_draw hw)))
    · exact memWf_pair (memWf_draw hw)

theorem memWf_linkSend {p vc : Nat} {k : Packet} {inside : Bool} (hw : s.memWf) : (s.linkSend p vc k inside).memWf := by
  unfold State.linkSend
  refine memWf_ite (memWf_portSend hw) ?_
  split
  · exact memWf_portSend hw
  · exact memWf_answer (memWf_cntRefused hw)

theorem memWf_deliverCheck {k : Packet} {link : Bool} (hw : s.memWf) : (s.deliverCheck k link).1.memWf :=
  memWf_fst_ite (memWf_pair (memWf_answer (memWf_cntRefused hw)))
    (memWf_fst_ite (memWf_pair (memWf_answer (memWf_cntAddress hw)))
    (memWf_fst_ite (memWf_pair (memWf_answer (memWf_cntRefused hw))) (memWf_fst_ite (memWf_pair (memWf_answer (memWf_cntLate hw))) hw)))

theorem memWf_deliverHere {k : Packet} {link : Bool} (hw : s.memWf) : (s.deliverHere k link).memWf :=
  memWf_ite (memWf_sendPkt (memWf_deliverCheck hw)) (memWf_deliverCheck hw)

theorem memWf_unreachable {k : Packet} (hw : s.memWf) : (s.unreachable k).memWf :=
  memWf_answer (memWf_cntUnreach hw)

theorem memWf_mcCopy {t : Topo} {k : Packet} {p stage phase : Nat} {inside : Bool} (hw : s.memWf) :
    (s.mcCopy t k p stage phase inside).memWf :=
  memWf_ite (memWf_linkSend hw) (memWf_cntUnreach hw)

theorem memWf_mcLocal {t : Topo} {k : Packet} {n stage phase : Nat} {inside : Bool} (hw : s.memWf) :
    (s.mcLocal t k n stage phase inside).memWf := by
  unfold State.mcLocal
  split
  · exact memWf_mcCopy hw
  · exact memWf_cntUnreach hw

theorem memWf_mcDeliver {k : Packet} {link : Bool} (hw : s.memWf) : (s.mcDeliver k link).memWf :=
  memWf_ite (memWf_cntRefused hw) (memWf_deliverHere hw)

theorem memWf_multicast {t : Topo} {k : Packet} {e : Ext} {inPort : Option Nat} (hw : s.memWf) : (s.multicast t k e inPort).memWf := by
  unfold State.multicast
  split
  · exact memWf_cntMc hw
  · refine memWf_ite (memWf_cntMc hw) ?_
    extract_lets _ _ _ _ _ _ _ _ _ _ s₁
    have h₁ : s₁.memWf := memWf_ite (memWf_mcDeliver hw) hw
    refine memWf_ite (memWf_cntMisroute hw) ?_
    split
    · refine memWf_ite (memWf_foldl ?_ (memWf_foldl (fun _ _ hv => memWf_mcLocal hv) h₁))
          (memWf_foldl (fun _ _ hv => memWf_mcCopy hv) (memWf_foldl (fun _ _ hv => memWf_mcLocal hv) h₁))
      intro _ _ hv
      extract_lets
      split
      · split
        · exact memWf_mcCopy hv
        · exact memWf_cntUnreach hv
      · exact memWf_cntUnreach hv
    · exact memWf_ite h₁ (memWf_foldl (fun _ _ hv => memWf_mcCopy hv) h₁)
    · refine memWf_ite ?_ (memWf_foldl (fun _ _ hv => memWf_mcLocal hv) (memWf_ite (memWf_mcDeliver hw) hw))
      split
      · split
        · exact memWf_mcCopy hw
        · exact memWf_cntUnreach hw
      · exact memWf_cntMisroute hw
    · exact memWf_mcDeliver hw

theorem memWf_dropCkt {owner cid : Nat} (hw : s.memWf) : (s.dropCkt owner cid).memWf :=
  memWf_modRouter hw

theorem memWf_setCkt {c : Ckt} (hw : s.memWf) : (s.setCkt c).memWf :=
  memWf_modRouter hw

theorem memWf_cktAck {k : Packet} {status : Nat} {data : List Byte} (hw : s.memWf) : (s.cktAck k status data).memWf :=
  memWf_sendPkt hw

theorem memWf_cktRefuse {k : Packet} {code : Nat} (hw : s.memWf) : (s.cktRefuse k code).memWf :=
  memWf_cktAck (memWf_modRouter hw)

theorem memWf_cktSetUp {t : Topo} {k : Packet} {e : Ext} {inPort : Option Nat} (hw : s.memWf) : (s.cktSetUp t k e inPort).memWf := by
  unfold State.cktSetUp
  extract_lets _ _ _ _ _ s₁ s₂
  have h₁ : s₁.memWf := memWf_ite hw (memWf_dropCkt hw)
  have h₂ : s₂.memWf := memWf_dropCkt hw
  split
  · exact memWf_answer (memWf_cntMisroute hw)
  · exact memWf_ite (memWf_answer (memWf_cntLate h₁)) (memWf_ite (memWf_cktRefuse h₁)
        (memWf_ite (memWf_cktRefuse h₁) (memWf_cktAck (memWf_modRouter h₁))))
  · split
    · exact memWf_unreachable hw
    · exact memWf_ite (memWf_cktRefuse h₂) (memWf_ite (memWf_cktRefuse h₂) (memWf_portSend (memWf_modRouter h₂)))

theorem memWf_cktRelease {t : Topo} {k : Packet} {e : Ext} {inPort : Option Nat} (hw : s.memWf) : (s.cktRelease t k e inPort).memWf := by
  unfold State.cktRelease
  extract_lets
  split
  · exact memWf_ite (memWf_answer (memWf_cntLate hw)) (memWf_cktAck hw)
  · extract_lets s₁
    have h₁ : s₁.memWf := memWf_ite hw (memWf_dropCkt hw)
    split
    · exact memWf_ite (memWf_answer (memWf_cntLate h₁)) (memWf_cktAck h₁)
    · exact memWf_ite (memWf_portSend h₁) (memWf_unreachable h₁)

theorem memWf_cktDeliver {k : Packet} {link : Bool} (hw : s.memWf) : (s.cktDeliver k link).memWf :=
  memWf_ite (memWf_deliverHere hw) (memWf_ite (memWf_cntRefused hw) (memWf_deliverHere hw))

theorem memWf_cktForward {t : Topo} {k : Packet} {e : Ext} {inPort : Option Nat} (hw : s.memWf) : (s.cktForward t k e inPort).memWf := by
  unfold State.cktForward
  extract_lets
  refine memWf_ite (memWf_cntMisroute hw) (memWf_ite (memWf_cktDeliver hw) ?_)
  split
  · exact memWf_cntCircuit hw
  · refine memWf_ite (memWf_cntCircuit hw) (memWf_ite (memWf_cntRefused hw)
        (memWf_ite (memWf_ite (memWf_dropCkt hw) (memWf_cntCircuit hw)) (memWf_ite (memWf_cntLate hw) ?_)))
    extract_lets s₁
    have h₁ : s₁.memWf := by
      unfold s₁
      split
      · exact memWf_linkSend hw
      · exact memWf_ite (memWf_cktAck hw) (memWf_cktDeliver hw)
    exact memWf_ite (memWf_dropCkt h₁) h₁

theorem memWf_headerFault {k : Packet} (hw : s.memWf) : SomeMemWf (s.headerFault k) :=
  someMemWf_ite (someMemWf_some (memWf_cntMalformed hw)) (someMemWf_ite (someMemWf_some (memWf_answer (memWf_cntMalformed hw)))
    (someMemWf_ite (someMemWf_some (memWf_answer (memWf_cntFraming hw))) someMemWf_none))

theorem memWf_rxTake {p : Nat} {k : Packet} (hw : s.memWf) : SomeMemWf (s.rxTake p k) := by
  unfold State.rxTake
  extract_lets
  split
  · exact someMemWf_some hw
  · exact someMemWf_ite someMemWf_none (someMemWf_some (memWf_modRouter (memWf_setPort hw)))

theorem memWf_handDone (hw : s.memWf) : s.handDone.memWf :=
  memWf_orgLeaves (memWf_modRouter hw)

theorem memWf_atSource {t : Topo} {k : Packet} (hw : s.memWf) : (s.atSource t k).1.memWf := by
  unfold State.atSource
  extract_lets
  split
  · exact hw
  · exact memWf_pair (memWf_chooseVia hw)

theorem memWf_routeWith {t : Topo} {k : Packet} {inPort : Option Nat} (hw : s.memWf) : (s.routeWith t k inPort).memWf := by
  unfold State.routeWith
  split
  · rename_i e₁
    have h₁ := memWf_of_fst e₁ (memWf_fst_ite (memWf_atSource hw) hw)
    split
    · exact memWf_multicast h₁
    · refine memWf_ite (memWf_unreachable h₁) ?_
      split
      · exact memWf_ite (memWf_cktForward h₁) (memWf_ite (memWf_cktSetUp h₁) (memWf_ite (memWf_cktRelease h₁) h₁))
      · refine memWf_ite (memWf_cntCircuit h₁) ?_
        split
        · exact memWf_answer (memWf_cntMisroute h₁)
        · exact memWf_deliverHere h₁
        · extract_lets _ s₁
          have h₂ : s₁.memWf := memWf_ite (memWf_draw h₁) h₁
          split
          · exact memWf_unreachable h₂
          · exact memWf_linkSend h₂

theorem memWf_routeAlone {k : Packet} {inPort : Option Nat} (hw : s.memWf) : (s.routeAlone k inPort).memWf :=
  memWf_ite (memWf_unreachable hw) (memWf_ite (memWf_ite (memWf_cktDeliver hw) (memWf_cntCircuit hw)) (memWf_deliverHere hw))

theorem memWf_routeFrom {k : Packet} {inPort : Option Nat} (hw : s.memWf) : (s.routeFrom k inPort).memWf := by
  unfold State.routeFrom
  refine memWf_ite (memWf_cntUnreach hw) ?_
  split
  · rename_i e₁
    exact memWf_headerFault hw _ e₁
  · refine memWf_ite hw (memWf_ite ?_ ?_)
    · split
      · exact hw
      · exact memWf_ite (memWf_ite (memWf_sendPkt hw) hw) (memWf_setPort hw)
    · split
      · exact memWf_routeWith hw
      · exact memWf_routeAlone hw

theorem memWf_routePacket {src : PktSource} {k : Packet} (hw : s.memWf) : (s.routePacket src k).memWf := by
  unfold State.routePacket
  split
  · split
    · rename_i e₁
      exact memWf_handDone (memWf_routeFrom (memWf_rxTake hw _ e₁))
    · exact hw
  · exact memWf_routeFrom hw

theorem memWf_routeArrive {src : PktSource} {k : Packet} (hw : s.memWf) : (s.routeArrive src k).memWf := by
  unfold State.routeArrive
  refine memWf_ite hw ?_
  split
  · refine memWf_ite hw ?_
    split
    · rename_i e₁
      exact memWf_routePacket (memWf_arrive hw _ e₁)
    · exact hw
  · exact memWf_routePacket hw

theorem nextMemWf_execTailCheck {xa : PktSource} {pkt : Packet} {forwarded : Bool} (hw : s.memWf) : NextMemWf
    (execTailCheck xa pkt forwarded s) := by
  unfold execTailCheck
  extract_lets
  refine nextMemWf_next (memWf_ite hw ?_)
  split
  · exact hw
  · exact memWf_ite (memWf_cntFraming hw) (memWf_answer (memWf_cntFraming hw))
  · exact memWf_ite (memWf_answer (memWf_cntStomped hw)) (memWf_cntStomped hw)

/-! ### Machine/Circuits.lean -/

theorem memWf_ownRefusal (hw : s.memWf) : s.ownRefusal.memWf :=
  memWf_modRouter hw

theorem memWf_startCkt {ten : BitVec 7} {dst share : Nat} {bind : Bool} {refs : Nat} {key : Option DescKey} (hw : s.memWf) :
    (s.startCkt ten dst share bind refs key).1.memWf := by
  unfold State.startCkt
  split
  · exact hw
  · exact memWf_pair (memWf_ownRefusal hw)
  · extract_lets
    refine memWf_fst_ite (memWf_pair (memWf_ownRefusal hw)) ?_
    split
    · split
      · exact hw
      · exact memWf_fst_ite (memWf_pair (memWf_ownRefusal hw)) (memWf_pair (memWf_linkSend (memWf_modRouter hw)))
    · exact hw

theorem memWf_sendEnd {c : Ckt} (hw : s.memWf) : (s.sendEnd c).memWf := by
  unfold State.sendEnd
  split
  · exact memWf_ite (memWf_linkSend hw) hw
  · exact hw

theorem memWf_sendRelease {c : Ckt} (hw : s.memWf) : (s.sendRelease c).memWf := by
  unfold State.sendRelease
  split
  · exact memWf_linkSend hw
  · exact hw

theorem memWf_tearDown {c : Ckt} {key : Option DescKey} {due : Option Nat} (hw : s.memWf) : (s.tearDown c key due).memWf :=
  memWf_sendEnd (memWf_setCkt hw)

theorem memWf_dropRef {ten : BitVec 7} {chip : Nat} {key : Option DescKey} {due : Option Nat} (hw : s.memWf) :
    (s.dropRef ten chip key due).memWf := by
  unfold State.dropRef
  split
  · exact hw
  · exact memWf_ite (memWf_tearDown hw) (memWf_setCkt hw)

theorem memWf_setForm {f : Forming} (hw : s.memWf) : (s.setForm f).memWf :=
  memWf_update hw

theorem memWf_dropForm {k : DescKey} (hw : s.memWf) : (s.dropForm k).memWf :=
  memWf_update hw

theorem memWf_formStart {f : Forming} {k : Nat} (hw : s.memWf) : (s.formStart f k).1.memWf := by
  induction k generalizing s f with
  | zero => exact hw
  | succ k ih =>
    unfold State.formStart
    split
    · refine memWf_fst_ite hw ?_
      split
      · exact ih (memWf_setCkt hw)
      · split
        · rename_i e
          exact ih (memWf_of_fst e (memWf_startCkt hw))
        · rename_i e
          exact memWf_of_fst e (memWf_startCkt hw)
    · exact hw

theorem memWf_formInstall {f : Forming} (hw : s.memWf) : (s.formInstall f).memWf :=
  memWf_complete (memWf_dropForm (memWf_modRouter (memWf_update hw)))

theorem memWf_formUndo {f : Forming} {code chip : Nat} (hw : s.memWf) : (s.formUndo f code chip).memWf := by
  unfold State.formUndo
  refine memWf_ite (memWf_setForm hw) ?_
  extract_lets _ s₁
  have h₁ : s₁.memWf := memWf_setForm (memWf_foldl (fun _ _ hv => memWf_dropRef hv) hw)
  exact memWf_ite h₁ (memWf_complete (memWf_dropForm h₁))

theorem memWf_formStep {f : Forming} (hw : s.memWf) : (s.formStep f).memWf := by
  unfold State.formStep
  extract_lets
  split
  · rename_i e₁
    have h₁ := memWf_of_fst e₁ (memWf_formStart hw)
    split
    · exact memWf_formUndo h₁
    · exact memWf_ite (memWf_setForm h₁) (memWf_ite (memWf_formUndo h₁) (memWf_formInstall h₁))

theorem memWf_formAll (hw : s.memWf) : s.formAll.memWf := by
  unfold State.formAll
  refine memWf_foldl ?_ hw
  intro _ _ hv
  split
  · exact memWf_formStep hv
  · exact hv

theorem nextMemWf_execTeamForm {key : DescKey} {gmask tlist : HostRead} (hw : s.memWf) : NextMemWf (execTeamForm key gmask tlist s) := by
  unfold execTeamForm
  split
  · exact nextMemWf_next hw
  · refine nextMemWf_ite (nextMemWf_next hw) ?_
    extract_lets s₁
    have h₁ : s₁.memWf := memWf_emit (memWf_emit hw)
    split
    · refine nextMemWf_ite nextMemWf_fault ?_
      extract_lets
      refine nextMemWf_ite (nextMemWf_next (memWf_complete h₁)) ?_
      split
      · exact nextMemWf_next (memWf_complete h₁)
      · exact nextMemWf_next (memWf_formStep (memWf_update (memWf_setDesc h₁)))
    · exact nextMemWf_next (memWf_complete (memWf_hostReadErr h₁))

theorem memWf_endOpen {tm : Team} (hw : s.memWf) : (s.endOpen tm).memWf :=
  memWf_foldl (fun _ _ hv => memWf_memberFault hv) hw

theorem memWf_dissolve {tm : Team} {key : Option DescKey} {due : Option Nat} (hw : s.memWf) : (s.dissolve tm key due).memWf :=
  memWf_foldl (fun _ _ hv => memWf_dropRef hv) (memWf_modRouter (memWf_update hw))

theorem nextMemWf_execTeamDissolve {key : DescKey} (hw : s.memWf) : NextMemWf (execTeamDissolve key s) := by
  unfold execTeamDissolve
  refine nextMemWf_next ?_
  split
  · exact hw
  · refine memWf_ite hw ?_
    split
    · exact memWf_complete hw
    · refine memWf_ite (memWf_complete hw) ?_
      extract_lets s₁
      have h₁ : s₁.memWf := memWf_dissolve (memWf_setDesc hw)
      exact memWf_ite h₁ (memWf_complete h₁)

theorem nextMemWf_execCircuitSetUp {key : DescKey} (hw : s.memWf) : NextMemWf (execCircuitSetUp key s) := by
  unfold execCircuitSetUp
  refine nextMemWf_next ?_
  split
  · exact hw
  · extract_lets
    refine memWf_ite hw (memWf_ite (memWf_complete hw) (memWf_ite (memWf_complete hw) ?_))
    split
    · rename_i e₁
      exact memWf_complete (memWf_of_fst e₁ (memWf_startCkt hw))
    · rename_i e₂
      exact memWf_setDesc (memWf_of_fst e₂ (memWf_startCkt hw))

theorem nextMemWf_execCircuitTearDown {key : DescKey} (hw : s.memWf) : NextMemWf (execCircuitTearDown key s) := by
  unfold execCircuitTearDown
  refine nextMemWf_next ?_
  split
  · exact hw
  · refine memWf_ite hw ?_
    split
    · exact memWf_ite (memWf_complete hw) (memWf_tearDown (memWf_setDesc hw))
    · exact memWf_complete hw

theorem memWf_cktWaitEnd {c : Ckt} {code chip : Nat} (hw : s.memWf) : (s.cktWaitEnd c code chip).memWf := by
  unfold State.cktWaitEnd
  split
  · exact hw
  · split
    · exact hw
    · exact memWf_ite (memWf_ite (memWf_complete (memWf_draw hw)) (memWf_complete hw)) (memWf_ite hw (memWf_complete hw))

theorem memWf_cktGone {c : Ckt} {code chip : Nat} (hw : s.memWf) : (s.cktGone c code chip).memWf := by
  unfold State.cktGone
  extract_lets s₁
  have h₁ : s₁.memWf := memWf_dropCkt hw
  exact memWf_formAll (memWf_cktWaitEnd (memWf_ite (memWf_update h₁) h₁))

theorem memWf_cktReply {cid status : Nat} {data : List Byte} (hw : s.memWf) : (s.cktReply cid status data).memWf := by
  unfold State.cktReply
  split
  · exact hw
  · refine memWf_ite (memWf_setCkt hw) (memWf_ite ?_ ?_)
    · split <;> exact memWf_cktGone hw
    · refine memWf_ite hw (memWf_ite ?_ (memWf_sendRelease (memWf_setCkt hw)))
      extract_lets s₁
      have h₁ : s₁.memWf := memWf_setCkt hw
      exact memWf_ite (memWf_formAll h₁) (memWf_cktWaitEnd h₁)

theorem memWf_cktResend {cid : Nat} (hw : s.memWf) : (s.cktResend cid).memWf := by
  unfold State.cktResend
  split
  · exact hw
  · refine memWf_ite hw ?_
    extract_lets _ s₁
    have h₁ : s₁.memWf := memWf_setCkt hw
    refine memWf_ite (memWf_ite (memWf_sendRelease h₁) (memWf_sendEnd h₁)) ?_
    split
    · exact memWf_linkSend h₁
    · exact h₁

theorem memWf_brokenRecord {c : Ckt} (hw : s.memWf) : (s.brokenRecord c).memWf :=
  memWf_logErr hw

theorem memWf_breakChunks {c : Ckt} (hw : s.memWf) : (s.breakChunks c).memWf := by
  unfold State.breakChunks
  refine memWf_ite hw (memWf_foldl ?_ hw)
  intro _ _ hv
  extract_lets
  split
  · exact hv
  · split
    · exact hv
    · exact memWf_ite (memWf_memberFault hv) hv

theorem nextMemWf_execCircuitBrokenNotice {chip : BitVec 16} {cid : BitVec 12} (hw : s.memWf) : NextMemWf
    (execCircuitBrokenNotice chip cid s) := by
  unfold execCircuitBrokenNotice
  refine nextMemWf_next (memWf_ite hw ?_)
  extract_lets s₁
  have h₁ : s₁.memWf := memWf_raise hw
  split
  · exact h₁
  · exact memWf_cktGone (memWf_breakChunks (memWf_dropCkt (memWf_sendEnd (memWf_draw (memWf_brokenRecord (memWf_modRouter h₁))))))

theorem nextMemWf_execTeardownAckTimeout {chip : BitVec 16} {cid : BitVec 12} (hw : s.memWf) : NextMemWf
    (execTeardownAckTimeout chip cid s) := by
  unfold execTeardownAckTimeout
  refine nextMemWf_next (memWf_ite hw ?_)
  split
  · exact hw
  · exact memWf_ite (memWf_cktGone (memWf_sendEnd hw)) hw

theorem memWf_reroute {p vc : Nat} {q : Queued} (hw : s.memWf) : (s.reroute p vc q).memWf := by
  unfold State.reroute
  extract_lets
  split
  · exact memWf_enqueue hw
  · exact memWf_orgLeaves (memWf_unreachable hw)

theorem memWf_breakCkts {p : Nat} (hw : s.memWf) : (s.breakCkts p).memWf :=
  memWf_foldl (fun _ _ hv => memWf_ite (memWf_sendEnd (memWf_dropCkt hv)) (memWf_ite (memWf_sendPkt (memWf_setCkt hv)) hv)) hw

theorem memWf_dropHeld {p : Nat} (hw : s.memWf) : (s.dropHeld p).memWf :=
  memWf_foldl (fun _ _ hv => memWf_cntUnreach hv) (memWf_update hw)

theorem memWf_portLeft {p : Nat} (hw : s.memWf) : (s.portLeft p).memWf :=
  memWf_ite hw (memWf_breakCkts (memWf_foldl (fun _ _ hv => memWf_reroute hv)
    (memWf_dropHeld (memWf_foldl (fun _ _ hv => memWf_cntUnreach hv) (memWf_setPort hw)))))

/-! ### Machine/Targets.lean -/

theorem memWf_sramAccess {k : Packet} (hw : s.memWf) : (s.sramAccess k).memWf := by
  unfold State.sramAccess
  extract_lets o old
  refine memWf_ite (memWf_answer (memWf_cntRefused hw)) (memWf_ite (memWf_readDone hw) (memWf_ite ?_ ?_))
  · split
    · exact memWf_answer hw
    · exact memWf_answer (memWf_setCcSram hw (wf_writeN _ _ _ (wf_ccSram hw)))
  · exact memWf_answer (memWf_setCcSram hw (wf_writeN _ _ _ (wf_ccSram hw)))

theorem memWf_partPort {k : Packet} (hw : s.memWf) : (s.partPort k).memWf := by
  unfold State.partPort
  extract_lets
  refine memWf_ite (memWf_bar hw) (memWf_ite ?_ ?_)
  · refine memWf_ite (memWf_answer hw) ?_
    split
    · exact memWf_ite hw (memWf_setPart hw)
    · exact hw
  · split
    · exact memWf_tileInbound (memWf_setPart hw)
    · exact memWf_answer hw

theorem memWf_target {at? : Option MPort} {k : Packet} (hw : s.memWf) : (s.target at? k).memWf := by
  unfold State.target
  refine memWf_ite (memWf_answer (memWf_cntAddress hw)) ?_
  split
  · exact memWf_stackAdmit hw
  · split
    · exact memWf_tileInbound hw
    · exact memWf_partPort hw
  · exact memWf_sramAccess hw

theorem memWf_targetOf {t : BitVec 4} {k : Packet} (hw : s.memWf) : NextMemWf (s.targetOf t k) := by
  unfold State.targetOf
  refine nextMemWf_next (memWf_ite hw ?_)
  split
  · rename_i e₁
    exact memWf_target (memWf_arrive hw _ e₁)
  · exact hw

theorem memWf_replyAt {k : Packet} (hw : s.memWf) : (s.replyAt k).memWf := by
  unfold State.replyAt
  extract_lets
  refine memWf_ite ?_ (memWf_ite (memWf_ccReply hw) (memWf_ite (memWf_cktReply hw) hw))
  split
  · exact memWf_ite (memWf_slotReply hw) (memWf_tileReply hw)
  · exact hw

theorem memWf_replyComes {k : Packet} (hw : s.memWf) : (s.replyComes k).memWf := by
  unfold State.replyComes
  refine memWf_ite hw ?_
  split
  · rename_i e₁
    exact memWf_replyAt (memWf_arrive hw _ e₁)
  · exact hw

theorem nextMemWf_execRetryResend {a : RetryAgent} {tag : BitVec 6} {write : Bool} (hw : s.memWf) : NextMemWf
    (execRetryResend a tag write s) := by
  unfold execRetryResend
  refine nextMemWf_next (memWf_ite hw ?_)
  split
  · exact memWf_tileResend hw
  · exact memWf_ite (memWf_ccResend hw) (memWf_cktResend hw)

/-! ### Machine/Links.lean -/

theorem memWf_setHold {p c : Nat} (hw : s.memWf) : (s.setHold p c).memWf := by
  unfold State.setHold
  extract_lets _ _ _ s₁ s₂
  have h₁ : s₁.memWf := memWf_miswire (memWf_setPort hw)
  have h₂ : s₂.memWf := memWf_ite (memWf_report h₁) h₁
  exact memWf_sendTs (memWf_ite h₂ (memWf_toStage h₂))

theorem memWf_toAdapt {p step : Nat} (hw : s.memWf) : (s.toAdapt p step).memWf :=
  memWf_sendTs (memWf_toStage (memWf_miswire (memWf_setPort hw)))

theorem memWf_recheckHold {p : Nat} (hw : s.memWf) : (s.recheckHold p).memWf :=
  memWf_ite hw (memWf_ite (memWf_ite (memWf_setHold hw) (memWf_toAlign hw)) (memWf_ite (memWf_setHold hw) (memWf_toAdapt hw)))

theorem memWf_startTraining {p : Nat} (hw : s.memWf) : (s.startTraining p).memWf :=
  memWf_ite (memWf_setHold hw) (memWf_toAlign hw)

theorem memWf_selfAligned {p : Nat} {u : BitVec 8} {map : BitVec 32} (hw : s.memWf) : (s.selfAligned p u map).memWf :=
  memWf_setPort hw

theorem nextMemWf_execAlignDone {p : PortNo} {plus : BitVec 8} {lanes : List LaneRx} (hw : s.memWf) : NextMemWf
    (execAlignDone p plus lanes s) :=
  nextMemWf_ite nextMemWf_fault (nextMemWf_next (memWf_ite hw
    (memWf_ite (memWf_ite (memWf_selfAligned hw) (memWf_ite (memWf_portFail hw) (memWf_sendTs (memWf_toStage (memWf_setPort hw)))))
    (memWf_ite (memWf_portFail hw) hw))))

theorem memWf_maqSave {p : Nat} (hw : s.memWf) : (s.maqSave p).memWf :=
  memWf_ite hw (memWf_journal (memWf_setPort hw))

theorem memWf_newPeer {p : Nat} (hw : s.memWf) : (s.newPeer p).memWf := by
  unfold State.newPeer
  extract_lets _ _ s₁
  have h₁ : s₁.memWf := memWf_setPort hw
  exact memWf_ite h₁ (memWf_foldl (fun _ _ hv => memWf_cntUnreach hv) h₁)

theorem memWf_exchanged {p : Nat} {ts : TrainSeq} (hw : s.memWf) : (s.exchanged p ts).memWf := by
  unfold State.exchanged
  extract_lets _ _ _ _ _ _ _ _ _ s₁
  have h₁ : s₁.memWf := memWf_setPort (memWf_ite hw (memWf_newPeer hw))
  exact memWf_ite (memWf_toAdapt h₁) (memWf_setHold h₁)

theorem memWf_exchanged1 {p : Nat} {ts : TrainSeq} (hw : s.memWf) : (s.exchanged1 p ts).memWf := by
  unfold State.exchanged1
  extract_lets _ s₁
  have h₁ : s₁.memWf := memWf_setPort hw
  exact memWf_ite (memWf_portFail h₁) (memWf_toAdapt h₁)

theorem memWf_exchangeEnd {p : Nat} (hw : s.memWf) : (s.exchangeEnd p).memWf := by
  unfold State.exchangeEnd
  extract_lets
  split
  · exact memWf_ite hw (memWf_ite (memWf_exchanged hw) (memWf_exchanged1 hw))
  · exact hw

theorem memWf_heldTs {p : Nat} {ts : TrainSeq} (hw : s.memWf) : (s.heldTs p ts).memWf :=
  memWf_ite hw (memWf_recheckHold (memWf_setPort hw))

theorem nextMemWf_execTsa {p : PortNo} {ts : TrainSeq} (hw : s.memWf) : NextMemWf (execTsa p ts s) := by
  unfold execTsa
  extract_lets _ _ _ _ _ s₁
  have h₁ : s₁.memWf := memWf_setPort hw
  exact nextMemWf_next (memWf_ite hw (memWf_ite (memWf_heldTs hw)
      (memWf_ite hw (memWf_exchangeEnd (memWf_ite (memWf_sendTs (memWf_setPort h₁)) h₁)))))

theorem memWf_rateGo {p : Nat} (hw : s.memWf) : (s.rateGo p).memWf := by
  unfold State.rateGo
  extract_lets _ _ s₁
  have h₁ : s₁.memWf := memWf_setPort hw
  exact memWf_ite hw (memWf_ite (memWf_sendFrame (memWf_sendCmp h₁)) h₁)

theorem nextMemWf_execRate {p : PortNo} {ts : TrainSeq} (hw : s.memWf) : NextMemWf (execRate p ts s) := by
  unfold execRate
  refine nextMemWf_next (memWf_ite hw ?_)
  extract_lets s₁
  have h₁ : s₁.memWf := memWf_ite (memWf_exchangeEnd hw) hw
  exact memWf_ite h₁ (memWf_rateGo (memWf_setPort h₁))

theorem memWf_adapted {p : Nat} (hw : s.memWf) : (s.adapted p).memWf := by
  unfold State.adapted
  extract_lets _ _ _ s₁
  have h₁ : s₁.memWf := memWf_setPort hw
  exact memWf_ite (memWf_setPort h₁) (memWf_ite (memWf_portFail h₁)
      (memWf_ite (memWf_sendTs (memWf_setPort h₁)) (memWf_toStage (memWf_setPort h₁))))

theorem memWf_laneSwept {p l : Nat} {codes : List Sweep} (hw : s.memWf) : (s.laneSwept p l codes).memWf := by
  unfold State.laneSwept
  extract_lets
  refine memWf_ite hw ?_
  split
  · exact hw
  · extract_lets _ _ s₁
    have h₁ : s₁.memWf := memWf_setPort hw
    exact memWf_ite (memWf_adapted h₁) h₁

theorem nextMemWf_execAdaptSweepDone {p : PortNo} {lane : Fin 8} {codes : List Sweep} (hw : s.memWf) : NextMemWf
    (execAdaptSweepDone p lane codes s) := by
  unfold execAdaptSweepDone
  refine nextMemWf_next (memWf_ite hw ?_)
  extract_lets s₁
  have h₁ : s₁.memWf := memWf_rateGo hw
  exact memWf_ite h₁ (memWf_laneSwept h₁)

theorem memWf_lockFail {p : Nat} {late : BitVec 8} (hw : s.memWf) : (s.lockFail p late).memWf := by
  unfold State.lockFail
  extract_lets _ _ s₁
  have h₁ : s₁.memWf := memWf_setPort hw
  exact memWf_ite (memWf_portFail h₁) (memWf_toAlign h₁)

theorem nextMemWf_execTrainingTimeout {p : PortNo} (hw : s.memWf) : NextMemWf (execTrainingTimeout p s) := by
  unfold execTrainingTimeout
  extract_lets _ _ _ _ s₁
  have h₁ : s₁.memWf := memWf_setPort hw
  refine nextMemWf_next (memWf_ite hw ?_)
  split
  · exact memWf_ite (memWf_toAlign hw) hw
  · exact memWf_ite hw (memWf_ite (memWf_portFail h₁) (memWf_toAlign h₁))
  · exact memWf_ite (memWf_lockFail hw) hw
  · exact hw

theorem memWf_cmpLock {p : Nat} {lanes : List CmpLane} (hw : s.memWf) : (s.cmpLock p lanes).memWf := by
  unfold State.cmpLock
  extract_lets _ _ _ s₁
  have h₁ : s₁.memWf := memWf_setPort hw
  exact memWf_ite h₁ (memWf_ite (memWf_setPort h₁) (memWf_lockFail h₁))

theorem nextMemWf_execCmp {p : PortNo} {lanes : List CmpLane} (hw : s.memWf) : NextMemWf (execCmp p lanes s) :=
  nextMemWf_ite nextMemWf_fault (nextMemWf_next (memWf_ite hw (memWf_ite (memWf_cmpLock hw) (memWf_ite (memWf_setPort hw) hw))))

theorem memWf_resend {p : Nat} (hw : s.memWf) : (s.resend p).memWf :=
  memWf_ite hw (memWf_ite (memWf_setPort hw) (memWf_sendAgain hw))

theorem memWf_sendEcho {p : Nat} (hw : s.memWf) : (s.sendEcho p).memWf :=
  memWf_ctlSend (memWf_setPort hw)

theorem memWf_enterUp {p : Nat} (hw : s.memWf) : (s.enterUp p).memWf := by
  unfold State.enterUp
  extract_lets _ _ _ _ _ _ _ s₁ s₂
  have h₁ : s₁.memWf := memWf_portState (memWf_setPort (memWf_portLeft hw))
  have h₂ : s₂.memWf := memWf_ite (memWf_setReg h₁) h₁
  exact memWf_pump (memWf_maqSave (memWf_sendEcho (memWf_ite h₂ (memWf_resend h₂))))

theorem memWf_recheckPort {p : Nat} (hw : s.memWf) : (s.recheckPort p).memWf :=
  memWf_ite hw (memWf_ite (memWf_setHold (memWf_ite (memWf_portState (memWf_leaveService hw)) hw)) (memWf_recheckHold hw))

theorem memWf_activate {t : Topo} (hw : s.memWf) : (s.activate t).memWf :=
  memWf_foldl (fun _ _ hv => memWf_recheckPort hv) (memWf_modRouter hw)

theorem memWf_topoSubmit {rec_ : List Byte} (hw : s.memWf) : (s.topoSubmit rec_).1.memWf := by
  unfold State.topoSubmit
  extract_lets _ _ s₁
  have h₁ : s₁.memWf := memWf_raise hw
  refine memWf_fst_ite (memWf_pair (memWf_report (memWf_raise (memWf_modRouter hw)))) (memWf_fst_ite (memWf_pair (memWf_activate h₁)) ?_)
  split
  · rename_i e₁
    exact memWf_pair (memWf_modRouter (memWf_of_fst e₁ (memWf_armPkg h₁)))
  · rename_i e₂
    exact memWf_of_fst e₂ (memWf_armPkg h₁)

/-! ### Machine/LinkRun.lean -/

theorem memWf_sendNak {p : Nat} (hw : s.memWf) : (s.sendNak p).memWf := by
  unfold State.sendNak
  extract_lets _ _ _ s₁
  have h₁ : s₁.memWf := memWf_nullFrame (memWf_setPort hw)
  exact memWf_ite (memWf_beginRetrain h₁) h₁

theorem memWf_crcFail {p : Nat} (hw : s.memWf) : (s.crcFail p).memWf :=
  memWf_setPort hw

theorem memWf_assemble {p vc : Nat} (hw : s.memWf) : (s.assemble p vc).memWf := by
  unfold State.assemble
  extract_lets
  split
  · exact hw
  · exact memWf_emit (memWf_setPort hw)

theorem memWf_flitIn {p vc : Nat} {bytes : List Byte} (hw : s.memWf) : (s.flitIn p vc bytes).memWf :=
  memWf_ite (memWf_beginRetrain hw) (memWf_assemble (memWf_setPort hw))

theorem memWf_flitsIn {p : Nat} {seq : BitVec 11} {l : List LinkFlit} (hw : s.memWf) : (s.flitsIn p seq l).memWf := by
  induction l generalizing s seq with
  | nil => exact hw
  | cons f r ih =>
    exact memWf_ite hw (memWf_ite (memWf_ite (ih hw) (memWf_beginRetrain hw)) (memWf_ite (memWf_beginRetrain hw)
      (memWf_ite (memWf_ite (ih hw) (memWf_sendNak (memWf_crcFail hw))) (memWf_ite (ih hw) (ih (memWf_flitIn hw))))))

theorem memWf_creditsIn {p : Nat} {f : LinkFrame} (hw : s.memWf) : (s.creditsIn p f).memWf :=
  memWf_ite hw (memWf_ite (memWf_beginRetrain hw) (memWf_setPort hw))

theorem memWf_frameIn {p : Nat} {f : LinkFrame} (hw : s.memWf) : (s.frameIn p f).memWf := by
  unfold State.frameIn
  extract_lets _ s₁ _ s₂
  have h₁ : s₁.memWf := memWf_setPort hw
  have h₂ : s₂.memWf := memWf_flitsIn (memWf_creditsIn (memWf_ite (memWf_resend (memWf_setPort h₁)) h₁))
  exact memWf_pump (memWf_ite (memWf_nullFrame h₂) h₂)

theorem memWf_frameLock {p : Nat} {f : LinkFrame} (hw : s.memWf) : (s.frameLock p f).memWf := by
  unfold State.frameLock
  extract_lets _ _ s₁ s₂
  have h₁ : s₁.memWf := memWf_setPort hw
  have h₂ : s₂.memWf := memWf_ite (memWf_sendFrame h₁) h₁
  exact memWf_ite h₂ (memWf_frameIn (memWf_enterUp h₂))

theorem memWf_windowTick {p : Nat} (hw : s.memWf) : (s.windowTick p).memWf :=
  memWf_ite (memWf_setPort hw) hw

theorem memWf_rxFrame {p : Nat} {raw : List Byte} (hw : s.memWf) : (s.rxFrame p raw).1.memWf :=
  memWf_pair (memWf_setPort hw)

theorem nextMemWf_execLinkFrame {p : PortNo} {raw : List Byte} (hw : s.memWf) : NextMemWf (execLinkFrame p raw s) := by
  unfold execLinkFrame
  refine nextMemWf_ite nextMemWf_fault (nextMemWf_next (memWf_ite hw ?_))
  extract_lets s₁
  have h₁ : s₁.memWf := memWf_windowTick hw
  exact memWf_ite h₁ (memWf_ite (memWf_frameLock (memWf_rxFrame h₁))
      (memWf_ite (memWf_sendNak (memWf_crcFail (memWf_rxFrame h₁))) (memWf_windowTick (memWf_frameIn (memWf_rxFrame h₁)))))

theorem nextMemWf_execPause {p : PortNo} {blocks : List (List Byte)} (hw : s.memWf) : NextMemWf (execPause p blocks s) := by
  unfold execPause
  extract_lets
  refine nextMemWf_next ?_
  split
  · exact hw
  · exact memWf_ite hw (memWf_ite (memWf_ite (memWf_unpause hw) hw) (memWf_setPort hw))

theorem nextMemWf_execPauseExpiry {p : PortNo} (hw : s.memWf) : NextMemWf (execPauseExpiry p s) := by
  unfold execPauseExpiry
  refine nextMemWf_next ?_
  split
  · exact memWf_ite (memWf_unpause hw) hw
  · exact hw

theorem memWf_writePause {p v : Nat} (hw : s.memWf) : (s.writePause p v).memWf := by
  unfold State.writePause
  extract_lets _ s₁
  have h₁ : s₁.memWf := memWf_setReg hw
  exact memWf_ite (memWf_sendOs h₁) h₁

theorem nextMemWf_execWindowQuiet {p : PortNo} (hw : s.memWf) : NextMemWf (execWindowQuiet p s) := by
  unfold execWindowQuiet
  extract_lets
  refine nextMemWf_next ?_
  split
  · exact memWf_ite (memWf_setPort hw) hw
  · exact hw

theorem memWf_enterWindow {p : Nat} (hw : s.memWf) : (s.enterWindow p).memWf := by
  unfold State.enterWindow
  extract_lets _ _ _ s₁
  have h₁ : s₁.memWf := memWf_miswire (memWf_setPort hw)
  split
  · exact hw
  · refine memWf_ite hw ?_
    extract_lets _ s₂
    have h₂ : s₂.memWf := memWf_portState (memWf_ite (memWf_sendOs h₁) h₁)
    exact memWf_ite (memWf_windowTick (memWf_pump (memWf_nullFrame h₂))) h₂

theorem nextMemWf_execWindowEnd {p : PortNo} (hw : s.memWf) : NextMemWf (execWindowEnd p s) := by
  unfold execWindowEnd
  extract_lets _ _ s₁
  have h₁ : s₁.memWf := memWf_setPort hw
  refine nextMemWf_next ?_
  split
  · exact hw
  · exact memWf_ite hw (memWf_ite (memWf_pump h₁) (memWf_ite (memWf_toAlign (memWf_portState (memWf_setPort h₁)))
        (memWf_startTraining (memWf_leaveService h₁))))

theorem memWf_setOffline {p : Nat} {v : Bool} (hw : s.memWf) : (s.setOffline p v).memWf :=
  memWf_ite hw (memWf_ite (memWf_setHold (memWf_portState (memWf_leaveService hw))) (memWf_startTraining hw))

theorem memWf_prbsStart {p : Nat} (hw : s.memWf) : (s.prbsStart p).memWf :=
  memWf_draw (memWf_emit (memWf_setPort hw))

theorem memWf_setTest {p t : Nat} (hw : s.memWf) : (s.setTest p t).memWf :=
  memWf_ite hw (memWf_ite (memWf_ite (memWf_sendTs (memWf_setPort (memWf_portState hw)))
    (memWf_prbsStart (memWf_setPort (memWf_portState hw)))) (memWf_ite
    (memWf_sendTs (memWf_setPort (memWf_prbsStart (memWf_portState hw))))
    (memWf_ite (memWf_prbsStart (memWf_portState hw)) (memWf_ite (memWf_toAlign hw) hw))))

theorem memWf_inject {p v : Nat} (hw : s.memWf) : (s.inject p v).memWf :=
  memWf_ite hw (memWf_ite (memWf_draw (memWf_setPort hw)) (memWf_emit hw))

theorem memWf_writeLnkCtl {p v : Nat} (hw : s.memWf) : (s.writeLnkCtl p v).memWf := by
  unfold State.writeLnkCtl
  extract_lets _ s₁ _ _ s₂ s₃ s₄
  have h₁ : s₁.memWf := memWf_setReg hw
  have h₂ : s₂.memWf := memWf_inject (memWf_ite (memWf_setPort h₁) h₁)
  have h₃ : s₃.memWf := memWf_ite (memWf_setOffline h₂) h₂
  have h₄ : s₄.memWf := memWf_ite h₃ (memWf_setTest h₃)
  exact memWf_ite (memWf_beginRetrain h₄) h₄

theorem memWf_lnkCtlRow {p : PortNo} {v : Word} {hit : Bool} (hw : s.memWf) : NextMemWf (s.lnkCtlRow p v hit) :=
  nextMemWf_next (memWf_ite (memWf_writeLnkCtl (memWf_barAccess hw)) hw)

theorem memWf_prbsLane {p l : Nat} {b : List Bool} (hw : s.memWf) : (s.prbsLane p l b).memWf :=
  memWf_setPort hw

theorem memWf_prbsSend {p l n : Nat} (hw : s.memWf) : (s.prbsSend p l n).1.memWf :=
  memWf_pair (memWf_emit (memWf_setPort hw))

theorem nextMemWf_execPrbsTest {p : PortNo} {v : Word} {n : Nat} {rx : List (List Bool)} (hw : s.memWf) : NextMemWf
    (execPrbsTest p v n rx s) := by
  unfold execPrbsTest
  extract_lets _ s₁
  have h₁ : s₁.memWf := memWf_writeLnkCtl (memWf_barAccess hw)
  exact nextMemWf_ite nextMemWf_fault (nextMemWf_next (memWf_ite hw
      (memWf_ite h₁ (memWf_foldl (fun _ _ hv => memWf_prbsLane (memWf_prbsSend hv)) h₁))))

/-! ### Machine/Power.lean -/

theorem memWf_limitCheck (hw : s.memWf) : s.limitCheck.memWf :=
  memWf_ite hw (memWf_raise (memWf_update hw))

theorem nextMemWf_execLimitNoticeWindow (hw : s.memWf) : NextMemWf (execLimitNoticeWindow s) := by
  unfold execLimitNoticeWindow
  refine nextMemWf_next ?_
  split
  · exact hw
  · refine memWf_ite hw ?_
    extract_lets _ _ s₁
    have h₁ : s₁.memWf := memWf_update hw
    exact memWf_ite h₁ (memWf_notice0 (memWf_update h₁))

theorem memWf_setRail {r : Nat} (hw : s.memWf) : (s.setRail r).memWf :=
  memWf_ite hw (memWf_update hw)

theorem memWf_setVolt {n op : Nat} (hw : s.memWf) : (s.setVolt n op).memWf :=
  memWf_setRail (memWf_setPart hw)

theorem memWf_opLower {n : Nat} (hw : s.memWf) : (s.opLower n).memWf :=
  memWf_setPart hw

theorem memWf_armRaise {n : Nat} (hw : s.memWf) : (s.armRaise n).memWf :=
  memWf_ite hw (memWf_armPart (memWf_setPart hw))

theorem memWf_opDrive {n : Nat} (hw : s.memWf) : (s.opDrive n).memWf :=
  memWf_ite hw (memWf_ite (memWf_opLower hw) (memWf_ite (memWf_armRaise hw) (memWf_setPart hw)))

theorem memWf_raiseDue {n : Nat} (hw : s.memWf) : (s.raiseDue n).memWf := by
  unfold State.raiseDue
  extract_lets _ s₁
  have h₁ : s₁.memWf := memWf_setPart hw
  exact memWf_ite h₁ (memWf_setVolt (memWf_setPart h₁))

theorem nextMemWf_execOpStep {n : PartNo} (hw : s.memWf) : NextMemWf (execOpStep n s) := by
  unfold execOpStep
  extract_lets _ s₁
  have h₁ : s₁.memWf := memWf_setPart hw
  refine nextMemWf_next ?_
  split
  · exact hw
  · exact memWf_opDrive (memWf_setPart hw)
  · exact memWf_opDrive (memWf_ite h₁ (memWf_setVolt h₁))

theorem memWf_pendingLimit (hw : s.memWf) : s.pendingLimit.memWf := by
  unfold State.pendingLimit
  split
  · exact memWf_ite (memWf_update hw) hw
  · exact hw

theorem memWf_dutyStep {n : Nat} (hw : s.memWf) : (s.dutyStep n).memWf := by
  unfold State.dutyStep
  extract_lets
  split
  exact memWf_setPart hw

theorem memWf_saveSettings (hw : s.memWf) : s.saveSettings.memWf :=
  memWf_journal hw

theorem nextMemWf_execDutyEvaluation (hw : s.memWf) : NextMemWf (execDutyEvaluation s) := by
  unfold execDutyEvaluation
  refine nextMemWf_next (memWf_ite hw ?_)
  extract_lets t₁
  have h₁ : t₁.memWf := memWf_pendingLimit hw
  exact memWf_foldl (fun _ _ hv => memWf_ite hv (memWf_dutyStep hv)) (memWf_limitCheck (memWf_ite h₁ (memWf_saveSettings h₁)))

theorem memWf_opLoop {n : Nat} (hw : s.memWf) : (s.opLoop n).memWf := by
  unfold State.opLoop
  extract_lets _ clear₁
  have h₁ : clear₁.memWf := memWf_setPart hw
  exact memWf_ite h₁ (memWf_ite (memWf_opDrive h₁) (memWf_ite h₁
      (memWf_ite (memWf_opLower (memWf_setPart h₁)) (memWf_ite (memWf_armRaise h₁) (memWf_opDrive h₁)))))

theorem nextMemWf_execHintWindow {key : DescKey} (hw : s.memWf) : NextMemWf (execHintWindow key s) := by
  unfold execHintWindow
  refine nextMemWf_next ?_
  split
  · exact hw
  · exact memWf_complete (memWf_foldl (fun _ _ hv => memWf_opDrive hv)
        (memWf_foldl (fun _ _ hv => memWf_ite (memWf_setPart hv) (memWf_setPart hv)) hw))

theorem nextMemWf_execHintHostLimit {key : DescKey} (hw : s.memWf) : NextMemWf (execHintHostLimit key s) := by
  unfold execHintHostLimit
  refine nextMemWf_next ?_
  split
  · exact hw
  · exact memWf_limitCheck (memWf_complete (memWf_ite (memWf_update hw) (memWf_update hw)))

theorem nextMemWf_execRampStep (hw : s.memWf) : NextMemWf (execRampStep s) := by
  unfold execRampStep
  refine nextMemWf_next (memWf_ite hw ?_)
  extract_lets t₁
  have h₁ : t₁.memWf := memWf_pendingLimit hw
  exact memWf_limitCheck (memWf_update (memWf_ite h₁ (memWf_saveSettings h₁)))

theorem nextMemWf_execDroopTrip {n : PartNo} (hw : s.memWf) : NextMemWf (execDroopTrip n s) := by
  unfold execDroopTrip
  extract_lets _ s₁ _ s₂
  have h₁ : s₁.memWf := memWf_setPart hw
  have h₂ : s₂.memWf := memWf_setPart h₁
  refine nextMemWf_next (memWf_ite hw ?_)
  split
  · exact memWf_ite (memWf_setVolt h₂) h₂
  · exact h₁

theorem memWf_alertEnter (hw : s.memWf) : s.alertEnter.memWf :=
  memWf_foldl (fun _ _ hv => memWf_ite hv (memWf_setPart hv)) (memWf_update hw)

theorem nextMemWf_execVralert {reg : Fin 6} (hw : s.memWf) : NextMemWf (execVralert reg s) := by
  unfold execVralert
  extract_lets _ _ s₁ _ s₂
  have h₁ : s₁.memWf := memWf_raise (memWf_update hw)
  have h₂ : s₂.memWf := memWf_ite (memWf_update h₁) h₁
  exact nextMemWf_next (memWf_ite hw (memWf_ite (memWf_alertEnter h₂) h₂))

theorem nextMemWf_execVralertRelease (hw : s.memWf) : NextMemWf (execVralertRelease s) := by
  unfold execVralertRelease
  refine nextMemWf_next ?_
  extract_lets _ _ s₁
  have h₁ : s₁.memWf := memWf_update hw
  exact memWf_ite h₁ (memWf_limitCheck (memWf_foldl (fun _ _ hv => memWf_opDrive (memWf_setPart (memWf_setPart hv))) h₁))

theorem memWf_charge {k : DescKey} {pj : Nat} (hw : s.memWf) : (s.charge k pj).memWf := by
  unfold State.charge
  split
  · exact memWf_ite hw (memWf_setJob hw)
  · exact hw

theorem memWf_chargeJobs {e : EnergyUs} (hw : s.memWf) : (s.chargeJobs e).memWf :=
  memWf_foldl (fun _ _ hv => memWf_charge hv) hw

theorem nextMemWf_execEnergyModel {e : EnergyUs} (hw : s.memWf) : NextMemWf (execEnergyModel e s) :=
  nextMemWf_ite nextMemWf_fault (nextMemWf_next (memWf_ite hw
    (memWf_update (memWf_foldl (fun _ _ hv => memWf_setPart hv) (memWf_chargeJobs hw)))))

/-! ### Machine/Calendar.lean -/

theorem nextMemWf_execPark {key : DescKey} (hw : s.memWf) : NextMemWf (execPark key s) := by
  unfold execPark
  refine nextMemWf_next ?_
  split
  · exact hw
  · refine memWf_ite (memWf_complete hw) (memWf_ite hw ?_)
    split
    · exact memWf_complete hw
    · extract_lets s₁
      have h₁ : s₁.memWf := by
        unfold s₁
        refine memWf_foldl ?_ hw
        intro _ _ hv
        extract_lets s₂
        have h₂ : s₂.memWf := memWf_pswChange hv
        exact memWf_partEvent (memWf_setStack h₂ (wf_mem_update (wf_stack h₂)))
      exact memWf_complete h₁

theorem memWf_unparkPart {n : Nat} (hw : s.memWf) : (s.unparkPart n).memWf :=
  memWf_partEvent (memWf_pswChange (memWf_setPart (memWf_setStack hw (wf_mem_update (wf_stack hw)))))

theorem memWf_armUnpark {k : DescKey} {n : Nat} (hw : s.memWf) : (s.armUnpark k n).memWf :=
  memWf_armPart hw

theorem nextMemWf_execUnpark {key : DescKey} (hw : s.memWf) : NextMemWf (execUnpark key s) := by
  unfold execUnpark
  refine nextMemWf_next ?_
  split
  · exact hw
  · refine memWf_ite (memWf_complete hw) ?_
    split
    · exact memWf_complete hw
    · split
      · exact hw
      · exact memWf_armUnpark (memWf_setDesc hw)

theorem memWf_unparkTry {key : DescKey} (hw : s.memWf) : (s.unparkTry key).memWf := by
  unfold State.unparkTry
  split
  · exact hw
  · refine memWf_ite hw ?_
    split
    · exact hw
    · refine memWf_ite (memWf_complete hw) (memWf_ite hw (memWf_ite (memWf_setPart hw) ?_))
      extract_lets _ _ s₁
      have h₁ : s₁.memWf := memWf_update (memWf_unparkPart hw)
      split
      · exact memWf_complete h₁
      · exact memWf_armUnpark (memWf_setDesc h₁)

theorem memWf_takeSample {buf : Nat} {late : Bool} (hw : s.memWf) : (s.takeSample buf late).memWf :=
  memWf_update hw

theorem memWf_countLate {late : Bool} (hw : s.memWf) : (s.countLate late).memWf :=
  memWf_ite (memWf_update hw) hw

theorem memWf_firePkg {e : CalEntry} (hw : s.memWf) : (s.firePkg e).memWf := by
  unfold State.firePkg
  split
  · exact memWf_foldl (fun _ _ hv => memWf_enterWindow hv) hw
  · split
    · exact memWf_activate hw
    · exact hw
  · exact memWf_takeSample hw
  · split
    · exact memWf_setDesc hw
    · exact hw

theorem memWf_firePhase {n : Nat} {k : DescKey} {off : Nat} {v : Word} (hw : s.memWf) : (s.firePhase n k off v).memWf := by
  unfold State.firePhase
  split
  · exact hw
  · exact memWf_foldl (fun _ _ hv => memWf_spWrite hv) hw

theorem memWf_firePart {n : Nat} {lt : Word} {a : PCal} (hw : s.memWf) : (s.firePart n lt a).memWf := by
  unfold State.firePart
  split
  · exact memWf_raiseDue hw
  · exact memWf_unparkTry hw
  · exact memWf_armPart (memWf_setPart hw)
  · exact memWf_firePhase hw

theorem memWf_fireDue {a : Due} (hw : s.memWf) : (s.fireDue a).memWf := by
  unfold State.fireDue
  split
  · exact memWf_firePkg (memWf_raise (memWf_countLate (memWf_update hw)))
  · exact memWf_firePart (memWf_countLate (memWf_setPart hw))

theorem nextMemWf_execCalendarFire (hw : s.memWf) : NextMemWf (execCalendarFire s) := by
  unfold execCalendarFire
  refine nextMemWf_next (memWf_ite hw ?_)
  split
  · exact hw
  · exact memWf_fireDue hw

theorem nextMemWf_execPhaseRelease {n : PartNo} (hw : s.memWf) : NextMemWf (execPhaseRelease n s) := by
  unfold execPhaseRelease
  extract_lets
  refine nextMemWf_next (memWf_ite hw ?_)
  split
  · exact hw
  · exact memWf_ite hw (memWf_fireDue hw)

theorem nextMemWf_execTopologyActivation (hw : s.memWf) : NextMemWf (execTopologyActivation s) := by
  unfold execTopologyActivation
  refine nextMemWf_next (memWf_ite hw ?_)
  split
  · split
    · exact memWf_fireDue hw
    · exact hw
  · exact hw

/-! ### Machine/TileControl.lean -/

theorem nextMemWf_execBr {t : TileNo} {cond rs1 : Reg} {imm : BitVec 16} (hw : s.memWf) : NextMemWf (execBr t cond rs1 imm s) := by
  unfold execBr
  refine nextMemWf_next (memWf_runInstr (fun _ _ => IRes.memWf_ite hw ?_) hw)
  split <;> exact hw

theorem memWf_windowCall {n : Nat} {x : Tile} {target : Word} (hw : s.memWf) (hx : x.scratch.wf) : (s.windowCall n x target).MemWf :=
  IRes.memWf_ite hw (IRes.memWf_ite hw (memWf_setTile hw (wf_scratch_setGroupReg hx)))

theorem nextMemWf_execRet {t : TileNo} (hw : s.memWf) : NextMemWf (execRet t s) :=
  nextMemWf_next (memWf_runInstr (fun _ hv => IRes.memWf_ite hw (IRes.memWf_ite hw (memWf_setTile hw (wf_scratch_update hv)))) hw)

theorem wf_scratch_eventsSeen {x : Tile} (hx : x.scratch.wf) : x.eventsSeen.scratch.wf :=
  wf_scratch_ite (wf_scratch_update hx) hx

theorem nextMemWf_execXret {t : TileNo} (hw : s.memWf) : NextMemWf (execXret t s) :=
  nextMemWf_next (memWf_runInstr (fun _ hv => IRes.memWf_ite hw (memWf_setTile hw (wf_scratch_update (wf_scratch_eventsSeen hv)))) hw)

theorem wf_scratch_ctlWrite {x : Tile} {i : Nat} {v : Word} (hx : x.scratch.wf) : (x.ctlWrite i v).scratch.wf := by
  unfold Tile.ctlWrite
  split
  · exact wf_scratch_update hx
  · exact wf_scratch_update hx
  · exact wf_scratch_update hx
  · exact wf_scratch_update hx
  · exact wf_scratch_update hx
  · exact wf_scratch_update hx
  · exact wf_scratch_update hx
  · exact wf_scratch_update hx
  · exact wf_scratch_update hx
  · exact hx

theorem memWf_fwCall {n : Nat} {x : Tile} {num : Nat} {v : Word} (hw : s.memWf) (hx : x.scratch.wf) : (s.fwCall n x num v).MemWf :=
  IRes.memWf_ite hw (memWf_setTile hw (wf_scratch_update (wf_scratch_setReg hx)))

theorem memWf_armPhase {n : Nat} {x : Tile} (hw : s.memWf) : (s.armPhase n x).1.memWf :=
  memWf_fst_ite hw (memWf_fst_ite (memWf_pair (memWf_update hw)) (memWf_pair (memWf_setPart (memWf_update hw))))

theorem memWf_phaseCall {n : Nat} {x : Tile} (hw : s.memWf) (hx : x.scratch.wf) : (s.phaseCall n x).MemWf :=
  IRes.memWf_ite hw (memWf_fwCall (memWf_armPhase hw) hx)

theorem nextMemWf_execHalt {t : TileNo} (hw : s.memWf) : NextMemWf (execHalt t s) :=
  nextMemWf_next (memWf_runInstr (fun _ hv => IRes.memWf_ite hw (memWf_tileFault (memWf_setTile hw (wf_scratch_update hv)))) hw)

theorem nextMemWf_execSpill {t : TileNo} (hw : s.memWf) : NextMemWf (execSpill t s) := by
  unfold execSpill
  refine nextMemWf_next (memWf_runInstr (fun _ _ => IRes.memWf_ite hw (IRes.memWf_ite hw (IRes.memWf_ite hw ?_))) hw)
  extract_lets _ _ s'₁
  have h₁ : s'₁.memWf := memWf_spWrite hw
  exact memWf_setTile h₁ (wf_scratch_update (wf_tile h₁))

theorem nextMemWf_execFill {t : TileNo} (hw : s.memWf) : NextMemWf (execFill t s) := by
  unfold execFill
  refine nextMemWf_next (memWf_runInstr (fun _ _ => IRes.memWf_ite hw (IRes.memWf_ite hw (IRes.memWf_ite hw ?_))) hw)
  split
  · rename_i e₁
    exact memWf_of_fst e₁ (memWf_spRead hw)
  · rename_i e₂
    have h₁ := memWf_of_fst e₂ (memWf_spRead hw)
    exact memWf_setTile h₁ (wf_scratch_update (wf_scratch_foldl (fun _ _ h₂ => wf_scratch_setGroupReg h₂) (wf_tile h₁)))

/-! ### Machine/Reset.lean -/

theorem memWf_resetRecord {part scope status cause jobs quar slot retired : Nat} (hw : s.memWf) :
    (s.resetRecord part scope status cause jobs quar slot retired).memWf :=
  memWf_logErr hw

theorem memWf_rstRefuse {scope status : Nat} (hw : s.memWf) : (s.rstRefuse scope status).memWf :=
  memWf_resetRecord (memWf_update hw)

theorem memWf_rstDone (hw : s.memWf) : s.rstDone.memWf :=
  memWf_ite (memWf_update hw) hw

theorem memWf_dropTileStreams {t : Nat} (hw : s.memWf) : (s.dropTileStreams t).memWf :=
  memWf_foldl (fun _ _ hv => memWf_foldl (fun _ _ h₁ => memWf_dropStream h₁) hv) hw

theorem memWf_tileStop {t : Nat} {fromDriver crcOk : Bool} (hw : s.memWf) : (s.tileStop t fromDriver crcOk).memWf := by
  unfold State.tileStop
  extract_lets s₁
  have h₁ : s₁.memWf := memWf_dropTileStreams hw
  exact memWf_setTile h₁ (wf_scratch_update (wf_tile h₁))

theorem wf_scratch_allOld {x : Tile} (hx : x.scratch.wf) : x.allOld.scratch.wf :=
  wf_scratch_update hx

theorem wf_scratch_cleared {x : Tile} {crcOk : Bool} {tc : Nat} {ten : BitVec 7} (hx : x.scratch.wf) :
    (x.cleared crcOk tc ten).scratch.wf :=
  wf_clear _ _ _ hx

theorem memWf_fwReload {t : Nat} (hw : s.memWf) : (s.fwReload t).memWf :=
  memWf_ite hw (memWf_putFirmware hw)

theorem memWf_clearTile {t : Nat} {crcOk : Bool} (hw : s.memWf) : (s.clearTile t crcOk).memWf := by
  unfold State.clearTile
  extract_lets s₁
  have h₁ : s₁.memWf := memWf_fwReload hw
  exact memWf_setTile h₁ (wf_scratch_cleared (wf_tile h₁))

theorem memWf_abortTry {k : DescKey} (hw : s.memWf) : (s.abortTry k).memWf := by
  unfold State.abortTry
  split
  · exact hw
  · split
    · exact hw
    · exact memWf_ite hw (memWf_jobEnd hw)

theorem memWf_tileResetEnd {t : Nat} {fromDriver crcOk : Bool} (hw : s.memWf) : (s.tileResetEnd t fromDriver crcOk).memWf := by
  unfold State.tileResetEnd
  extract_lets _ _ s₁ _ _ s₂ _ _ s₃
  have h₁ : s₁.memWf := memWf_foldl (fun _ _ hv => memWf_setJob hv) (memWf_clearTile hw)
  have h₂ : s₂.memWf := memWf_update h₁
  have h₃ : s₃.memWf := memWf_foldl (fun _ _ hv => memWf_abortTry hv)
      (memWf_ite (memWf_ite (memWf_rstDone (memWf_resetRecord h₂)) h₂) (memWf_ite h₁ (memWf_resetRecord (memWf_ite h₁ (memWf_draw h₁)))))
  exact memWf_ite (memWf_nextOnTile h₃) h₃

theorem memWf_tileResetStart {t : Nat} {fromDriver crcOk : Bool} (hw : s.memWf) : (s.tileResetStart t fromDriver crcOk).memWf := by
  unfold State.tileResetStart
  extract_lets s₁
  have h₁ : s₁.memWf := memWf_tileStop hw
  exact memWf_ite (memWf_tileResetEnd h₁) h₁

theorem memWf_orderTiles {scope : Nat} {l : List Nat} {crcOk : Bool} (hw : s.memWf) : (s.orderTiles scope l crcOk).memWf :=
  memWf_ite (memWf_rstRefuse hw) (memWf_ite (memWf_rstRefuse hw) (memWf_foldl (fun _ _ hv => memWf_tileResetStart hv) (memWf_update hw)))

theorem memWf_abortJob {n : Nat} {k : DescKey} (hw : s.memWf) : (s.abortJob n k).memWf := by
  unfold State.abortJob
  split
  · exact hw
  · exact memWf_foldl (fun _ _ hv => memWf_setTile hv (wf_scratch_update (wf_tile hv))) (memWf_setJob hw)

theorem memWf_resetBegin {n : Nat} {cause : BitVec 8} {driver holds : Bool} (hw : s.memWf) : (s.resetBegin n cause driver holds).memWf :=
  memWf_foldl (fun _ _ hv => memWf_abortJob hv) (memWf_pswChange (memWf_setPart (memWf_endRotation hw)))

theorem memWf_resetOrder {n : Nat} {cause : BitVec 8} {driver holds : Bool} (hw : s.memWf) : (s.resetOrder n cause driver holds).memWf := by
  unfold State.resetOrder
  extract_lets
  split
  · exact memWf_ite (memWf_rstDone (memWf_update hw)) hw
  · split
    · exact memWf_setPart hw
    · exact hw
  · exact memWf_ite (memWf_setPart hw) (memWf_resetBegin hw)

theorem memWf_orderParts {mask : Nat} (hw : s.memWf) : (s.orderParts mask).memWf :=
  memWf_ite (memWf_rstRefuse hw) (memWf_ite (memWf_rstRefuse hw)
    (memWf_ite (memWf_rstRefuse hw) (memWf_foldl (fun _ _ hv => memWf_resetOrder hv) (memWf_update hw))))

theorem memWf_prtRst {v : Nat} {crcOk : Bool} (hw : s.memWf) : (s.prtRst v crcOk).memWf := by
  unfold State.prtRst
  refine memWf_ite (memWf_update hw) ?_
  extract_lets s₁
  have h₁ : s₁.memWf := memWf_setReg hw
  split
  · refine memWf_ite (memWf_rstRefuse h₁) ?_
    split
    · exact memWf_rstRefuse h₁
    · exact memWf_orderTiles h₁
  · refine memWf_ite (memWf_rstRefuse h₁) ?_
    split
    · exact memWf_rstRefuse h₁
    · exact memWf_orderTiles h₁
  · exact memWf_orderParts h₁

theorem nextMemWf_execTileReset {t : TileNo} {fromDriver crcOk : Bool} (hw : s.memWf) : NextMemWf (execTileReset t fromDriver crcOk s) := by
  unfold execTileReset
  refine nextMemWf_next (memWf_ite ?_ (memWf_ite (memWf_tileResetStart hw) hw))
  split
  · exact memWf_ite (memWf_prtRst (memWf_barAccess hw)) hw
  · exact hw

theorem nextMemWf_execDrainLimit {t : TileNo} (hw : s.memWf) : NextMemWf (execDrainLimit t s) := by
  unfold execDrainLimit
  refine nextMemWf_next ?_
  split
  · exact hw
  · exact memWf_ite hw (memWf_tileResetEnd hw)

theorem memWf_sampleStep {n : Nat} (hw : s.memWf) : (s.sampleStep n).1.memWf :=
  memWf_fst_ite hw (memWf_pair (memWf_update hw))

theorem memWf_resetStop {n : Nat} (hw : s.memWf) : (s.resetStop n).memWf :=
  memWf_foldl (fun _ _ hv => memWf_setTile (memWf_tileStop hv) (wf_scratch_update (wf_tile (memWf_tileStop hv))))
    (memWf_foldl (fun _ _ hv => memWf_ite (memWf_memberFault hv) hv) (memWf_ite (memWf_rstDone (memWf_resetRecord (memWf_update hw))) hw))

theorem memWf_resetDrain {n : Nat} (hw : s.memWf) : (s.resetDrain n).memWf := by
  unfold State.resetDrain
  extract_lets s₁ _ _ s₂
  have h₁ : s₁.memWf := memWf_foldl (fun _ _ hv => memWf_setTile hv (wf_scratch_allOld (wf_tile hv))) hw
  have h₂ : s₂.memWf := by
    unfold s₂
    split
    · exact memWf_setPart h₁
    · exact h₁
  refine memWf_foldl ?_ (memWf_update h₂)
  intro _ _ hv
  split
  · exact memWf_noSlot hv
  · exact hv

theorem memWf_seamsBack {n : Nat} {l : List (Fin 24)} (hw : s.memWf) : (s.seamsBack n l).memWf :=
  memWf_modRouter hw

theorem memWf_resetClear {n : Nat} {r : ResetRun} {crcBad : List TileNo} {channelBad : Bool} {seamsOk : List (Fin 24)}
    (hw : s.memWf) : (s.resetClear n r crcBad channelBad seamsOk).memWf := by
  unfold State.resetClear
  extract_lets _ s₁ _ _ _ _ _ s₂
  have h₁ : s₁.memWf := by
    unfold s₁
    refine memWf_foldl ?_ (memWf_ite hw (memWf_cast (memWf_foldl (fun _ _ hv => memWf_putFirmware hv) hw)))
    intro _ _ hv
    extract_lets s₃
    have h₂ : s₃.memWf := memWf_clearTile hv
    exact memWf_setTile h₂ (wf_scratch_update (wf_tile h₂))
  have h₃ : s₂.memWf := memWf_setPart (memWf_foldl (fun _ _ hv => memWf_ite hv (memWf_dmaEnd hv))
      (memWf_setStack h₁ (wf_mem_update (wf_stack h₁))))
  exact memWf_setPart (memWf_ite (memWf_seamsBack h₃) h₃)

theorem memWf_resetRetire {n : Nat} {r : ResetRun} (hw : s.memWf) : (s.resetRetire n r).memWf := by
  unfold State.resetRetire
  extract_lets _ _ _ _ s₁
  have h₁ : s₁.memWf := memWf_setPart hw
  refine memWf_ite h₁ ?_
  split
  · exact memWf_setArm h₁
  · exact memWf_setPart h₁

theorem nextMemWf_execResetStep {n : PartNo} {crcBad : List TileNo} {channelBad : Bool} {seamsOk : List (Fin 24)} (hw : s.memWf) :
    NextMemWf (execResetStep n crcBad channelBad seamsOk s) := by
  unfold execResetStep
  extract_lets p next
  have hn {v : State} (hv : v.memWf) : (next v).memWf := by
    unfold next
    dsimp only
    generalize (v.part n.val).reset = o
    cases o with
    | none => exact hv
    | some r => exact memWf_setPart hv
  refine nextMemWf_next (memWf_ite hw ?_)
  clear_value next
  generalize p.reset = o
  cases o with
  | none =>
    dsimp only
    generalize p.resetsHeld = l
    cases l with
    | nil => exact hw
    | cons x l => exact memWf_ite hw (memWf_resetOrder (memWf_setPart hw))
  | some r =>
    dsimp only
    generalize r.step = k
    split
    · exact hn (memWf_resetStop hw)
    · exact hn (memWf_setPart (memWf_sampleStep hw))
    · exact hn (memWf_resetDrain hw)
    · exact hn (memWf_resetClear hw)
    · exact hn (memWf_resetRetire hw)
    · exact hw

theorem memWf_stampSample {slot : Option Nat} {seq : BitVec 32} (hw : s.memWf) : (s.stampSample slot seq).memWf := by
  unfold State.stampSample
  split
  · exact hw
  · split
    · exact hw
    · exact memWf_update hw

theorem memWf_startCycle {n : Nat} (hw : s.memWf) : (s.startCycle n).memWf :=
  memWf_foldl (fun _ _ hv => memWf_ite hv (memWf_setTile hv (wf_scratch_update (wf_tile hv)))) hw

theorem memWf_resetFinish {n : Nat} {r : ResetRun} (hw : s.memWf) : (s.resetFinish n r).memWf := by
  unfold State.resetFinish
  extract_lets _ _ _ _ s₁
  have h₁ : s₁.memWf := memWf_setPart (memWf_startCycle hw)
  exact memWf_rstDone (memWf_foldl (fun _ _ hv => memWf_abortTry hv)
      (memWf_update (memWf_stampSample (memWf_resetRecord (memWf_ite (memWf_pswChange h₁)
      (memWf_ite (memWf_pswChange h₁) (memWf_pswChange h₁)))))))

theorem nextMemWf_execPartitionResetDone {n : PartNo} (hw : s.memWf) : NextMemWf (execPartitionResetDone n s) := by
  unfold execPartitionResetDone
  refine nextMemWf_next ?_
  split
  · exact memWf_ite (memWf_resetFinish hw) hw
  · exact hw

theorem memWf_resetWhole {n : Nat} {cause : BitVec 8} (hw : s.memWf) : (s.resetWhole n cause).memWf := by
  rw [State.resetWhole]
  split
  rename_i e
  extract_lets s₃
  have h₃ : s₃.memWf := by
    refine memWf_resetDrain (memWf_of_fst e (memWf_sampleStep (memWf_resetStop ?_)))
    split
    · exact hw
    · exact memWf_resetBegin hw
  split
  · exact h₃
  · extract_lets s₄
    have h₄ : s₄.memWf := memWf_resetClear h₃
    split
    · exact h₄
    · extract_lets s₅
      have h₅ : s₅.memWf := memWf_resetRetire h₄
      split
      · exact h₅
      · exact memWf_resetFinish h₅

theorem memWf_writeRecon {w : Nat} (hw : s.memWf) : (s.writeRecon w).memWf := by
  unfold State.writeRecon
  extract_lets _ s₁
  have h₁ : s₁.memWf := memWf_setReg hw
  exact memWf_ite h₁ (memWf_ite (memWf_update h₁) (memWf_ite (memWf_update h₁)
      (memWf_ite (memWf_update h₁) (memWf_ite (memWf_update h₁)
      (memWf_ite (memWf_update h₁) (memWf_update (memWf_pswChange (memWf_setPart h₁))))))))

theorem memWf_writeSmpSel {v : Nat} (hw : s.memWf) : (s.writeSmpSel v).memWf := by
  unfold State.writeSmpSel
  extract_lets s₁
  have h₁ : s₁.memWf := memWf_setReg hw
  exact memWf_ite (memWf_update h₁) h₁

theorem memWf_writeTilErr {v : Nat} (hw : s.memWf) : (s.writeTilErr v).memWf :=
  memWf_ite (memWf_update hw) hw

/-! ### Machine/Thermal.lean -/

theorem memWf_hotCheck (hw : s.memWf) : s.hotCheck.memWf := by
  unfold State.hotCheck
  extract_lets _ _ _ _ _ s₁
  have h₁ : s₁.memWf := memWf_update hw
  exact memWf_ite (memWf_limitCheck (memWf_raise (memWf_update h₁))) h₁

theorem memWf_sensorFails {i : Nat} (hw : s.memWf) : (s.sensorFails i).memWf := by
  unfold State.sensorFails
  extract_lets _ s₁
  have h₁ : s₁.memWf := memWf_raise (memWf_report (memWf_update hw))
  exact memWf_ite (memWf_writeVerdict (memWf_setPart h₁)) h₁

theorem memWf_dieRead {i : Nat} {r : SensorRead} (hw : s.memWf) : (s.dieRead i r).memWf := by
  unfold State.dieRead
  refine memWf_ite hw ?_
  split
  · extract_lets _ _ s₁
    have h₁ : s₁.memWf := memWf_update hw
    exact memWf_ite h₁ (memWf_sensorFails h₁)
  · exact memWf_ite (memWf_sensorFails hw) (memWf_update hw)

theorem nextMemWf_execThermalSensorRead {reads : List SensorRead} (hw : s.memWf) : NextMemWf (execThermalSensorRead reads s) :=
  nextMemWf_ite nextMemWf_fault (nextMemWf_next (memWf_ite hw (memWf_hotCheck (memWf_foldl (fun _ _ hv => memWf_dieRead hv) hw))))

theorem nextMemWf_execStackTempRead {n : PartNo} {r : SensorRead} (hw : s.memWf) : NextMemWf (execStackTempRead n r s) := by
  unfold execStackTempRead
  extract_lets _ _ s₁
  have h₁ : s₁.memWf := memWf_setStack hw (wf_mem_update (wf_stack hw))
  refine nextMemWf_next (memWf_ite hw ?_)
  split
  · exact memWf_hotCheck (memWf_update (memWf_setStack hw (wf_mem_update (wf_stack hw))))
  · exact memWf_hotCheck (memWf_ite (memWf_report h₁) h₁)

theorem nextMemWf_execHotClear (hw : s.memWf) : NextMemWf (execHotClear s) := by
  unfold execHotClear
  refine nextMemWf_next ?_
  split
  · exact memWf_ite (memWf_limitCheck (memWf_update hw)) hw
  · exact hw

theorem nextMemWf_execInletAge (hw : s.memWf) : NextMemWf (execInletAge s) := by
  unfold execInletAge
  refine nextMemWf_next ?_
  split
  · exact hw
  · exact memWf_ite hw (memWf_report (memWf_update hw))

theorem memWf_ageDrop {n op m : Nat} (hw : s.memWf) : (s.ageDrop n op m).memWf :=
  memWf_ite hw (memWf_ite (memWf_ite hw (memWf_writeVerdict (memWf_setPart hw)))
    (memWf_opDrive (memWf_logErr (memWf_report (memWf_setPart hw)))))

theorem memWf_ageMeasure {n op : Nat} {slack : BitVec 6} (hw : s.memWf) : (s.ageMeasure n op slack).memWf := by
  unfold State.ageMeasure
  extract_lets _ _ _ s₁ _ _ s₂
  have h₁ : s₁.memWf := memWf_ite (memWf_draw hw) hw
  have h₂ : s₂.memWf := memWf_setPart h₁
  exact memWf_ite (memWf_setPart h₁) (memWf_ite (memWf_ageDrop (memWf_setPart h₁)) (memWf_ite (memWf_setVolt h₂) h₂))

theorem memWf_loadPatina {b : List Byte} (hw : s.memWf) : (s.loadPatina b).memWf := by
  unfold State.loadPatina
  refine memWf_ite (memWf_report hw) (memWf_foldl ?_ hw)
  intro _ _ hv
  split
  · exact memWf_setPart hv
  · exact memWf_report hv

/-! ### Machine/Rails.lean -/

theorem memWf_writeLost {id : Nat} (hw : s.memWf) : (s.writeLost id).memWf :=
  memWf_report (memWf_update hw)

theorem memWf_abandonWrites {drop : Nat → Bool} (hw : s.memWf) : (s.abandonWrites drop).memWf := by
  unfold State.abandonWrites
  extract_lets _ s₁
  have h₁ : s₁.memWf := by
    unfold s₁
    split
    · exact memWf_ite (memWf_update hw) hw
    · exact hw
  exact memWf_foldl (fun _ _ hv => memWf_writeLost hv) (memWf_update h₁)

theorem nextMemWf_execFlashWrite {ok : Bool} (hw : s.memWf) : NextMemWf (execFlashWrite ok s) := by
  unfold execFlashWrite
  refine nextMemWf_next ?_
  split
  · exact hw
  · exact memWf_ite hw (memWf_ite (memWf_raise (memWf_update hw)) (memWf_writeLost (memWf_update hw)))

theorem memWf_extend {idx v : Nat} (hw : s.memWf) : (s.extend idx v).memWf :=
  memWf_update hw

theorem memWf_setDebug {d : Debug} {scope : BitVec 3} (hw : s.memWf) : (s.setDebug d scope).memWf :=
  memWf_ite hw (memWf_extend (memWf_update hw))

theorem memWf_startDebug (hw : s.memWf) : s.startDebug.memWf :=
  memWf_setDebug hw

theorem memWf_coreReset {rails : Bool} (hw : s.memWf) : (s.coreReset rails).memWf :=
  memWf_update (memWf_noTiles (memWf_mapStacks (g := fun k => { Stack.fresh with
    mem := k.mem, keyOf := k.keyOf, poison := k.poison, badRows := k.badRows, watch := k.watch, suspects := k.suspects, selfRef := true })
    hw fun _ hk => hk))

theorem memWf_clearStores (hw : s.memWf) : s.clearStores.memWf :=
  memWf_update (memWf_setCcSram (m := []) (memWf_map
    (f := fun t => { t with scratch := [], upsets := [], tq := [], vq := [] })
    (g := fun k => { k with queue := [], banks := .replicate 2 .empty, streams := [] }) hw (fun _ _ => rfl) fun _ hk => hk) rfl)

theorem memWf_zeroize (hw : s.memWf) : s.zeroize.memWf := by
  unfold State.zeroize
  extract_lets _ _ s₁
  have h₁ : s₁.memWf := memWf_update (memWf_clearStores hw)
  split
  · exact memWf_pswChange (memWf_update h₁)
  · exact h₁

theorem memWf_lands {l : List String} {v : Bool} (hw : s.memWf) : (s.lands l v).memWf :=
  memWf_foldl (fun _ _ hv => memWf_emit hv) hw

theorem memWf_railsUp (hw : s.memWf) : s.railsUp.memWf :=
  memWf_update (memWf_foldl (fun _ _ hv => memWf_setVolt hv) (memWf_update (memWf_ite hw (memWf_lands hw))))

theorem memWf_loadMaq {b : List Byte} (hw : s.memWf) : (s.loadMaq b).memWf :=
  memWf_ite hw (memWf_foldl (fun _ _ hv => memWf_ite (memWf_setPort hv) hv) hw)

theorem memWf_reloadMaq (hw : s.memWf) : s.reloadMaq.memWf := by
  unfold State.reloadMaq
  extract_lets s₁
  have h₁ : s₁.memWf := memWf_update hw
  split
  · exact memWf_loadMaq h₁
  · exact h₁

theorem memWf_dropLands {f : Fall} (hw : s.memWf) : (s.dropLands f).memWf := by
  unfold State.dropLands
  extract_lets s₁
  have h₁ : s₁.memWf := memWf_ite (memWf_lands hw) hw
  split
  · exact memWf_lands h₁
  · exact memWf_lands h₁
  · exact h₁

theorem memWf_keepForSleep (hw : s.memWf) : s.keepForSleep.memWf :=
  memWf_update hw

theorem memWf_dropPending (hw : s.memWf) : s.dropPending.memWf := by
  unfold State.dropPending
  split
  · exact memWf_report (memWf_update hw)
  · exact hw

theorem memWf_stacksLost (hw : s.memWf) : s.stacksLost.memWf :=
  (memWf_iff _).2 ⟨((memWf_iff s).1 hw).1, fun _ he => (by cases he), ((memWf_iff s).1 hw).2.2⟩

theorem memWf_dropWatch (hw : s.memWf) : s.dropWatch.memWf :=
  memWf_update hw

theorem memWf_railsFall {f : Fall} (hw : s.memWf) : (s.railsFall f).memWf := by
  unfold State.railsFall
  extract_lets _ _ _ _ _ s₁ _ _ _ s₂ _ _ _ _ s₃ s₄
  have h₁ : s₁.memWf := memWf_dropLands (memWf_update (memWf_ite (memWf_update hw) hw))
  have h₂ : s₂.memWf := memWf_coreReset (memWf_ite (memWf_keepForSleep h₁) (memWf_update h₁))
  have h₃ : s₃.memWf := memWf_dropPending (memWf_update (memWf_ite h₂ (memWf_stacksLost h₂)))
  have h₄ : s₄.memWf := memWf_ite (memWf_reloadMaq (memWf_abandonWrites h₃)) h₃
  exact memWf_ite h₄ (memWf_dropWatch (memWf_startDebug h₄))

/-! ### Machine/Start.lean -/

theorem memWf_chooseBank {bad : BitVec 3} (hw : s.memWf) : (s.chooseBank bad).memWf := by
  unfold State.chooseBank
  extract_lets _ s₁
  have h₁ : s₁.memWf := by
    unfold s₁
    split
    · exact hw
    · exact memWf_ite (memWf_update hw) (memWf_report (memWf_update hw))
  exact memWf_update h₁

theorem memWf_measureStart (hw : s.memWf) : s.measureStart.memWf :=
  memWf_extend (memWf_extend (memWf_extend (memWf_foldl (fun _ _ hv => memWf_extend hv) hw)))

theorem memWf_beginStart {kind : Nat} (hw : s.memWf) : (s.beginStart kind).memWf :=
  memWf_update hw

theorem memWf_startFail {cause : Nat} {f : Fall} (hw : s.memWf) : (s.startFail cause f).memWf :=
  memWf_journal (memWf_update (memWf_railsFall hw))

theorem wf_mem_toSuspects {k : Stack} (hk : k.mem.wf) : k.toSuspects.mem.wf :=
  wf_mem_update hk

theorem memWf_packageReset (hw : s.memWf) : s.packageReset.memWf :=
  memWf_ite hw (memWf_ite (memWf_update hw) (memWf_update (memWf_beginStart (memWf_coreReset
    (memWf_update (memWf_mapStacks hw fun _ hk => wf_mem_toSuspects hk))))))

theorem memWf_wakeTry (hw : s.memWf) : s.wakeTry.memWf :=
  memWf_ite (memWf_beginStart hw) hw

theorem memWf_raiseWake {n : Nat} (hw : s.memWf) : (s.raiseWake n).memWf :=
  memWf_wakeTry (memWf_raise hw)

theorem memWf_belayWake (hw : s.memWf) : s.belayWake.memWf :=
  memWf_ite hw (memWf_update hw)

theorem memWf_enterPs3 (hw : s.memWf) : s.enterPs3.memWf :=
  memWf_wakeTry (memWf_railsFall (memWf_mapStacks (g := fun k => { k with selfRef := true })
    (memWf_foldl (fun _ _ hv => memWf_pswChange hv) (memWf_foldl (fun _ _ hv => memWf_endRotation hv) (memWf_update hw)))
    fun _ hk => hk))

theorem nextMemWf_execHintSleep {key : DescKey} (hw : s.memWf) : NextMemWf (execHintSleep key s) := by
  unfold execHintSleep
  refine nextMemWf_next ?_
  split
  · exact hw
  · split
    · exact memWf_enterPs3 (memWf_complete hw)
    · exact memWf_complete hw

theorem memWf_stepRecord {bad : BitVec 3} (hw : s.memWf) : (s.stepRecord bad).memWf :=
  memWf_ite hw (memWf_journal (memWf_update (memWf_startDebug (memWf_chooseBank hw))))

theorem memWf_nextStep (hw : s.memWf) : s.nextStep.memWf :=
  memWf_update hw

theorem memWf_step1 {rep : StepReport} (hw : s.memWf) : (s.step1 rep).memWf :=
  memWf_ite (memWf_ite (memWf_nextStep (memWf_measureStart hw))
    (memWf_nextStep (memWf_measureStart (memWf_startDebug (memWf_update hw)))))
    (memWf_ite (memWf_nextStep (memWf_measureStart hw)) (memWf_ite (memWf_stepRecord hw)
    (memWf_ite (memWf_nextStep (memWf_measureStart hw)) hw)))

theorem memWf_step3 (hw : s.memWf) : s.step3.memWf := by
  unfold State.step3
  extract_lets _ s₁ s₂
  have h₁ : s₁.memWf := memWf_update hw
  have h₂ : s₂.memWf := memWf_ite (memWf_layState h₁) h₁
  exact memWf_ite (memWf_alertEnter h₂) h₂

theorem memWf_clearPend (hw : s.memWf) : s.clearPend.memWf :=
  memWf_ite (memWf_update (memWf_clearStores hw)) hw

theorem memWf_newSystemKey (hw : s.memWf) : s.newSystemKey.memWf :=
  memWf_update hw

theorem memWf_restoreKeys {sealOk : Bool} (hw : s.memWf) : (s.restoreKeys sealOk).memWf := by
  unfold State.restoreKeys
  split
  · exact memWf_ite (memWf_update hw) (memWf_newSystemKey (memWf_report (memWf_update hw)))
  · exact memWf_newSystemKey hw

theorem memWf_restoreTenants (hw : s.memWf) : s.restoreTenants.memWf := by
  unfold State.restoreTenants
  split
  · exact memWf_foldl (fun _ _ hv => memWf_pswChange hv) (memWf_foldl (fun _ _ hv => memWf_update hv) hw)
  · exact hw

theorem memWf_readRows (hw : s.memWf) : s.readRows.memWf :=
  memWf_update hw

theorem memWf_loadRows (hw : s.memWf) : s.loadRows.memWf :=
  memWf_foldl (fun _ _ hv => memWf_ite hv (memWf_setStack hv (wf_mem_update (wf_stack hv)))) hw

theorem memWf_step6 {rep : StepReport} (hw : s.memWf) : (s.step6 rep).memWf := by
  unfold State.step6
  extract_lets s₁ s₂
  have h₁ : s₁.memWf := memWf_loadRows (memWf_restoreTenants (memWf_restoreKeys hw))
  have h₂ : s₂.memWf := by
    unfold s₂
    cases s₁.mgmt.record 2 with
    | none => exact h₁
    | some b => exact memWf_ite (memWf_topoSubmit h₁) h₁
  exact memWf_foldl (fun _ _ hv => memWf_ite (memWf_setPort hv) hv) h₂

theorem memWf_step7 {fail : List Nat} (hw : s.memWf) : (s.step7 fail).memWf :=
  memWf_update (memWf_foldl (fun _ _ hv => memWf_setStack hv (wf_mem_update (wf_stack hv))) hw)

theorem memWf_step8 (hw : s.memWf) : s.step8.memWf :=
  memWf_update hw

theorem memWf_step9 {rep : StepReport} (hw : s.memWf) : (s.step9 rep).memWf := by
  unfold State.step9
  extract_lets _ _ _ _ _ s₁
  have h₁ : s₁.memWf := memWf_foldl (fun _ _ hv => memWf_foldl (fun _ _ h₂ => memWf_ageMeasure h₂) hv) (memWf_modRouter (memWf_update hw))
  exact memWf_ite h₁ (memWf_journal h₁)

theorem memWf_leaveOff {n : Nat} (hw : s.memWf) : (s.leaveOff n).memWf := by
  unfold State.leaveOff
  extract_lets _ _ _ s₁ s₂ _ _ _ _ s₃
  have h₁ : s₁.memWf := memWf_setPart (memWf_writeVerdict hw)
  have h₂ : s₂.memWf := by
    unfold s₂
    split
    · exact memWf_setArm h₁
    · exact h₁
  have h₃ : s₃.memWf := memWf_startCycle (memWf_setPart (memWf_ite h₂
      (memWf_foldl (fun _ _ hv => memWf_setTile hv (wf_scratch_update (wf_tile hv))) h₂)))
  exact memWf_armPart (memWf_ite (memWf_pswChange h₃) (memWf_pswChange h₃))

theorem memWf_step11 (hw : s.memWf) : s.step11.memWf :=
  memWf_update hw

theorem memWf_causeReport {c : Nat} {detail : BitVec 32} (hw : s.memWf) : (s.causeReport c detail).memWf :=
  memWf_ite (memWf_report hw) (memWf_ite (memWf_report hw) hw)

theorem nextMemWf_execStartStep {rep : StepReport} (hw : s.memWf) : NextMemWf (execStartStep rep s) := by
  unfold execStartStep
  refine nextMemWf_next (memWf_ite hw ?_)
  split
  · exact memWf_startFail (memWf_causeReport hw)
  · split
    · exact memWf_step1 hw
    · exact memWf_nextStep (memWf_railsUp hw)
    · exact memWf_nextStep (memWf_step3 hw)
    · exact memWf_nextStep (memWf_clearPend hw)
    · exact memWf_nextStep (memWf_belayWake hw)
    · exact memWf_nextStep (memWf_step6 hw)
    · exact memWf_nextStep (memWf_step7 hw)
    · exact memWf_ite (memWf_nextStep (memWf_step8 hw)) hw
    · exact memWf_nextStep (memWf_step9 hw)
    · exact memWf_nextStep (memWf_step11 (memWf_foldl (fun _ _ hv => memWf_leaveOff hv) hw))

theorem nextMemWf_execStartStepTimeout {stks : List PartNo} (hw : s.memWf) : NextMemWf (execStartStepTimeout stks s) :=
  nextMemWf_next (memWf_ite hw (memWf_ite (memWf_nextStep (memWf_step7 hw))
    (memWf_ite (memWf_nextStep (memWf_step8 (memWf_update hw))) (memWf_startFail hw))))

/-! ### Machine/CleatOps.lean -/

theorem memWf_writeSource {n v : Nat} (hw : s.memWf) : (s.writeSource n v).memWf := by
  unfold State.writeSource
  extract_lets _ _ _ _ _ _ _ s₁
  have h₁ : s₁.memWf := memWf_update hw
  exact memWf_ite (memWf_raiseWake h₁) h₁

theorem memWf_claimOf {t : Nat} (hw : s.memWf) : (s.claimOf t).1.memWf := by
  unfold State.claimOf
  extract_lets _ normal₁
  have h₁ : normal₁.1.memWf := by
    unfold normal₁
    split
    · exact memWf_pair (memWf_update hw)
    · exact hw
  split
  · exact h₁
  · exact memWf_fst_ite (memWf_pair (memWf_draw (memWf_update hw))) (memWf_pair (memWf_draw h₁))

theorem memWf_claimRead {t : Nat} (hw : s.memWf) : (s.claimRead t).memWf := by
  unfold State.claimRead
  refine memWf_ite hw ?_
  split
  · rename_i e₁
    exact memWf_emit (memWf_update (memWf_of_fst e₁ (memWf_claimOf hw)))

theorem memWf_completeWrite {t : Nat} {src : BitVec 11} (hw : s.memWf) : (s.completeWrite t src).memWf :=
  memWf_ite hw (memWf_ite (memWf_update hw) (memWf_ite (memWf_update hw) hw))

theorem memWf_writeCleat {byHukirvo : Bool} {off v : Nat} (hw : s.memWf) : (s.writeCleat byHukirvo off v).memWf :=
  memWf_ite (memWf_ite (memWf_writeSource hw) (memWf_ite (memWf_raiseWake hw) hw))
    (memWf_ite (memWf_ite (memWf_update hw) hw) (memWf_ite (memWf_ite (memWf_update hw) hw) hw))

theorem memWf_cleatRead {off : Nat} {w : Width} (hw : s.memWf) : (s.cleatRead off w).memWf :=
  memWf_ite hw (memWf_ite (memWf_claimRead hw) (memWf_emit hw))

theorem memWf_cleatWrite {byHukirvo : Bool} {off : Nat} {w : Width} {v : Word} (hw : s.memWf) : (s.cleatWrite byHukirvo off w v).memWf := by
  unfold State.cleatWrite
  extract_lets
  split
  · exact hw
  · exact memWf_ite hw (memWf_ite (memWf_ite hw (memWf_completeWrite hw)) (memWf_ite hw (memWf_writeCleat hw)))

/-! ### Machine/Orders.lean -/

theorem nextMemWf_execMemoryTestDone {n : PartNo} {rows : List (Fin 64 × Fin 32 × Fin 24576)} (hw : s.memWf) : NextMemWf
    (execMemoryTestDone n rows s) := by
  unfold execMemoryTestDone
  refine nextMemWf_next (memWf_ite hw ?_)
  extract_lets
  split
  · extract_lets _ _ _ _ s₁
    have h₁ : s₁.memWf := memWf_update (memWf_setStack hw rfl)
    exact memWf_ite h₁ (memWf_journalRows h₁)

theorem memWf_heard {p : MgmtPath} (hw : s.memWf) : (s.heard p).memWf := by
  unfold State.heard
  split
  · exact memWf_update hw
  · exact hw

theorem memWf_readCmd {p : MgmtPath} {f : State → State × Nat × Nat × List Byte} (hw : s.memWf)
    (hf : ∀ (a : State), a.memWf → (f a).1.memWf) : (s.readCmd p f).memWf := by
  unfold State.readCmd
  refine memWf_ite hw ?_
  extract_lets s₁
  have h₁ : s₁.memWf := memWf_heard hw
  exact memWf_ite h₁ (memWf_emit (hf _ h₁))

theorem memWf_orderCmd {p : MgmtPath} {f : State → State × Nat × Nat × List Byte} (hw : s.memWf)
    (hf : ∀ (a : State), a.memWf → (f a).1.memWf) : (s.orderCmd p f).memWf :=
  memWf_readCmd hw (fun _ hv => memWf_fst_ite hv (hf _ hv))

theorem memWf_orderState {order : Nat} (hw : s.memWf) : (s.orderState order).1.memWf :=
  memWf_pair (memWf_report hw)

theorem memWf_powerOrder {order : Nat} {ok : Bool} {f : State → State × Nat × Nat × List Byte} (hw : s.memWf)
    (hf : ∀ (a : State), a.memWf → (f a).1.memWf) : (s.powerOrder order ok f).1.memWf :=
  memWf_fst_ite hw (memWf_fst_ite (memWf_orderState hw) (hf _ hw))

theorem nextMemWf_execOn {path : MgmtPath} (hw : s.memWf) : NextMemWf (execOn path s) :=
  nextMemWf_next (memWf_ite (memWf_emit (memWf_orderState (memWf_heard hw)))
    (memWf_orderCmd hw (fun _ hv => memWf_powerOrder hv (fun _ h₁ => memWf_pair (memWf_beginStart h₁)))))

theorem memWf_shutdownBegin (hw : s.memWf) : s.shutdownBegin.memWf :=
  memWf_update (memWf_foldl (fun _ _ hv => memWf_ite hv (memWf_resetWhole hv)) (memWf_update hw))

theorem nextMemWf_execOff {path : MgmtPath} (hw : s.memWf) : NextMemWf (execOff path s) :=
  nextMemWf_next (memWf_orderCmd (memWf_ite (memWf_refusedOrder hw) hw)
    (fun _ hv => memWf_powerOrder hv (fun _ h₁ => memWf_fst_ite (memWf_pair (memWf_shutdownBegin h₁)) (memWf_pair (memWf_railsFall h₁)))))

theorem nextMemWf_execSleep {path : MgmtPath} (hw : s.memWf) : NextMemWf (execSleep path s) :=
  nextMemWf_next (memWf_orderCmd hw (fun _ hv => memWf_powerOrder hv
    (fun _ h₁ => memWf_fst_ite (memWf_pair (memWf_enterPs3 h₁)) (memWf_pair (memWf_report h₁)))))

theorem memWf_tripRecord {sensor temp : Nat} (hw : s.memWf) : (s.tripRecord sensor temp).memWf :=
  memWf_update hw

theorem nextMemWf_execThermalTrip {sensor : Fin 76} {temp : Nat} (hw : s.memWf) : NextMemWf (execThermalTrip sensor temp s) :=
  nextMemWf_next (memWf_ite hw (memWf_ite (memWf_ite (memWf_update hw) hw)
    (memWf_ite hw (memWf_report (memWf_raise (memWf_tripRecord (memWf_ite (memWf_startFail hw) (memWf_railsFall hw))))))))

theorem nextMemWf_execTripRelease {path : MgmtPath} (hw : s.memWf) : NextMemWf (execTripRelease path s) := by
  unfold execTripRelease
  refine nextMemWf_next (memWf_orderCmd hw fun v hv => ?_)
  generalize 60 * fcPerS = k
  split
  · exact hv
  · split
    · exact memWf_report hv
    · exact memWf_lands (memWf_update hv)

theorem memWf_supplyFault {detail : Nat} (hw : s.memWf) : (s.supplyFault detail).memWf := by
  unfold State.supplyFault
  extract_lets s₁
  have h₁ : s₁.memWf := memWf_report hw
  exact memWf_ite (memWf_startFail h₁) (memWf_railsFall h₁)

theorem memWf_regTelemetry {r : Nat} {t : RegTelemetry} (hw : s.memWf) : (s.regTelemetry r t).memWf :=
  memWf_draw (memWf_update hw)

theorem nextMemWf_execRegulatorPoll {reg : Fin 6} {r : Option RegTelemetry} (hw : s.memWf) : NextMemWf (execRegulatorPoll reg r s) := by
  unfold execRegulatorPoll
  extract_lets _ _ _ s₁
  have h₁ : s₁.memWf := memWf_update hw
  refine nextMemWf_next (memWf_ite hw ?_)
  split
  · extract_lets _ s₂ s₃
    have h₂ : s₂.memWf := memWf_foldl (fun _ _ hv => memWf_ite (memWf_setPart hv) hv) (memWf_regTelemetry hw)
    have h₃ : s₃.memWf := memWf_ite (memWf_setRail h₂) h₂
    exact memWf_ite (memWf_supplyFault h₃) h₃
  · exact memWf_ite (memWf_report (memWf_foldl (fun _ _ hv => memWf_setPart hv) h₁)) h₁

theorem nextMemWf_execPciePerstN {level : Bool} (hw : s.memWf) : NextMemWf (execPciePerstN level s) := by
  unfold execPciePerstN
  extract_lets _ _ s₁
  have h₁ : s₁.memWf := memWf_update hw
  exact nextMemWf_next (memWf_ite h₁ (memWf_ite (memWf_raiseWake h₁) (memWf_ite (memWf_flrAll h₁) h₁)))

/-! ### Machine/Tenants.lean -/

theorem memWf_changeBegin {n : Nat} {t : BitVec 7} (hw : s.memWf) : (s.changeBegin n t).memWf :=
  memWf_update (memWf_foldl (fun _ _ hv => memWf_setTile hv (wf_scratch_update (wf_tile hv)))
    (memWf_cutStreams (memWf_foldl (fun _ _ hv => memWf_dissolve (memWf_endOpen hv)) hw)))

theorem memWf_tenAssign {v : Nat} (hw : s.memWf) : (s.tenAssign v).memWf := by
  unfold State.tenAssign
  extract_lets _ _ s₁
  have h₁ : s₁.memWf := memWf_setReg hw
  refine memWf_ite (memWf_update hw) (memWf_ite h₁ ?_)
  split
  · exact memWf_changeBegin h₁
  · exact memWf_update h₁

theorem wf_scratch_wiped {x : Tile} (hx : x.scratch.wf) : x.wiped.scratch.wf :=
  wf_clear _ _ _ hx

theorem nextMemWf_execTenantChangeDone (hw : s.memWf) : NextMemWf (execTenantChangeDone s) := by
  unfold execTenantChangeDone
  refine nextMemWf_next ?_
  split
  · exact hw
  · exact memWf_ite hw (memWf_foldl (fun _ _ hv => memWf_fence hv)
        (memWf_setPart (memWf_raise (memWf_update (memWf_pswChange
        (memWf_foldl (fun _ _ hv => memWf_setTile hv (wf_scratch_update
        (wf_scratch_ite (wf_tile hv) (wf_scratch_wiped (wf_tile hv))))) hw))))))

theorem memWf_writeWindow {t w v : Nat} (hw : s.memWf) : (s.writeWindow t w v).memWf := by
  unfold State.writeWindow
  extract_lets
  refine memWf_ite (memWf_ite hw (memWf_setReg hw)) (memWf_ite (memWf_setReg hw) ?_)
  split
  · exact memWf_setReg hw
  · exact memWf_setReg (memWf_update hw)

theorem memWf_setFab {t : Nat} {l : List FabKey} (hw : s.memWf) : (s.setFab t l).memWf :=
  memWf_update hw

theorem memWf_keyRun {op t id : Nat} (hw : s.memWf) : (s.keyRun op t id).memWf := by
  unfold State.keyRun
  split
  · exact memWf_update hw
  · exact memWf_update hw
  · exact memWf_setFab (memWf_update hw)
  · exact memWf_setFab hw

theorem memWf_keyCmd {v : Nat} {blob : HostRead} {gcmOk : Bool} (hw : s.memWf) : (s.keyCmd v blob gcmOk).memWf := by
  unfold State.keyCmd
  extract_lets s₁
  have h₁ : s₁.memWf := memWf_setReg hw
  refine memWf_ite h₁ ?_
  split
  · extract_lets _ s₂
    have h₂ : s₂.memWf := memWf_ite (memWf_emit h₁) h₁
    exact memWf_raise (memWf_update (memWf_ite (memWf_keyRun h₂) h₂))

theorem memWf_keyWrite {op : Nat} {v : Word} {blob : HostRead} {gcmOk : Bool} (hw : s.memWf) : (s.keyWrite op v blob gcmOk).memWf :=
  memWf_ite (memWf_keyCmd (memWf_barAccess hw)) hw

theorem memWf_fidCmd {path : Option MgmtPath} {f : State → State × Nat × Nat × List Byte} (hw : s.memWf)
    (hf : ∀ (a : State), a.memWf → (f a).1.memWf) : (s.fidCmd path f).memWf := by
  unfold State.fidCmd
  split
  · exact memWf_orderCmd hw (fun _ hv => hf _ hv)
  · exact memWf_ite hw (memWf_ite (hf _ hw) (memWf_emit (hf _ hw)))

theorem memWf_unlockPart {n : Nat} (hw : s.memWf) : (s.unlockPart n).memWf :=
  memWf_ite (memWf_pswChange hw) (memWf_foldl (fun _ _ hv => memWf_setTile hv (wf_scratch_update (wf_tile hv)))
    (memWf_pswChange (memWf_setPart (memWf_endRotation hw))))

theorem memWf_unlockJobs (hw : s.memWf) : s.unlockJobs.memWf :=
  memWf_foldl (fun _ _ hv => memWf_jobEnd hv) hw

theorem memWf_unlock {scope : BitVec 3} (hw : s.memWf) : (s.unlock scope).memWf :=
  memWf_update (memWf_raise (memWf_setDebug (memWf_update (memWf_zeroize
    (memWf_unlockJobs (memWf_foldl (fun _ _ hv => memWf_unlockPart hv) hw))))))

theorem memWf_tokenRefused (hw : s.memWf) : s.tokenRefused.1.memWf :=
  memWf_pair (memWf_draw (memWf_update hw))

theorem nextMemWf_execFidLoad {path : Option MgmtPath} {token : List Byte} {ok : Verdicts} (hw : s.memWf) : NextMemWf
    (execFidLoad path token ok s) := by
  unfold execFidLoad
  refine nextMemWf_next (memWf_fidCmd hw (fun _ hv => memWf_fst_ite hv (memWf_fst_ite hv (memWf_fst_ite (memWf_tokenRefused hv) ?_))))
  extract_lets _ _ s₁
  have h₁ : s₁.memWf := memWf_update hv
  exact memWf_fst_ite (memWf_pair (memWf_unlock h₁)) (memWf_tokenRefused h₁)

theorem nextMemWf_execBoundaryDrive (hw : s.memWf) : NextMemWf (execBoundaryDrive s) := by
  unfold execBoundaryDrive
  refine nextMemWf_next (memWf_ite hw ?_)
  extract_lets _ _ s₁
  have h₁ : s₁.memWf := memWf_update (memWf_zeroize hw)
  exact memWf_ite (memWf_update (memWf_coreReset h₁)) h₁

theorem nextMemWf_execSvnCommit {path : MgmtPath} (hw : s.memWf) : NextMemWf (execSvnCommit path s) := by
  unfold execSvnCommit
  refine nextMemWf_next (memWf_orderCmd hw ?_)
  intro _ hv
  extract_lets
  refine memWf_fst_ite (memWf_pair (memWf_report hv)) ?_
  split
  · exact memWf_pair (memWf_report hv)
  · exact memWf_pair (memWf_extend (memWf_update hv))

/-! ### Machine/Pldm.lean -/

theorem memWf_freeAnswer {n : Nat} (hw : s.memWf) : (s.freeAnswer n).1.memWf :=
  memWf_pair (memWf_draw hw)

theorem memWf_served {p : MgmtPath} {f : State → Answer} (hw : s.memWf) (hf : ∀ (a : State), a.memWf → (f a).1.memWf) :
    (s.served p f).memWf :=
  memWf_ite hw (memWf_emit (hf _ (memWf_heard hw)))

theorem nextMemWf_execSetEndpointId {path : MgmtPath} {eid : Byte} (hw : s.memWf) : NextMemWf (execSetEndpointId path eid s) := by
  unfold execSetEndpointId
  refine nextMemWf_next (memWf_served hw (fun _ hv => memWf_pair ?_))
  split
  · exact memWf_ite (memWf_update hv) (memWf_update hv)
  · exact memWf_update hv

theorem nextMemWf_execGetMeasurements {path : MgmtPath} {idx : Byte} {_nonce : List Byte} (hw : s.memWf) : NextMemWf
    (execGetMeasurements path idx _nonce s) :=
  nextMemWf_next (memWf_served hw (fun _ hv => memWf_fst_ite (memWf_pair (memWf_draw hv))
    (memWf_fst_ite (memWf_pair (memWf_draw hv)) (memWf_fst_ite (memWf_pair (memWf_draw hv)) hv))))

theorem memWf_endSession {n : BitVec 32} (hw : s.memWf) : (s.endSession n).memWf :=
  memWf_update hw

theorem nextMemWf_execFinish {path : MgmtPath} {session : BitVec 32} {ok : Bool} (hw : s.memWf) : NextMemWf
    (execFinish path session ok s) :=
  nextMemWf_next (memWf_served hw (fun _ hv => memWf_fst_ite hv
    (memWf_fst_ite (memWf_pair (memWf_update hv)) (memWf_pair (memWf_endSession hv)))))

theorem memWf_type2 {p : MgmtPath} {f : State → Answer} (hw : s.memWf) (hf : ∀ (a : State), a.memWf → (f a).1.memWf) :
    (s.type2 p f).memWf :=
  memWf_served hw (fun _ hv => memWf_fst_ite hv (hf _ hv))

theorem memWf_type2Tray {p : MgmtPath} {f : State → Answer} (hw : s.memWf) (hf : ∀ (a : State), a.memWf → (f a).1.memWf) :
    (s.type2Tray p f).memWf :=
  memWf_type2 hw (fun _ hv => memWf_fst_ite hv (hf _ hv))

theorem memWf_sensorAnswer {w : Nat} {a : Option (Option Nat)} (hw : s.memWf) : (sensorAnswer s w a).1.memWf := by
  unfold sensorAnswer
  split <;> exact hw

theorem nextMemWf_execSeteventreceiver {path : MgmtPath} {eid : Byte} (hw : s.memWf) : NextMemWf (execSeteventreceiver path eid s) :=
  nextMemWf_next (memWf_type2Tray hw (fun _ hv => memWf_pair (memWf_foldl (fun _ _ h₁ => memWf_emit h₁) (memWf_update hv))))

theorem nextMemWf_execPollforplatformeventmessage {path : MgmtPath} (hw : s.memWf) : NextMemWf
    (execPollforplatformeventmessage path s) := by
  unfold execPollforplatformeventmessage
  refine nextMemWf_next (memWf_type2 hw ?_)
  intro _ hv
  split
  · exact hv
  · exact memWf_pair (memWf_update hv)

theorem nextMemWf_execEffecterRackLimit {path : MgmtPath} {watts : BitVec 16} (hw : s.memWf) : NextMemWf
    (execEffecterRackLimit path watts s) := by
  unfold execEffecterRackLimit
  refine nextMemWf_next (memWf_type2Tray hw ?_)
  intro _ hv
  extract_lets _ s₁
  have h₁ : s₁.memWf := memWf_saveSettings (memWf_update hv)
  exact memWf_pair (memWf_ite (memWf_limitCheck h₁) h₁)

theorem nextMemWf_execEffecterInlet {path : MgmtPath} {temp : BitVec 10} (hw : s.memWf) : NextMemWf (execEffecterInlet path temp s) := by
  unfold execEffecterInlet
  refine nextMemWf_next (memWf_type2Tray hw ?_)
  intro _ hv
  extract_lets _ _ s₁
  have h₁ : s₁.memWf := memWf_saveSettings (memWf_update hv)
  exact memWf_pair (memWf_ite h₁ (memWf_report h₁))

theorem nextMemWf_execEffecterRackVerdict {path : MgmtPath} {n : PartNo} {v : Byte} (hw : s.memWf) : NextMemWf
    (execEffecterRackVerdict path n v s) :=
  nextMemWf_next (memWf_type2Tray (memWf_ite (memWf_refusedOrder hw) hw)
    (fun _ hv => memWf_fst_ite hv (memWf_pair (memWf_writeVerdict (memWf_journal (memWf_setPart hv))))))

/-! ### Machine/Denxon.lean -/

theorem memWf_fieldBad {off : Nat} (hw : s.memWf) : (fieldBad s off).1.memWf :=
  hw

theorem nextMemWf_execReadRecord {path : MgmtPath} {rec_ : Byte} {off : BitVec 32} (hw : s.memWf) : NextMemWf
    (execReadRecord path rec_ off s) := by
  unfold execReadRecord
  refine nextMemWf_next (memWf_readCmd hw ?_)
  intro _ hv
  extract_lets
  refine memWf_fst_ite (memWf_fieldBad hv) ?_
  split
  · exact hv
  · exact memWf_fst_ite (memWf_freeAnswer hv) hv

theorem nextMemWf_execRackLimit {path : MgmtPath} {watts : BitVec 16} {lt : Word} (hw : s.memWf) : NextMemWf
    (execRackLimit path watts lt s) := by
  unfold execRackLimit
  refine nextMemWf_next (memWf_orderCmd hw (fun _ hv => memWf_fst_ite hv (memWf_fst_ite ?_ (memWf_pair (memWf_update hv)))))
  extract_lets _ s₁
  have h₁ : s₁.memWf := memWf_saveSettings (memWf_update hv)
  exact memWf_pair (memWf_ite (memWf_limitCheck h₁) h₁)

theorem memWf_submitTopo {r : List Byte} (hw : s.memWf) : (s.submitTopo r).1.memWf := by
  unfold State.submitTopo
  extract_lets _ s₁
  have h₁ : s₁.memWf := memWf_topoSubmit hw
  exact memWf_fst_ite (memWf_fst_ite (memWf_pair (memWf_journal h₁)) h₁)
      (memWf_fst_ite (memWf_pair (memWf_journal hw)) (memWf_pair (memWf_report hw)))

theorem nextMemWf_execTopologyWrite {path : MgmtPath} {off : BitVec 16} {last : Byte} {bytes : List Byte} (hw : s.memWf) : NextMemWf
    (execTopologyWrite path off last bytes s) := by
  unfold execTopologyWrite
  refine nextMemWf_next (memWf_orderCmd hw ?_)
  intro _ hv
  extract_lets _ _ _ s₁
  have h₁ : s₁.memWf := memWf_draw hv
  exact memWf_fst_ite (memWf_fieldBad hv) (memWf_fst_ite (memWf_fieldBad hv)
      (memWf_fst_ite (memWf_fieldBad hv) (memWf_fst_ite (memWf_submitTopo (memWf_update h₁)) (memWf_pair (memWf_update h₁)))))

theorem nextMemWf_execTopologyPartTimeout (hw : s.memWf) : NextMemWf (execTopologyPartTimeout s) := by
  unfold execTopologyPartTimeout
  refine nextMemWf_next ?_
  split
  · exact memWf_ite (memWf_update hw) hw
  · exact hw

theorem nextMemWf_execLayRole {path : MgmtPath} {role : Byte} (hw : s.memWf) : NextMemWf (execLayRole path role s) :=
  nextMemWf_next (memWf_orderCmd hw (fun _ hv => memWf_fst_ite (memWf_fieldBad hv) (memWf_pair (memWf_saveSettings (memWf_update hv)))))

theorem nextMemWf_execWindowArm {path : MgmtPath} {mask : BitVec 32} {ltStart ltEnd : Word} (hw : s.memWf) : NextMemWf
    (execWindowArm path mask ltStart ltEnd s) := by
  unfold execWindowArm
  refine nextMemWf_next (memWf_orderCmd hw (fun _ hv => memWf_fst_ite hv (memWf_fst_ite (memWf_pair (memWf_report hv)) ?_)))
  split
  · rename_i e₁
    exact memWf_pair (memWf_foldl (fun _ _ h₁ => memWf_setPort h₁) (memWf_of_fst e₁ (memWf_armPkg hv)))
  · rename_i e₂
    exact memWf_of_fst e₂ (memWf_armPkg hv)

theorem nextMemWf_execSampleArm {path : MgmtPath} {buf : Byte} {lt : Word} (hw : s.memWf) : NextMemWf (execSampleArm path buf lt s) := by
  unfold execSampleArm
  refine nextMemWf_next (memWf_orderCmd hw ?_)
  intro _ hv
  extract_lets
  refine memWf_fst_ite (memWf_fieldBad hv) (memWf_fst_ite hv (memWf_fst_ite (memWf_pair (memWf_update (memWf_update hv))) ?_))
  split
  · rename_i e₁
    exact memWf_pair (memWf_update (memWf_of_fst e₁ (memWf_armPkg hv)))
  · rename_i e₂
    exact memWf_of_fst e₂ (memWf_armPkg hv)

theorem nextMemWf_execBmcPresenceTimeout (hw : s.memWf) : NextMemWf (execBmcPresenceTimeout s) := by
  unfold execBmcPresenceTimeout
  refine nextMemWf_next ?_
  split
  · exact memWf_ite (memWf_update hw) hw
  · exact hw

/-! ### Machine/Firmware.lean -/

theorem memWf_type5 {p : MgmtPath} {f : State → Answer} (hw : s.memWf) (hf : ∀ (a : State), a.memWf → (f a).1.memWf) :
    (s.type5 p f).memWf :=
  memWf_served hw (fun _ hv => memWf_fst_ite hv (hf _ (memWf_update hv)))

theorem memWf_inUpdate {p : MgmtPath} {f : State → FwUpdate → Answer} (hw : s.memWf)
    (hf : ∀ (a : State) (a_1 : FwUpdate), a.memWf → (f a a_1).1.memWf) : (s.inUpdate p f).memWf := by
  unfold State.inUpdate
  refine memWf_type5 hw ?_
  intro _ hv
  split
  · exact hv
  · exact hf _ _ hv

theorem memWf_setUpdate {u : FwUpdate} (hw : s.memWf) : (s.setUpdate u).memWf :=
  memWf_update hw

theorem memWf_pull {u : FwUpdate} (hw : s.memWf) : (s.pull u).memWf := by
  unfold State.pull
  split
  · exact hw
  · exact memWf_ite hw (memWf_emit hw)

theorem nextMemWf_execUpdatecomponent {path : MgmtPath} {comp : BitVec 16} {size : Nat} (hw : s.memWf) : NextMemWf
    (execUpdatecomponent path comp size s) :=
  nextMemWf_next (memWf_inUpdate hw (fun _ _ hv => memWf_fst_ite hv
    (memWf_fst_ite hv (memWf_pair (memWf_pull (memWf_setUpdate (memWf_update hv)))))))

theorem nextMemWf_execRequestfirmwaredata {path : MgmtPath} {off : Nat} {bytes : List Byte} (hw : s.memWf) : NextMemWf
    (execRequestfirmwaredata path off bytes s) := by
  unfold execRequestfirmwaredata
  refine nextMemWf_next (memWf_inUpdate hw ?_)
  intro _ _ hv
  split
  · exact hv
  · exact memWf_fst_ite hv (memWf_fst_ite hv (memWf_pair (memWf_pull (memWf_setUpdate hv))))

theorem nextMemWf_execTransfercomplete {path : MgmtPath} {ok : Bool} (hw : s.memWf) : NextMemWf (execTransfercomplete path ok s) := by
  unfold execTransfercomplete
  refine nextMemWf_next (memWf_inUpdate hw ?_)
  intro _ _ hv
  split
  · exact hv
  · exact memWf_fst_ite hv (memWf_fst_ite (memWf_pair (memWf_setUpdate hv)) (memWf_pair (memWf_setUpdate hv)))

theorem nextMemWf_execVerifycomplete {path : MgmtPath} {ok : Verdicts} (hw : s.memWf) : NextMemWf (execVerifycomplete path ok s) := by
  unfold execVerifycomplete
  refine nextMemWf_next (memWf_inUpdate hw ?_)
  intro _ _ hv
  split
  · exact hv
  · exact memWf_fst_ite hv (memWf_fst_ite (memWf_pair (memWf_setUpdate hv)) (memWf_pair (memWf_setUpdate hv)))

theorem nextMemWf_execApplycomplete {path : MgmtPath} {ok : Bool} (hw : s.memWf) : NextMemWf (execApplycomplete path ok s) := by
  unfold execApplycomplete
  refine nextMemWf_next (memWf_inUpdate hw ?_)
  intro _ _ hv
  split
  · exact hv
  · exact memWf_fst_ite hv (memWf_fst_ite (memWf_pair (memWf_setUpdate (memWf_update hv))) (memWf_pair (memWf_setUpdate hv)))

theorem nextMemWf_execActivatefirmware {path : MgmtPath} {selfContained copyOk : Bool} (hw : s.memWf) : NextMemWf
    (execActivatefirmware path selfContained copyOk s) :=
  nextMemWf_next (memWf_inUpdate hw (fun _ _ hv => memWf_fst_ite hv
    (memWf_fst_ite hv (memWf_fst_ite hv (memWf_fst_ite hv (memWf_pair (memWf_update hv)))))))

theorem memWf_cancelUpdate (hw : s.memWf) : s.cancelUpdate.memWf :=
  memWf_update hw

theorem nextMemWf_execUpdateIdleTimeout (hw : s.memWf) : NextMemWf (execUpdateIdleTimeout s) := by
  unfold execUpdateIdleTimeout
  refine nextMemWf_next ?_
  split
  · exact memWf_ite (memWf_cancelUpdate hw) hw
  · exact hw

/-! ### Machine/Plinth.lean -/

theorem memWf_afterLoss {standby : Bool} : (s.afterLoss standby).memWf :=
  (memWf_iff _).2 ⟨fun _ he => (by cases he), fun _ he => (by cases he), rfl⟩

theorem memWf_loadSettings {b : List Byte} (hw : s.memWf) : (s.loadSettings b).memWf :=
  memWf_ite hw (memWf_update hw)

theorem memWf_loadDrops (hw : s.memWf) : s.loadDrops.memWf :=
  memWf_foldl (fun _ _ hv => memWf_ite (memWf_setPart hv) hv) hw

theorem memWf_loadVerdicts {b : List Byte} (hw : s.memWf) : (s.loadVerdicts b).memWf :=
  memWf_foldl (fun _ _ hv => memWf_ite (memWf_setPart hv) hv) hw

theorem memWf_load {id : Nat} {f : State → List Byte → State} (hw : s.memWf)
    (hf : ∀ (a : State) (a_1 : List Byte), a.memWf → (f a a_1).memWf) : (s.load id f).memWf := by
  unfold State.load
  split
  · exact hf _ _ hw
  · exact hw

theorem nextMemWf_execStandbyPowerOn {romOk : Bool} {stagedBad : BitVec 3} (hw : s.memWf) : NextMemWf
    (execStandbyPowerOn romOk stagedBad s) :=
  nextMemWf_next (memWf_ite hw (memWf_readRows (memWf_load (memWf_loadDrops
    (memWf_load (memWf_load (memWf_load (memWf_extend (memWf_extend
    (memWf_extend (memWf_ite (memWf_chooseBank memWf_afterLoss) (memWf_update memWf_afterLoss)))))
    (fun _ _ hv => memWf_loadSettings hv)) (fun _ _ hv => memWf_loadMaq hv)) (fun _ _ hv => memWf_loadPatina hv)))
    (fun _ _ hv => memWf_loadVerdicts hv))))

/-! ### Machine/Setup.lean -/

theorem memWf_accessFault {off : Nat} (hw : s.memWf) : (s.accessFault off).memWf :=
  memWf_update (memWf_hifSet (memWf_barAccess hw))

theorem nextMemWf_execSetupRead {a : BarAddr} {w : Width} (hw : s.memWf) : NextMemWf (execSetupRead a w s) := by
  unfold execSetupRead
  extract_lets
  refine nextMemWf_next ?_
  split
  · exact memWf_ite (memWf_cleatRead hw) hw
  · refine memWf_ite hw ?_
    split
    · exact hw
    · exact memWf_emit hw
    · exact memWf_emit hw
    · refine memWf_ite (memWf_emit (memWf_accessFault hw)) ?_
      split
      · extract_lets s₁
        have h₁ : s₁.memWf := memWf_update hw
        exact memWf_emit (memWf_ite (memWf_draw h₁) h₁)

theorem memWf_writePlain {off v : Nat} (hw : s.memWf) : (s.writePlain off v).memWf := by
  unfold State.writePlain
  split
  · exact memWf_ite hw (memWf_setReg hw)
  · exact hw

theorem memWf_writePrtRst {v : Nat} (hw : s.memWf) : (s.writePrtRst v).memWf :=
  memWf_ite (memWf_setReg hw) (memWf_ite (memWf_prtRst hw) (memWf_ite (memWf_packageReset hw) (memWf_prtRst hw)))

theorem memWf_writeKeyCmd {v : Nat} (hw : s.memWf) : (s.writeKeyCmd v).memWf :=
  memWf_ite hw (memWf_keyCmd hw)

theorem memWf_writeHifRng {off v : Nat} (hw : s.memWf) : (s.writeHifRng off v).memWf := by
  unfold State.writeHifRng
  refine memWf_ite (memWf_writeHifCtl hw) (memWf_ite (memWf_update hw) ?_)
  split
  · exact memWf_ite hw (memWf_setReg hw)
  · exact memWf_writeDblCtl hw
  · exact memWf_ite hw (memWf_setReg hw)
  · exact memWf_ite hw (memWf_writeRngCfg hw)
  · exact hw

theorem memWf_writeRest {off v : Nat} (hw : s.memWf) : (s.writeRest off v).memWf := by
  unfold State.writeRest
  split
  · exact memWf_tenAssign hw
  · exact memWf_writePrtRst hw
  · exact memWf_writeSmpSel hw
  · exact memWf_writeRecon hw
  · exact memWf_writeTilErr hw
  · exact memWf_writeKeyCmd hw
  · refine memWf_ite (memWf_writeWindow hw) ?_
    split
    · exact memWf_writeLnkCtl hw
    · exact memWf_writePause hw
    · exact memWf_writePlain hw

theorem nextMemWf_execSetupWrite {a : BarAddr} {w : Width} {v : Word} (hw : s.memWf) : NextMemWf (execSetupWrite a w v s) := by
  unfold execSetupWrite
  extract_lets _ s₁
  have h₁ : s₁.memWf := memWf_barAccess hw
  refine nextMemWf_next ?_
  split
  · exact memWf_ite (memWf_cleatWrite hw) hw
  · refine memWf_ite hw ?_
    split
    · exact hw
    · exact memWf_hifSet hw
    · split
      · exact memWf_writeMsix hw
      · exact hw
    · exact memWf_ite (memWf_accessFault hw) (memWf_ite (memWf_writeHifRng h₁) (memWf_writeRest h₁))

/-! ### Machine/TileScalar.lean -/

theorem memWf_runRRR {t : TileNo} {rd rs1 rs2 : Reg} {f : Word → Word → Word} (hw : s.memWf) : NextMemWf (s.runRRR t rd rs1 rs2 f) :=
  nextMemWf_next (memWf_runReg hw)

theorem memWf_runRR {t : TileNo} {rd rs1 : Reg} {f : Word → Word} (hw : s.memWf) : NextMemWf (s.runRR t rd rs1 f) :=
  nextMemWf_next (memWf_runReg hw)

theorem memWf_runDiv {t : TileNo} {rd rs1 rs2 : Reg} {f : Word → Word → Word} (hw : s.memWf) : NextMemWf (s.runDiv t rd rs1 rs2 f) :=
  nextMemWf_next (memWf_runInstr (fun _ _ => IRes.memWf_ite hw (memWf_writeReg hw)) hw)

theorem nextMemWf_execShi {t : TileNo} {rd rs1 : Reg} {imm : BitVec 16} (hw : s.memWf) : NextMemWf (execShi t rd rs1 imm s) := by
  unfold execShi
  refine nextMemWf_next (memWf_runInstr ?_ hw)
  intro _ _
  split
  · exact memWf_writeReg hw
  · exact hw

/-! ### Every command -/

/-- Every command keeps the canonical form of every memory. -/
theorem nextMemWf_exec (c : Instr) (hw : s.memWf) : NextMemWf (exec c s) := by
  unfold exec
  cases c with
  | add => exact memWf_runRRR hw
  | sub => exact memWf_runRRR hw
  | and => exact memWf_runRRR hw
  | or => exact memWf_runRRR hw
  | xor => exact memWf_runRRR hw
  | shl => exact memWf_runRRR hw
  | shr => exact memWf_runRRR hw
  | sar => exact memWf_runRRR hw
  | cmpeq => exact memWf_runRRR hw
  | cmplt => exact memWf_runRRR hw
  | cmpltu => exact memWf_runRRR hw
  | mul => exact memWf_runRRR hw
  | mulh => exact memWf_runRRR hw
  | mulhu => exact memWf_runRRR hw
  | div => exact memWf_runDiv hw
  | divu => exact memWf_runDiv hw
  | rem => exact memWf_runDiv hw
  | remu => exact memWf_runDiv hw
  | popc => exact memWf_runRR hw
  | clz => exact memWf_runRR hw
  | ctz => exact memWf_runRR hw
  | addi => exact memWf_runRR hw
  | andi => exact memWf_runRR hw
  | ori => exact memWf_runRR hw
  | xori => exact memWf_runRR hw
  | shi => exact nextMemWf_execShi hw
  | lui => exact nextMemWf_next (memWf_runReg hw)
  | ldd => exact memWf_runLoad hw
  | ldw => exact memWf_runLoad hw
  | ldh => exact memWf_runLoad hw
  | ldb => exact memWf_runLoad hw
  | std => exact memWf_runStore hw
  | stw => exact memWf_runStore hw
  | sth => exact memWf_runStore hw
  | stb => exact memWf_runStore hw
  | br => exact nextMemWf_execBr hw
  | call => exact nextMemWf_next (memWf_runInstr (fun _ hv => memWf_windowCall hw hv) hw)
  | callr => exact nextMemWf_next (memWf_runInstr (fun _ hv => memWf_windowCall hw hv) hw)
  | ret => exact nextMemWf_execRet hw
  | jmpl => exact nextMemWf_next (memWf_runInstr (fun _ _ => memWf_writeReg hw) hw)
  | xret => exact nextMemWf_execXret hw
  | crr => exact nextMemWf_next (memWf_runInstr (fun _ _ => IRes.memWf_ite hw (memWf_writeReg hw)) hw)
  | crw => exact nextMemWf_next (memWf_runInstr (fun _ hv => IRes.memWf_ite hw (memWf_setTile hw (wf_scratch_ctlWrite hv))) hw)
  | trapi => exact nextMemWf_next (memWf_runInstr (fun _ hv => IRes.memWf_ite (memWf_phaseCall hw hv) (memWf_fwCall hw hv)) hw)
  | phaseReleaseArm => exact nextMemWf_next (memWf_runInstr (fun _ hv => memWf_phaseCall hw hv) hw)
  | brk => exact nextMemWf_next (memWf_ite (memWf_runInstr (fun _ _ => hw) hw) (memWf_ite hw (memWf_runInstr (fun _ _ => hw) hw)))
  | done => exact nextMemWf_next (memWf_runInstr (fun _ hv => memWf_settle (memWf_setTile hw (wf_scratch_update hv))) hw)
  | halt => exact nextMemWf_execHalt hw
  | spill => exact nextMemWf_execSpill hw
  | fill => exact nextMemWf_execFill hw
  | atomSwap => exact memWf_runAtom hw
  | atomAdd => exact memWf_runAtom hw
  | atomCas => exact memWf_runAtom hw
  | atomMax => exact memWf_runAtom hw
  | atomMin => exact memWf_runAtom hw
  | gld => exact nextMemWf_next (memWf_runInstr (fun _ _ => memWf_readAccess hw) hw)
  | gst => exact nextMemWf_execGst hw
  | dmaGo => exact nextMemWf_execDmaGo hw
  | dmaWait => exact nextMemWf_execDmaWait hw
  | dmaTest => exact nextMemWf_execDmaTest hw
  | fence => exact nextMemWf_next (memWf_runInstr (fun _ hv => memWf_settle (memWf_setTile hw (wf_scratch_update hv))) hw)
  | waitvEq => exact memWf_runWaitv hw
  | waitvGe => exact memWf_runWaitv hw
  | bar => exact nextMemWf_next (memWf_runInstr (fun _ hv => memWf_setTile hw (wf_scratch_update hv)) hw)
  | twait => exact nextMemWf_next (memWf_runInstr (fun _ hv => memWf_settle (memWf_setTile hw (wf_scratch_update hv))) hw)
  | vwait => exact nextMemWf_next (memWf_runInstr (fun _ hv => memWf_settle (memWf_setTile hw (wf_scratch_update hv))) hw)
  | layr => exact nextMemWf_next (memWf_runReg hw)
  | layw => exact nextMemWf_execLayw hw
  | waitvWake => exact nextMemWf_execWaitvWake hw
  | waitvTimeout => exact nextMemWf_execWaitvTimeout hw
  | barRelease => exact nextMemWf_execBarRelease hw
  | laywWake => exact nextMemWf_execLaywWake hw
  | tileFaultJobEnd => exact nextMemWf_execTileFaultJobEnd hw
  | scratchpadScrub => exact nextMemWf_execScratchpadScrub hw
  | dmaComplete => exact nextMemWf_execDmaComplete hw
  | retryResend => exact nextMemWf_execRetryResend hw
  | tilePortInbound => exact nextMemWf_execTilePortInbound hw
  | tmm => exact memWf_issueT hw
  | tmmAg => exact memWf_issueT hw
  | tanc => exact memWf_issueT hw
  | chargeRequest => exact nextMemWf_execChargeRequest hw
  | tensorStart => exact nextMemWf_execTensorStart hw
  | halfRateStart => exact nextMemWf_execHalfRateStart hw
  | tensorFinish => exact nextMemWf_execTensorFinish hw
  | vadd => exact memWf_issueV hw
  | vsub => exact memWf_issueV hw
  | vmul => exact memWf_issueV hw
  | vfma => exact memWf_issueV hw
  | vmax => exact memWf_issueV hw
  | vmin => exact memWf_issueV hw
  | vscl => exact memWf_issueV hw
  | vexp => exact memWf_issueV hw
  | vrcp => exact memWf_issueV hw
  | vrsq => exact memWf_issueV hw
  | vrsum => exact memWf_issueV hw
  | vrmax => exact memWf_issueV hw
  | vsmax => exact memWf_issueV hw
  | vrmsn => exact memWf_issueV hw
  | vcvt => exact memWf_issueV hw
  | vbse => exact memWf_issueV hw
  | vbsd => exact memWf_issueV hw
  | vwsanc => exact memWf_issueV hw
  | vwsenc => exact memWf_issueV hw
  | vwsaln => exact memWf_issueV hw
  | vwsadd => exact memWf_issueV hw
  | vwsrnd => exact memWf_issueV hw
  | vwsamx => exact memWf_issueV hw
  | vectorFinish => exact nextMemWf_execVectorFinish hw
  | tmmxRs => exact memWf_issueT hw
  | tmmxAr => exact memWf_issueT hw
  | tmmxAg => exact memWf_issueT hw
  | tmmxA2a => exact memWf_issueT hw
  | fusedFinish => exact nextMemWf_execFusedFinish hw
  | fusedTimeout => exact nextMemWf_execFusedTimeout hw
  | slotReq => exact nextMemWf_execSlotReq hw
  | grant => exact nextMemWf_execGrant hw
  | chunk => exact nextMemWf_next (memWf_ite (memWf_chunkArrives hw) hw)
  | checked => exact nextMemWf_execChecked hw
  | resend => exact nextMemWf_execResend hw
  | abort => exact nextMemWf_execAbort hw
  | slotTimeout => exact nextMemWf_execSlotTimeout hw
  | stackRequest => exact nextMemWf_execStackRequest hw
  | stackAccess => exact nextMemWf_execStackAccess hw
  | rowRemap => exact nextMemWf_next (memWf_ite (memWf_remapRow hw) hw)
  | patrolScrub => exact nextMemWf_execPatrolScrub hw
  | refresh => exact nextMemWf_next (memWf_ite hw (memWf_setStack hw (wf_mem_update (wf_stack hw))))
  | stackTempRead => exact nextMemWf_execStackTempRead hw
  | selfRefreshExit => exact nextMemWf_next (memWf_ite (memWf_setStack hw (wf_mem_update (wf_stack hw))) hw)
  | selfRefreshEntry => exact nextMemWf_next (memWf_ite (memWf_setStack hw (wf_mem_update (wf_stack hw))) hw)
  | expand => exact nextMemWf_execExpand hw
  | load => exact nextMemWf_execLoad hw
  | streamEnd => exact nextMemWf_execStreamEnd hw
  | seamResend => exact nextMemWf_execSeamResend hw
  | rotation => exact nextMemWf_execRotation hw
  | drainMarker => exact nextMemWf_execDrainMarker hw
  | rotationCopyDone => exact nextMemWf_execRotationCopyDone hw
  | rotationRelease => exact nextMemWf_execRotationRelease hw
  | rotationAbandon => exact nextMemWf_execRotationAbandon hw
  | firmwareBroadcast => exact nextMemWf_execFirmwareBroadcast hw
  | firmwareCrcCheck => exact nextMemWf_execFirmwareCrcCheck hw
  | setupWrite => exact nextMemWf_execSetupWrite hw
  | vfWrite => exact nextMemWf_next (memWf_ite (memWf_hifSet hw) hw)
  | setupLock => exact nextMemWf_next (memWf_ite (memWf_writeHifCtl (memWf_barAccess hw)) hw)
  | fetchEn => exact nextMemWf_next (memWf_ite (memWf_writeHifCtl (memWf_barAccess hw)) hw)
  | ringEnable => exact nextMemWf_execRingEnable hw
  | ringDisable => exact nextMemWf_next (memWf_ite hw (memWf_writeRngCfg (memWf_barAccess hw)))
  | doorbellLineEnable => exact nextMemWf_next (memWf_ite (memWf_writeDblCtl (memWf_barAccess hw)) hw)
  | windowEnable => exact nextMemWf_next (memWf_ite (memWf_writeWindow (memWf_barAccess hw)) hw)
  | pfFlr => exact nextMemWf_next (memWf_ite (memWf_flrAll (memWf_raise hw)) hw)
  | vfFlr => exact nextMemWf_execVfFlr hw
  | snoopInvalidation => exact nextMemWf_execSnoopInvalidation hw
  | doorbellRead => exact nextMemWf_execDoorbellRead hw
  | doorbellPoll => exact nextMemWf_execDoorbellPoll hw
  | descriptorFetch => exact nextMemWf_execDescriptorFetch hw
  | jobLaunch => exact nextMemWf_execJobLaunch hw
  | dma => exact nextMemWf_execDma hw
  | hostDmaComplete => exact nextMemWf_execHostDmaComplete hw
  | teamForm => exact nextMemWf_execTeamForm hw
  | teamDissolve => exact nextMemWf_execTeamDissolve hw
  | circuitSetUp => exact nextMemWf_execCircuitSetUp hw
  | circuitTearDown => exact nextMemWf_execCircuitTearDown hw
  | layScheduledEvent => exact nextMemWf_execLayScheduledEvent hw
  | hintWindow => exact nextMemWf_execHintWindow hw
  | hintHostLimit => exact nextMemWf_execHintHostLimit hw
  | hintSleep => exact nextMemWf_execHintSleep hw
  | park => exact nextMemWf_execPark hw
  | unpark => exact nextMemWf_execUnpark hw
  | unparkStep => exact nextMemWf_next (memWf_unparkTry hw)
  | diagEcho => exact nextMemWf_execDiagEcho hw
  | diagErrlog => exact nextMemWf_execDiagErrlog hw
  | diagProgress => exact nextMemWf_execDiagProgress hw
  | diagPrtstate => exact nextMemWf_execDiagPrtstate hw
  | moderationTimer => exact nextMemWf_execModerationTimer hw
  | topologyAccept => exact nextMemWf_ite nextMemWf_fault (nextMemWf_next (memWf_ite (memWf_topoSubmit hw) hw))
  | topologyActivation => exact nextMemWf_execTopologyActivation hw
  | packetRoute => exact nextMemWf_next (memWf_routeArrive hw)
  | tailCheck => exact nextMemWf_execTailCheck hw
  | rd => exact memWf_targetOf hw
  | wr => exact memWf_targetOf hw
  | wrp => exact memWf_targetOf hw
  | atm => exact memWf_targetOf hw
  | push => exact memWf_targetOf hw
  | fwr => exact memWf_targetOf hw
  | rdr => exact nextMemWf_next (memWf_ite hw (memWf_replyComes hw))
  | ack => exact nextMemWf_next (memWf_ite hw (memWf_replyComes hw))
  | ckt => exact nextMemWf_next (memWf_ite hw (memWf_routeArrive hw))
  | csu => exact nextMemWf_next (memWf_ite hw (memWf_routeArrive hw))
  | crl => exact nextMemWf_next (memWf_ite hw (memWf_routeArrive hw))
  | circuitEnd => exact nextMemWf_next (memWf_ite hw (memWf_routeArrive hw))
  | circuitBrokenNotice => exact nextMemWf_execCircuitBrokenNotice hw
  | portLeaveService => exact nextMemWf_next (memWf_ite hw (memWf_portLeft hw))
  | linkRelease => exact nextMemWf_next (memWf_ite hw (memWf_startTraining (memWf_setPort hw)))
  | tsa => exact nextMemWf_execTsa hw
  | tsb => exact nextMemWf_next (memWf_ite hw (memWf_ite (memWf_heldTs hw) (memWf_ite hw (memWf_exchangeEnd (memWf_setPort hw)))))
  | rate => exact nextMemWf_execRate hw
  | lb => exact nextMemWf_next (memWf_ite hw (memWf_emit (memWf_setPort (memWf_portState hw))))
  | alignDone => exact nextMemWf_execAlignDone hw
  | adaptSweepDone => exact nextMemWf_execAdaptSweepDone hw
  | trainingTimeout => exact nextMemWf_execTrainingTimeout hw
  | failedRestart => exact nextMemWf_next (memWf_ite hw (memWf_startTraining hw))
  | cmp => exact nextMemWf_execCmp hw
  | linkFrame => exact nextMemWf_execLinkFrame hw
  | nakTimeout => exact nextMemWf_next (memWf_ite (memWf_sendNak hw) hw)
  | ackStallTimeout => exact nextMemWf_next (memWf_ite (memWf_beginRetrain hw) hw)
  | retrain => exact nextMemWf_next (memWf_ite (memWf_beginRetrain hw) hw)
  | retrainTimeout => exact nextMemWf_next (memWf_ite (memWf_portState (memWf_leaveService hw)) hw)
  | pause => exact nextMemWf_execPause hw
  | pauseExpiry => exact nextMemWf_execPauseExpiry hw
  | linkWindow => exact nextMemWf_next (memWf_ite (memWf_enterWindow hw) hw)
  | windowQuiet => exact nextMemWf_execWindowQuiet hw
  | windowEnd => exact nextMemWf_execWindowEnd hw
  | echo => exact nextMemWf_next (memWf_ite (memWf_ctlSend hw) hw)
  | echoReply => exact nextMemWf_next (memWf_ite (memWf_setPort hw) hw)
  | echoTimer => exact nextMemWf_next (memWf_ite (memWf_sendEcho hw) hw)
  | laneQuery => exact nextMemWf_next (memWf_ite (memWf_ctlSend hw) hw)
  | laneReport => exact nextMemWf_next hw
  | offline => exact nextMemWf_next (memWf_ite (memWf_setOffline (memWf_setReg (memWf_barAccess hw))) hw)
  | lnkCtlRetrain => exact memWf_lnkCtlRow hw
  | nearBightLoopback => exact memWf_lnkCtlRow hw
  | farBightLoopback => exact memWf_lnkCtlRow hw
  | prbsTest => exact nextMemWf_execPrbsTest hw
  | injSingle => exact memWf_lnkCtlRow hw
  | injBurst => exact memWf_lnkCtlRow hw
  | errClr => exact memWf_lnkCtlRow hw
  | send => exact nextMemWf_next (memWf_ite (memWf_writePause (memWf_barAccess hw)) hw)
  | layTick => exact nextMemWf_execLayTick hw
  | syncTimer => exact nextMemWf_next (memWf_ite hw (memWf_foldl (fun _ _ hv => memWf_ite (memWf_ctlSend hv) hv) (memWf_update hw)))
  | syncReq => exact nextMemWf_next (memWf_ite hw (memWf_ctlSend hw))
  | syncResp => exact nextMemWf_execSyncResp hw
  | ppsEdge => exact nextMemWf_execPpsEdge hw
  | ppsTimeout => exact nextMemWf_next (memWf_ite (memWf_layState (memWf_update hw)) hw)
  | parentTimeout => exact nextMemWf_next (memWf_ite (memWf_layState (memWf_update hw)) hw)
  | calendarFire => exact nextMemWf_execCalendarFire hw
  | phaseRelease => exact nextMemWf_execPhaseRelease hw
  | tenAssign => exact nextMemWf_next (memWf_ite (memWf_tenAssign (memWf_barAccess hw)) hw)
  | tenantChangeDone => exact nextMemWf_execTenantChangeDone hw
  | generate => exact nextMemWf_next (memWf_keyWrite hw)
  | erase => exact nextMemWf_next (memWf_keyWrite hw)
  | importKey => exact nextMemWf_next (memWf_keyWrite hw)
  | eraseFabric => exact nextMemWf_next (memWf_keyWrite hw)
  | fidChal => exact nextMemWf_next (memWf_fidCmd hw (fun _ hv => memWf_fst_ite hv (memWf_pair (memWf_draw (memWf_update hv)))))
  | fidLoad => exact nextMemWf_execFidLoad hw
  | boundaryDrive => exact nextMemWf_execBoundaryDrive hw
  | internalScan => exact nextMemWf_next (memWf_ite hw (memWf_packageReset (memWf_zeroize hw)))
  | getVersion => exact nextMemWf_next (memWf_served hw (fun _ hv => hv))
  | getCapabilities => exact nextMemWf_next (memWf_served hw (fun _ hv => memWf_freeAnswer hv))
  | negotiateAlgorithms => exact nextMemWf_next (memWf_served hw (fun _ hv => memWf_fst_ite (memWf_freeAnswer hv) hv))
  | getDigests => exact nextMemWf_next (memWf_served hw (fun _ hv => memWf_freeAnswer hv))
  | getCertificate => exact nextMemWf_next (memWf_served hw (fun _ hv => memWf_fst_ite (memWf_freeAnswer hv) hv))
  | challenge => exact nextMemWf_next (memWf_served hw (fun _ hv => memWf_fst_ite (memWf_pair (memWf_draw hv)) hv))
  | getMeasurements => exact nextMemWf_execGetMeasurements hw
  | keyExchange => exact nextMemWf_next (memWf_served hw (fun _ hv => memWf_fst_ite hv (memWf_pair (memWf_update hv))))
  | finish => exact nextMemWf_execFinish hw
  | endSession => exact nextMemWf_next (memWf_served hw (fun _ hv => memWf_fst_ite (memWf_pair (memWf_endSession hv)) hv))
  | heartbeat => exact nextMemWf_next (memWf_served hw (fun _ hv => memWf_fst_ite hv hv))
  | keyUpdate => exact nextMemWf_next (memWf_served hw (fun _ hv => memWf_fst_ite hv hv))
  | dutyEvaluation => exact nextMemWf_execDutyEvaluation hw
  | opEvaluation => exact nextMemWf_next (memWf_ite hw (memWf_foldl (fun _ _ hv => memWf_opLoop hv) hw))
  | opStep => exact nextMemWf_execOpStep hw
  | rampStep => exact nextMemWf_execRampStep hw
  | rampAdmission => exact nextMemWf_next (memWf_ite hw (memWf_ite (memWf_setPart hw) (memWf_admitTiles (memWf_update (memWf_setPart hw)))))
  | limitNoticeWindow => exact nextMemWf_execLimitNoticeWindow hw
  | droopTrip => exact nextMemWf_execDroopTrip hw
  | droopRecovery => exact nextMemWf_next (memWf_ite (memWf_setPart hw) hw)
  | vralert => exact nextMemWf_execVralert hw
  | vralertRelease => exact nextMemWf_execVralertRelease hw
  | energyModel => exact nextMemWf_execEnergyModel hw
  | thermalSensorRead => exact nextMemWf_execThermalSensorRead hw
  | steadyWindow => exact nextMemWf_ite nextMemWf_fault (nextMemWf_next (memWf_ite hw (memWf_draw (memWf_draw (memWf_update hw)))))
  | thermalCap => exact nextMemWf_next (memWf_ite hw (memWf_limitCheck (memWf_update hw)))
  | hotClear => exact nextMemWf_execHotClear hw
  | inletAge => exact nextMemWf_execInletAge hw
  | thermalTrip => exact nextMemWf_execThermalTrip hw
  | ageingMeasurement => exact nextMemWf_next (memWf_ite hw (memWf_journal (memWf_ageMeasure (memWf_setPart hw))))
  | sourceEdge => exact nextMemWf_next (memWf_ite (memWf_raiseWake hw) hw)
  | claim => exact nextMemWf_next (memWf_claimRead hw)
  | complete => exact nextMemWf_next (memWf_completeWrite hw)
  | set => exact nextMemWf_next (memWf_ite (memWf_raiseWake hw) hw)
  | pendClear => exact nextMemWf_next (memWf_ite (memWf_update hw) hw)
  | sourceEnable => exact nextMemWf_next (memWf_ite (memWf_writeSource hw) hw)
  | belayLatch => exact nextMemWf_next (memWf_ite hw (memWf_raiseWake hw))
  | belayWake => exact nextMemWf_next (memWf_ite (memWf_belayWake hw) hw)
  | setEndpointId => exact nextMemWf_execSetEndpointId hw
  | setdasa => exact nextMemWf_next (memWf_ite (memWf_update hw) hw)
  | rstdaa => exact nextMemWf_next (memWf_ite (memWf_update hw) hw)
  | mctpDrop => exact nextMemWf_next (memWf_ite hw (memWf_update (memWf_heard hw)))
  | gettid => exact nextMemWf_next (memWf_served hw (fun _ hv => memWf_freeAnswer hv))
  | getpldmversion => exact nextMemWf_next (memWf_served hw (fun _ hv => memWf_fst_ite (memWf_freeAnswer hv) hv))
  | getpldmtypes => exact nextMemWf_next (memWf_served hw (fun _ hv => hv))
  | getpldmcommands => exact nextMemWf_next (memWf_served hw (fun _ hv => memWf_fst_ite hv hv))
  | getpdrrepositoryinfo => exact nextMemWf_next (memWf_type2 hw (fun _ hv => memWf_freeAnswer hv))
  | getpdr => exact nextMemWf_next (memWf_type2 hw (fun _ hv => memWf_fst_ite (memWf_freeAnswer hv) (memWf_pair (memWf_draw hv))))
  | getsensorreading => exact nextMemWf_next (memWf_type2 hw (fun _ hv => memWf_fst_ite (memWf_freeAnswer hv) (memWf_sensorAnswer hv)))
  | getstatesensorreadings => exact nextMemWf_next (memWf_type2 hw (fun _ hv => memWf_sensorAnswer hv))
  | getnumericeffectervalue => exact nextMemWf_next (memWf_type2 hw (fun _ hv => memWf_sensorAnswer hv))
  | getstateeffecterstates => exact nextMemWf_next (memWf_type2 hw (fun _ hv => memWf_fst_ite hv hv))
  | seteventreceiver => exact nextMemWf_execSeteventreceiver hw
  | pollforplatformeventmessage => exact nextMemWf_execPollforplatformeventmessage hw
  | effecterRackLimit => exact nextMemWf_execEffecterRackLimit hw
  | effecterInlet => exact nextMemWf_execEffecterInlet hw
  | effecterRackVerdict => exact nextMemWf_execEffecterRackVerdict hw
  | effecterCurrentLimit => exact nextMemWf_next (memWf_type2Tray hw (fun _ hv => memWf_pair (memWf_saveSettings (memWf_update hv))))
  | readPsw => exact nextMemWf_next (memWf_readCmd hw (fun _ hv => memWf_fst_ite (memWf_fieldBad hv) hv))
  | readRecord => exact nextMemWf_execReadRecord hw
  | readErrlog => exact nextMemWf_next (memWf_readCmd hw (fun _ hv => hv))
  | readSample => exact nextMemWf_next (memWf_readCmd hw (fun _ hv => memWf_fst_ite (memWf_fieldBad hv) hv))
  | on => exact nextMemWf_execOn hw
  | off => exact nextMemWf_execOff hw
  | sleep => exact nextMemWf_execSleep hw
  | wake => exact nextMemWf_next (memWf_orderCmd hw (fun _ hv => memWf_powerOrder hv (fun _ h₁ => memWf_pair (memWf_raiseWake h₁))))
  | rackLimit => exact nextMemWf_execRackLimit hw
  | tripRelease => exact nextMemWf_execTripRelease hw
  | topologyWrite => exact nextMemWf_execTopologyWrite hw
  | topologyPartTimeout => exact nextMemWf_execTopologyPartTimeout hw
  | layRole => exact nextMemWf_execLayRole hw
  | laySecond => exact nextMemWf_next (memWf_orderCmd hw (fun _ hv => memWf_fst_ite hv (memWf_pair (memWf_update hv))))
  | stepSlot => exact nextMemWf_next (memWf_orderCmd hw (fun _ hv => memWf_pair (memWf_saveSettings (memWf_update hv))))
  | windowArm => exact nextMemWf_execWindowArm hw
  | sampleArm => exact nextMemWf_execSampleArm hw
  | svnCommit => exact nextMemWf_execSvnCommit hw
  | regulatorPoll => exact nextMemWf_execRegulatorPoll hw
  | flashWrite => exact nextMemWf_execFlashWrite hw
  | querydeviceidentifiers => exact nextMemWf_next (memWf_type5 hw (fun _ hv => memWf_freeAnswer hv))
  | getfirmwareparameters => exact nextMemWf_next (memWf_type5 hw (fun _ hv => hv))
  | requestupdate => exact nextMemWf_next (memWf_type5 hw (fun _ hv => memWf_fst_ite hv (memWf_pair (memWf_setUpdate (memWf_update hv)))))
  | passcomponenttable => exact nextMemWf_next (memWf_inUpdate hw (fun _ _ hv => memWf_fst_ite hv (memWf_pair (memWf_setUpdate hv))))
  | updatecomponent => exact nextMemWf_execUpdatecomponent hw
  | requestfirmwaredata => exact nextMemWf_execRequestfirmwaredata hw
  | transfercomplete => exact nextMemWf_execTransfercomplete hw
  | verifycomplete => exact nextMemWf_execVerifycomplete hw
  | applycomplete => exact nextMemWf_execApplycomplete hw
  | activatefirmware => exact nextMemWf_execActivatefirmware hw
  | getstatus => exact nextMemWf_next (memWf_type5 hw (fun _ hv => hv))
  | cancelupdatecomponent => exact nextMemWf_next (memWf_inUpdate hw (fun _ _ hv => memWf_fst_ite hv (memWf_pair (memWf_setUpdate hv))))
  | cancelupdate => exact nextMemWf_next (memWf_inUpdate hw (fun _ _ hv => memWf_pair (memWf_cancelUpdate hv)))
  | updateIdleTimeout => exact nextMemWf_execUpdateIdleTimeout hw
  | bmcPresenceTimeout => exact nextMemWf_execBmcPresenceTimeout hw
  | standbyPowerOn => exact nextMemWf_execStandbyPowerOn hw
  | standbyLoss => exact nextMemWf_next (memWf_ite hw memWf_afterLoss)
  | plinthOverheat => exact nextMemWf_next (memWf_ite hw (memWf_update (memWf_abandonWrites hw)))
  | flashRetryAfterCool => exact nextMemWf_next (memWf_ite hw (memWf_foldl (fun _ _ hv => memWf_journal hv) (memWf_update hw)))
  | startStep => exact nextMemWf_execStartStep hw
  | startStepTimeout => exact nextMemWf_execStartStepTimeout hw
  | memoryTestDone => exact nextMemWf_execMemoryTestDone hw
  | shutdownSelftestDone => exact nextMemWf_next (memWf_ite hw (memWf_journal (memWf_railsFall hw)))
  | tileReset => exact nextMemWf_execTileReset hw
  | clusterReset => exact nextMemWf_next (memWf_ite (memWf_prtRst (memWf_barAccess hw)) hw)
  | partitionReset => exact nextMemWf_next (memWf_ite (memWf_prtRst (memWf_barAccess hw)) hw)
  | packageReset => exact nextMemWf_next (memWf_ite (memWf_packageReset hw) hw)
  | pkgRstN => exact nextMemWf_next (memWf_packageReset hw)
  | hardTrip => exact nextMemWf_next (memWf_ite (memWf_resetOrder hw) hw)
  | drainLimit => exact nextMemWf_execDrainLimit hw
  | resetStep => exact nextMemWf_execResetStep hw
  | partitionResetDone => exact nextMemWf_execPartitionResetDone hw
  | lateReply => exact nextMemWf_execLateReply hw
  | free => exact nextMemWf_next (memWf_ite (memWf_writeSmpSel (memWf_barAccess hw)) hw)
  | clear => exact nextMemWf_next (memWf_ite (memWf_writeTilErr (memWf_barAccess hw)) hw)
  | prtRecon => exact nextMemWf_next (memWf_ite (memWf_writeRecon (memWf_barAccess hw)) hw)
  | teardownAckTimeout => exact nextMemWf_execTeardownAckTimeout hw
  | pciePerstN => exact nextMemWf_execPciePerstN hw
  | railRangeTimeout => exact nextMemWf_next (memWf_ite (memWf_startFail (memWf_report hw)) hw)
  | stackRailFault => exact nextMemWf_next (memWf_ite (memWf_supplyFault hw) hw)
  | blockLockLoss => exact nextMemWf_next (memWf_ite hw (memWf_ite (memWf_setPort hw)
      (memWf_ite hw (memWf_beginRetrain (memWf_setPort hw)))))
  | msixVectorUnmask => exact nextMemWf_next (memWf_ite (memWf_maskVector hw) hw)
  | setupRead => exact nextMemWf_execSetupRead hw
  | configurationRequest => exact nextMemWf_next (memWf_ite hw (memWf_ite (memWf_emit hw) (memWf_cfgAsk (memWf_emit hw))))
  | cxlCacheError => exact nextMemWf_next (memWf_ite hw (memWf_update (memWf_hifSet hw)))
  | autoRemap => exact nextMemWf_execAutoRemap hw
  | testLogicResetExit => exact nextMemWf_next (memWf_ite (memWf_raiseWake hw) hw)
  | boundaryDriveExit => exact nextMemWf_next (memWf_ite hw (memWf_packageReset (memWf_update hw)))
  | inBandInterrupt => exact nextMemWf_next (memWf_ite (memWf_raiseWake hw) hw)
  | plinthTemperature115 => exact nextMemWf_next (memWf_ite (memWf_raiseWake hw) hw)
  | farBightLoopbackEnd => exact nextMemWf_next (memWf_ite (memWf_toAlign hw) hw)
  | outputBelowSetting => exact nextMemWf_next (memWf_ite (memWf_supplyFault hw) hw)

/-- Settles O56: a step runs one command on the state with the queue's rest, and each command keeps the form. -/
theorem memoriesKeepForm : Obligations.MemoriesKeepForm := by
  unfold Obligations.MemoriesKeepForm
  intro s u hw h
  unfold step at h
  split at h
  · cases h
    exact hw
  · exact nextMemWf_exec _ (memWf_update hw) u h

end Sys2Proof.Machine

namespace Sys2Proof.Machine

/-! ### The setup registers, one by one -/

section

variable (s : State)

theorem reg_setReg_same (off rst v : Nat) : (s.setReg off rst v).reg off rst = v % 2 ^ 64 := by
  unfold State.setReg State.reg
  split
  case isTrue h => simp only [SMap.get, find?_del_same, BitVec.toNat_ofNat, ← h, Nat.mod_mod]
  case isFalse h => simp only [get_set_same, BitVec.toNat_ofNat]

theorem reg_setReg_ne {o off : Nat} (rst v d : Nat) (h : o ≠ off) : (s.setReg off rst v).reg o d = s.reg o d := by
  unfold State.setReg State.reg
  split
  · simp only [SMap.get, find?_del_ne _ h]
  · simp only [get_set_ne _ _ _ h]

/-- What is left of a family by a choice among its numbers. -/
theorem find?_filter_key {α : Type} (p : Nat → Bool) (m : SMap α) (k : Nat) :
    SMap.find? (m.filter (fun e => p e.1)) k = if p k then SMap.find? m k else none := by
  induction m with
  | nil => simp [SMap.find?]
  | cons e r ih =>
    obtain ⟨j, v⟩ := e
    by_cases hj : j = k
    · subst hj
      by_cases hp : p j
      · simp [SMap.find?, hp]
      · simpa [SMap.find?, hp] using ih
    · by_cases hp : p j
      · simp [SMap.find?, hp, hj, ih]
      · simp [SMap.find?, hp, hj, ih]

/-! ### What the shared operations of the host interface leave alone -/

/-- A rising edge changes the Cleat alone. -/
theorem raise_frame (n : Nat) : ∃ c, s.raise n = { s with cleat := c } := by
  unfold State.raise
  split
  · exact ⟨s.cleat, rfl⟩
  · exact ⟨_, rfl⟩

/-- HIF_ERR bit `b` is set, with its source of the Cleat. -/
theorem hifSet_frame {b : Nat} (hb : b < 5) : ∃ e c, s.hifSet b = { s with hifErr := e, cleat := c } ∧ e.getLsbD b = true := by
  unfold State.hifSet
  split
  case isTrue h => exact ⟨s.hifErr, s.cleat, rfl, h⟩
  case isFalse h =>
    obtain ⟨c, hc⟩ := raise_frame ({ s with hifErr := s.hifErr ||| (1 <<< b) }) (1480 + b)
    refine ⟨s.hifErr ||| (1 <<< b), c, hc, ?_⟩
    rw [BitVec.getLsbD_or, BitVec.natCast_eq_ofNat, BitVec.getLsbD_ofNat]
    simp [hb]

/-- An access fault sets HIF_ERR.ACCESS and its offset. -/
theorem accessFault_frame (off : Nat) : ∃ e c, s.accessFault off =
    { s with shadow := none, hifErr := e, cleat := c, lastOff := BitVec.ofNat 24 off } ∧ e.getLsbD 0 = true := by
  obtain ⟨e, c, h, he⟩ := hifSet_frame s.barAccess (b := 0) (by decide)
  exact ⟨e, c, by rw [State.accessFault, h]; rfl, he⟩

theorem checkCxl_frame : ∃ e c d, s.checkCxl = { s with hifErr := e, cleat := c, cxlDown := d } := by
  unfold State.checkCxl
  split
  · obtain ⟨e, c, h, -⟩ := hifSet_frame s (b := 2) (by decide)
    exact ⟨e, c, true, by rw [h]⟩
  · exact ⟨_, _, _, rfl⟩

theorem fillLines_frame : ∃ x o, s.fillLines = { s with lines := x, out := o } := by
  unfold State.fillLines
  refine List.foldlRecOn (motive := fun u : State => ∃ x o, u = { s with lines := x, out := o }) _ _ ⟨s.lines, s.out, rfl⟩ ?_
  rintro _ ⟨x, o, rfl⟩ l -
  split
  · exact ⟨_, _, rfl⟩
  · exact ⟨_, _, rfl⟩

theorem askFetch_frame (r : Nat) : ∃ g o, s.askFetch r = { s with rings := g, out := o } := by
  unfold State.askFetch
  extract_lets
  split
  · exact ⟨_, _, rfl⟩
  · split
    · exact ⟨_, _, rfl⟩
    · exact ⟨_, _, rfl⟩

theorem foldl_askFetch_frame (l : List Nat) : ∃ g o, l.foldl (fun s r => s.askFetch r) s = { s with rings := g, out := o } := by
  refine List.foldlRecOn (motive := fun u : State => ∃ g o, u = { s with rings := g, out := o }) _ _ ⟨s.rings, s.out, rfl⟩ ?_
  rintro _ ⟨g, o, rfl⟩ r -
  obtain ⟨g', o', h⟩ := askFetch_frame { s with rings := g, out := o } r
  exact ⟨g', o', h⟩

/-! ### A loop over units -/

/-- What one turn of a loop brings about, and no turn undoes, holds after the loop. -/
theorem foldl_reaches {α : Type} {I P : State → Prop} {f : State → α → State} {l : List α} {x : α} (hx : x ∈ l) (hs : I s)
    (hI : ∀ v y, I v → I (f v y)) (hP : ∀ v, I v → P (f v x)) (hk : ∀ v y, P v → P (f v y)) : P (l.foldl f s) := by
  obtain ⟨a, b, rfl⟩ := List.append_of_mem hx
  rw [List.foldl_append, List.foldl_cons]
  have ha : I (a.foldl f s) := List.foldlRecOn a f hs fun v hv y _ => hI v y hv
  exact List.foldlRecOn b f (hP _ ha) fun v hv y _ => hk v y hv

/-! ### The commands of the host interface -/

theorem exec_setupRead (a : BarAddr) (w : Width) : exec (.setupRead a w) s = execSetupRead a w s := rfl

theorem exec_setupWrite (a : BarAddr) (w : Width) (v : Word) : exec (.setupWrite a w v) s = execSetupWrite a w v s := rfl

theorem exec_vfWrite (ten : Fin 64) (off : Nat) (v : Word) : exec (.vfWrite ten off v) s = execVfWrite ten off v s := rfl

theorem exec_setupLock (v : Word) : exec (.setupLock v) s = execSetupLock v s := rfl

theorem exec_fetchEn (v : Word) : exec (.fetchEn v) s = execFetchEn v s := rfl

theorem exec_cxlCacheError : exec .cxlCacheError s = execCxlCacheError s := rfl

theorem exec_pfFlr : exec .pfFlr s = execPfFlr s := rfl

theorem exec_vfFlr (ten : Fin 64) : exec (.vfFlr ten) s = execVfFlr ten s := rfl

theorem exec_configurationRequest (c : CfgAccess) :
    exec (.configurationRequest c) s = execConfigurationRequest c s := rfl

/-! ### Reads of the setup space -/

theorem exec_setupRead_w64 (hb : s.barLive = true) {off : Nat} (h : off % 8 = 0) :
    exec (.setupRead ⟨.setup, off⟩ .w64) s = .next { s with
      shadow := none, free := s.free + (if (fam off 0x540100 8 14).isSome then 1 else 0),
      out := s.out ++ [.setupData (s.readReg off)] } := by
  rw [exec_setupRead]
  have hd : off / 8 * 8 = off := by omega
  simp only [execSetupRead, hb, accessOk, h, State.setupValue, hd]
  cases (fam off 0x540100 8 14).isSome <;> rfl

/-- A register that latches its upper half is no sensor register. -/
theorem fam_of_latches {off : Nat} (h : latches off = true) : fam off 0x540100 8 14 = none := by
  simp only [latches, fam, Bool.or_eq_true, beq_iff_eq, Option.isSome_ite] at h ⊢
  split
  · omega
  · rfl

theorem setWidth_eq_low (x : Word) : x.setWidth 32 = x.extractLsb' 0 32 := by
  apply BitVec.eq_of_toNat_eq
  simp [BitVec.extractLsb'_toNat]

/-- The upper half, kept in 32 bits and read as a word, is the word shifted by the lower half. -/
theorem setWidth_shift_high (x : Word) : ((x >>> 32).setWidth 32).setWidth 64 = x >>> 32 := by
  apply BitVec.eq_of_toNat_eq
  simp only [BitVec.toNat_setWidth, BitVec.toNat_ushiftRight, Nat.shiftRight_eq_div_pow]
  omega

theorem exec_setupRead_low (hb : s.barLive = true) {off : Nat} (h : off % 8 = 0) (hl : latches off = true) :
    exec (.setupRead ⟨.setup, off⟩ .w32) s = .next { s with
      shadow := some (off, (s.readReg off >>> 32).setWidth 32),
      out := s.out ++ [.setupData (((s.readReg off).setWidth 32).setWidth 64)] } := by
  rw [exec_setupRead]
  have hd : off / 8 * 8 = off := by omega
  have h4 : off % 4 = 0 := by omega
  simp [execSetupRead, hb, accessOk, h, h4, State.setupValue, hd, hl, fam_of_latches hl, State.emit]

theorem exec_setupRead_high (hb : s.barLive = true) {off : Nat} (h : off % 8 = 0) (hl : latches off = true) {x : BitVec 32}
    (hs : s.shadow = some (off, x)) :
    exec (.setupRead ⟨.setup, off + 4⟩ .w32) s = .next { s with
      shadow := none, out := s.out ++ [.setupData (x.setWidth 64)] } := by
  rw [exec_setupRead]
  have hd : (off + 4) / 8 * 8 = off := by omega
  have h4 : (off + 4) % 4 = 0 := by omega
  have h8 : (off + 4) % 8 ≠ 0 := by omega
  simp [execSetupRead, hb, accessOk, h4, h8, State.setupValue, hd, fam_of_latches hl, hs, State.emit]

theorem accessOk_of_wrongAccess {off : Nat} {w : Width} (h : Claims.wrongAccess off w) : accessOk off w = false := by
  cases w with
  | w32 => simpa [accessOk, Claims.wrongAccess] using h
  | w64 => simpa [accessOk, Claims.wrongAccess] using h
  | other _ => rfl

theorem exec_setupRead_wrong (hb : s.barLive = true) {off : Nat} {w : Width} (h : Claims.wrongAccess off w) :
    exec (.setupRead ⟨.setup, off⟩ w) s = .next ((s.accessFault off).emit (.setupData 0)) := by
  rw [exec_setupRead]
  simp [execSetupRead, hb, accessOk_of_wrongAccess h]

theorem exec_setupWrite_wrong (hb : s.barLive = true) {off : Nat} {w : Width} (v : Word) (h : Claims.wrongAccess off w) :
    exec (.setupWrite ⟨.setup, off⟩ w v) s = .next (s.accessFault off) := by
  rw [exec_setupWrite]
  simp [execSetupWrite, hb, accessOk_of_wrongAccess h]

/-! ### Writes of plain registers -/

/-- Every row of the table is a plain register of the model, above the host interface's, at an offset of no other register. -/
theorem plainTable_spec : ∀ e ∈ Claims.plainTable, e.1 % 8 = 0 ∧ plainReg e.1 = some e.2 ∧ e.2.1 < 2 ^ 64 ∧
    ∀ (s : State) v, (if e.1 < 0x200000 then s.writeHifRng e.1 v else s.writeRest e.1 v) = s.writePlain e.1 v := by
  intro e he
  simp only [Claims.plainTable, List.mem_cons, List.not_mem_nil, or_false] at he
  rcases he with rfl | rfl | rfl | rfl | rfl | rfl | rfl | rfl | rfl | rfl | rfl | rfl <;>
    exact ⟨by decide, rfl, by decide, fun _ _ => rfl⟩

theorem exec_setupWrite_plain (hb : s.barLive = true) {e : Nat × Nat × Bool × Nat} (he : e ∈ Claims.plainTable) (v : Word) :
    exec (.setupWrite ⟨.setup, e.1⟩ .w64 v) s = .next (s.barAccess.writePlain e.1 v.toNat) := by
  obtain ⟨h8, -, -, hw⟩ := plainTable_spec e he
  have hd : e.1 / 8 * 8 = e.1 := by omega
  rw [exec_setupWrite]
  simp only [execSetupWrite, hb, accessOk, h8, hd, hw, Bool.not_true, beq_self_eq_true, Bool.false_eq_true, if_false]

theorem writePlain_reg_same {off m rst : Nat} {rwl : Bool} (hp : plainReg off = some (m, rwl, rst)) (hm : m < 2 ^ 64) (v : Nat) :
    (s.writePlain off v).reg off rst = if rwl = true ∧ s.setupLocked = true then s.reg off rst else v &&& m := by
  have hv : (v &&& m) % 2 ^ 64 = v &&& m := Nat.mod_eq_of_lt (Nat.lt_of_le_of_lt Nat.and_le_right hm)
  simp only [State.writePlain, hp, Bool.and_eq_true]
  split
  · rfl
  · rw [reg_setReg_same, hv]

theorem writePlain_reg_ne {o off : Nat} (v d : Nat) (h : o ≠ off) : (s.writePlain off v).reg o d = s.reg o d := by
  unfold State.writePlain
  split
  · split
    · rfl
    · exact reg_setReg_ne s _ _ _ h
  · rfl

/-- A write of a plain register changes the register file alone. -/
theorem writePlain_frame (off v : Nat) : ∃ m, s.writePlain off v = { s with setup := m } := by
  unfold State.writePlain
  split
  · split
    · exact ⟨s.setup, rfl⟩
    · exact ⟨_, rfl⟩
  · exact ⟨s.setup, rfl⟩

/-! ### The tenant view -/

theorem listMask_below (l : List Nat) (n : Nat) :
    let a := (List.range n).foldl (fun a i => if l.contains i then a + 2 ^ i else a) 0
    a < 2 ^ n ∧ ∀ i, i < n → a.testBit i = l.contains i := by
  induction n with
  | zero => simp
  | succ n ih =>
    obtain ⟨hlt, hbit⟩ := ih
    simp only [List.range_succ, List.foldl_append, List.foldl_cons, List.foldl_nil]
    generalize (List.range n).foldl (fun a i => if l.contains i then a + 2 ^ i else a) 0 = a at hlt hbit
    have hpow : 2 ^ (n + 1) = 2 ^ n + 2 ^ n := by omega
    by_cases hn : l.contains n = true
    · rw [if_pos hn]
      refine ⟨by omega, fun i hi => ?_⟩
      rcases Nat.lt_succ_iff_lt_or_eq.1 hi with hi | rfl
      · rw [Nat.add_comm, Nat.testBit_two_pow_add_gt hi, hbit i hi]
      · rw [Nat.add_comm, Nat.testBit_two_pow_add_eq, Nat.testBit_lt_two_pow hlt, hn]
        rfl
    · rw [if_neg hn]
      refine ⟨by omega, fun i hi => ?_⟩
      rcases Nat.lt_succ_iff_lt_or_eq.1 hi with hi | rfl
      · exact hbit i hi
      · rw [Nat.testBit_lt_two_pow hlt]
        simpa using hn

theorem testBit_listMask (l : List Nat) {i : Nat} (hi : i < 64) : (listMask l).testBit i = l.contains i :=
  (listMask_below l 64).2 i hi

theorem exec_setupRead_view (hb : s.barLive = true) (ten : Fin 64) {off : Nat} (h : off % 8 = 0) :
    exec (.setupRead ⟨.view ten, off⟩ .w64) s =
      .next (Claims.sent s [.setupData (BitVec.ofNat 64 (s.readView (ten.val + 1) off))]) := by
  have hd : off / 8 * 8 = off := by omega
  rw [exec_setupRead]
  simp [execSetupRead, hb, barPart, h, hd, State.emit, Claims.sent]

theorem exec_setupWrite_view (hb : s.barLive = true) (ten : Fin 64) (off : Nat) (w : Width) (v : Word) :
    exec (.setupWrite ⟨.view ten, off⟩ w v) s = .next (s.hifSet 1) := by
  rw [exec_setupWrite]
  simp [execSetupWrite, hb]

theorem readView_tenant (t : Nat) : (BitVec.ofNat 64 (s.readView t 0)).extractLsb' 0 7 = BitVec.ofNat 7 t := by
  apply BitVec.eq_of_toNat_eq
  simp [State.readView, fieldAt, BitVec.extractLsb'_toNat]
  omega

theorem readView_mine (t : Nat) {n : Nat} (hn : n < 12) :
    (BitVec.ofNat 64 (s.readView t 0)).getLsbD (8 + n) = decide ((s.psw n).tenant.toNat = t) := by
  have hlt : fieldAt t 0 7 < 2 ^ 8 := by simp only [fieldAt]; omega
  have hmask (a : Nat) : fieldAt a 8 12 = 2 ^ 8 * (a % 2 ^ 12) := Nat.mul_comm _ _
  rw [BitVec.getLsbD_ofNat, State.readView, if_pos rfl, Nat.add_comm (fieldAt t 0 7), hmask, Nat.testBit_two_pow_mul_add _ hlt,
    if_neg (by omega), Nat.add_sub_cancel_left, Nat.testBit_mod_two_pow, testBit_listMask _ (by omega)]
  simp [hn, show 8 + n < 64 by omega, beq_eq_decide]

theorem readView_state (t : Nat) {n : Nat} (hn : n < 12) :
    s.readView t (0x100 + 8 * n) = if (s.psw n).tenant.toNat = t then (s.psw n).word else 0 := by
  have hd : (0x100 + 8 * n - 0x100) / 8 = n := by omega
  simp only [State.readView, hd, beq_iff_eq]
  rw [if_neg (by omega), if_pos (by omega)]

theorem readView_elsewhere (t : Nat) {off : Nat} (h0 : off ≠ 0) (h : off < 0x100 ∨ 0x160 ≤ off) : s.readView t off = 0 := by
  rw [State.readView, if_neg h0, if_neg (by omega)]

end

/-! ### BAR0 -/

theorem setupAccesses_holds : Claims.setupAccesses := by
  intro s hb
  refine ⟨fun off h => exec_setupRead_w64 s hb h, fun off h hl => ?_, fun off w v h => ?_, fun e he v => ?_, fun ten off h => ?_,
    fun ten off w v => ?_⟩
  · refine ⟨_, exec_setupRead_low s hb h hl, by simp only [setWidth_eq_low], fun v hv hs => ?_⟩
    rw [exec_setupRead_high v hv h hl hs, setWidth_shift_high]
  · obtain ⟨e, c, hf, he⟩ := accessFault_frame s off
    refine ⟨⟨_, exec_setupRead_wrong s hb h, ?_⟩, ⟨_, exec_setupWrite_wrong s hb v h, ?_⟩⟩ <;> rw [hf]
    · exact ⟨rfl, he, rfl, rfl, rfl⟩
    · exact ⟨rfl, he, rfl, rfl, rfl⟩
  · obtain ⟨-, hp, hm, -⟩ := plainTable_spec e he
    refine ⟨_, exec_setupWrite_plain s hb he v, writePlain_reg_same _ hp hm _, fun o d ho => writePlain_reg_ne _ _ _ ho, ?_⟩
    obtain ⟨m, hf⟩ := writePlain_frame s.barAccess e.1 v.toNat
    rw [hf]
    exact ⟨rfl, rfl⟩
  · refine ⟨_, exec_setupRead_view s hb ten h, ?_, ?_, ?_⟩
    · rintro rfl
      exact ⟨readView_tenant s _, fun n hn => readView_mine s _ hn⟩
    · rintro n hn rfl
      rw [readView_state s _ hn]
      split <;> rfl
    · intro h0 hr
      rw [readView_elsewhere s _ h0 hr]
      rfl
  · obtain ⟨e, c, hf, he⟩ := hifSet_frame s (b := 1) (by decide)
    refine ⟨_, exec_setupWrite_view s hb ten off w v, ?_⟩
    rw [hf]
    exact ⟨he, rfl, rfl, rfl⟩

/-! ### HIF_CTL -/

section

variable (s : State)

/-- What a write of `v` leaves in HIF_CTL (R159): the frozen fields' old bits or the defined bits written, and FETCH_EN. -/
def hifCtlAfter (old v : Nat) : Nat :=
  (if bitAt old 0 then old % 0x4000 else v % 0x4000 - v % 16 + v % 4) + fieldAt (b2n (bitAt v 14)) 14 1

theorem testBit_lowFields (v : Nat) {i : Nat} (hi : i < 14) (h2 : i ≠ 2) (h3 : i ≠ 3) :
    (v % 0x4000 - v % 16 + v % 4).testBit i = v.testBit i := by
  have hlt : v % 4 < 2 ^ 4 := by omega
  have he : v % 0x4000 - v % 16 + v % 4 = 2 ^ 4 * (v / 2 ^ 4 % 2 ^ 10) + v % 4 := by omega
  rw [he, Nat.testBit_two_pow_mul_add _ hlt]
  split
  · rw [show (4 : Nat) = 2 ^ 2 from rfl, Nat.testBit_mod_two_pow]
    simp [show i < 2 by omega]
  · rw [Nat.testBit_mod_two_pow, Nat.testBit_div_two_pow]
    simp [show i - 4 < 10 by omega, show i - 4 + 4 = i by omega]

theorem hifCtlAfter_eq (old v : Nat) : hifCtlAfter old v =
    2 ^ 14 * b2n (bitAt v 14) + (if bitAt old 0 then old % 0x4000 else v % 0x4000 - v % 16 + v % 4) := by
  have h : fieldAt (b2n (bitAt v 14)) 14 1 = 2 ^ 14 * b2n (bitAt v 14) := by cases bitAt v 14 <;> rfl
  rw [hifCtlAfter, h, Nat.add_comm]

theorem hifCtlAfter_low_lt (old v : Nat) : (if bitAt old 0 then old % 0x4000 else v % 0x4000 - v % 16 + v % 4) < 2 ^ 14 := by
  split <;> omega

theorem hifCtlAfter_lt (old v : Nat) : hifCtlAfter old v < 2 ^ 64 := by
  have hb : b2n (bitAt v 14) ≤ 1 := by cases bitAt v 14 <;> decide
  have := hifCtlAfter_low_lt old v
  rw [hifCtlAfter_eq]
  omega

theorem testBit_hifCtlAfter_low (old v : Nat) {i : Nat} (hi : i < 14) (h2 : i ≠ 2) (h3 : i ≠ 3) :
    (hifCtlAfter old v).testBit i = if bitAt old 0 = true then old.testBit i else v.testBit i := by
  rw [hifCtlAfter_eq, Nat.testBit_two_pow_mul_add _ (hifCtlAfter_low_lt old v), if_pos hi]
  split
  · rw [show (0x4000 : Nat) = 2 ^ 14 from rfl, Nat.testBit_mod_two_pow]
    simp [hi]
  · exact testBit_lowFields v hi h2 h3

theorem testBit_hifCtlAfter_fetch (old v : Nat) : (hifCtlAfter old v).testBit 14 = v.testBit 14 := by
  rw [hifCtlAfter_eq, Nat.testBit_two_pow_mul_add _ (hifCtlAfter_low_lt old v)]
  show (b2n (v.testBit 14)).testBit 0 = v.testBit 14
  cases v.testBit 14 <;> rfl

/-- A write of HIF_CTL: the register, the coherent mode's effects on the lines, then a read of each ring's new descriptors. -/
theorem writeHifCtl_eq (v : Nat) : ∃ e c d x o, s.writeHifCtl v = (s.rings.map (·.1)).foldl (fun s r => s.askFetch r)
    { s.setReg HIF_CTL 0x640 (hifCtlAfter s.hifCtl v) with hifErr := e, cleat := c, cxlDown := d, lines := x, out := o } := by
  obtain ⟨e, c, d, h⟩ := checkCxl_frame (s.setReg HIF_CTL 0x640 (hifCtlAfter s.hifCtl v))
  have hw : s.writeHifCtl v =
      let u := (s.setReg HIF_CTL 0x640 (hifCtlAfter s.hifCtl v)).checkCxl
      let u := if u.hostLive && u.coherent && !s.coherent then u.fillLines else u
      (u.rings.map (·.1)).foldl (fun s r => s.askFetch r) u := rfl
  rw [hw, h]
  dsimp only
  split
  · obtain ⟨x, o, h'⟩ := fillLines_frame { s.setReg HIF_CTL 0x640 (hifCtlAfter s.hifCtl v) with hifErr := e, cleat := c, cxlDown := d }
    exact ⟨e, c, d, x, o, by rw [h']; rfl⟩
  · exact ⟨e, c, d, s.lines, s.out, rfl⟩

/-- The register that a write of HIF_CTL leaves. -/
theorem writeHifCtl_hifCtl (v : Nat) : (s.writeHifCtl v).hifCtl = hifCtlAfter s.hifCtl v := by
  obtain ⟨e, c, d, x, o, h⟩ := writeHifCtl_eq s v
  obtain ⟨g, o', hf⟩ := foldl_askFetch_frame { s.setReg HIF_CTL 0x640 (hifCtlAfter s.hifCtl v) with
    hifErr := e, cleat := c, cxlDown := d, lines := x, out := o } (s.rings.map (·.1))
  rw [h, hf]
  exact (reg_setReg_same s _ _ _).trans (Nat.mod_eq_of_lt (hifCtlAfter_lt _ _))

theorem writeHifCtl_descs (v : Nat) : (s.writeHifCtl v).descs = s.descs := by
  obtain ⟨e, c, d, x, o, h⟩ := writeHifCtl_eq s v
  obtain ⟨g, o', hf⟩ := foldl_askFetch_frame { s.setReg HIF_CTL 0x640 (hifCtlAfter s.hifCtl v) with
    hifErr := e, cleat := c, cxlDown := d, lines := x, out := o } (s.rings.map (·.1))
  rw [h, hf]
  rfl

/-! ### The reads of new descriptors -/

/-- The conditions of a read of new descriptors: the package reads host memory, fetching is let go, and the ring is an enabled
submission ring that has not stopped. -/
def State.mayFetch (s : State) (r : Nat) : Prop :=
  s.hostLive = true ∧ s.fetchEn = true ∧ cfgEn (s.rngCfg r) = true ∧ cfgKind (s.rngCfg r) = 0 ∧ (s.ring r).stopped = false

theorem askFetch_idle {r : Nat} (h : ¬ (s.mayFetch r ∧ (s.ring r).asked < (s.ring r).lead)) : s.askFetch r = s := by
  unfold State.askFetch
  extract_lets c g
  refine if_pos ?_
  by_contra hc
  refine h ?_
  simp only [Bool.or_eq_true, Bool.not_eq_eq_eq_not, Bool.not_true, decide_eq_true_eq, bne_iff_ne, not_or, Bool.not_eq_false,
    Bool.not_eq_true, not_not, not_le] at hc
  obtain ⟨⟨⟨⟨⟨hlive, hfetch⟩, hen⟩, hkind⟩, hstop⟩, hlead⟩ := hc
  exact ⟨⟨hlive, hfetch, hen, hkind, hstop⟩, hlead⟩

theorem askFetch_ring {r : Nat} (h : s.mayFetch r) (hl : (s.ring r).asked < (s.ring r).lead) (q : Nat) :
    (s.askFetch r).ring q = (s.setRing r { s.ring r with asked := (s.ring r).lead }).ring q := by
  obtain ⟨hlive, hfetch, hen, hkind, hstop⟩ := h
  unfold State.askFetch
  extract_lets c g
  have hc : (!s.hostLive || !s.fetchEn || !cfgEn c || cfgKind c != 0 || g.stopped || decide (g.lead ≤ g.asked)) = false := by
    simp [hlive, hfetch, c, g, hen, hkind, hstop, hl]
  rw [if_neg (by rw [hc]; decide)]
  split <;> rfl

/-- Every new descriptor of the ring has been asked for, in a read of its own ring only. -/
theorem askFetch_ring_or (r q : Nat) :
    (s.askFetch r).ring q = s.ring q ∨ (s.askFetch r).ring q = { s.ring q with asked := (s.ring q).lead } := by
  by_cases h : s.mayFetch r ∧ (s.ring r).asked < (s.ring r).lead
  · rw [askFetch_ring s h.1 h.2]
    by_cases hq : q = r
    · subst hq
      exact .inr (ring_setRing _ _ _)
    · exact .inl (ring_setRing_ne _ _ hq)
  · exact .inl (by rw [askFetch_idle s h])

theorem onlyAsked_foldl_askFetch (l : List Nat) : Claims.onlyAsked s (l.foldl (fun s r => s.askFetch r) s) := by
  refine List.foldlRecOn (motive := Claims.onlyAsked s) l _ (fun r => ⟨_, rfl⟩) fun u hu x _ r => ?_
  obtain ⟨a, ha⟩ := hu r
  rcases askFetch_ring_or u x r with h | h
  · exact ⟨a, by rw [h, ha]⟩
  · exact ⟨_, by rw [h, ha]⟩

theorem askFetch_of_not_fetchEn (r : Nat) (h : s.fetchEn = false) : s.askFetch r = s :=
  askFetch_idle s fun hm => by simp [hm.1.2.1] at h

theorem foldl_askFetch_of_not_fetchEn (l : List Nat) (h : s.fetchEn = false) : l.foldl (fun s r => s.askFetch r) s = s := by
  induction l with
  | nil => rfl
  | cons r l ih => rw [List.foldl_cons, askFetch_of_not_fetchEn s r h, ih]

theorem mayFetch_askFetch {r : Nat} (q : Nat) (h : s.mayFetch r) : (s.askFetch q).mayFetch r := by
  obtain ⟨hlive, hfetch, hen, hkind, hstop⟩ := h
  have hs : ((s.askFetch q).ring r).stopped = false := by
    rcases askFetch_ring_or s q r with h | h
    · rw [h, hstop]
    · rw [h, hstop]
  obtain ⟨g, o, hf⟩ := askFetch_frame s q
  rw [hf] at hs ⊢
  exact ⟨hlive, hfetch, hen, hkind, hs⟩

/-- After the loop, the reads of every new descriptor of a ring that may fetch have been asked for. -/
theorem foldl_askFetch_asked {l : List Nat} {r : Nat} (hr : r ∈ l) (h : s.mayFetch r) (hl : (s.ring r).asked < (s.ring r).lead) :
    ((l.foldl (fun s r => s.askFetch r) s).ring r).asked = (s.ring r).lead := by
  have keeps (v : State) (q : Nat) : ((v.askFetch q).ring r).lead = (v.ring r).lead := by
    rcases askFetch_ring_or v q r with h | h <;> rw [h]
  refine (foldl_reaches (P := fun v => (v.ring r).asked = (v.ring r).lead ∧ (v.ring r).lead = (s.ring r).lead)
    (I := fun v => v.mayFetch r ∧ (v.ring r).asked ≤ (v.ring r).lead ∧ (v.ring r).lead = (s.ring r).lead)
    s hr ⟨h, hl.le, rfl⟩ ?_ ?_ ?_).elim fun ha hl => ha.trans hl
  · rintro v q ⟨hm, ha, hv⟩
    refine ⟨mayFetch_askFetch v q hm, ?_, (keeps v q).trans hv⟩
    rcases askFetch_ring_or v q r with h | h <;> rw [h]
    exact ha
  · rintro v ⟨hm, ha, hv⟩
    refine ⟨?_, (keeps v r).trans hv⟩
    rcases ha.lt_or_eq with ha | ha
    · rw [askFetch_ring v hm ha, ring_setRing]
    · rw [askFetch_idle v fun hi => by omega, ha]
  · rintro v q ⟨ha, hv⟩
    refine ⟨?_, (keeps v q).trans hv⟩
    rcases askFetch_ring_or v q r with h | h <;> rw [h]
    exact ha

/-! ### Writes of HIF_CTL -/

theorem exec_setupLock_set (hb : s.barLive = true) {v : Word} (h : v.getLsbD 0 = true) :
    exec (.setupLock v) s = .next (s.barAccess.writeHifCtl v.toNat) := by
  rw [exec_setupLock]
  have h0 : bitAt v.toNat 0 = true := h
  simp only [execSetupLock, hb, h0, Bool.and_self, if_true]

theorem exec_fetchEn_live (hb : s.barLive = true) (v : Word) :
    exec (.fetchEn v) s = .next (s.barAccess.writeHifCtl v.toNat) := by
  rw [exec_fetchEn]
  simp only [execFetchEn, hb, if_true]

theorem testBit_writeHifCtl (v : Word) {i : Nat} (hi : i < 14) (h2 : i ≠ 2) (h3 : i ≠ 3) :
    (s.writeHifCtl v.toNat).hifCtl.testBit i = if s.setupLocked = true then s.hifCtl.testBit i else v.getLsbD i := by
  rw [writeHifCtl_hifCtl, testBit_hifCtlAfter_low _ _ hi h2 h3]
  rfl

theorem testBit_writeHifCtl_fetch (v : Word) : (s.writeHifCtl v.toNat).hifCtl.testBit 14 = v.getLsbD 14 := by
  rw [writeHifCtl_hifCtl, testBit_hifCtlAfter_fetch]
  rfl

theorem writeHifCtl_setupLocked {v : Word} (h : v.getLsbD 0 = true) : (s.writeHifCtl v.toNat).setupLocked = true := by
  have hb := testBit_writeHifCtl s v (i := 0) (by decide) (by decide) (by decide)
  refine hb.trans ?_
  split
  case isTrue hl => exact hl
  case isFalse => exact h

theorem onlyAsked_writeHifCtl (v : Nat) : Claims.onlyAsked s (s.writeHifCtl v) := by
  obtain ⟨e, c, d, x, o, h⟩ := writeHifCtl_eq s v
  rw [h]
  exact onlyAsked_foldl_askFetch _ _

theorem setReg_hifCtl_fetchEn (v : Nat) : (s.setReg HIF_CTL 0x640 (hifCtlAfter s.hifCtl v)).fetchEn = v.testBit 14 := by
  have h : (s.setReg HIF_CTL 0x640 (hifCtlAfter s.hifCtl v)).hifCtl = hifCtlAfter s.hifCtl v :=
    (reg_setReg_same s _ _ _).trans (Nat.mod_eq_of_lt (hifCtlAfter_lt _ _))
  rw [State.fetchEn, h]
  exact testBit_hifCtlAfter_fetch _ _

theorem writeHifCtl_rings {v : Nat} (h : v.testBit 14 = false) : (s.writeHifCtl v).rings = s.rings := by
  obtain ⟨e, c, d, x, o, hw⟩ := writeHifCtl_eq s v
  have hf := (setReg_hifCtl_fetchEn s v).trans h
  rw [hw]
  refine (congrArg State.rings (foldl_askFetch_of_not_fetchEn _ _ ?_)).trans rfl
  exact hf

theorem rngCfg_setReg_hifCtl (v r : Nat) : (s.setReg HIF_CTL 0x640 v).rngCfg r = s.rngCfg r :=
  reg_setReg_ne s _ _ _ (by simp only [offRngCfg, HIF_CTL]; omega)

theorem writeHifCtl_asked {v : Nat} (h : v.testBit 14 = true) (hlive : s.hostLive = true) {r : Nat} (hr : r ∈ s.rings.map (·.1))
    (hen : cfgEn (s.rngCfg r) = true) (hkind : cfgKind (s.rngCfg r) = 0) (hstop : (s.ring r).stopped = false)
    (hl : (s.ring r).asked < (s.ring r).lead) : ((s.writeHifCtl v).ring r).asked = (s.ring r).lead := by
  obtain ⟨e, c, d, x, o, hw⟩ := writeHifCtl_eq s v
  have hf := (setReg_hifCtl_fetchEn s v).trans h
  have hc := rngCfg_setReg_hifCtl s (hifCtlAfter s.hifCtl v) r
  rw [hw]
  exact foldl_askFetch_asked _ hr ⟨hlive, hf, by rw [← hc] at hen; exact hen, by rw [← hc] at hkind; exact hkind, hstop⟩ hl

/-! ### Errors of CXL.cache, and function-level resets -/

theorem exec_cxlCacheError_on (hb : s.barLive = true) (h : s.hifCtl.testBit 1 = true) :
    exec .cxlCacheError s = .next { s.hifSet 2 with
      cxlDown := true, lines := (s.hifSet 2).lines.map (fun e => (e.1, { e.2 with cached := false })) } := by
  have h1 : bitAt s.hifCtl 1 = true := h
  rw [exec_cxlCacheError]
  simp [execCxlCacheError, hb, h1]

theorem coherent_of_cxlDown (h : s.cxlDown = true) : s.coherent = false := by simp [State.coherent, h]

theorem exec_pfFlr_live (hb : s.barLive = true) : exec .pfFlr s = .next (s.raise 1409).flrAll := by
  rw [exec_pfFlr]
  simp [execPfFlr, hb]

/-- The registers of the host interface and of the rings are at their reset values after a reset of the PF. -/
theorem flrAll_reg {off rst : Nat} (h : off < 0x200000) : s.flrAll.reg off rst = rst % 2 ^ 64 := by
  have hf := find?_filter_key (fun k => decide (0x200000 ≤ k) && !rwlOffsets.contains k) s.setup off
  rw [if_neg (by simp [h])] at hf
  simp only [State.reg, State.flrAll, SMap.get, hf, BitVec.toNat_ofNat]

theorem flrAll_hifCtl : s.flrAll.hifCtl = 0x640 := flrAll_reg s (by decide)

theorem flrAll_rngCfg {r : Nat} (h : r < 8192) : s.flrAll.rngCfg r = rngCfgReset :=
  flrAll_reg s (by simp only [offRngCfg]; omega)

theorem flrAll_dblCtl {l : Nat} (h : l < 1024) : s.flrAll.dblCtl l = 0 :=
  flrAll_reg s (by simp only [offDblCtl]; omega)

/-- The enabled rings of tenant `t`. -/
def State.ringsOfTenant (s : State) (t : Nat) : List Nat :=
  (s.rings.filter (fun e => let c := s.rngCfg e.1; cfgEn c && cfgTenant c == t)).map (·.1)

/-- A line of tenant `t` is disabled. -/
def State.lineOff (t : Nat) (s : State) (l : Nat) : State :=
  let c := s.dblCtl l
  if lineEn c && lineTenant c == t then (s.setReg (offDblCtl l) 0 (c - 1)).setLine l .fresh else s

theorem exec_vfFlr_live (hb : s.barLive = true) (ten : Fin 64) :
    exec (.vfFlr ten) s = .next (
      let u := s.raise (1409 + (ten.val + 1))
      let u := (u.ringsOfTenant (ten.val + 1)).foldl (fun s r => s.ringOff r) u
      let u := (List.range 1024).foldl (State.lineOff (ten.val + 1)) u
      { u with descs := u.descs.map (fun e => if e.2.tenant.toNat = ten.val + 1 then (e.1, { e.2 with gone := true }) else e) }) := by
  rw [exec_vfFlr]
  simp only [execVfFlr, hb]
  rfl

/-! ### The rings of a tenant are disabled -/

theorem ringOff_rngCfg (r : Nat) : cfgEn ((s.ringOff r).rngCfg r) = false := by
  have h : (s.ringOff r).rngCfg r = s.rngCfg r / 2 * 2 % 2 ^ 64 := reg_setReg_same s _ _ _
  rw [h, cfgEn, bitAt, Nat.testBit_zero]
  simp only [decide_eq_false_iff_not]
  omega

theorem ringOff_reg_ne {off r : Nat} (d : Nat) (h : off ≠ offRngCfg r) : (s.ringOff r).reg off d = s.reg off d :=
  reg_setReg_ne s _ _ _ h

theorem ringOff_ring_ne {r q : Nat} (h : q ≠ r) : (s.ringOff r).ring q = s.ring q := ring_setRing_ne _ _ h

theorem offRngCfg_inj {r q : Nat} (h : r ≠ q) : offRngCfg r ≠ offRngCfg q := by simp only [offRngCfg]; omega

theorem offDblCtl_ne_offRngCfg {l : Nat} (hl : l < 1024) (r : Nat) : offDblCtl l ≠ offRngCfg r := by
  simp only [offRngCfg, offDblCtl]; omega

theorem foldl_ringOff_frame (l : List Nat) : ∃ m g, l.foldl (fun s r => s.ringOff r) s = { s with setup := m, rings := g } := by
  refine List.foldlRecOn (motive := fun u : State => ∃ m g, u = { s with setup := m, rings := g }) _ _ ⟨s.setup, s.rings, rfl⟩ ?_
  rintro _ ⟨m, g, rfl⟩ r -
  exact ⟨_, _, rfl⟩

theorem foldl_ringOff_off {l : List Nat} {r : Nat} (hr : r ∈ l ∨ cfgEn (s.rngCfg r) = false) :
    cfgEn ((l.foldl (fun s r => s.ringOff r) s).rngCfg r) = false := by
  have keep (v : State) (q : Nat) (hv : cfgEn (v.rngCfg r) = false) : cfgEn ((v.ringOff q).rngCfg r) = false := by
    by_cases hq : r = q
    · subst hq
      exact ringOff_rngCfg v r
    · rw [State.rngCfg, ringOff_reg_ne v _ (offRngCfg_inj hq)]
      exact hv
  rcases hr with hr | hr
  · exact foldl_reaches (I := fun _ => True) s hr trivial (fun _ _ _ => trivial) (fun v _ => ringOff_rngCfg v r) keep
  · exact List.foldlRecOn (motive := fun u : State => cfgEn (u.rngCfg r) = false) l _ hr fun v hv q _ => keep v q hv

theorem foldl_ringOff_keeps {l : List Nat} {r : Nat} (hr : r ∉ l) :
    (l.foldl (fun s r => s.ringOff r) s).rngCfg r = s.rngCfg r ∧ (l.foldl (fun s r => s.ringOff r) s).ring r = s.ring r := by
  refine List.foldlRecOn (motive := fun u : State => u.rngCfg r = s.rngCfg r ∧ u.ring r = s.ring r) l _ ⟨rfl, rfl⟩ ?_
  rintro v ⟨hc, hg⟩ q hq
  have hne : r ≠ q := fun h => hr (h ▸ hq)
  exact ⟨(ringOff_reg_ne v _ (offRngCfg_inj hne)).trans hc, (ringOff_ring_ne v hne).trans hg⟩

theorem foldl_ringOff_dblCtl (m : List Nat) {l : Nat} (hl : l < 1024) :
    (m.foldl (fun s r => s.ringOff r) s).dblCtl l = s.dblCtl l :=
  List.foldlRecOn (motive := fun u : State => u.dblCtl l = s.dblCtl l) m _ rfl fun v hv q _ =>
    (ringOff_reg_ne v 0 (offDblCtl_ne_offRngCfg hl q)).trans hv

theorem mem_ringsOfTenant {t r : Nat} (h : r ∈ s.ringsOfTenant t) : cfgTenant (s.rngCfg r) = t := by
  obtain ⟨e, he, rfl⟩ := List.mem_map.1 h
  have := (List.mem_filter.1 he).2
  simp only [Bool.and_eq_true, beq_iff_eq] at this
  exact this.2

theorem mem_ringsOfTenant_or {t : Nat} {e : Nat × Ring} (he : e ∈ s.rings) (ht : cfgTenant (s.rngCfg e.1) = t) :
    e.1 ∈ s.ringsOfTenant t ∨ cfgEn (s.rngCfg e.1) = false := by
  cases hen : cfgEn (s.rngCfg e.1) with
  | false => exact .inr rfl
  | true => exact .inl (List.mem_map.2 ⟨e, List.mem_filter.2 ⟨he, by simp [hen, ht]⟩, rfl⟩)

/-! ### The lines of a tenant are disabled -/

theorem lineOff_frame (t l : Nat) : ∃ m x, s.lineOff t l = { s with setup := m, lines := x } := by
  unfold State.lineOff
  extract_lets
  split
  · exact ⟨_, _, rfl⟩
  · exact ⟨s.setup, s.lines, rfl⟩

theorem lineOff_reg_ne {off : Nat} (t l d : Nat) (h : off ≠ offDblCtl l) : (s.lineOff t l).reg off d = s.reg off d := by
  unfold State.lineOff
  extract_lets
  split
  · exact reg_setReg_ne s _ _ _ h
  · rfl

theorem lineOff_other {t l : Nat} (h : lineTenant (s.dblCtl l) ≠ t) : s.lineOff t l = s :=
  if_neg (by simp [h])

/-- The line of the tenant is off after its turn. -/
theorem lineOff_off {t l : Nat} (h : lineTenant (s.dblCtl l) = t ∨ lineEn (s.dblCtl l) = false) :
    lineEn ((s.lineOff t l).dblCtl l) = false := by
  unfold State.lineOff
  extract_lets c
  split
  case isTrue hc =>
    have hd : ((s.setReg (offDblCtl l) 0 (s.dblCtl l - 1)).setLine l .fresh).dblCtl l = (s.dblCtl l - 1) % 2 ^ 64 :=
      reg_setReg_same s _ _ _
    simp only [Bool.and_eq_true, lineEn, bitAt, Nat.testBit_zero, decide_eq_true_eq] at hc
    rw [hd, lineEn, bitAt, Nat.testBit_zero]
    simp only [decide_eq_false_iff_not]
    omega
  case isFalse hc =>
    rcases h with h | h
    · simpa [c, h] using hc
    · exact h

theorem offDblCtl_inj {l k : Nat} (h : l ≠ k) : offDblCtl l ≠ offDblCtl k := by simp only [offDblCtl]; omega

theorem foldl_lineOff_frame (t : Nat) (k : List Nat) :
    ∃ m x, k.foldl (State.lineOff t) s = { s with setup := m, lines := x } := by
  refine List.foldlRecOn (motive := fun u : State => ∃ m x, u = { s with setup := m, lines := x }) _ _ ⟨s.setup, s.lines, rfl⟩ ?_
  rintro _ ⟨m, x, rfl⟩ l -
  obtain ⟨m', x', h⟩ := lineOff_frame { s with setup := m, lines := x } t l
  exact ⟨m', x', h⟩

theorem foldl_lineOff_off {t l : Nat} {k : List Nat} (hl : l ∈ k) (h : lineTenant (s.dblCtl l) = t) :
    lineEn ((k.foldl (State.lineOff t) s).dblCtl l) = false := by
  have keep (v : State) (q : Nat) (hq : l ≠ q) : (v.lineOff t q).dblCtl l = v.dblCtl l :=
    lineOff_reg_ne v t q 0 (offDblCtl_inj hq)
  refine foldl_reaches (P := fun v => lineEn (v.dblCtl l) = false)
    (I := fun v => lineTenant (v.dblCtl l) = t ∨ lineEn (v.dblCtl l) = false) s hl (.inl h) ?_ (fun v hv => lineOff_off v hv) ?_
  · intro v q hv
    by_cases hq : l = q
    · subst hq
      exact .inr (lineOff_off v hv)
    · rw [keep v q hq]
      exact hv
  · intro v q hv
    by_cases hq : l = q
    · subst hq
      exact lineOff_off v (.inr hv)
    · rw [keep v q hq]
      exact hv

theorem foldl_lineOff_keeps {t l : Nat} (k : List Nat) (h : lineTenant (s.dblCtl l) ≠ t) :
    (k.foldl (State.lineOff t) s).dblCtl l = s.dblCtl l := by
  refine List.foldlRecOn (motive := fun u : State => u.dblCtl l = s.dblCtl l) k _ rfl fun v hv q _ => ?_
  by_cases hq : l = q
  · subst hq
    rw [lineOff_other v (hv ▸ h), hv]
  · exact (lineOff_reg_ne v t q 0 (offDblCtl_inj hq)).trans hv

theorem foldl_lineOff_rngCfg {k : List Nat} (hk : ∀ l ∈ k, l < 1024) (t r : Nat) :
    (k.foldl (State.lineOff t) s).rngCfg r = s.rngCfg r :=
  List.foldlRecOn (motive := fun u : State => u.rngCfg r = s.rngCfg r) _ _ rfl fun v hv q hq =>
    (lineOff_reg_ne v t q _ (offDblCtl_ne_offRngCfg (hk q hq) r).symm).trans hv

/-! ### Configuration requests -/

theorem exec_configurationRequest_retry (hr : s.railsOn = true) (hb : s.barLive = false) (c : CfgAccess) :
    exec (.configurationRequest c) s = .next (Claims.sent s [.configStatus true]) := by
  rw [exec_configurationRequest]
  simp [execConfigurationRequest, hr, hb, State.emit, Claims.sent]

theorem exec_configurationRequest_live (hr : s.railsOn = true) (hb : s.barLive = true) (c : CfgAccess) :
    exec (.configurationRequest c) s = .next ((Claims.sent s [.configStatus false]).cfgAsk c.fn.val c.req) := by
  rw [exec_configurationRequest]
  simp [execConfigurationRequest, hr, hb, State.emit, Claims.sent]

/-- The port supports the features that R156 does not exclude. -/
theorem supported_eq (f : HostFeature) : supported f = !Claims.absentFeatures.contains f := by
  cases f <;> rfl

/-- The use of a feature that the port does not have draws an Unsupported Request or nothing. -/
theorem cfgAsk_uses {f : HostFeature} (hf : f ∈ Claims.absentFeatures) (fn : Nat) :
    s.cfgAsk fn (.uses f) = s.draw ∨ s.cfgAsk fn (.uses f) = Claims.sent s.draw [.unsupported fn] := by
  have hs : supported f = false := by simp [supported_eq, hf]
  simp only [State.cfgAsk, hs]
  cases Config.freeBool s.free
  · exact .inl rfl
  · exact .inr rfl

theorem cfgAsk_cxlCache_cxlOn (fn : Nat) (on flit256 : Bool) : (s.cfgAsk fn (.cxlCache on flit256)).cxlOn = (on && flit256) := by
  obtain ⟨e, c, d, h⟩ := checkCxl_frame { s with cxlOn := on && flit256 }
  simp only [State.cfgAsk, h]
  split
  · obtain ⟨x, o, hf⟩ := fillLines_frame { s with cxlOn := on && flit256, hifErr := e, cleat := c, cxlDown := d }
    rw [hf]
  · rfl

/-- DB_MODE without CXL.cache falls back to polling and sets HIF_ERR.CXL_FAULT (R166). -/
theorem cfgAsk_cxlCache_fault {fn : Nat} {on flit256 : Bool} (hm : s.hifCtl.testBit 1 = true) (hc : (on && flit256) = false)
    (hd : s.cxlDown = false) : (s.cfgAsk fn (.cxlCache on flit256)).cxlDown = true ∧
      (s.cfgAsk fn (.cxlCache on flit256)).hifErr.getLsbD 2 = true := by
  obtain ⟨e, c, h, he⟩ := hifSet_frame { s with cxlOn := false } (b := 2) (by decide)
  have hx : ({ s with cxlOn := false } : State).checkCxl = { s with cxlOn := false, hifErr := e, cleat := c, cxlDown := true } := by
    have h1 : bitAt s.hifCtl 1 = true := hm
    rw [State.checkCxl, if_pos (by show (bitAt s.hifCtl 1 && !false && !s.cxlDown) = true; simp [h1, hd]), h]
  have hn : ({ s with cxlOn := false, hifErr := e, cleat := c, cxlDown := true } : State).coherent = false :=
    coherent_of_cxlDown _ rfl
  simp only [State.cfgAsk, hc, hx, hn, Bool.and_false, Bool.false_and, Bool.false_eq_true, if_false]
  exact ⟨trivial, he⟩

theorem hostFails_of_mem {lo hi a n : Nat} (h : (lo, hi) ∈ s.hostBad) (hlo : lo ≤ a) (hhi : a < hi) (hn : 0 < n) :
    s.hostFails a n = true :=
  List.any_eq_true.2 ⟨_, h, decide_eq_true ⟨hhi, by show lo < a + n; omega⟩⟩

/-! ### The clauses on functions -/

theorem vfWrite_sets (hb : s.barLive = true) (ten : Fin 64) (off : Nat) (v : Word) :
    ∃ u, exec (.vfWrite ten off v) s = .next u ∧ u.hifErr.getLsbD 1 = true ∧ u.setup = s.setup ∧ u.tiles = s.tiles ∧
      u.out = s.out := by
  obtain ⟨e, c, h, he⟩ := hifSet_frame s (b := 1) (by decide)
  refine ⟨{ s with hifErr := e, cleat := c }, ?_, he, rfl, rfl, rfl⟩
  rw [exec_vfWrite, ← h]
  simp [execVfWrite, hb]

theorem setupLock_freezes (hb : s.barLive = true) (v : Word) (hv : v.getLsbD 0 = true) :
    ∃ u, exec (.setupLock v) s = .next u ∧ u.setupLocked = true ∧
      (∀ i, i < 14 → i ≠ 2 → i ≠ 3 → u.hifCtl.testBit i = if s.setupLocked = true then s.hifCtl.testBit i else v.getLsbD i) ∧
      u.hifCtl.testBit 14 = v.getLsbD 14 :=
  ⟨_, exec_setupLock_set s hb hv, writeHifCtl_setupLocked _ hv, fun _ hi h2 h3 => testBit_writeHifCtl _ v hi h2 h3,
    testBit_writeHifCtl_fetch _ v⟩

theorem fetchEn_follows (hb : s.barLive = true) (v : Word) :
    ∃ u, exec (.fetchEn v) s = .next u ∧ u.fetchEn = v.getLsbD 14 ∧ u.descs = s.descs ∧ Claims.onlyAsked s u ∧
      (v.getLsbD 14 = false → u.rings = s.rings) ∧
      (v.getLsbD 14 = true → s.hostLive = true → ∀ e ∈ s.rings, let c := s.rngCfg e.1
        cfgEn c = true → cfgKind c = 0 → (s.ring e.1).stopped = false → (s.ring e.1).asked < (s.ring e.1).lead →
          (u.ring e.1).asked = (s.ring e.1).lead) :=
  ⟨_, exec_fetchEn_live s hb v, testBit_writeHifCtl_fetch s.barAccess v, writeHifCtl_descs s.barAccess _,
    fun r => onlyAsked_writeHifCtl s.barAccess _ r, fun h => writeHifCtl_rings s.barAccess h,
    fun h hl _ he hen hk hs ha => writeHifCtl_asked s.barAccess h hl (List.mem_map_of_mem he) hen hk hs ha⟩

theorem cxlCacheError_ends_coherent (hb : s.barLive = true) (h : s.hifCtl.testBit 1 = true) :
    ∃ u, exec .cxlCacheError s = .next u ∧ u.hifErr.getLsbD 2 = true ∧ u.coherent = false ∧
      ∀ e ∈ u.lines, e.2.cached = false := by
  obtain ⟨e, c, hf, he⟩ := hifSet_frame s (b := 2) (by decide)
  refine ⟨_, exec_cxlCacheError_on s hb h, ?_, coherent_of_cxlDown _ rfl, fun x hx => ?_⟩
  · rw [hf]
    exact he
  · obtain ⟨y, -, rfl⟩ := List.mem_map.1 hx
    rfl

theorem pfFlr_resets (hb : s.barLive = true) :
    ∃ u, exec .pfFlr s = .next u ∧ u.rings = [] ∧ u.lines = [] ∧ u.hifErr = 0 ∧ u.setupLocked = false ∧ u.fetchEn = false ∧
      (∀ r, r < 8192 → cfgEn (u.rngCfg r) = false) ∧ (∀ l, l < 1024 → lineEn (u.dblCtl l) = false) ∧
      (∀ e ∈ u.descs, e.2.gone = true) ∧ u.tiles = s.tiles := by
  refine ⟨_, exec_pfFlr_live s hb, rfl, rfl, rfl, by rw [State.setupLocked, flrAll_hifCtl]; decide,
    by rw [State.fetchEn, flrAll_hifCtl]; decide, fun r hr => by rw [flrAll_rngCfg _ hr]; decide,
    fun l hl => by rw [flrAll_dblCtl _ hl]; decide, fun e he => ?_, ?_⟩
  · obtain ⟨x, -, rfl⟩ := List.mem_map.1 he
    rfl
  · obtain ⟨c, hc⟩ := raise_frame s 1409
    rw [hc]
    rfl

theorem vfFlr_disables (hb : s.barLive = true) (ten : Fin 64) :
    ∃ u, exec (.vfFlr ten) s = .next u ∧
      (∀ e ∈ s.rings, cfgTenant (s.rngCfg e.1) = ten.val + 1 → cfgEn (u.rngCfg e.1) = false) ∧
      (∀ r, cfgTenant (s.rngCfg r) ≠ ten.val + 1 → u.rngCfg r = s.rngCfg r ∧ u.ring r = s.ring r) ∧
      (∀ l, l < 1024 → lineTenant (s.dblCtl l) = ten.val + 1 → lineEn (u.dblCtl l) = false) ∧
      (∀ l, l < 1024 → lineTenant (s.dblCtl l) ≠ ten.val + 1 → u.dblCtl l = s.dblCtl l) ∧
      (∀ e ∈ u.descs, e.2.tenant.toNat = ten.val + 1 → e.2.gone = true) ∧ u.tiles = s.tiles := by
  obtain ⟨c, hc⟩ := raise_frame s (1409 + (ten.val + 1))
  have he := exec_vfFlr_live s hb ten
  obtain ⟨k, hk⟩ : ∃ k, k = List.range 1024 := ⟨_, rfl⟩
  have hlt (l : Nat) : l ∈ k ↔ l < 1024 := hk ▸ List.mem_range
  rw [hc, ← hk] at he
  extract_lets u₀ u₁ u₂ at he
  have hcfg (r : Nat) : u₂.rngCfg r = u₁.rngCfg r := foldl_lineOff_rngCfg u₁ (fun l => (hlt l).1) _ r
  have hdbl {l : Nat} (hl : l < 1024) : u₁.dblCtl l = s.dblCtl l := foldl_ringOff_dblCtl u₀ _ hl
  obtain ⟨m, g, h₁⟩ : ∃ m g, u₁ = { u₀ with setup := m, rings := g } := foldl_ringOff_frame u₀ _
  obtain ⟨m', x, h₂⟩ : ∃ m x, u₂ = { u₁ with setup := m, lines := x } := foldl_lineOff_frame u₁ _ _
  refine ⟨_, he, fun e hr ht => ?_, fun r ht => ?_, fun l hl ht => ?_, fun l hl ht => ?_, fun e hd ht => ?_, ?_⟩
  · refine (congrArg cfgEn (hcfg e.1)).trans (foldl_ringOff_off u₀ ?_)
    exact mem_ringsOfTenant_or u₀ hr ht
  · have hk := foldl_ringOff_keeps u₀ (l := u₀.ringsOfTenant (ten.val + 1)) (r := r) fun hm => ht (mem_ringsOfTenant u₀ hm)
    refine ⟨(hcfg r).trans hk.1, Eq.trans ?_ hk.2⟩
    show u₂.ring r = u₁.ring r
    rw [h₂]
    rfl
  · exact foldl_lineOff_off u₁ ((hlt l).2 hl) (by rw [hdbl hl]; exact ht)
  · exact (foldl_lineOff_keeps u₁ _ (by rw [hdbl hl]; exact ht)).trans (hdbl hl)
  · obtain ⟨y, -, rfl⟩ := List.mem_map.1 hd
    split at ht
    case isTrue h => rw [if_pos h]
    case isFalse h => exact absurd ht h
  · show u₂.tiles = s.tiles
    rw [h₂, h₁]

end

theorem hostFunctions_holds : Claims.hostFunctions := by
  refine fun s => ⟨fun hb => ⟨vfWrite_sets s hb, setupLock_freezes s hb, fetchEn_follows s hb, cxlCacheError_ends_coherent s hb,
    pfFlr_resets s hb, vfFlr_disables s hb⟩, fun fn req hr => ⟨fun hb => exec_configurationRequest_retry s hr hb _, fun hb => ?_⟩⟩
  refine ⟨exec_configurationRequest_live s hr hb _, fun f => ?_, fun f hf => ?_, fun on flit256 => ?_, fun lo hi a n hlo hhi hn => ?_⟩
  · rw [← supported_eq]
    exact exec_configurationRequest_live s hr hb _
  · refine ⟨_, exec_configurationRequest_live s hr hb _, ?_⟩
    rcases cfgAsk_uses (Claims.sent s [.configStatus false]) hf fn.val with h | h <;> rw [h]
    · exact ⟨.inl rfl, rfl, rfl⟩
    · exact ⟨.inr (by simp [Claims.sent]), rfl, rfl⟩
  · exact ⟨_, exec_configurationRequest_live s hr hb _, cfgAsk_cxlCache_cxlOn _ _ _ _,
      fun hm hc hd => cfgAsk_cxlCache_fault _ hm hc hd⟩
  · refine ⟨_, exec_configurationRequest_live s hr hb _, ?_⟩
    exact hostFails_of_mem _ (by simp [State.cfgAsk]) hlo hhi hn

/-- Settles O22, clause by clause: the accesses of BAR0, then the functions behind it. -/
theorem hostSpace : Obligations.HostSpace := ⟨setupAccesses_holds, hostFunctions_holds⟩

end Sys2Proof.Machine

namespace Sys2Proof.Machine

/-! ## CONFLICT and the two views of a partition (01 R18, R19)

A partition state word is written in three places: the arbiter's change (`State.pswWrite`), which sets CONFLICT by the new views; the
reset of the core (`State.coreReset`) and the loss of standby power (`State.afterLoss`), which put back the reset values. Every other
function of the model leaves the words alone. So the development has three layers: how the words follow an update of the state; the
frame, one lemma per function that changes no word; and one lemma per function that may change one, which keeps the agreement of
CONFLICT with the views. -/

/-! ### The partition state words of a state -/

section

variable {s u : State}

/-- The partition state words of a state, by partition: what a step can do to them is asked of this one function. -/
def State.words (s : State) : Nat → Psw := s.psw

/-- `simp` reads off the last update of a state whose words are asked for, and does not look into what the update holds. -/
@[congr] theorem words_congr (s : State) : s.words = s.words := rfl

theorem part_words {n : Nat} : (s.part n).psw = s.words n := rfl

/-- The word of a partition depends on the listed partitions alone: an unlisted one stands at the same reset value in every grade. -/
theorem words_eq (s : State) : s.words = fun m => ((SMap.find? s.parts m).map (·.psw)).getD .fresh := by
  funext m
  unfold State.words State.psw State.part SMap.get
  cases SMap.find? s.parts m <;> rfl

/-- An update of any field but the partitions leaves the words alone. The record is written out, so that `simp` finds the state
before. -/
@[simp] theorem words_update
    {pending : List Instr} {free now : Nat} {fuses : Fuses} {setup : SMap Word} {shadow : Option (Nat × BitVec 32)}
    {hifErr : BitVec 5} {cxlOn cxlDown : Bool} {pollAt pollNext launchLast : Nat} {ccReqs : List CcReq}
    {ccWait : List Packet} {lastOff : BitVec 24} {lines : SMap Line} {rings : SMap Ring} {descs : List (DescKey × Desc)}
    {jobs : List (DescKey × Job)} {msix : SMap (Bool × Bool)} {msixTab : SMap (Word × BitVec 32)} {msixAt : SMap Nat}
    {hostBad : List (Nat × Nat)} {ccSram : Memory} {fwImage : List Byte} {tilCorr tilUnc tilDtrap : Nat}
    {tiles : SMap Tile} {stks : SMap Stack} {router : Router} {mesh : List Flight} {ports : SMap Port} {staging : Staging}
    {lay : Lay} {sec : Sec} {pwr : Pwr} {thm : Thm} {cleat : Cleat} {mgmt : Mgmt} {boot : Boot} {rst : Rst} {out : List Output} :
    State.words
      { pending := pending, free := free, now := now, fuses := fuses, setup := setup, shadow := shadow, hifErr := hifErr, cxlOn := cxlOn,
        cxlDown := cxlDown, pollAt := pollAt, pollNext := pollNext, launchLast := launchLast, ccReqs := ccReqs, ccWait := ccWait,
        lastOff := lastOff, lines := lines, rings := rings, descs := descs, jobs := jobs, msix := msix, msixTab := msixTab,
        msixAt := msixAt, hostBad := hostBad, ccSram := ccSram, fwImage := fwImage, tilCorr := tilCorr, tilUnc := tilUnc,
        tilDtrap := tilDtrap, tiles := tiles, parts := s.parts, stks := stks, router := router, mesh := mesh, ports := ports,
        staging := staging, lay := lay, sec := sec, pwr := pwr, thm := thm, cleat := cleat, mgmt := mgmt, boot := boot, rst := rst,
        out := out } = s.words := by
  rw [words_eq, words_eq]

theorem words_setPart_eq {n : Nat} {p : Part} : (s.setPart n p).words = Function.update s.words n p.psw := by
  funext m
  rw [words_eq, words_eq]
  by_cases hm : m = n
  · subst hm
    simp [State.setPart, find?_set_same]
  · simp [State.setPart, find?_set_ne _ _ hm, hm]

/-- An update of any other field of a partition leaves the words alone. -/
@[simp] theorem words_setPart {n : Nat} {p : Part} (h : p.psw = s.words n) : (s.setPart n p).words = s.words := by
  rw [words_setPart_eq, h, Function.update_eq_self]

/-- Replacing every listed partition, the word by `h`, leaves the keys in their places. -/
theorem find?_map_psw {g : Nat × Part → Nat × Part} {h : Psw → Psw} (hk : ∀ e, (g e).1 = e.1) (hp : ∀ e, (g e).2.psw = h e.2.psw)
    (l : SMap Part) (m : Nat) : (SMap.find? (l.map g) m).map (·.psw) = (SMap.find? l m).map (fun p => h p.psw) := by
  induction l with
  | nil => rfl
  | cons e r ih =>
    rw [List.map_cons, ← Prod.eta (g e), ← Prod.eta e, SMap.find?, SMap.find?, hk]
    split
    · exact congrArg some (hp e)
    · exact ih

/-! Choices, loops and results that hold a state. -/

@[simp] theorem words_ite {c : Prop} [Decidable c] : (if c then s else u).words = if c then s.words else u.words :=
  apply_ite State.words c s u

@[simp] theorem psw_ite {c : Prop} [Decidable c] {p q : Part} : (if c then p else q).psw = if c then p.psw else q.psw :=
  apply_ite Part.psw c p q

@[simp] theorem words_fst_ite {β : Type} {c : Prop} [Decidable c] {a b : State × β} :
    (if c then a else b).1.words = if c then a.1.words else b.1.words :=
  apply_ite (fun v : State × β => v.1.words) c a b

@[simp] theorem words_foldl {α : Type} {f : State → α → State} {l : List α} (hf : ∀ v x, (f v x).words = v.words) :
    (l.foldl f s).words = s.words := by
  induction l generalizing s with
  | nil => rfl
  | cons x r ih => rw [List.foldl_cons, ih, hf]

@[simp] theorem words_foldl_fst {α β : Type} {f : State × β → α → State × β} {l : List α} {a : State × β}
    (hf : ∀ v x, (f v x).1.words = v.1.words) : (l.foldl f a).1.words = a.1.words := by
  induction l generalizing a with
  | nil => rfl
  | cons x r ih => rw [List.foldl_cons, ih, hf]

/-- The state of a pair that a function returned. -/
theorem words_of_fst {β : Type} {a : State × β} {x : β} {w : Nat → Psw} (e : a = (u, x)) (ha : a.1.words = w) : u.words = w := by
  rw [e] at ha
  exact ha

/-- The next state, if there is one, has the words of `s`. -/
def NextKeeps (s : State) (o : Host.Outcome State Fault Refusal) : Prop := ∀ u, o = .next u → u.words = s.words

@[simp] theorem nextKeeps_next : NextKeeps s (.next u) ↔ u.words = s.words :=
  ⟨fun h => h u rfl, fun h _ e => by cases e; exact h⟩

@[simp] theorem nextKeeps_fault {r : Fault} : NextKeeps s (.fault r) := fun _ e => by cases e

@[simp] theorem nextKeeps_ite {c : Prop} [Decidable c] {a b : Host.Outcome State Fault Refusal} :
    NextKeeps s (if c then a else b) ↔ if c then NextKeeps s a else NextKeeps s b := by
  split <;> rfl

/-! ### CONFLICT and the views (01 R19) -/

/-- Every word's CONFLICT reads 1 while its views disagree, and only then. -/
def WordsAgree (w : Nat → Psw) : Prop := ∀ m, (w m).conflict = true ↔ Claims.viewsDisagree (w m)

/-- At the reset values no view is known, and CONFLICT reads 0. -/
theorem wordsAgree_fresh : WordsAgree fun _ => .fresh := fun _ => by simp [Psw.fresh, Claims.viewsDisagree]

@[simp] theorem wordsAgree_ite {c : Prop} [Decidable c] {w v : Nat → Psw} :
    WordsAgree (if c then w else v) ↔ if c then WordsAgree w else WordsAgree v := by
  split <;> rfl

theorem disagree_iff {p : Psw} : (p.disagree1 || p.disagree2) = true ↔ Claims.viewsDisagree p := by
  simp [Psw.disagree1, Psw.disagree2, Claims.viewsDisagree, and_assoc, or_assoc]

/-- Each change of a word by the arbiter sets CONFLICT by the new views, whatever stood there before. -/
theorem conflict_change {p : Psw} {f : Psw → Psw} : (p.change f).conflict = true ↔ Claims.viewsDisagree (p.change f) := by
  rw [← disagree_iff]
  unfold Psw.change
  extract_lets q r
  have hr : r.conflict = (r.disagree1 || r.disagree2) := rfl
  split
  · next h => rw [← h, hr]
  · exact hr ▸ Iff.rfl

theorem WordsAgree.update {w : Nat → Psw} {n : Nat} {p : Psw} (h : WordsAgree w) (hp : p.conflict = true ↔ Claims.viewsDisagree p) :
    WordsAgree (Function.update w n p) := fun m => by
  by_cases hm : m = n
  · rw [hm, Function.update_self]
    exact hp
  · rw [Function.update_of_ne hm]
    exact h m

theorem agree_ite {c : Prop} [Decidable c] (hs : WordsAgree s.words) (hu : WordsAgree u.words) :
    WordsAgree (if c then s else u).words := by
  split
  · exact hs
  · exact hu

theorem agree_setPart {n : Nat} {p : Part} (hp : p.psw = s.words n) (hw : WordsAgree s.words) : WordsAgree (s.setPart n p).words :=
  (words_setPart hp).symm ▸ hw

@[simp] theorem agree_foldl {α : Type} {f : State → α → State} {l : List α}
    (hf : ∀ v x, WordsAgree v.words → WordsAgree (f v x).words) (h : WordsAgree s.words) : WordsAgree (l.foldl f s).words := by
  induction l generalizing s with
  | nil => exact h
  | cons x r ih => exact ih (hf s x h)

theorem agree_foldl_fst {α β : Type} {f : State × β → α → State × β} {l : List α} {a : State × β}
    (hf : ∀ v x, WordsAgree v.1.words → WordsAgree (f v x).1.words) (h : WordsAgree a.1.words) :
    WordsAgree (l.foldl f a).1.words := by
  induction l generalizing a with
  | nil => exact h
  | cons x r ih => exact ih (hf a x h)

theorem agree_of_fst {β : Type} {a : State × β} {x : β} (e : a = (u, x)) (ha : WordsAgree a.1.words) : WordsAgree u.words := by
  rw [e] at ha
  exact ha

/-- The next state, if there is one, has words that agree with their views. -/
def NextAgrees (o : Host.Outcome State Fault Refusal) : Prop := ∀ u, o = .next u → WordsAgree u.words

@[simp] theorem nextAgrees_next : NextAgrees (.next u) ↔ WordsAgree u.words :=
  ⟨fun h => h u rfl, fun h _ e => by cases e; exact h⟩

@[simp] theorem nextAgrees_fault {r : Fault} : NextAgrees (.fault r) := fun _ e => by cases e

end

/-! ### The functions that change no word

One lemma per function, in the order and under the names of the model's files, so that each proof cites the lemmas before it: the
function is an update beside the partitions, or is put together from such functions. `words_f` is about a function that returns a
state, `nextKeeps_execC` about a command. -/

section

variable {s u : State}

/-! #### Machine/Ops -/

@[simp] theorem words_setTile {n : Nat} {t : Tile} : (s.setTile n t).words = s.words := words_update
@[simp] theorem words_setStack {n : Nat} {k : Stack} : (s.setStack n k).words = s.words := words_update
@[simp] theorem words_setRing {n : Nat} {r : Ring} : (s.setRing n r).words = s.words := words_update
@[simp] theorem words_setLine {n : Nat} {l : Line} : (s.setLine n l).words = s.words := words_update
@[simp] theorem words_setPort {n : Nat} {p : Port} : (s.setPort n p).words = s.words := words_update
@[simp] theorem words_emit {o : Output} : (s.emit o).words = s.words := words_update
@[simp] theorem words_barAccess : s.barAccess.words = s.words := words_update
@[simp] theorem words_draw : s.draw.words = s.words := words_update
@[simp] theorem words_setDesc {k : DescKey} {d : Desc} : (s.setDesc k d).words = s.words := words_update
@[simp] theorem words_setJob {k : DescKey} {j : Job} : (s.setJob k j).words = s.words := words_update
@[simp] theorem words_dropDesc {k : DescKey} : (s.dropDesc k).words = s.words := words_update
@[simp] theorem words_dropJob {k : DescKey} : (s.dropJob k).words = s.words := words_update
@[simp] theorem words_setReg {off rst v : Nat} : (s.setReg off rst v).words = s.words := words_update
@[simp] theorem words_raise {n : Nat} : (s.raise n).words = s.words := by simp [State.raise]
@[simp] theorem words_partEvent {n k : Nat} : (s.partEvent n k).words = s.words := by simp [State.partEvent]

@[simp] theorem words_report {code detail : Nat} : (s.report code detail).words = s.words := by
  unfold State.report
  split <;> simp

@[simp] theorem words_logErr {r : ErrRec} : (s.logErr r).words = s.words := by simp [State.logErr]
@[simp] theorem words_refusedOrder {row party : Nat} : (s.refusedOrder row party).words = s.words := by simp [State.refusedOrder]
@[simp] theorem words_sendMsix {fn vec : Nat} : (s.sendMsix fn vec).words = s.words := by simp [State.sendMsix]
@[simp] theorem words_hifSet {b : Nat} : (s.hifSet b).words = s.words := by simp [State.hifSet]
@[simp] theorem words_ringEntry {r : Nat} {now : Bool} : (s.ringEntry r now).words = s.words := by simp [State.ringEntry]

@[simp] theorem words_putEntry {r : Nat} {bytes : List Byte} {now : Bool} : (s.putEntry r bytes now).1.words = s.words := by
  simp [State.putEntry]

@[simp] theorem words_noticeTo {t code part detail data : Nat} : (s.noticeTo t code part detail data).1.words = s.words := by
  unfold State.noticeTo
  split <;> simp

@[simp] theorem words_noticeOne {t code part detail data : Nat} : (s.noticeOne t code part detail data).words = s.words := by
  unfold State.noticeOne
  split <;> simp

@[simp] theorem words_notice0 {code detail data : Nat} : (s.notice0 code detail data).words = s.words := by simp [State.notice0]

@[simp] theorem words_noticePart {n code detail data : Nat} : (s.noticePart n code detail data).words = s.words := by
  simp [State.noticePart]

@[simp] theorem words_overflowNotice {r : Nat} : (s.overflowNotice r).words = s.words := by
  unfold State.overflowNotice
  dsimp only
  split
  · rfl
  · split
    · next e => simp [words_of_fst e words_putEntry]
    · next e => simp [words_of_fst e words_putEntry]

@[simp] theorem words_stopRing {r err : Nat} : (s.stopRing r err).words = s.words := by simp [State.stopRing]

@[simp] theorem words_complete {k : DescKey} {status info value : Nat} : (s.complete k status info value).words = s.words := by
  unfold State.complete
  dsimp only
  split
  · rfl
  · split
    · simp
    · split
      · simp
      · split
        next e => exact words_of_fst e (by simp)
        next e => simp [words_of_fst e words_putEntry]

@[simp] theorem words_cast {mask : Nat} {what : Cast} : (s.cast mask what).words = s.words := words_update

@[simp] theorem words_dropRotation {n : Nat} : (s.dropRotation n).words = s.words := by
  unfold State.dropRotation
  dsimp only
  split <;> simp [part_words]

/-! #### Machine/Operands -/

@[simp] theorem words_countSp {corr unc : Nat} : (s.countSp corr unc).words = s.words := words_update

@[simp] theorem words_spRead {n off len : Nat} : (s.spRead n off len).1.words = s.words := by
  unfold State.spRead
  dsimp only
  split <;> simp

@[simp] theorem words_spWrite {n off : Nat} {b : List Byte} : (s.spWrite n off b).words = s.words := words_update

/-! #### Machine/Jobs -/

@[simp] theorem words_launchTile {k : DescKey} {n : Nat} : (s.launchTile k n).words = s.words := by
  unfold State.launchTile
  split <;> simp

@[simp] theorem words_nextOnTile {n : Nat} : (s.nextOnTile n).words = s.words := by
  unfold State.nextOnTile
  dsimp only
  split <;> simp

@[simp] theorem words_tileRecord {n cause : Nat} {data : List Byte} : (s.tileRecord n cause data).words = s.words := by
  simp [State.tileRecord]

@[simp] theorem words_tileFault {n cause : Nat} {data : List Byte} : (s.tileFault n cause data).words = s.words := by
  unfold State.tileFault
  dsimp only
  split <;> simp [part_words]

/-! #### Machine/TileRun -/

@[simp] theorem words_doubleTrap {n vec detail : Nat} {pc : Word} : (s.doubleTrap n vec detail pc).words = s.words := by
  simp [State.doubleTrap]

@[simp] theorem words_takeTrap {n vec detail : Nat} {xval xpc : Word} : (s.takeTrap n vec detail xval xpc).words = s.words := by
  simp [State.takeTrap]

@[simp] theorem words_boundary {n : Nat} : (s.boundary n).words = s.words := by
  unfold State.boundary
  dsimp only
  (repeat' split) <;> simp

@[simp] theorem words_retire {n : Nat} {pc : Word} : (s.retire n pc).words = s.words := words_setPart rfl

/-- What an instruction's result carries has the words of `s`. -/
def IRes.Keeps (s : State) (r : IRes) : Prop :=
  ∀ u, (r = .next u ∨ (∃ pc, r = .jump u pc) ∨ r = .hold u ∨ ∃ vec detail xval, r = .trap u vec detail xval) → u.words = s.words

@[simp] theorem IRes.keeps_next : (IRes.next u).Keeps s ↔ u.words = s.words := by simp [IRes.Keeps]
@[simp] theorem IRes.keeps_jump {pc : Word} : (IRes.jump u pc).Keeps s ↔ u.words = s.words := by simp [IRes.Keeps]
@[simp] theorem IRes.keeps_hold : (IRes.hold u).Keeps s ↔ u.words = s.words := by simp [IRes.Keeps]

@[simp] theorem IRes.keeps_trap {vec detail : Nat} {xval : Word} : (IRes.trap u vec detail xval).Keeps s ↔ u.words = s.words := by
  simp [IRes.Keeps]

@[simp] theorem IRes.keeps_stall : IRes.stall.Keeps s := by simp [IRes.Keeps]

@[simp] theorem IRes.keeps_ite {c : Prop} [Decidable c] {a b : IRes} :
    (if c then a else b).Keeps s ↔ if c then a.Keeps s else b.Keeps s := by
  split <;> rfl

@[simp] theorem words_runInstr {n : Nat} {f : Tile → IRes} (hf : ∀ x, (f x).Keeps s) : (s.runInstr n f).words = s.words := by
  unfold State.runInstr
  dsimp only
  have h := hf (s.tile n)
  split
  · rfl
  · split <;> simp_all

@[simp] theorem words_writeReg {n : Nat} {rd : Reg} {v : Word} : (s.writeReg n rd v).words = s.words := words_update
@[simp] theorem words_runReg {n : Nat} {rd : Reg} {f : Tile → Word} : (s.runReg n rd f).words = s.words := by simp [State.runReg]

/-! #### Machine/PktOps -/

@[simp] theorem words_sendPkt {src : MPort} {p : Packet} : (s.sendPkt src p).words = s.words := words_update

theorem words_of_arrive {fits : MPort → Bool} {p : Packet} {d : Option MPort} (e : s.arrive fits p = some (u, d)) :
    u.words = s.words := by
  obtain ⟨rfl, -, -⟩ | ⟨i, f, -, -, -, -, rfl⟩ := arrive_eq e
  · rfl
  · exact words_update

@[simp] theorem words_answer {p : Packet} {status : Nat} {data : List Byte} : (s.answer p status data).words = s.words := by
  simp [State.answer]

@[simp] theorem words_modRouter {f : Router → Router} : (s.modRouter f).words = s.words := words_update
@[simp] theorem words_cntFraming : s.cntFraming.words = s.words := words_update
@[simp] theorem words_cntMalformed : s.cntMalformed.words = s.words := words_update
@[simp] theorem words_cntStomped : s.cntStomped.words = s.words := words_update
@[simp] theorem words_cntMisroute : s.cntMisroute.words = s.words := words_update
@[simp] theorem words_cntAddress : s.cntAddress.words = s.words := words_update
@[simp] theorem words_cntUnreach : s.cntUnreach.words = s.words := words_update
@[simp] theorem words_cntRefused : s.cntRefused.words = s.words := words_update
@[simp] theorem words_cntCircuit : s.cntCircuit.words = s.words := words_update
@[simp] theorem words_cntLate : s.cntLate.words = s.words := words_update
@[simp] theorem words_cntMc : s.cntMc.words = s.words := words_update
@[simp] theorem words_absorb {n : Nat} : (s.absorb n).words = s.words := words_setPart rfl
@[simp] theorem words_bar {n : Nat} {p : Packet} : (s.bar n p).words = s.words := by simp [State.bar]
@[simp] theorem words_journal {id : Nat} {data : List Byte} : (s.journal id data).words = s.words := by simp [State.journal]

/-! #### Machine/Stack -/

@[simp] theorem words_journalRows : s.journalRows.words = s.words := by simp [State.journalRows]

@[simp] theorem words_listRow {n l source : Nat} : (s.listRow n l source).words = s.words := by
  unfold State.listRow
  dsimp only
  (repeat' split) <;> simp

@[simp] theorem words_lineCorrected {n l : Nat} : (s.lineCorrected n l).words = s.words := by simp [State.lineCorrected]
@[simp] theorem words_lineWrite {n l key : Nat} {b : List Byte} : (s.lineWrite n l key b).words = s.words := words_update
@[simp] theorem words_refuse {p : Packet} {st : Nat} : (s.refuse p st).words = s.words := by simp [State.refuse]

@[simp] theorem words_stackAdmit {n : Nat} {p : Packet} : (s.stackAdmit n p).words = s.words := by
  unfold State.stackAdmit
  dsimp only
  (repeat' split) <;> simp

@[simp] theorem words_readDone {p : Packet} {b : List Byte} : (s.readDone p b).words = s.words := by simp [State.readDone]

@[simp] theorem nextKeeps_execStackRequest {n : PartNo} {pkt : Packet} : NextKeeps s (execStackRequest n pkt s) := by
  unfold execStackRequest
  split
  · simp
  · split
    · next e => simp [words_of_arrive e]
    · simp

@[simp] theorem words_remapRow {n e : Nat} {bad : List Nat} : (s.remapRow n e bad).words = s.words := by simp [State.remapRow]

@[simp] theorem nextKeeps_execRowRemap {n : PartNo} {e : Fin 1024} {bad : List Nat} : NextKeeps s (execRowRemap n e bad s) := by
  simp [execRowRemap]

@[simp] theorem nextKeeps_execAutoRemap {v : Word} {bad : List Nat} : NextKeeps s (execAutoRemap v bad s) := by simp [execAutoRemap]
@[simp] theorem nextKeeps_execRefresh {n : PartNo} {bank : Fin 2048} : NextKeeps s (execRefresh n bank s) := by simp [execRefresh]
@[simp] theorem nextKeeps_execSelfRefreshExit {n : PartNo} : NextKeeps s (execSelfRefreshExit n s) := by simp [execSelfRefreshExit]

@[simp] theorem nextKeeps_execSelfRefreshEntry {n : PartNo} : NextKeeps s (execSelfRefreshEntry n s) := by
  simp [execSelfRefreshEntry]

/-! #### Machine/Tensor -/

@[simp] theorem words_unitReads {n : Nat} {l : List (Nat × Nat)} : (s.unitReads n l).1.words = s.words := by
  unfold State.unitReads
  refine words_foldl_fst fun v x => ?_
  split
  · next e => exact words_of_fst e words_spRead
  · next e => exact words_of_fst e words_spRead

@[simp] theorem words_anchorPhase {n : Nat} {d : TDesc} {given : Option Int} : (s.anchorPhase n d given).1.words = s.words := by
  unfold State.anchorPhase
  split <;> simp

@[simp] theorem words_runPasses {n : Nat} {d : TDesc} {a : Int} {mem : Memory} {l : List (List Nat × List Nat)}
    {acc : List (Nat × Byte) × BitVec 8} : (s.runPasses n d a mem l acc).1.words = s.words := by
  induction l generalizing s acc with
  | nil => rfl
  | cons p rest ih =>
    rw [State.runPasses]
    dsimp only
    split
    · simp
    · simp [ih]

@[simp] theorem words_multiply {n : Nat} {d : TDesc} {a : Int} {late : List (Nat × List Byte)} :
    (s.multiply n d a late).1.words = s.words := by
  unfold State.multiply
  dsimp only
  split <;> simp

@[simp] theorem words_tancAnchor {n : Nat} {d : TDesc} {word : Word} : (s.tancAnchor n d word).1.words = s.words := by
  simp [State.tancAnchor]

@[simp] theorem words_readTDesc {n : Nat} {off : Word} : (s.readTDesc n off).1.words = s.words := by
  unfold State.readTDesc
  split
  · rfl
  · split
    · next e => exact words_of_fst e words_spRead
    · next e => exact words_of_fst e words_spRead

@[simp] theorem words_unitWrites {n : Nat} {w : List (Nat × Byte)} : (s.unitWrites n w).words = s.words := by
  simp [State.unitWrites]

@[simp] theorem words_setRun {n : Nat} {r : TRun} : (s.setRun n r).words = s.words := by
  unfold State.setRun
  dsimp only
  split <;> simp

@[simp] theorem words_heatAdd {n tc : Nat} : (s.heatAdd n tc).words = s.words := words_setPart rfl

/-! #### Machine/DmaOps -/

@[simp] theorem words_sendRead {n tag : Nat} {kind : BitVec 4} {dma : Option (Nat × Nat)} {p : Packet} :
    (s.sendRead n tag kind dma p).words = s.words :=
  words_update

@[simp] theorem words_sendWrite {n tag : Nat} {kind : BitVec 4} {dma : Option (Nat × Nat)} {p : Packet} :
    (s.sendWrite n tag kind dma p).words = s.words :=
  words_update

@[simp] theorem words_setXfer {n h : Nat} {x : Xfer} : (s.setXfer n h x).words = s.words := words_update

theorem words_of_dmaWrite {n h : Nat} {ten : BitVec 7} {x : Xfer} (e : s.dmaWrite n h ten x = some u) : u.words = s.words := by
  unfold State.dmaWrite at e
  dsimp only at e
  (repeat' split at e) <;> cases e <;> simp

theorem words_of_dmaAsk {n h : Nat} {ten : BitVec 7} {x : Xfer} (e : s.dmaAsk n h ten x = some u) : u.words = s.words := by
  unfold State.dmaAsk at e
  dsimp only at e
  split at e
  · cases e
  · split at e
    · split at e
      · next e₁ => cases e; simp [words_of_fst e₁ words_spRead]
      · next e₁ => cases e; simp [words_of_fst e₁ words_spRead]
    · (repeat' split at e) <;> cases e <;> simp

@[simp] theorem words_dmaRun {n h k : Nat} : (s.dmaRun n h k).words = s.words := by
  induction k generalizing s with
  | zero => rfl
  | succ k ih =>
    unfold State.dmaRun
    dsimp only
    split
    · rfl
    · split
      · rfl
      · split
        · next e => rw [ih, words_of_dmaWrite e]
        · split
          · next e => rw [ih, words_of_dmaAsk e]
          · rfl

@[simp] theorem words_dmaPump {n h : Nat} : (s.dmaPump n h).words = s.words := by
  unfold State.dmaPump
  split <;> simp

@[simp] theorem words_dmaPumpAll {n : Nat} : (s.dmaPumpAll n).words = s.words := by simp [State.dmaPumpAll]

@[simp] theorem words_dmaReply {n h i : Nat} {write : Bool} {p : Packet} : (s.dmaReply n h i write p).words = s.words := by
  unfold State.dmaReply
  split <;> simp

@[simp] theorem words_dmaSpoil {n : Nat} {x : Xfer} {first : Nat} : (s.dmaSpoil n x first).words = s.words := by
  simp [State.dmaSpoil]

@[simp] theorem words_dmaMark {n h st : Nat} : (s.dmaMark n h st).words = s.words := words_update

/-! #### Machine/Pointing -/

@[simp] theorem words_engineErr {n code : Nat} : (s.engineErr n code).words = s.words := words_update
@[simp] theorem words_engineError {n tile h code : Nat} : (s.engineError n tile h code).words = s.words := words_update

@[simp] theorem words_streamRows {tile h : Nat} {b : List Byte} {upTo : Nat} {fail : Option Nat} :
    (s.streamRows tile h b upTo fail).words = s.words := by
  unfold State.streamRows
  split <;> simp

@[simp] theorem words_dropStream {n sid : Nat} : (s.dropStream n sid).words = s.words := words_update

@[simp] theorem words_streamAdmit {tile h len rows : Nat} {owner : BitVec 7} {b : List Byte} :
    (s.streamAdmit tile h len rows owner b).1.words = s.words := by
  simp [State.streamAdmit]

/-! #### Machine/Vector -/

@[simp] theorem nextKeeps_issueV {t : TileNo} {legal : Bool} {op : VOp} {a b c d : Reg} :
    NextKeeps s (s.issueV t legal op a b c d) := by
  simp [State.issueV]

@[simp] theorem nextKeeps_execVadd {t : TileNo} {sub : BitVec 2} {a b c d : Reg} : NextKeeps s (execVadd t sub a b c d s) := by
  simp [execVadd]

@[simp] theorem nextKeeps_execVsub {t : TileNo} {sub : BitVec 2} {a b c d : Reg} : NextKeeps s (execVsub t sub a b c d s) := by
  simp [execVsub]

@[simp] theorem nextKeeps_execVmul {t : TileNo} {sub : BitVec 2} {a b c d : Reg} : NextKeeps s (execVmul t sub a b c d s) := by
  simp [execVmul]

@[simp] theorem nextKeeps_execVfma {t : TileNo} {sub : BitVec 2} {a b c d : Reg} : NextKeeps s (execVfma t sub a b c d s) := by
  simp [execVfma]

@[simp] theorem nextKeeps_execVmax {t : TileNo} {sub : BitVec 2} {a b c d : Reg} : NextKeeps s (execVmax t sub a b c d s) := by
  simp [execVmax]

@[simp] theorem nextKeeps_execVmin {t : TileNo} {sub : BitVec 2} {a b c d : Reg} : NextKeeps s (execVmin t sub a b c d s) := by
  simp [execVmin]

@[simp] theorem nextKeeps_execVscl {t : TileNo} {sub : BitVec 2} {a b c d : Reg} : NextKeeps s (execVscl t sub a b c d s) := by
  simp [execVscl]

@[simp] theorem nextKeeps_execVexp {t : TileNo} {sub : BitVec 2} {a b d : Reg} : NextKeeps s (execVexp t sub a b d s) := by
  simp [execVexp]

@[simp] theorem nextKeeps_execVrcp {t : TileNo} {sub : BitVec 2} {a b d : Reg} : NextKeeps s (execVrcp t sub a b d s) := by
  simp [execVrcp]

@[simp] theorem nextKeeps_execVrsq {t : TileNo} {sub : BitVec 2} {a b d : Reg} : NextKeeps s (execVrsq t sub a b d s) := by
  simp [execVrsq]

@[simp] theorem nextKeeps_execVrsum {t : TileNo} {sub : BitVec 2} {a b d : Reg} : NextKeeps s (execVrsum t sub a b d s) := by
  simp [execVrsum]

@[simp] theorem nextKeeps_execVrmax {t : TileNo} {sub : BitVec 2} {a b d : Reg} : NextKeeps s (execVrmax t sub a b d s) := by
  simp [execVrmax]

@[simp] theorem nextKeeps_execVsmax {t : TileNo} {a b d : Reg} : NextKeeps s (execVsmax t a b d s) := by simp [execVsmax]
@[simp] theorem nextKeeps_execVrmsn {t : TileNo} {a b c d : Reg} : NextKeeps s (execVrmsn t a b c d s) := by simp [execVrmsn]

@[simp] theorem nextKeeps_execVcvt {t : TileNo} {sub : BitVec 6} {a b d : Reg} : NextKeeps s (execVcvt t sub a b d s) := by
  simp [execVcvt]

@[simp] theorem nextKeeps_execVbse {t : TileNo} {sub : BitVec 6} {a b c d : Reg} : NextKeeps s (execVbse t sub a b c d s) := by
  simp [execVbse]

@[simp] theorem nextKeeps_execVbsd {t : TileNo} {sub : BitVec 6} {a b c d : Reg} : NextKeeps s (execVbsd t sub a b c d s) := by
  simp [execVbsd]

@[simp] theorem nextKeeps_execVwsanc {t : TileNo} {a b d : Reg} : NextKeeps s (execVwsanc t a b d s) := by simp [execVwsanc]
@[simp] theorem nextKeeps_execVwsenc {t : TileNo} {a b c d : Reg} : NextKeeps s (execVwsenc t a b c d s) := by simp [execVwsenc]
@[simp] theorem nextKeeps_execVwsaln {t : TileNo} {a b d : Reg} : NextKeeps s (execVwsaln t a b d s) := by simp [execVwsaln]
@[simp] theorem nextKeeps_execVwsadd {t : TileNo} {a b d : Reg} : NextKeeps s (execVwsadd t a b d s) := by simp [execVwsadd]

@[simp] theorem nextKeeps_execVwsrnd {t : TileNo} {bf16 : Bool} {a b d : Reg} : NextKeeps s (execVwsrnd t bf16 a b d s) := by
  simp [execVwsrnd]

@[simp] theorem nextKeeps_execVwsamx {t : TileNo} {a b d : Reg} : NextKeeps s (execVwsamx t a b d s) := by simp [execVwsamx]

/-! #### Machine/TileMemory -/

@[simp] theorem words_loadBytes {n off len : Nat} : (s.loadBytes n off len).1.words = s.words := by
  unfold State.loadBytes
  dsimp only
  split
  · next e => simp [words_of_fst e words_spRead]
  · exact words_spRead

@[simp] theorem nextKeeps_runLoad {t : TileNo} {n : Nat} {rd rs1 : Reg} {imm : BitVec 16} :
    NextKeeps s (s.runLoad t n rd rs1 imm) := by
  refine nextKeeps_next.2 (words_runInstr fun x => ?_)
  dsimp only
  split
  · simp
  · split
    · next e => simp [words_of_fst e words_loadBytes]
    · next e => simp [words_of_fst e words_loadBytes]

@[simp] theorem nextKeeps_runStore {t : TileNo} {n : Nat} {rd rs1 : Reg} {imm : BitVec 16} :
    NextKeeps s (s.runStore t n rd rs1 imm) := by
  refine nextKeeps_next.2 (words_runInstr fun x => ?_)
  dsimp only
  split <;> simp

@[simp] theorem nextKeeps_execLdd {t : TileNo} {rd rs1 : Reg} {imm : BitVec 16} : NextKeeps s (execLdd t rd rs1 imm s) := by
  simp [execLdd]

@[simp] theorem nextKeeps_execLdw {t : TileNo} {rd rs1 : Reg} {imm : BitVec 16} : NextKeeps s (execLdw t rd rs1 imm s) := by
  simp [execLdw]

@[simp] theorem nextKeeps_execLdh {t : TileNo} {rd rs1 : Reg} {imm : BitVec 16} : NextKeeps s (execLdh t rd rs1 imm s) := by
  simp [execLdh]

@[simp] theorem nextKeeps_execLdb {t : TileNo} {rd rs1 : Reg} {imm : BitVec 16} : NextKeeps s (execLdb t rd rs1 imm s) := by
  simp [execLdb]

@[simp] theorem nextKeeps_execStd {t : TileNo} {rd rs1 : Reg} {imm : BitVec 16} : NextKeeps s (execStd t rd rs1 imm s) := by
  simp [execStd]

@[simp] theorem nextKeeps_execStw {t : TileNo} {rd rs1 : Reg} {imm : BitVec 16} : NextKeeps s (execStw t rd rs1 imm s) := by
  simp [execStw]

@[simp] theorem nextKeeps_execSth {t : TileNo} {rd rs1 : Reg} {imm : BitVec 16} : NextKeeps s (execSth t rd rs1 imm s) := by
  simp [execSth]

@[simp] theorem nextKeeps_execStb {t : TileNo} {rd rs1 : Reg} {imm : BitVec 16} : NextKeeps s (execStb t rd rs1 imm s) := by
  simp [execStb]

/-! #### Machine/TilePort -/

@[simp] theorem keeps_readAccess {n : Nat} {x : Tile} {rd : Reg} {kind typ : BitVec 4} {a : Word} {pl : List Byte} {atomic : Bool} :
    (s.readAccess n x rd kind typ a pl atomic).Keeps s := by
  unfold State.readAccess
  dsimp only
  (repeat' split) <;> simp

@[simp] theorem nextKeeps_execGld {t : TileNo} {rd rs1 : Reg} : NextKeeps s (execGld t rd rs1 s) := by simp [execGld]

@[simp] theorem nextKeeps_execGst {t : TileNo} {rs1 rs2 : Reg} : NextKeeps s (execGst t rs1 rs2 s) := by
  refine nextKeeps_next.2 (words_runInstr fun x => ?_)
  dsimp only
  split <;> simp

@[simp] theorem nextKeeps_runAtom {t : TileNo} {op : Nat} {a b c d : Reg} : NextKeeps s (s.runAtom t op a b c d) := by
  simp [State.runAtom]

@[simp] theorem nextKeeps_execAtomSwap {t : TileNo} {a b c d : Reg} : NextKeeps s (execAtomSwap t a b c d s) := by
  simp [execAtomSwap]

@[simp] theorem nextKeeps_execAtomAdd {t : TileNo} {a b c d : Reg} : NextKeeps s (execAtomAdd t a b c d s) := by simp [execAtomAdd]
@[simp] theorem nextKeeps_execAtomCas {t : TileNo} {a b c d : Reg} : NextKeeps s (execAtomCas t a b c d s) := by simp [execAtomCas]
@[simp] theorem nextKeeps_execAtomMax {t : TileNo} {a b c d : Reg} : NextKeeps s (execAtomMax t a b c d s) := by simp [execAtomMax]
@[simp] theorem nextKeeps_execAtomMin {t : TileNo} {a b c d : Reg} : NextKeeps s (execAtomMin t a b c d s) := by simp [execAtomMin]

@[simp] theorem words_dmaStart {n h : Nat} {fw : Bool} {ten : BitVec 7} {off : Word} :
    (s.dmaStart n h fw ten off).words = s.words := by
  unfold State.dmaStart
  dsimp only
  split
  · simp
  · split
    · next e => simp [words_of_fst e words_spRead]
    · next s₁ _ e =>
      have h₁ : s₁.words = s.words := words_of_fst e words_spRead
      split
      · simp [h₁]
      · split
        · simp [h₁]
        · split
          · simp [h₁]
          · split
            · simp [h₁]
            · split
              · split
                · next e => simp [words_of_fst e words_spRead, h₁]
                · next s₂ _ e =>
                  have h₂ : s₂.words = s.words := (words_of_fst e words_spRead).trans h₁
                  split
                  · next e => simpa [h₂] using words_of_fst e words_streamAdmit
                  · next e => simpa [h₂] using words_of_fst e words_streamAdmit
              · simp [h₁]

@[simp] theorem nextKeeps_execDmaGo {t : TileNo} {a b : Reg} : NextKeeps s (execDmaGo t a b s) := by
  refine nextKeeps_next.2 (words_runInstr fun x => ?_)
  split <;> simp

@[simp] theorem nextKeeps_execDmaWait {t : TileNo} {a b : Reg} : NextKeeps s (execDmaWait t a b s) := by
  refine nextKeeps_next.2 (words_runInstr fun x => ?_)
  (repeat' split) <;> simp

@[simp] theorem nextKeeps_execDmaTest {t : TileNo} {a b : Reg} : NextKeeps s (execDmaTest t a b s) := by
  refine nextKeeps_next.2 (words_runInstr fun x => ?_)
  (repeat' split) <;> simp

@[simp] theorem nextKeeps_runWaitv {t : TileNo} {ge : Bool} {a b c : Reg} : NextKeeps s (s.runWaitv t ge a b c) := by
  refine nextKeeps_next.2 (words_runInstr fun x => ?_)
  dsimp only
  split
  · simp
  · split
    · next e => simp [words_of_fst e words_spRead]
    · next e => simp [words_of_fst e words_spRead]

@[simp] theorem nextKeeps_execWaitvEq {t : TileNo} {a b c : Reg} : NextKeeps s (execWaitvEq t a b c s) := by simp [execWaitvEq]
@[simp] theorem nextKeeps_execWaitvGe {t : TileNo} {a b c : Reg} : NextKeeps s (execWaitvGe t a b c s) := by simp [execWaitvGe]

@[simp] theorem nextKeeps_execWaitvWake {t : TileNo} : NextKeeps s (execWaitvWake t s) := by
  unfold execWaitvWake
  dsimp only
  split <;> simp

@[simp] theorem nextKeeps_execWaitvTimeout {t : TileNo} : NextKeeps s (execWaitvTimeout t s) := by
  unfold execWaitvTimeout
  dsimp only
  split <;> simp

@[simp] theorem nextKeeps_execBar {t : TileNo} : NextKeeps s (execBar t s) := by simp [execBar]

@[simp] theorem nextKeeps_execBarRelease {key : DescKey} : NextKeeps s (execBarRelease key s) := by
  unfold execBarRelease
  split <;> simp

@[simp] theorem nextKeeps_execLayr {t : TileNo} {a : Reg} : NextKeeps s (execLayr t a s) := by simp [execLayr]
@[simp] theorem nextKeeps_execLayw {t : TileNo} {a b : Reg} : NextKeeps s (execLayw t a b s) := by simp [execLayw]

@[simp] theorem nextKeeps_execLaywWake {t : TileNo} : NextKeeps s (execLaywWake t s) := by
  unfold execLaywWake
  dsimp only
  split <;> simp

@[simp] theorem words_lateDrop {n : Nat} {write : Bool} {tag : Nat} : (s.lateDrop n write tag).words = s.words := words_setPart rfl

@[simp] theorem nextKeeps_execLateReply {t : TileNo} {pkt : Packet} : NextKeeps s (execLateReply t pkt s) := by
  unfold execLateReply
  dsimp only
  split
  · split
    · simp
    · split
      · next e => simp [words_of_arrive e]
      · simp
  · simp

@[simp] theorem words_portRefuse {n : Nat} {p : Packet} {st cause : Nat} : (s.portRefuse n p st cause).words = s.words := by
  simp [State.portRefuse]

@[simp] theorem words_portServe {n : Nat} {p : Packet} : (s.portServe n p).words = s.words := by
  unfold State.portServe
  dsimp only
  split
  · split
    · next e => simp [words_of_fst e words_spRead]
    · next e => simp [words_of_fst e words_spRead]
  · split
    · split
      · next e => simp [words_of_fst e words_spRead]
      · next e => split <;> simp [words_of_fst e words_spRead]
    · simp

@[simp] theorem words_portInbound {n : Nat} {p : Packet} : (s.portInbound n p).words = s.words := by simp [State.portInbound]

@[simp] theorem nextKeeps_execScratchpadScrub {t : TileNo} {upsets : List (BitVec 20 × Bool)} :
    NextKeeps s (execScratchpadScrub t upsets s) := by
  simp [execScratchpadScrub]

/-! #### Machine/Fused -/

@[simp] theorem words_setTeam {t : Team} : (s.setTeam t).words = s.words := words_update

@[simp] theorem words_modRun {n : Nat} {f : TRun → TRun} : (s.modRun n f).words = s.words := by
  unfold State.modRun
  dsimp only
  (repeat' split) <;> simp

@[simp] theorem words_askSlots {n k : Nat} : (s.askSlots n k).words = s.words := by
  induction k generalizing s with
  | zero => rfl
  | succ k ih =>
    unfold State.askSlots
    dsimp only
    split
    · rfl
    · split
      · split
        · rfl
        · simp [ih]
      · rfl

@[simp] theorem words_queueSends {n : Nat} {l : List (Nat × Nat)} : (s.queueSends n l).words = s.words := by simp [State.queueSends]

@[simp] theorem words_dropStep {ten : BitVec 7} {num step : Nat} : (s.dropStep ten num step).words = s.words := by
  simp [State.dropStep]

@[simp] theorem words_clearMarks {n : Nat} : (s.clearMarks n).words = s.words := words_update

@[simp] theorem words_teamCast {tm : Team} {off : Nat} {b : List Byte} : (s.teamCast tm off b).words = s.words := by
  simp [State.teamCast]

@[simp] theorem words_castAnchors {n : Nat} : (s.castAnchors n).words = s.words := by
  unfold State.castAnchors
  dsimp only
  (repeat' split) <;> simp

@[simp] theorem words_putGroup {n : Nat} {d : TDesc} {g : Nat} {v : Nat × List Int} : (s.putGroup n d g v).words = s.words := by
  simp [State.putGroup]

@[simp] theorem words_addChunk {n first : Nat} {b : List Byte} : (s.addChunk n first b).words = s.words := by
  unfold State.addChunk
  split <;> simp

@[simp] theorem words_finishShard {n : Nat} : (s.finishShard n).words = s.words := by
  unfold State.finishShard
  dsimp only
  (repeat' split) <;> simp

@[simp] theorem words_reanchor {n : Nat} : (s.reanchor n).words = s.words := by
  unfold State.reanchor
  dsimp only
  split <;> simp

@[simp] theorem words_readFDesc {n : Nat} {e : TEntry} : (s.readFDesc n e).1.words = s.words := by
  unfold State.readFDesc
  split
  · rfl
  · split
    · next e => exact words_of_fst e words_spRead
    · next e => exact words_of_fst e words_spRead

@[simp] theorem words_stray : s.stray.words = s.words := words_update

/-! #### Machine/Staging -/

@[simp] theorem words_noSlot {p : Packet} {c : Col} : (s.noSlot p c).words = s.words := words_update

@[simp] theorem nextKeeps_execSlotReq {pkt : Packet} : NextKeeps s (execSlotReq pkt s) := by
  unfold execSlotReq
  dsimp only
  (repeat' split) <;> simp

@[simp] theorem nextKeeps_execGrant {i : Nat} : NextKeeps s (execGrant i s) := by
  unfold execGrant
  dsimp only
  (repeat' split) <;> simp

@[simp] theorem words_freeSlotNo {k : Nat} : (s.freeSlotNo k).words = s.words := words_update
@[simp] theorem words_chunkMsg {k : Slot} {kind : Nat} : (s.chunkMsg k kind).words = s.words := words_update

@[simp] theorem words_collectiveRecord {t : Nat} {k : Slot} {cause : Nat} : (s.collectiveRecord t k cause).words = s.words := by
  simp [State.collectiveRecord]

@[simp] theorem nextKeeps_execChecked {pkt : Packet} : NextKeeps s (execChecked pkt s) := by
  unfold execChecked
  dsimp only
  (repeat' split) <;> simp

@[simp] theorem nextKeeps_execResend {pkt : Packet} : NextKeeps s (execResend pkt s) := by
  unfold execResend
  dsimp only
  (repeat' split) <;> simp

@[simp] theorem nextKeeps_issueT {t : TileNo} {legal : Bool} {op : TOp} {a b c d : Reg} :
    NextKeeps s (s.issueT t legal op a b c d) := by
  simp [State.issueT]

@[simp] theorem nextKeeps_execTmm {t : TileNo} {a : Reg} : NextKeeps s (execTmm t a s) := by simp [execTmm]
@[simp] theorem nextKeeps_execTmmAg {t : TileNo} {a b : Reg} : NextKeeps s (execTmmAg t a b s) := by simp [execTmmAg]
@[simp] theorem nextKeeps_execTanc {t : TileNo} {a b : Reg} : NextKeeps s (execTanc t a b s) := by simp [execTanc]

@[simp] theorem nextKeeps_execTmmxRs {t : TileNo} {sub : BitVec 6} {a b c d : Reg} : NextKeeps s (execTmmxRs t sub a b c d s) := by
  simp [execTmmxRs]

@[simp] theorem nextKeeps_execTmmxAr {t : TileNo} {sub : BitVec 6} {a b c d : Reg} : NextKeeps s (execTmmxAr t sub a b c d s) := by
  simp [execTmmxAr]

@[simp] theorem nextKeeps_execTmmxAg {t : TileNo} {sub : BitVec 6} {a b c d : Reg} : NextKeeps s (execTmmxAg t sub a b c d s) := by
  simp [execTmmxAg]

@[simp] theorem nextKeeps_execTmmxA2a {t : TileNo} {sub : BitVec 6} {a b c d : Reg} :
    NextKeeps s (execTmmxA2a t sub a b c d s) := by
  simp [execTmmxA2a]

@[simp] theorem nextKeeps_execChargeRequest {t : TileNo} : NextKeeps s (execChargeRequest t s) := by
  unfold execChargeRequest
  dsimp only
  split <;> simp

/-! #### Machine/Armature -/

@[simp] theorem words_setArm {n : Nat} {a : Armature} : (s.setArm n a).words = s.words := words_setPart rfl

@[simp] theorem nextKeeps_execRotation {n : PartNo} : NextKeeps s (execRotation n s) := by
  unfold execRotation
  dsimp only
  (repeat' split) <;> simp [part_words]

@[simp] theorem nextKeeps_execDrainMarker {t : TileNo} {src : MarkerSrc} : NextKeeps s (execDrainMarker t src s) := by
  unfold execDrainMarker
  dsimp only
  split <;> simp [part_words]

@[simp] theorem words_copyTile {n x y : Nat} : (s.copyTile n x y).words = s.words := by simp [State.copyTile]
@[simp] theorem words_putFirmware {image : List Byte} {t : Nat} : (s.putFirmware image t).words = s.words := words_update

@[simp] theorem nextKeeps_execFirmwareBroadcast {mask : BitVec 12} {image : List Byte} :
    NextKeeps s (execFirmwareBroadcast mask image s) := by
  simp [execFirmwareBroadcast]

@[simp] theorem nextKeeps_execFirmwareCrcCheck {n : PartNo} {i : Fin 72} : NextKeeps s (execFirmwareCrcCheck n i s) := by
  simp [execFirmwareCrcCheck]

/-! #### Machine/LinkOps -/

@[simp] theorem words_portState {p : Nat} {st : LState} : (s.portState p st).words = s.words := by simp [State.portState]
@[simp] theorem words_toStage {p : Nat} {st : LState} : (s.toStage p st).words = s.words := by simp [State.toStage]

@[simp] theorem words_sendRound {p : Nat} {blocks : List (Nat × BitVec 130)} : (s.sendRound p blocks).words = s.words := by
  unfold State.sendRound
  dsimp only
  split <;> simp

@[simp] theorem words_sendOs {p n : Nat} {b : List Byte} : (s.sendOs p n b).words = s.words := by simp [State.sendOs]
@[simp] theorem words_sendCmp {p : Nat} : (s.sendCmp p).words = s.words := by simp [State.sendCmp]
@[simp] theorem words_dataRound {p : Nat} {b : List Byte} : (s.dataRound p b).words = s.words := by simp [State.dataRound]

@[simp] theorem words_drainTx {p k : Nat} : (s.drainTx p k).words = s.words := by
  induction k generalizing s with
  | zero => rfl
  | succ k ih =>
    unfold State.drainTx
    dsimp only
    split <;> simp [ih]

@[simp] theorem words_sendFrame {p : Nat} {flits : List (Nat × List Byte)} {seq : BitVec 11} {cred : List Nat} {rdy : Bool} :
    (s.sendFrame p flits seq cred rdy).words = s.words := by
  simp [State.sendFrame]

@[simp] theorem words_nullFrame {p : Nat} {rdy : Bool} : (s.nullFrame p rdy).words = s.words := by simp [State.nullFrame]

@[simp] theorem words_creditFrames {p k : Nat} : (s.creditFrames p k).words = s.words := by
  induction k generalizing s with
  | zero => rfl
  | succ k ih =>
    unfold State.creditFrames
    split <;> simp [ih]

@[simp] theorem words_rxFree {o : Org} : (s.rxFree o).words = s.words := by simp [State.rxFree]

@[simp] theorem words_orgLeaves {o : Option Org} : (s.orgLeaves o).words = s.words := by
  unfold State.orgLeaves
  split <;> simp

@[simp] theorem words_sendAgain {p : Nat} {l : List Sent} : (s.sendAgain p l).words = s.words := by
  unfold State.sendAgain
  refine words_foldl fun v x => ?_
  split <;> simp

@[simp] theorem words_sendNew {p k : Nat} {l : List Sent} : (s.sendNew p k l).words = s.words := by
  induction k generalizing s l with
  | zero => rfl
  | succ k ih =>
    cases l with
    | nil => rfl
    | cons a r =>
      unfold State.sendNew
      simp [ih]

@[simp] theorem words_startPacket {p vc : Nat} {k : Queued} {r : List Queued} : (s.startPacket p vc k r).words = s.words := by
  simp [State.startPacket]

theorem words_of_flitOut {p n : Nat} {x : Sent} (e : s.flitOut p n = some (u, x)) : u.words = s.words := by
  unfold State.flitOut at e
  dsimp only at e
  (repeat' split at e) <;> cases e <;> simp

@[simp] theorem words_gather {p : Nat} {acc : List Sent} {k : Nat} : (s.gather p acc k).1.words = s.words := by
  induction k generalizing s acc with
  | zero => rfl
  | succ k ih =>
    unfold State.gather
    dsimp only
    split
    · next e => rw [ih, words_of_flitOut e]
    · split
      · rfl
      · split <;> simp [ih]

@[simp] theorem words_pump {p : Nat} : (s.pump p).words = s.words := by simp [State.pump]
@[simp] theorem words_enqueue {p vc : Nat} {k : Queued} : (s.enqueue p vc k).words = s.words := by simp [State.enqueue]
@[simp] theorem words_portSend {p vc : Nat} {k : Packet} : (s.portSend p vc k).words = s.words := by simp [State.portSend]

@[simp] theorem words_ctlSend {p kind : Nat} {fields : List (Nat × List Byte)} : (s.ctlSend p kind fields).words = s.words := by
  simp [State.ctlSend]

@[simp] theorem words_unpause {p : Nat} : (s.unpause p).words = s.words := by simp [State.unpause]

@[simp] theorem words_sendTs {p : Nat} {typ : Byte} {rate : Nat} {hold : Bool} : (s.sendTs p typ rate hold).words = s.words :=
  words_update

@[simp] theorem words_leaveService {p : Nat} : (s.leaveService p).words = s.words := by simp [State.leaveService]
@[simp] theorem words_miswire {p : Nat} {v : Bool} : (s.miswire p v).words = s.words := words_update
@[simp] theorem words_toAlign {p : Nat} : (s.toAlign p).words = s.words := by simp [State.toAlign]
@[simp] theorem words_portFail {p : Nat} : (s.portFail p).words = s.words := by simp [State.portFail]

@[simp] theorem words_beginRetrain {p : Nat} {decides : Bool} : (s.beginRetrain p decides).words = s.words := by
  simp [State.beginRetrain]

/-! #### Machine/Lay -/

@[simp] theorem psw_tick {p : Part} : p.tick.psw = p.psw := by simp [Part.tick]
@[simp] theorem words_ppsSet {old : Word} : (s.ppsSet old).words = s.words := by simp [State.ppsSet]
@[simp] theorem words_layState {st : Nat} : (s.layState st).words = s.words := by simp [State.layState]
@[simp] theorem words_tickParts : s.tickParts.words = s.words := by simp [State.tickParts, part_words]
@[simp] theorem nextKeeps_execLayTick : NextKeeps s (execLayTick s) := by simp [execLayTick]
@[simp] theorem words_calFull {order : Nat} : (s.calFull order).words = s.words := by simp [State.calFull]

@[simp] theorem words_armPkg {lt : Word} {c : Cal} : (s.armPkg lt c).1.words = s.words := by
  unfold State.armPkg
  dsimp only
  split <;> simp

@[simp] theorem words_armPart {n : Nat} {lt : Word} {c : PCal} : (s.armPart n lt c).words = s.words := words_setPart rfl
@[simp] theorem words_markPassed : s.markPassed.words = s.words := by simp [State.markPassed, part_words]
@[simp] theorem words_firstLock {theta : Int} : (s.firstLock theta).1.words = s.words := by simp [State.firstLock]

@[simp] theorem nextKeeps_execPpsEdge : NextKeeps s (execPpsEdge s) := by
  unfold execPpsEdge
  dsimp only
  (repeat' split) <;> simp

@[simp] theorem nextKeeps_execPpsTimeout : NextKeeps s (execPpsTimeout s) := by simp [execPpsTimeout]
@[simp] theorem nextKeeps_execSyncTimer : NextKeeps s (execSyncTimer s) := by simp [execSyncTimer]
@[simp] theorem nextKeeps_execSyncReq {p : PortNo} {t1 : Word} : NextKeeps s (execSyncReq p t1 s) := by simp [execSyncReq]
@[simp] theorem words_parentSample {theta : Int} : (s.parentSample theta).words = s.words := by simp [State.parentSample]
@[simp] theorem words_demote {cid : BitVec 16} : (s.demote cid).words = s.words := by simp [State.demote]
@[simp] theorem words_reparent : s.reparent.words = s.words := by simp [State.reparent]

@[simp] theorem words_validSample {p : Nat} {theta : Int} : (s.validSample p theta).words = s.words := by
  unfold State.validSample
  dsimp only
  (repeat' split) <;> simp

@[simp] theorem nextKeeps_execSyncResp {p : PortNo} {st : BitVec 2} {pps : Bool} {master : BitVec 16} {hops : BitVec 6}
    {t1 t2 t3 : Word} :
    NextKeeps s (execSyncResp p st pps master hops t1 t2 t3 s) := by
  simp [execSyncResp]

@[simp] theorem nextKeeps_execParentTimeout : NextKeeps s (execParentTimeout s) := by simp [execParentTimeout]

/-! #### Machine/Rings -/

@[simp] theorem words_readLine {l : Nat} : (s.readLine l).words = s.words := words_update
@[simp] theorem words_fillLines : s.fillLines.words = s.words := by simp [State.fillLines]
@[simp] theorem words_checkCxl : s.checkCxl.words = s.words := by simp [State.checkCxl]
@[simp] theorem words_writeDblCtl {l v : Nat} : (s.writeDblCtl l v).words = s.words := by simp [State.writeDblCtl]

@[simp] theorem nextKeeps_execDoorbellLineEnable {l : LineNo} {v : Word} : NextKeeps s (execDoorbellLineEnable l v s) := by
  simp [execDoorbellLineEnable]

@[simp] theorem nextKeeps_execSnoopInvalidation {l : LineNo} : NextKeeps s (execSnoopInvalidation l s) := by
  simp [execSnoopInvalidation]

@[simp] theorem words_pollBegin : s.pollBegin.words = s.words := by simp [State.pollBegin]
@[simp] theorem nextKeeps_execDoorbellPoll : NextKeeps s (execDoorbellPoll s) := by simp [execDoorbellPoll]
@[simp] theorem words_askFetch {r : Nat} : (s.askFetch r).words = s.words := by simp [State.askFetch]
@[simp] theorem words_slotSeen {r : Nat} {v : BitVec 32} : (s.slotSeen r v).words = s.words := by simp [State.slotSeen]
@[simp] theorem words_hostReadErr {ats : Bool} : (s.hostReadErr ats).words = s.words := by simp [State.hostReadErr]
@[simp] theorem words_lineDone {l : Nat} : (s.lineDone l).words = s.words := by simp [State.lineDone]

@[simp] theorem nextKeeps_execDoorbellRead {l : LineNo} {rd : HostRead} : NextKeeps s (execDoorbellRead l rd s) := by
  unfold execDoorbellRead
  dsimp only
  (repeat' split) <;> simp

@[simp] theorem nextKeeps_execCxlCacheError : NextKeeps s (execCxlCacheError s) := by simp [execCxlCacheError]

@[simp] theorem nextKeeps_execRingEnable {r : RingNo} {v : Word} {slot : HostRead} : NextKeeps s (execRingEnable r v slot s) := by
  unfold execRingEnable
  dsimp only
  (repeat' split) <;> simp

@[simp] theorem words_ringOff {r : Nat} : (s.ringOff r).words = s.words := words_update
@[simp] theorem words_writeRngCfg {r v : Nat} : (s.writeRngCfg r v).words = s.words := by simp [State.writeRngCfg]
@[simp] theorem nextKeeps_execRingDisable {r : RingNo} {v : Word} : NextKeeps s (execRingDisable r v s) := by simp [execRingDisable]

@[simp] theorem nextKeeps_execModerationTimer {r : RingNo} : NextKeeps s (execModerationTimer r s) := by
  unfold execModerationTimer
  dsimp only
  split <;> simp

@[simp] theorem words_maskVector {fn vec : Nat} {mask : Bool} : (s.maskVector fn vec mask).words = s.words := by
  simp [State.maskVector]

@[simp] theorem nextKeeps_execMsixVectorUnmask {fn : TenantNo} {vec : BitVec 6} : NextKeeps s (execMsixVectorUnmask fn vec s) := by
  simp [execMsixVectorUnmask]

@[simp] theorem words_writeMsix {fn off v : Nat} : (s.writeMsix fn off v).words = s.words := by simp [State.writeMsix]

@[simp] theorem words_cfgAsk {fn : Nat} {req : CfgReq} : (s.cfgAsk fn req).words = s.words := by
  unfold State.cfgAsk
  split <;> simp

@[simp] theorem nextKeeps_execConfigurationRequest {c : CfgAccess} : NextKeeps s (execConfigurationRequest c s) := by
  simp [execConfigurationRequest]

@[simp] theorem nextKeeps_execVfWrite {ten : Fin 64} {off : Nat} {v : Word} : NextKeeps s (execVfWrite ten off v s) := by
  simp [execVfWrite]

@[simp] theorem words_writeHifCtl {v : Nat} : (s.writeHifCtl v).words = s.words := by simp [State.writeHifCtl]
@[simp] theorem nextKeeps_execSetupLock {v : Word} : NextKeeps s (execSetupLock v s) := by simp [execSetupLock]
@[simp] theorem nextKeeps_execFetchEn {v : Word} : NextKeeps s (execFetchEn v s) := by simp [execFetchEn]
@[simp] theorem words_flrAll : s.flrAll.words = s.words := words_update
@[simp] theorem nextKeeps_execPfFlr : NextKeeps s (execPfFlr s) := by simp [execPfFlr]
@[simp] theorem nextKeeps_execVfFlr {ten : Fin 64} : NextKeeps s (execVfFlr ten s) := by simp [execVfFlr]

/-! #### Machine/Descriptors -/

@[simp] theorem words_startDesc {k : DescKey} {b : List Byte} : (s.startDesc k b).words = s.words := words_update

@[simp] theorem nextKeeps_execDescriptorFetch {r : RingNo} {rd : HostRead} : NextKeeps s (execDescriptorFetch r rd s) := by
  unfold execDescriptorFetch
  dsimp only
  split
  · simp
  · split
    · simp
    · simp
    · split
      · simp
      · split
        · simp
        · split
          · simp
          · split
            · simp
            · split
              · next e => simp [words_of_fst e words_armPkg]
              · next e => split <;> simp [words_of_fst e words_armPkg]

@[simp] theorem words_admitTiles {k : DescKey} {n : Nat} : (s.admitTiles k n).words = s.words := by
  unfold State.admitTiles
  split <;> simp

@[simp] theorem words_ccSend {k : Packet} : (s.ccSend k).words = s.words := by
  unfold State.ccSend
  dsimp only
  (repeat' split) <;> simp

@[simp] theorem words_ccPump : s.ccPump.words = s.words := by simp [State.ccPump]
@[simp] theorem words_ccReply {rid : BitVec 16} {status : Nat} : (s.ccReply rid status).words = s.words := by simp [State.ccReply]

@[simp] theorem words_ccResend {rid : BitVec 16} : (s.ccResend rid).words = s.words := by
  unfold State.ccResend
  split <;> simp

@[simp] theorem nextKeeps_execDma {key : DescKey} : NextKeeps s (execDma key s) := by
  unfold execDma
  split <;> simp

@[simp] theorem words_dmaOut {d : Desc} {b : List Byte} : (s.dmaOut d b).words = s.words := by simp [State.dmaOut]

@[simp] theorem nextKeeps_execHostDmaComplete {key : DescKey} {r : HostDmaEnd} : NextKeeps s (execHostDmaComplete key r s) := by
  unfold execHostDmaComplete
  dsimp only
  (repeat' split) <;> simp

@[simp] theorem nextKeeps_execLayScheduledEvent {key : DescKey} : NextKeeps s (execLayScheduledEvent key s) := by
  unfold execLayScheduledEvent
  split <;> simp

@[simp] theorem words_diagCopy {k : DescKey} {d : Desc} {recs : List (List Byte)} : (s.diagCopy k d recs).words = s.words := by
  simp [State.diagCopy]

@[simp] theorem nextKeeps_execDiagEcho {key : DescKey} : NextKeeps s (execDiagEcho key s) := by
  unfold execDiagEcho
  split <;> simp

@[simp] theorem nextKeeps_execDiagErrlog {key : DescKey} : NextKeeps s (execDiagErrlog key s) := by
  unfold execDiagErrlog
  split <;> simp

@[simp] theorem nextKeeps_execDiagProgress {key : DescKey} : NextKeeps s (execDiagProgress key s) := by
  unfold execDiagProgress
  split <;> simp

@[simp] theorem nextKeeps_execDiagPrtstate {key : DescKey} : NextKeeps s (execDiagPrtstate key s) := by
  unfold execDiagPrtstate
  split <;> simp

/-! #### Machine/Router -/

@[simp] theorem words_chooseVia {t : Topo} {k : Packet} : (s.chooseVia t k).1.words = s.words := by
  unfold State.chooseVia
  dsimp only
  (repeat' split) <;> simp

@[simp] theorem words_linkSend {p vc : Nat} {k : Packet} {inside : Bool} : (s.linkSend p vc k inside).words = s.words := by
  unfold State.linkSend
  split
  · simp
  · split <;> simp

@[simp] theorem words_deliverCheck {k : Packet} {link : Bool} : (s.deliverCheck k link).1.words = s.words := by
  simp [State.deliverCheck]

@[simp] theorem words_deliverHere {k : Packet} {link : Bool} : (s.deliverHere k link).words = s.words := by simp [State.deliverHere]
@[simp] theorem words_unreachable {k : Packet} : (s.unreachable k).words = s.words := by simp [State.unreachable]

@[simp] theorem words_mcCopy {t : Topo} {k : Packet} {p stage phase : Nat} {inside : Bool} :
    (s.mcCopy t k p stage phase inside).words = s.words := by
  simp [State.mcCopy]

@[simp] theorem words_mcLocal {t : Topo} {k : Packet} {n stage phase : Nat} {inside : Bool} :
    (s.mcLocal t k n stage phase inside).words = s.words := by
  unfold State.mcLocal
  split <;> simp

@[simp] theorem words_mcDeliver {k : Packet} {link : Bool} : (s.mcDeliver k link).words = s.words := by simp [State.mcDeliver]

@[simp] theorem words_multicast {t : Topo} {k : Packet} {e : Ext} {inPort : Option Nat} :
    (s.multicast t k e inPort).words = s.words := by
  unfold State.multicast
  dsimp only
  split
  · simp
  · split
    · simp
    · split
      · simp
      · split
        · split
          · rw [words_foldl]
            · simp
            · intro v x
              (repeat' split) <;> simp
          · simp
        · split <;> simp
        · (repeat' split) <;> simp
        · simp

@[simp] theorem words_dropCkt {owner cid : Nat} : (s.dropCkt owner cid).words = s.words := words_update
@[simp] theorem words_setCkt {c : Ckt} : (s.setCkt c).words = s.words := words_update

@[simp] theorem words_cktAck {k : Packet} {status : Nat} {data : List Byte} : (s.cktAck k status data).words = s.words :=
  words_update

@[simp] theorem words_cktRefuse {k : Packet} {code : Nat} : (s.cktRefuse k code).words = s.words := words_update

@[simp] theorem words_cktSetUp {t : Topo} {k : Packet} {e : Ext} {inPort : Option Nat} :
    (s.cktSetUp t k e inPort).words = s.words := by
  unfold State.cktSetUp
  dsimp only
  (repeat' split) <;> simp

@[simp] theorem words_cktRelease {t : Topo} {k : Packet} {e : Ext} {inPort : Option Nat} :
    (s.cktRelease t k e inPort).words = s.words := by
  unfold State.cktRelease
  dsimp only
  (repeat' split) <;> simp

@[simp] theorem words_cktDeliver {k : Packet} {link : Bool} : (s.cktDeliver k link).words = s.words := by simp [State.cktDeliver]

@[simp] theorem words_cktForward {t : Topo} {k : Packet} {e : Ext} {inPort : Option Nat} :
    (s.cktForward t k e inPort).words = s.words := by
  unfold State.cktForward
  dsimp only
  (repeat' split) <;> simp

theorem words_of_headerFault {k : Packet} (e : s.headerFault k = some u) : u.words = s.words := by
  unfold State.headerFault at e
  (repeat' split at e) <;> cases e <;> simp

theorem words_of_rxTake {p : Nat} {k : Packet} (e : s.rxTake p k = some u) : u.words = s.words := by
  obtain rfl | ⟨_, _, rfl⟩ := rxTake_eq e
  · rfl
  · exact words_update

@[simp] theorem words_handDone : s.handDone.words = s.words := by simp [State.handDone]

@[simp] theorem words_atSource {t : Topo} {k : Packet} : (s.atSource t k).1.words = s.words := by
  unfold State.atSource
  dsimp only
  split <;> simp

@[simp] theorem words_routeWith {t : Topo} {k : Packet} {inPort : Option Nat} : (s.routeWith t k inPort).words = s.words := by
  unfold State.routeWith
  dsimp only
  (repeat' split) <;> simp

@[simp] theorem words_routeAlone {k : Packet} {inPort : Option Nat} : (s.routeAlone k inPort).words = s.words := by
  simp [State.routeAlone]

@[simp] theorem words_routeFrom {k : Packet} {inPort : Option Nat} : (s.routeFrom k inPort).words = s.words := by
  unfold State.routeFrom
  split
  · simp
  · split
    · next e => exact words_of_headerFault e
    · (repeat' split) <;> simp

@[simp] theorem words_routePacket {src : PktSource} {k : Packet} : (s.routePacket src k).words = s.words := by
  unfold State.routePacket
  split
  · split
    · next e => simp [words_of_rxTake e]
    · rfl
  · simp

@[simp] theorem words_routeArrive {src : PktSource} {k : Packet} : (s.routeArrive src k).words = s.words := by
  unfold State.routeArrive
  split
  · rfl
  · split
    · split
      · rfl
      · split
        · next e => simp [words_of_arrive e]
        · rfl
    · simp

@[simp] theorem nextKeeps_execPacketRoute {src : PktSource} {pkt : Packet} : NextKeeps s (execPacketRoute src pkt s) := by
  simp [execPacketRoute]

@[simp] theorem nextKeeps_execTailCheck {src : PktSource} {pkt : Packet} {forwarded : Bool} :
    NextKeeps s (execTailCheck src pkt forwarded s) := by
  unfold execTailCheck
  split <;> simp

@[simp] theorem nextKeeps_execCkt {src : PktSource} {pkt : Packet} : NextKeeps s (execCkt src pkt s) := by simp [execCkt]
@[simp] theorem nextKeeps_execCsu {src : PktSource} {pkt : Packet} : NextKeeps s (execCsu src pkt s) := by simp [execCsu]
@[simp] theorem nextKeeps_execCrl {src : PktSource} {pkt : Packet} : NextKeeps s (execCrl src pkt s) := by simp [execCrl]

@[simp] theorem nextKeeps_execCircuitEnd {src : PktSource} {pkt : Packet} : NextKeeps s (execCircuitEnd src pkt s) := by
  simp [execCircuitEnd]

/-! #### Machine/Circuits -/

@[simp] theorem words_ownRefusal : s.ownRefusal.words = s.words := words_update

@[simp] theorem words_startCkt {ten : BitVec 7} {dst share : Nat} {bind : Bool} {refs : Nat} {key : Option DescKey} :
    (s.startCkt ten dst share bind refs key).1.words = s.words := by
  unfold State.startCkt
  dsimp only
  (repeat' split) <;> simp

@[simp] theorem words_sendEnd {c : Ckt} : (s.sendEnd c).words = s.words := by
  unfold State.sendEnd
  split <;> simp

@[simp] theorem words_sendRelease {c : Ckt} : (s.sendRelease c).words = s.words := by
  unfold State.sendRelease
  split <;> simp

@[simp] theorem words_tearDown {c : Ckt} {key : Option DescKey} {due : Option Nat} : (s.tearDown c key due).words = s.words := by
  simp [State.tearDown]

@[simp] theorem words_dropRef {ten : BitVec 7} {chip : Nat} {key : Option DescKey} {due : Option Nat} :
    (s.dropRef ten chip key due).words = s.words := by
  unfold State.dropRef
  split <;> simp

@[simp] theorem words_setForm {f : Forming} : (s.setForm f).words = s.words := words_update
@[simp] theorem words_dropForm {k : DescKey} : (s.dropForm k).words = s.words := words_update

@[simp] theorem words_formStart {f : Forming} {k : Nat} : (s.formStart f k).1.words = s.words := by
  induction k generalizing s f with
  | zero => rfl
  | succ k ih =>
    unfold State.formStart
    split
    · split
      · rfl
      · split
        · simp [ih]
        · split
          · next e => rw [ih, words_of_fst e words_startCkt]
          · next e => exact words_of_fst e words_startCkt
    · rfl

@[simp] theorem words_formInstall {f : Forming} : (s.formInstall f).words = s.words := by simp [State.formInstall]

@[simp] theorem words_formUndo {f : Forming} {code chip : Nat} : (s.formUndo f code chip).words = s.words := by
  simp [State.formUndo]

@[simp] theorem words_formStep {f : Forming} : (s.formStep f).words = s.words := by
  unfold State.formStep
  dsimp only
  split <;> simp

@[simp] theorem words_formAll : s.formAll.words = s.words := by
  unfold State.formAll
  refine words_foldl fun v x => ?_
  split <;> simp

@[simp] theorem nextKeeps_execTeamForm {key : DescKey} {gmask tlist : HostRead} : NextKeeps s (execTeamForm key gmask tlist s) := by
  unfold execTeamForm
  dsimp only
  (repeat' split) <;> simp

@[simp] theorem words_dissolve {tm : Team} {key : Option DescKey} {due : Option Nat} : (s.dissolve tm key due).words = s.words := by
  simp [State.dissolve]

@[simp] theorem nextKeeps_execTeamDissolve {key : DescKey} : NextKeeps s (execTeamDissolve key s) := by
  unfold execTeamDissolve
  dsimp only
  (repeat' split) <;> simp

@[simp] theorem nextKeeps_execCircuitSetUp {key : DescKey} : NextKeeps s (execCircuitSetUp key s) := by
  unfold execCircuitSetUp
  rw [nextKeeps_next]
  split
  · rfl
  · extract_lets dst bind
    split
    · rfl
    · split
      · simp
      · split
        · simp
        · split
          next e => simp [words_of_fst e words_startCkt]
          next e => simp [words_of_fst e words_startCkt]

@[simp] theorem nextKeeps_execCircuitTearDown {key : DescKey} : NextKeeps s (execCircuitTearDown key s) := by
  unfold execCircuitTearDown
  split
  · simp
  · split
    · simp
    · split <;> simp

@[simp] theorem words_cktWaitEnd {c : Ckt} {code chip : Nat} : (s.cktWaitEnd c code chip).words = s.words := by
  unfold State.cktWaitEnd
  split
  · rfl
  · split
    · rfl
    · split <;> simp

@[simp] theorem words_cktGone {c : Ckt} {code chip : Nat} : (s.cktGone c code chip).words = s.words := by simp [State.cktGone]

@[simp] theorem words_cktReply {cid status : Nat} {data : List Byte} : (s.cktReply cid status data).words = s.words := by
  unfold State.cktReply
  dsimp only
  (repeat' split) <;> simp

@[simp] theorem words_cktResend {cid : Nat} : (s.cktResend cid).words = s.words := by
  unfold State.cktResend
  dsimp only
  (repeat' split) <;> simp

@[simp] theorem words_brokenRecord {c : Ckt} : (s.brokenRecord c).words = s.words := by simp [State.brokenRecord]

@[simp] theorem nextKeeps_execTeardownAckTimeout {chip : BitVec 16} {cid : BitVec 12} :
    NextKeeps s (execTeardownAckTimeout chip cid s) := by
  unfold execTeardownAckTimeout
  split
  · simp
  · split <;> simp

@[simp] theorem words_reroute {p vc : Nat} {q : Queued} : (s.reroute p vc q).words = s.words := by
  unfold State.reroute
  dsimp only
  split <;> simp

@[simp] theorem words_breakCkts {p : Nat} : (s.breakCkts p).words = s.words := by simp [State.breakCkts]
@[simp] theorem words_dropHeld {p : Nat} : (s.dropHeld p).words = s.words := by simp [State.dropHeld]
@[simp] theorem words_portLeft {p : Nat} : (s.portLeft p).words = s.words := by simp [State.portLeft]

@[simp] theorem nextKeeps_execPortLeaveService {p : PortNo} : NextKeeps s (execPortLeaveService p s) := by
  simp [execPortLeaveService]

/-! #### Machine/Targets -/

@[simp] theorem words_sramAccess {k : Packet} : (s.sramAccess k).words = s.words := by
  unfold State.sramAccess
  dsimp only
  (repeat' split) <;> simp

/-! #### Machine/Links -/

@[simp] theorem words_setHold {p c : Nat} : (s.setHold p c).words = s.words := by simp [State.setHold]
@[simp] theorem words_toAdapt {p step : Nat} : (s.toAdapt p step).words = s.words := by simp [State.toAdapt]
@[simp] theorem words_recheckHold {p : Nat} : (s.recheckHold p).words = s.words := by simp [State.recheckHold]
@[simp] theorem words_startTraining {p : Nat} : (s.startTraining p).words = s.words := by simp [State.startTraining]
@[simp] theorem nextKeeps_execLinkRelease {p : PortNo} : NextKeeps s (execLinkRelease p s) := by simp [execLinkRelease]

@[simp] theorem words_selfAligned {p : Nat} {b : BitVec 8} {map : BitVec 32} : (s.selfAligned p b map).words = s.words :=
  words_update

@[simp] theorem nextKeeps_execAlignDone {p : PortNo} {plus : BitVec 8} {lanes : List LaneRx} :
    NextKeeps s (execAlignDone p plus lanes s) := by
  simp [execAlignDone]

@[simp] theorem words_maqSave {p : Nat} : (s.maqSave p).words = s.words := by simp [State.maqSave]
@[simp] theorem words_newPeer {p : Nat} : (s.newPeer p).words = s.words := by simp [State.newPeer]
@[simp] theorem words_exchanged {p : Nat} {ts : TrainSeq} : (s.exchanged p ts).words = s.words := by simp [State.exchanged]
@[simp] theorem words_exchanged1 {p : Nat} {ts : TrainSeq} : (s.exchanged1 p ts).words = s.words := by simp [State.exchanged1]

@[simp] theorem words_exchangeEnd {p : Nat} : (s.exchangeEnd p).words = s.words := by
  unfold State.exchangeEnd
  dsimp only
  split <;> simp

@[simp] theorem words_heldTs {p : Nat} {ts : TrainSeq} : (s.heldTs p ts).words = s.words := by simp [State.heldTs]
@[simp] theorem nextKeeps_execTsa {p : PortNo} {ts : TrainSeq} : NextKeeps s (execTsa p ts s) := by simp [execTsa]
@[simp] theorem nextKeeps_execTsb {p : PortNo} {ts : TrainSeq} : NextKeeps s (execTsb p ts s) := by simp [execTsb]
@[simp] theorem words_rateGo {p : Nat} : (s.rateGo p).words = s.words := by simp [State.rateGo]
@[simp] theorem nextKeeps_execRate {p : PortNo} {ts : TrainSeq} : NextKeeps s (execRate p ts s) := by simp [execRate]
@[simp] theorem words_adapted {p : Nat} : (s.adapted p).words = s.words := by simp [State.adapted]

@[simp] theorem words_laneSwept {p l : Nat} {codes : List Sweep} : (s.laneSwept p l codes).words = s.words := by
  unfold State.laneSwept
  split <;> simp

@[simp] theorem nextKeeps_execAdaptSweepDone {p : PortNo} {lane : Fin 8} {codes : List Sweep} :
    NextKeeps s (execAdaptSweepDone p lane codes s) := by
  simp [execAdaptSweepDone]

@[simp] theorem words_lockFail {p : Nat} {late : BitVec 8} : (s.lockFail p late).words = s.words := by simp [State.lockFail]

@[simp] theorem nextKeeps_execTrainingTimeout {p : PortNo} : NextKeeps s (execTrainingTimeout p s) := by
  unfold execTrainingTimeout
  dsimp only
  (repeat' split) <;> simp

@[simp] theorem nextKeeps_execFailedRestart {p : PortNo} : NextKeeps s (execFailedRestart p s) := by simp [execFailedRestart]
@[simp] theorem words_cmpLock {p : Nat} {lanes : List CmpLane} : (s.cmpLock p lanes).words = s.words := by simp [State.cmpLock]
@[simp] theorem nextKeeps_execCmp {p : PortNo} {lanes : List CmpLane} : NextKeeps s (execCmp p lanes s) := by simp [execCmp]
@[simp] theorem words_resend {p : Nat} : (s.resend p).words = s.words := by simp [State.resend]
@[simp] theorem words_sendEcho {p : Nat} : (s.sendEcho p).words = s.words := by simp [State.sendEcho]
@[simp] theorem words_enterUp {p : Nat} : (s.enterUp p).words = s.words := by simp [State.enterUp]
@[simp] theorem words_recheckPort {p : Nat} : (s.recheckPort p).words = s.words := by simp [State.recheckPort]
@[simp] theorem words_activate {t : Topo} : (s.activate t).words = s.words := by simp [State.activate]

@[simp] theorem words_topoSubmit {rec_ : List Byte} : (s.topoSubmit rec_).1.words = s.words := by
  unfold State.topoSubmit
  extract_lets t c s₁
  simp only [words_fst_ite]
  split
  · simp
  · split
    · simp [s₁]
    · split
      next e => simp [words_of_fst e words_armPkg, s₁]
      next e => simp [words_of_fst e words_armPkg, s₁]

@[simp] theorem nextKeeps_execTopologyAccept {rec_ : List Byte} : NextKeeps s (execTopologyAccept rec_ s) := by
  simp [execTopologyAccept]

/-! #### Machine/LinkRun -/

@[simp] theorem words_sendNak {p : Nat} : (s.sendNak p).words = s.words := by simp [State.sendNak]
@[simp] theorem words_crcFail {p : Nat} : (s.crcFail p).words = s.words := words_update

@[simp] theorem words_assemble {p vc : Nat} : (s.assemble p vc).words = s.words := by
  unfold State.assemble
  dsimp only
  split <;> simp

@[simp] theorem words_flitIn {p vc : Nat} {bytes : List Byte} : (s.flitIn p vc bytes).words = s.words := by simp [State.flitIn]

@[simp] theorem words_flitsIn {p : Nat} {seq : BitVec 11} {l : List LinkFlit} : (s.flitsIn p seq l).words = s.words := by
  induction l generalizing s seq with
  | nil => rfl
  | cons f r ih =>
    unfold State.flitsIn
    simp [ih]

@[simp] theorem words_creditsIn {p : Nat} {f : LinkFrame} : (s.creditsIn p f).words = s.words := by simp [State.creditsIn]
@[simp] theorem words_frameIn {p : Nat} {f : LinkFrame} : (s.frameIn p f).words = s.words := by simp [State.frameIn]
@[simp] theorem words_frameLock {p : Nat} {f : LinkFrame} : (s.frameLock p f).words = s.words := by simp [State.frameLock]
@[simp] theorem words_windowTick {p : Nat} : (s.windowTick p).words = s.words := by simp [State.windowTick]
@[simp] theorem words_rxFrame {p : Nat} {raw : List Byte} : (s.rxFrame p raw).1.words = s.words := words_update

@[simp] theorem nextKeeps_execLinkFrame {p : PortNo} {raw : List Byte} : NextKeeps s (execLinkFrame p raw s) := by
  simp [execLinkFrame]

@[simp] theorem nextKeeps_execNakTimeout {p : PortNo} : NextKeeps s (execNakTimeout p s) := by simp [execNakTimeout]
@[simp] theorem nextKeeps_execAckStallTimeout {p : PortNo} : NextKeeps s (execAckStallTimeout p s) := by simp [execAckStallTimeout]
@[simp] theorem nextKeeps_execRetrain {o : OsRead} : NextKeeps s (execRetrain o s) := by simp [execRetrain]
@[simp] theorem nextKeeps_execRetrainTimeout {p : PortNo} : NextKeeps s (execRetrainTimeout p s) := by simp [execRetrainTimeout]

@[simp] theorem nextKeeps_execBlockLockLoss {p : PortNo} {heads : LaneHeads} : NextKeeps s (execBlockLockLoss p heads s) := by
  simp [execBlockLockLoss]

@[simp] theorem nextKeeps_execPause {p : PortNo} {blocks : List (List Byte)} : NextKeeps s (execPause p blocks s) := by
  unfold execPause
  split <;> simp

@[simp] theorem nextKeeps_execPauseExpiry {p : PortNo} : NextKeeps s (execPauseExpiry p s) := by
  unfold execPauseExpiry
  split <;> simp

@[simp] theorem words_writePause {p v : Nat} : (s.writePause p v).words = s.words := by simp [State.writePause]
@[simp] theorem nextKeeps_execSend {p : PortNo} {v : Word} : NextKeeps s (execSend p v s) := by simp [execSend]

@[simp] theorem nextKeeps_execWindowQuiet {p : PortNo} : NextKeeps s (execWindowQuiet p s) := by
  unfold execWindowQuiet
  dsimp only
  split <;> simp

@[simp] theorem words_enterWindow {p : Nat} : (s.enterWindow p).words = s.words := by
  unfold State.enterWindow
  dsimp only
  split <;> simp

@[simp] theorem nextKeeps_execLinkWindow {p : PortNo} : NextKeeps s (execLinkWindow p s) := by simp [execLinkWindow]

@[simp] theorem nextKeeps_execWindowEnd {p : PortNo} : NextKeeps s (execWindowEnd p s) := by
  unfold execWindowEnd
  dsimp only
  split <;> simp

@[simp] theorem nextKeeps_execEcho {p : PortNo} {t1 : Word} : NextKeeps s (execEcho p t1 s) := by simp [execEcho]

@[simp] theorem nextKeeps_execEchoReply {p : PortNo} {t1 t2 t3 : Word} : NextKeeps s (execEchoReply p t1 t2 t3 s) := by
  simp [execEchoReply]

@[simp] theorem nextKeeps_execEchoTimer {p : PortNo} : NextKeeps s (execEchoTimer p s) := by simp [execEchoTimer]
@[simp] theorem nextKeeps_execLaneQuery {p : PortNo} : NextKeeps s (execLaneQuery p s) := by simp [execLaneQuery]

@[simp] theorem nextKeeps_execLaneReport {p : PortNo} {bytes : List Byte} : NextKeeps s (execLaneReport p bytes s) := by
  simp [execLaneReport]

@[simp] theorem words_setOffline {p : Nat} {v : Bool} : (s.setOffline p v).words = s.words := by simp [State.setOffline]
@[simp] theorem words_prbsStart {p : Nat} : (s.prbsStart p).words = s.words := words_update
@[simp] theorem words_setTest {p t : Nat} : (s.setTest p t).words = s.words := by simp [State.setTest]
@[simp] theorem words_inject {p v : Nat} : (s.inject p v).words = s.words := by simp [State.inject]
@[simp] theorem words_writeLnkCtl {p v : Nat} : (s.writeLnkCtl p v).words = s.words := by simp [State.writeLnkCtl]

@[simp] theorem nextKeeps_lnkCtlRow {p : PortNo} {v : Word} {hit : Bool} : NextKeeps s (s.lnkCtlRow p v hit) := by
  simp [State.lnkCtlRow]

@[simp] theorem nextKeeps_execOffline {p : PortNo} {v : Bool} : NextKeeps s (execOffline p v s) := by simp [execOffline]

@[simp] theorem nextKeeps_execLnkCtlRetrain {p : PortNo} {v : Word} : NextKeeps s (execLnkCtlRetrain p v s) := by
  simp [execLnkCtlRetrain]

@[simp] theorem nextKeeps_execNearBightLoopback {p : PortNo} {v : Word} : NextKeeps s (execNearBightLoopback p v s) := by
  simp [execNearBightLoopback]

@[simp] theorem nextKeeps_execFarBightLoopback {p : PortNo} {v : Word} : NextKeeps s (execFarBightLoopback p v s) := by
  simp [execFarBightLoopback]

@[simp] theorem nextKeeps_execInjSingle {p : PortNo} {v : Word} : NextKeeps s (execInjSingle p v s) := by simp [execInjSingle]
@[simp] theorem nextKeeps_execInjBurst {p : PortNo} {v : Word} : NextKeeps s (execInjBurst p v s) := by simp [execInjBurst]
@[simp] theorem nextKeeps_execErrClr {p : PortNo} {v : Word} : NextKeeps s (execErrClr p v s) := by simp [execErrClr]
@[simp] theorem words_prbsLane {p l : Nat} {b : List Bool} : (s.prbsLane p l b).words = s.words := words_update
@[simp] theorem words_prbsSend {p l n : Nat} : (s.prbsSend p l n).1.words = s.words := words_update

@[simp] theorem nextKeeps_execPrbsTest {p : PortNo} {v : Word} {n : Nat} {rx : List (List Bool)} :
    NextKeeps s (execPrbsTest p v n rx s) := by
  simp [execPrbsTest]

@[simp] theorem nextKeeps_execLb {p : PortNo} {ts : TrainSeq} : NextKeeps s (execLb p ts s) := by simp [execLb]

@[simp] theorem nextKeeps_execFarBightLoopbackEnd {p : PortNo} : NextKeeps s (execFarBightLoopbackEnd p s) := by
  simp [execFarBightLoopbackEnd]

/-! #### Machine/Power -/

@[simp] theorem words_limitCheck : s.limitCheck.words = s.words := by simp [State.limitCheck]

@[simp] theorem nextKeeps_execLimitNoticeWindow : NextKeeps s (execLimitNoticeWindow s) := by
  unfold execLimitNoticeWindow
  split <;> simp

@[simp] theorem words_setRail {r : Nat} : (s.setRail r).words = s.words := by simp [State.setRail]
@[simp] theorem words_setVolt {n op : Nat} : (s.setVolt n op).words = s.words := by simp [State.setVolt, part_words]
@[simp] theorem words_opLower {n : Nat} : (s.opLower n).words = s.words := words_setPart rfl
@[simp] theorem words_armRaise {n : Nat} : (s.armRaise n).words = s.words := by simp [State.armRaise, part_words]
@[simp] theorem words_opDrive {n : Nat} : (s.opDrive n).words = s.words := by simp [State.opDrive, part_words]
@[simp] theorem words_raiseDue {n : Nat} : (s.raiseDue n).words = s.words := by simp [State.raiseDue, part_words]

@[simp] theorem nextKeeps_execOpStep {n : PartNo} : NextKeeps s (execOpStep n s) := by
  unfold execOpStep
  dsimp only
  split <;> simp [part_words]

@[simp] theorem words_pendingLimit : s.pendingLimit.words = s.words := by
  unfold State.pendingLimit
  split <;> simp

@[simp] theorem words_dutyStep {n : Nat} : (s.dutyStep n).words = s.words := words_setPart rfl
@[simp] theorem words_saveSettings : s.saveSettings.words = s.words := by simp [State.saveSettings]
@[simp] theorem nextKeeps_execDutyEvaluation : NextKeeps s (execDutyEvaluation s) := by simp [execDutyEvaluation]
@[simp] theorem words_opLoop {n : Nat} : (s.opLoop n).words = s.words := by simp [State.opLoop, part_words]
@[simp] theorem nextKeeps_execOpEvaluation : NextKeeps s (execOpEvaluation s) := by simp [execOpEvaluation]

@[simp] theorem nextKeeps_execHintWindow {key : DescKey} : NextKeeps s (execHintWindow key s) := by
  unfold execHintWindow
  split <;> simp [part_words]

@[simp] theorem nextKeeps_execHintHostLimit {key : DescKey} : NextKeeps s (execHintHostLimit key s) := by
  unfold execHintHostLimit
  split <;> simp

@[simp] theorem nextKeeps_execRampStep : NextKeeps s (execRampStep s) := by simp [execRampStep]

@[simp] theorem nextKeeps_execRampAdmission {key : DescKey} {n : PartNo} : NextKeeps s (execRampAdmission key n s) := by
  unfold execRampAdmission
  dsimp only
  rw [nextKeeps_next]
  split
  · rfl
  · split
    · simp [part_words]
    · rw [words_admitTiles, words_update]
      exact words_setPart rfl

@[simp] theorem nextKeeps_execDroopTrip {n : PartNo} : NextKeeps s (execDroopTrip n s) := by
  unfold execDroopTrip
  dsimp only
  (repeat' split) <;> simp [part_words]

@[simp] theorem nextKeeps_execDroopRecovery {n : PartNo} : NextKeeps s (execDroopRecovery n s) := by
  simp [execDroopRecovery, part_words]

@[simp] theorem psw_dropRaise {p : Part} : p.dropRaise.psw = p.psw := rfl
@[simp] theorem words_alertEnter : s.alertEnter.words = s.words := by simp [State.alertEnter, part_words]
@[simp] theorem nextKeeps_execVralert {reg : Fin 6} : NextKeeps s (execVralert reg s) := by simp [execVralert]

@[simp] theorem nextKeeps_execVralertRelease : NextKeeps s (execVralertRelease s) := by
  unfold execVralertRelease
  dsimp only
  split
  · simp
  · rw [nextKeeps_next, words_limitCheck, words_foldl, words_update]
    intro v n
    split <;> simp [part_words]

@[simp] theorem words_charge {k : DescKey} {pj : Nat} : (s.charge k pj).words = s.words := by
  unfold State.charge
  split <;> simp

@[simp] theorem words_chargeJobs {e : EnergyUs} : (s.chargeJobs e).words = s.words := by simp [State.chargeJobs]

@[simp] theorem nextKeeps_execEnergyModel {e : EnergyUs} : NextKeeps s (execEnergyModel e s) := by
  simp [execEnergyModel, part_words]

/-! #### Machine/Calendar -/

@[simp] theorem words_armUnpark {k : DescKey} {n : Nat} : (s.armUnpark k n).words = s.words := words_setPart rfl

@[simp] theorem nextKeeps_execUnpark {key : DescKey} : NextKeeps s (execUnpark key s) := by
  unfold execUnpark
  split
  · simp
  · split
    · simp
    · split
      · simp
      · split <;> simp

@[simp] theorem words_takeSample {buf : Nat} {late : Bool} : (s.takeSample buf late).words = s.words := words_update
@[simp] theorem words_countLate {late : Bool} : (s.countLate late).words = s.words := by simp [State.countLate]

@[simp] theorem words_firePkg {e : CalEntry} : (s.firePkg e).words = s.words := by
  unfold State.firePkg
  split
  · simp
  · split <;> simp
  · simp
  · split <;> simp

@[simp] theorem words_firePhase {n : Nat} {k : DescKey} {off : Nat} {v : Word} : (s.firePhase n k off v).words = s.words := by
  unfold State.firePhase
  split <;> simp

/-! #### Machine/TileControl -/

@[simp] theorem nextKeeps_execBr {t : TileNo} {cond rs1 : Reg} {imm : BitVec 16} : NextKeeps s (execBr t cond rs1 imm s) := by
  refine nextKeeps_next.2 (words_runInstr fun x => ?_)
  (repeat' split) <;> simp

@[simp] theorem keeps_windowCall {n : Nat} {x : Tile} {target : Word} : (s.windowCall n x target).Keeps s := by
  simp [State.windowCall]

@[simp] theorem nextKeeps_execCall {t : TileNo} {disp : BitVec 26} : NextKeeps s (execCall t disp s) := by simp [execCall]
@[simp] theorem nextKeeps_execCallr {t : TileNo} {rs1 : Reg} : NextKeeps s (execCallr t rs1 s) := by simp [execCallr]
@[simp] theorem nextKeeps_execRet {t : TileNo} : NextKeeps s (execRet t s) := by simp [execRet]

@[simp] theorem nextKeeps_execJmpl {t : TileNo} {rd rs1 : Reg} {imm : BitVec 16} : NextKeeps s (execJmpl t rd rs1 imm s) := by
  simp [execJmpl]

@[simp] theorem nextKeeps_execXret {t : TileNo} : NextKeeps s (execXret t s) := by simp [execXret]
@[simp] theorem nextKeeps_execCrr {t : TileNo} {rd : Reg} {idx : BitVec 4} : NextKeeps s (execCrr t rd idx s) := by simp [execCrr]
@[simp] theorem nextKeeps_execCrw {t : TileNo} {rs1 : Reg} {idx : BitVec 4} : NextKeeps s (execCrw t rs1 idx s) := by simp [execCrw]

@[simp] theorem keeps_fwCall {n : Nat} {x : Tile} {num : Nat} {v : Word} : (s.fwCall n x num v).Keeps s := by
  simp [State.fwCall]

@[simp] theorem words_armPhase {n : Nat} {x : Tile} : (s.armPhase n x).1.words = s.words := by simp [State.armPhase, part_words]

@[simp] theorem keeps_phaseCall {n : Nat} {x : Tile} : (s.phaseCall n x).Keeps s := by
  simp [State.phaseCall, State.fwCall]

@[simp] theorem nextKeeps_execTrapi {t : TileNo} {num : Byte} : NextKeeps s (execTrapi t num s) := by simp [execTrapi]
@[simp] theorem nextKeeps_execPhaseReleaseArm {t : TileNo} : NextKeeps s (execPhaseReleaseArm t s) := by simp [execPhaseReleaseArm]
@[simp] theorem nextKeeps_execBrk {w : CoreWord} : NextKeeps s (execBrk w s) := by simp [execBrk]
@[simp] theorem nextKeeps_execHalt {t : TileNo} : NextKeeps s (execHalt t s) := by simp [execHalt]
@[simp] theorem nextKeeps_execSpill {t : TileNo} : NextKeeps s (execSpill t s) := by simp [execSpill]

@[simp] theorem nextKeeps_execFill {t : TileNo} : NextKeeps s (execFill t s) := by
  refine nextKeeps_next.2 (words_runInstr fun x => ?_)
  split
  · simp
  · split
    · simp
    · split
      · simp
      · split
        · next e => simp [words_of_fst e words_spRead]
        · next e => simp [words_of_fst e words_spRead]

/-! #### Machine/Reset -/

@[simp] theorem words_resetRecord {part scope status cause jobs quar slot retired : Nat} :
    (s.resetRecord part scope status cause jobs quar slot retired).words = s.words := by
  simp [State.resetRecord]

@[simp] theorem words_rstRefuse {scope status : Nat} : (s.rstRefuse scope status).words = s.words := by simp [State.rstRefuse]
@[simp] theorem words_rstDone : s.rstDone.words = s.words := by simp [State.rstDone]
@[simp] theorem words_dropTileStreams {t : Nat} : (s.dropTileStreams t).words = s.words := by simp [State.dropTileStreams]

@[simp] theorem words_tileStop {t : Nat} {fromDriver crcOk : Bool} : (s.tileStop t fromDriver crcOk).words = s.words := by
  simp [State.tileStop]

@[simp] theorem words_fwReload {t : Nat} : (s.fwReload t).words = s.words := by simp [State.fwReload]
@[simp] theorem words_clearTile {t : Nat} {crcOk : Bool} : (s.clearTile t crcOk).words = s.words := by simp [State.clearTile]

@[simp] theorem words_abortJob {n : Nat} {k : DescKey} : (s.abortJob n k).words = s.words := by
  unfold State.abortJob
  split <;> simp

@[simp] theorem words_sampleStep {n : Nat} : (s.sampleStep n).1.words = s.words := by simp [State.sampleStep]

@[simp] theorem words_resetDrain {n : Nat} : (s.resetDrain n).words = s.words := by
  unfold State.resetDrain
  dsimp only
  rw [words_foldl, words_update]
  · split <;> simp [part_words]
  · intro v x
    split <;> simp

@[simp] theorem words_seamsBack {n : Nat} {l : List (Fin 24)} : (s.seamsBack n l).words = s.words := words_update

@[simp] theorem words_resetRetire {n : Nat} {r : ResetRun} : (s.resetRetire n r).words = s.words := by
  unfold State.resetRetire
  dsimp only
  (repeat' split) <;> simp [part_words]

@[simp] theorem words_stampSample {slot : Option Nat} {seq : BitVec 32} : (s.stampSample slot seq).words = s.words := by
  unfold State.stampSample
  dsimp only
  (repeat' split) <;> simp

@[simp] theorem words_startCycle {n : Nat} : (s.startCycle n).words = s.words := by simp [State.startCycle]
@[simp] theorem words_writeSmpSel {v : Nat} : (s.writeSmpSel v).words = s.words := by simp [State.writeSmpSel]
@[simp] theorem nextKeeps_execFree {v : Word} : NextKeeps s (execFree v s) := by simp [execFree]
@[simp] theorem words_writeTilErr {v : Nat} : (s.writeTilErr v).words = s.words := by simp [State.writeTilErr]
@[simp] theorem nextKeeps_execClear {v : Word} : NextKeeps s (execClear v s) := by simp [execClear]

/-! #### Machine/Thermal -/

@[simp] theorem words_hotCheck : s.hotCheck.words = s.words := by simp [State.hotCheck]

@[simp] theorem nextKeeps_execStackTempRead {n : PartNo} {r : SensorRead} : NextKeeps s (execStackTempRead n r s) := by
  unfold execStackTempRead
  dsimp only
  (repeat' split) <;> simp

@[simp] theorem nextKeeps_execHotClear : NextKeeps s (execHotClear s) := by
  unfold execHotClear
  split <;> simp

@[simp] theorem nextKeeps_execInletAge : NextKeeps s (execInletAge s) := by
  unfold execInletAge
  split <;> simp

@[simp] theorem nextKeeps_execSteadyWindow {pw inlet die stack : List Nat} {tripped alerted changed : Bool} :
    NextKeeps s (execSteadyWindow pw inlet die stack tripped alerted changed s) := by
  simp [execSteadyWindow]

@[simp] theorem nextKeeps_execThermalCap : NextKeeps s (execThermalCap s) := by simp [execThermalCap]

theorem psw_of_fromPatina {p q : Part} {b : List Byte} (e : p.fromPatina b = some q) : q.psw = p.psw := by
  unfold Part.fromPatina at e
  dsimp only at e
  split at e <;> cases e
  rfl

@[simp] theorem words_loadPatina {b : List Byte} : (s.loadPatina b).words = s.words := by
  unfold State.loadPatina
  split
  · simp
  · refine words_foldl fun v n => ?_
    split
    · next e => exact words_setPart (psw_of_fromPatina e)
    · simp

/-! #### Machine/Rails -/

@[simp] theorem words_writeLost {id : Nat} : (s.writeLost id).words = s.words := by simp [State.writeLost]

@[simp] theorem words_abandonWrites {drop : Nat → Bool} : (s.abandonWrites drop).words = s.words := by
  unfold State.abandonWrites
  split <;> simp

@[simp] theorem nextKeeps_execFlashWrite {ok : Bool} : NextKeeps s (execFlashWrite ok s) := by
  unfold execFlashWrite
  split <;> simp

@[simp] theorem words_extend {idx v : Nat} : (s.extend idx v).words = s.words := words_update
@[simp] theorem words_setDebug {d : Debug} {scope : BitVec 3} : (s.setDebug d scope).words = s.words := by simp [State.setDebug]
@[simp] theorem words_startDebug : s.startDebug.words = s.words := by simp [State.startDebug]

@[simp] theorem words_clearStores : s.clearStores.words = s.words := by
  rw [words_eq, words_eq]
  funext m
  refine congrArg (Option.getD · Psw.fresh) ?_
  unfold State.clearStores
  refine find?_map_psw (h := id) (fun e => ?_) (fun e => ?_) s.parts m <;> rfl

@[simp] theorem words_lands {l : List String} {v : Bool} : (s.lands l v).words = s.words := by simp [State.lands]
@[simp] theorem words_railsUp : s.railsUp.words = s.words := by simp [State.railsUp]
@[simp] theorem words_loadMaq {b : List Byte} : (s.loadMaq b).words = s.words := by simp [State.loadMaq]

@[simp] theorem words_reloadMaq : s.reloadMaq.words = s.words := by
  unfold State.reloadMaq
  dsimp only
  split <;> simp

@[simp] theorem words_dropPending : s.dropPending.words = s.words := by
  unfold State.dropPending
  split <;> simp

@[simp] theorem words_stacksLost : s.stacksLost.words = s.words := words_update
@[simp] theorem words_dropWatch : s.dropWatch.words = s.words := words_update

/-! #### Machine/Start -/

@[simp] theorem words_chooseBank {bad : BitVec 3} : (s.chooseBank bad).words = s.words := by
  unfold State.chooseBank
  dsimp only
  split <;> simp

@[simp] theorem words_measureStart : s.measureStart.words = s.words := by simp [State.measureStart]
@[simp] theorem words_beginStart {kind : Nat} : (s.beginStart kind).words = s.words := words_update
@[simp] theorem words_wakeTry : s.wakeTry.words = s.words := by simp [State.wakeTry]
@[simp] theorem words_raiseWake {n : Nat} : (s.raiseWake n).words = s.words := by simp [State.raiseWake]
@[simp] theorem nextKeeps_execBelayLatch {src : Fin 2048} : NextKeeps s (execBelayLatch src s) := by simp [execBelayLatch]
@[simp] theorem words_belayWake : s.belayWake.words = s.words := by simp [State.belayWake]
@[simp] theorem nextKeeps_execBelayWake : NextKeeps s (execBelayWake s) := by simp [execBelayWake]
@[simp] theorem words_stepRecord {bad : BitVec 3} : (s.stepRecord bad).words = s.words := by simp [State.stepRecord]
@[simp] theorem words_nextStep : s.nextStep.words = s.words := words_update
@[simp] theorem words_step1 {rep : StepReport} : (s.step1 rep).words = s.words := by simp [State.step1]
@[simp] theorem words_step3 : s.step3.words = s.words := by simp [State.step3]
@[simp] theorem words_clearPend : s.clearPend.words = s.words := by simp [State.clearPend]
@[simp] theorem words_newSystemKey : s.newSystemKey.words = s.words := words_update

@[simp] theorem words_restoreKeys {sealOk : Bool} : (s.restoreKeys sealOk).words = s.words := by
  unfold State.restoreKeys
  split <;> simp

@[simp] theorem words_readRows : s.readRows.words = s.words := words_update
@[simp] theorem words_loadRows : s.loadRows.words = s.words := by simp [State.loadRows]
@[simp] theorem words_step7 {fail : List Nat} : (s.step7 fail).words = s.words := by simp [State.step7]
@[simp] theorem words_step8 : s.step8.words = s.words := words_update
@[simp] theorem words_step11 : s.step11.words = s.words := words_update

/-! #### Machine/CleatOps -/

@[simp] theorem nextKeeps_execSourceEdge {src : Fin 2048} : NextKeeps s (execSourceEdge src s) := by simp [execSourceEdge]
@[simp] theorem nextKeeps_execSet {src : Fin 2048} {byHukirvo : Bool} : NextKeeps s (execSet src byHukirvo s) := by simp [execSet]
@[simp] theorem nextKeeps_execPendClear {src : Fin 2048} : NextKeeps s (execPendClear src s) := by simp [execPendClear]
@[simp] theorem words_writeSource {n v : Nat} : (s.writeSource n v).words = s.words := by simp [State.writeSource]

@[simp] theorem nextKeeps_execSourceEnable {src : Fin 2048} {v : Word} : NextKeeps s (execSourceEnable src v s) := by
  simp [execSourceEnable]

@[simp] theorem words_claimOf {t : Nat} : (s.claimOf t).1.words = s.words := by
  unfold State.claimOf
  dsimp only
  (repeat' split) <;> simp

@[simp] theorem words_claimRead {t : Nat} : (s.claimRead t).words = s.words := by simp [State.claimRead]
@[simp] theorem nextKeeps_execClaim {tgt : Fin 5} : NextKeeps s (execClaim tgt s) := by simp [execClaim]

@[simp] theorem words_completeWrite {t : Nat} {src : BitVec 11} : (s.completeWrite t src).words = s.words := by
  simp [State.completeWrite]

@[simp] theorem nextKeeps_execComplete {tgt : Fin 5} {src : BitVec 11} : NextKeeps s (execComplete tgt src s) := by
  simp [execComplete]

@[simp] theorem words_writeCleat {byHukirvo : Bool} {off v : Nat} : (s.writeCleat byHukirvo off v).words = s.words := by
  simp [State.writeCleat]

@[simp] theorem words_cleatRead {off : Nat} {w : Width} : (s.cleatRead off w).words = s.words := by simp [State.cleatRead]

@[simp] theorem words_cleatWrite {byHukirvo : Bool} {off : Nat} {w : Width} {v : Word} :
    (s.cleatWrite byHukirvo off w v).words = s.words := by
  unfold State.cleatWrite
  dsimp only
  split <;> simp

/-! #### Machine/Orders -/

@[simp] theorem nextKeeps_execMemoryTestDone {n : PartNo} {rows : List (Fin 64 × Fin 32 × Fin 24576)} :
    NextKeeps s (execMemoryTestDone n rows s) := by
  simp [execMemoryTestDone]

@[simp] theorem words_heard {p : MgmtPath} : (s.heard p).words = s.words := by
  unfold State.heard
  split <;> simp

@[simp] theorem words_readCmd {p : MgmtPath} {f : State → State × Nat × Nat × List Byte} (hf : ∀ v, (f v).1.words = v.words) :
    (s.readCmd p f).words = s.words := by
  simp [State.readCmd, hf]

@[simp] theorem words_orderCmd {p : MgmtPath} {f : State → State × Nat × Nat × List Byte} (hf : ∀ v, (f v).1.words = v.words) :
    (s.orderCmd p f).words = s.words := by
  simp [State.orderCmd, hf]

@[simp] theorem words_orderState {order : Nat} : (s.orderState order).1.words = s.words := by simp [State.orderState]

@[simp] theorem words_powerOrder {order : Nat} {ok : Bool} {f : State → State × Nat × Nat × List Byte}
    (hf : ∀ v, (f v).1.words = v.words) : (s.powerOrder order ok f).1.words = s.words := by
  simp [State.powerOrder, hf]

@[simp] theorem nextKeeps_execOn {path : MgmtPath} : NextKeeps s (execOn path s) := by simp [execOn]
@[simp] theorem nextKeeps_execWake {path : MgmtPath} : NextKeeps s (execWake path s) := by simp [execWake]
@[simp] theorem words_tripRecord {sensor temp : Nat} : (s.tripRecord sensor temp).words = s.words := words_update
@[simp] theorem nextKeeps_execTripRelease {path : MgmtPath} : NextKeeps s (execTripRelease path s) := by simp [execTripRelease]
@[simp] theorem words_regTelemetry {r : Nat} {t : RegTelemetry} : (s.regTelemetry r t).words = s.words := words_update
@[simp] theorem nextKeeps_execPciePerstN {level : Bool} : NextKeeps s (execPciePerstN level s) := by simp [execPciePerstN]
@[simp] theorem nextKeeps_execInBandInterrupt : NextKeeps s (execInBandInterrupt s) := by simp [execInBandInterrupt]
@[simp] theorem nextKeeps_execPlinthTemperature115 : NextKeeps s (execPlinthTemperature115 s) := by simp [execPlinthTemperature115]
@[simp] theorem nextKeeps_execTestLogicResetExit : NextKeeps s (execTestLogicResetExit s) := by simp [execTestLogicResetExit]

/-! #### Machine/Tenants -/

@[simp] theorem words_writeWindow {t w v : Nat} : (s.writeWindow t w v).words = s.words := by
  unfold State.writeWindow
  dsimp only
  (repeat' split) <;> simp

@[simp] theorem nextKeeps_execWindowEnable {ten : Fin 64} {w : Fin 16} {v : Word} : NextKeeps s (execWindowEnable ten w v s) := by
  simp [execWindowEnable]

@[simp] theorem words_setFab {t : Nat} {l : List FabKey} : (s.setFab t l).words = s.words := words_update

@[simp] theorem words_keyRun {op t id : Nat} : (s.keyRun op t id).words = s.words := by
  unfold State.keyRun
  split <;> simp

@[simp] theorem words_keyCmd {v : Nat} {blob : HostRead} {gcmOk : Bool} : (s.keyCmd v blob gcmOk).words = s.words := by
  simp [State.keyCmd]

@[simp] theorem words_keyWrite {op : Nat} {v : Word} {blob : HostRead} {gcmOk : Bool} :
    (s.keyWrite op v blob gcmOk).words = s.words := by
  simp [State.keyWrite]

@[simp] theorem nextKeeps_execGenerate {v : Word} : NextKeeps s (execGenerate v s) := by simp [execGenerate]
@[simp] theorem nextKeeps_execErase {v : Word} : NextKeeps s (execErase v s) := by simp [execErase]

@[simp] theorem nextKeeps_execImportKey {v : Word} {blob : HostRead} {gcmOk : Bool} :
    NextKeeps s (execImportKey v blob gcmOk s) := by
  simp [execImportKey]

@[simp] theorem nextKeeps_execEraseFabric {v : Word} : NextKeeps s (execEraseFabric v s) := by simp [execEraseFabric]

@[simp] theorem words_fidCmd {path : Option MgmtPath} {f : State → State × Nat × Nat × List Byte} (hf : ∀ v, (f v).1.words = v.words) :
    (s.fidCmd path f).words = s.words := by
  unfold State.fidCmd
  split <;> simp [hf]

@[simp] theorem nextKeeps_execFidChal {path : Option MgmtPath} : NextKeeps s (execFidChal path s) := by simp [execFidChal]
@[simp] theorem words_tokenRefused : s.tokenRefused.1.words = s.words := words_update

@[simp] theorem nextKeeps_execSvnCommit {path : MgmtPath} : NextKeeps s (execSvnCommit path s) := by
  refine nextKeeps_next.2 (words_orderCmd fun v => ?_)
  dsimp only
  split
  · simp
  · split <;> simp

/-! #### Machine/Pldm -/

@[simp] theorem words_freeAnswer {n : Nat} : (s.freeAnswer n).1.words = s.words := words_update

@[simp] theorem words_served {p : MgmtPath} {f : State → Answer} (hf : ∀ v, (f v).1.words = v.words) :
    (s.served p f).words = s.words := by
  simp [State.served, hf]

@[simp] theorem nextKeeps_execSetEndpointId {path : MgmtPath} {eid : Byte} : NextKeeps s (execSetEndpointId path eid s) := by
  refine nextKeeps_next.2 (words_served fun v => ?_)
  cases path <;> simp

@[simp] theorem nextKeeps_execSetdasa {addr : BitVec 7} : NextKeeps s (execSetdasa addr s) := by simp [execSetdasa]
@[simp] theorem nextKeeps_execRstdaa : NextKeeps s (execRstdaa s) := by simp [execRstdaa]

@[simp] theorem nextKeeps_execMctpDrop {path : MgmtPath} {typ : Byte} {len : Nat} : NextKeeps s (execMctpDrop path typ len s) := by
  simp [execMctpDrop]

@[simp] theorem nextKeeps_execGetVersion {path : MgmtPath} : NextKeeps s (execGetVersion path s) := by simp [execGetVersion]

@[simp] theorem nextKeeps_execGetCapabilities {path : MgmtPath} : NextKeeps s (execGetCapabilities path s) := by
  simp [execGetCapabilities]

@[simp] theorem nextKeeps_execNegotiateAlgorithms {path : MgmtPath} {supported : Bool} :
    NextKeeps s (execNegotiateAlgorithms path supported s) := by
  simp [execNegotiateAlgorithms]

@[simp] theorem nextKeeps_execGetDigests {path : MgmtPath} : NextKeeps s (execGetDigests path s) := by simp [execGetDigests]

@[simp] theorem nextKeeps_execGetCertificate {path : MgmtPath} {slot : Byte} : NextKeeps s (execGetCertificate path slot s) := by
  simp [execGetCertificate]

@[simp] theorem nextKeeps_execChallenge {path : MgmtPath} {slot : Byte} {nonce : List Byte} :
    NextKeeps s (execChallenge path slot nonce s) := by
  simp [execChallenge]

@[simp] theorem nextKeeps_execGetMeasurements {path : MgmtPath} {idx : Byte} {nonce : List Byte} :
    NextKeeps s (execGetMeasurements path idx nonce s) := by
  simp [execGetMeasurements]

@[simp] theorem nextKeeps_execKeyExchange {path : MgmtPath} : NextKeeps s (execKeyExchange path s) := by simp [execKeyExchange]
@[simp] theorem words_endSession {n : BitVec 32} : (s.endSession n).words = s.words := words_update

@[simp] theorem nextKeeps_execFinish {path : MgmtPath} {session : BitVec 32} {ok : Bool} :
    NextKeeps s (execFinish path session ok s) := by
  simp [execFinish]

@[simp] theorem nextKeeps_execEndSession {path : MgmtPath} {session : BitVec 32} : NextKeeps s (execEndSession path session s) := by
  simp [execEndSession]

@[simp] theorem nextKeeps_execHeartbeat {path : MgmtPath} {session : BitVec 32} : NextKeeps s (execHeartbeat path session s) := by
  simp [execHeartbeat]

@[simp] theorem nextKeeps_execKeyUpdate {path : MgmtPath} {session : BitVec 32} : NextKeeps s (execKeyUpdate path session s) := by
  simp [execKeyUpdate]

@[simp] theorem nextKeeps_execGettid {path : MgmtPath} : NextKeeps s (execGettid path s) := by simp [execGettid]

@[simp] theorem nextKeeps_execGetpldmversion {path : MgmtPath} {typ : Byte} : NextKeeps s (execGetpldmversion path typ s) := by
  simp [execGetpldmversion]

@[simp] theorem nextKeeps_execGetpldmtypes {path : MgmtPath} : NextKeeps s (execGetpldmtypes path s) := by simp [execGetpldmtypes]

@[simp] theorem nextKeeps_execGetpldmcommands {path : MgmtPath} {typ : Byte} : NextKeeps s (execGetpldmcommands path typ s) := by
  simp [execGetpldmcommands]

@[simp] theorem words_type2 {p : MgmtPath} {f : State → Answer} (hf : ∀ v, (f v).1.words = v.words) :
    (s.type2 p f).words = s.words := by
  simp [State.type2, hf]

@[simp] theorem words_type2Tray {p : MgmtPath} {f : State → Answer} (hf : ∀ v, (f v).1.words = v.words) :
    (s.type2Tray p f).words = s.words := by
  simp [State.type2Tray, hf]

@[simp] theorem nextKeeps_execGetpdrrepositoryinfo {path : MgmtPath} : NextKeeps s (execGetpdrrepositoryinfo path s) := by
  simp [execGetpdrrepositoryinfo]

@[simp] theorem nextKeeps_execGetpdr {path : MgmtPath} {handle : BitVec 32} : NextKeeps s (execGetpdr path handle s) := by
  simp [execGetpdr]

@[simp] theorem words_sensorAnswer {w : Nat} {v : Option (Option Nat)} : (sensorAnswer s w v).1.words = s.words := by
  unfold sensorAnswer
  split <;> simp

@[simp] theorem nextKeeps_execGetsensorreading {path : MgmtPath} {sid : BitVec 16} :
    NextKeeps s (execGetsensorreading path sid s) := by
  simp [execGetsensorreading]

@[simp] theorem nextKeeps_execGetstatesensorreadings {path : MgmtPath} {sid : BitVec 16} :
    NextKeeps s (execGetstatesensorreadings path sid s) := by
  simp [execGetstatesensorreadings]

@[simp] theorem nextKeeps_execGetnumericeffectervalue {path : MgmtPath} {eid : BitVec 16} :
    NextKeeps s (execGetnumericeffectervalue path eid s) := by
  simp [execGetnumericeffectervalue]

@[simp] theorem nextKeeps_execGetstateeffecterstates {path : MgmtPath} {eid : BitVec 16} :
    NextKeeps s (execGetstateeffecterstates path eid s) := by
  simp [execGetstateeffecterstates]

@[simp] theorem nextKeeps_execSeteventreceiver {path : MgmtPath} {eid : Byte} : NextKeeps s (execSeteventreceiver path eid s) := by
  simp [execSeteventreceiver]

@[simp] theorem nextKeeps_execPollforplatformeventmessage {path : MgmtPath} :
    NextKeeps s (execPollforplatformeventmessage path s) := by
  refine nextKeeps_next.2 (words_type2 fun v => ?_)
  split <;> simp

@[simp] theorem nextKeeps_execEffecterRackLimit {path : MgmtPath} {watts : BitVec 16} :
    NextKeeps s (execEffecterRackLimit path watts s) := by
  simp [execEffecterRackLimit]

@[simp] theorem nextKeeps_execEffecterInlet {path : MgmtPath} {temp : BitVec 10} : NextKeeps s (execEffecterInlet path temp s) := by
  simp [execEffecterInlet]

@[simp] theorem nextKeeps_execEffecterCurrentLimit {path : MgmtPath} {reg : Fin 6} {amps : BitVec 32} :
    NextKeeps s (execEffecterCurrentLimit path reg amps s) := by
  simp [execEffecterCurrentLimit]

/-! #### Machine/Denxon -/

@[simp] theorem words_fieldBad {off : Nat} : (fieldBad s off).1.words = s.words := words_update

@[simp] theorem nextKeeps_execReadPsw {path : MgmtPath} {part : Byte} : NextKeeps s (execReadPsw path part s) := by
  simp [execReadPsw]

@[simp] theorem nextKeeps_execReadRecord {path : MgmtPath} {rec_ : Byte} {off : BitVec 32} :
    NextKeeps s (execReadRecord path rec_ off s) := by
  refine nextKeeps_next.2 (words_readCmd fun v => ?_)
  dsimp only
  split
  · simp
  · split <;> simp

@[simp] theorem nextKeeps_execReadErrlog {path : MgmtPath} {idx : BitVec 32} : NextKeeps s (execReadErrlog path idx s) := by
  simp [execReadErrlog]

@[simp] theorem nextKeeps_execReadSample {path : MgmtPath} {buf : Byte} : NextKeeps s (execReadSample path buf s) := by
  simp [execReadSample]

@[simp] theorem nextKeeps_execRackLimit {path : MgmtPath} {watts : BitVec 16} {lt : Word} :
    NextKeeps s (execRackLimit path watts lt s) := by
  simp [execRackLimit]

@[simp] theorem words_submitTopo {r : List Byte} : (s.submitTopo r).1.words = s.words := by simp [State.submitTopo]

@[simp] theorem nextKeeps_execTopologyWrite {path : MgmtPath} {off : BitVec 16} {last : Byte} {bytes : List Byte} :
    NextKeeps s (execTopologyWrite path off last bytes s) := by
  simp [execTopologyWrite]

@[simp] theorem nextKeeps_execTopologyPartTimeout : NextKeeps s (execTopologyPartTimeout s) := by
  unfold execTopologyPartTimeout
  split <;> simp

@[simp] theorem nextKeeps_execLayRole {path : MgmtPath} {role : Byte} : NextKeeps s (execLayRole path role s) := by
  simp [execLayRole]

@[simp] theorem nextKeeps_execLaySecond {path : MgmtPath} {v : Word} : NextKeeps s (execLaySecond path v s) := by
  simp [execLaySecond]

@[simp] theorem nextKeeps_execStepSlot {path : MgmtPath} {period offset : BitVec 32} :
    NextKeeps s (execStepSlot path period offset s) := by
  simp [execStepSlot]

@[simp] theorem nextKeeps_execWindowArm {path : MgmtPath} {mask : BitVec 32} {ltStart ltEnd : Word} :
    NextKeeps s (execWindowArm path mask ltStart ltEnd s) := by
  refine nextKeeps_next.2 (words_orderCmd fun v => ?_)
  split
  · rfl
  · split
    · simp
    · split
      · next e => simp [words_of_fst e words_armPkg]
      · next e => exact words_of_fst e words_armPkg

@[simp] theorem nextKeeps_execSampleArm {path : MgmtPath} {buf : Byte} {lt : Word} : NextKeeps s (execSampleArm path buf lt s) := by
  refine nextKeeps_next.2 (words_orderCmd fun v => ?_)
  dsimp only
  split
  · simp
  · split
    · rfl
    · split
      · simp
      · split
        · next e => simp [words_of_fst e words_armPkg]
        · next e => exact words_of_fst e words_armPkg

@[simp] theorem nextKeeps_execBmcPresenceTimeout : NextKeeps s (execBmcPresenceTimeout s) := by
  unfold execBmcPresenceTimeout
  split <;> simp

/-! #### Machine/Firmware -/

@[simp] theorem words_type5 {p : MgmtPath} {f : State → Answer} (hf : ∀ v, (f v).1.words = v.words) :
    (s.type5 p f).words = s.words := by
  simp [State.type5, hf]

@[simp] theorem words_inUpdate {p : MgmtPath} {f : State → FwUpdate → Answer} (hf : ∀ v x, (f v x).1.words = v.words) :
    (s.inUpdate p f).words = s.words := by
  refine words_type5 fun v => ?_
  split <;> simp [hf]

@[simp] theorem words_setUpdate {f : FwUpdate} : (s.setUpdate f).words = s.words := words_update

@[simp] theorem nextKeeps_execQuerydeviceidentifiers {path : MgmtPath} : NextKeeps s (execQuerydeviceidentifiers path s) := by
  simp [execQuerydeviceidentifiers]

@[simp] theorem nextKeeps_execGetfirmwareparameters {path : MgmtPath} : NextKeeps s (execGetfirmwareparameters path s) := by
  simp [execGetfirmwareparameters]

@[simp] theorem nextKeeps_execRequestupdate {path : MgmtPath} : NextKeeps s (execRequestupdate path s) := by
  simp [execRequestupdate]

@[simp] theorem nextKeeps_execPasscomponenttable {path : MgmtPath} {comps : List (BitVec 16)} :
    NextKeeps s (execPasscomponenttable path comps s) := by
  simp [execPasscomponenttable]

@[simp] theorem words_pull {f : FwUpdate} : (s.pull f).words = s.words := by
  unfold State.pull
  split <;> simp

@[simp] theorem nextKeeps_execUpdatecomponent {path : MgmtPath} {comp : BitVec 16} {size : Nat} :
    NextKeeps s (execUpdatecomponent path comp size s) := by
  simp [execUpdatecomponent]

@[simp] theorem nextKeeps_execRequestfirmwaredata {path : MgmtPath} {off : Nat} {bytes : List Byte} :
    NextKeeps s (execRequestfirmwaredata path off bytes s) := by
  refine nextKeeps_next.2 (words_inUpdate fun v x => ?_)
  split <;> simp

@[simp] theorem nextKeeps_execTransfercomplete {path : MgmtPath} {ok : Bool} : NextKeeps s (execTransfercomplete path ok s) := by
  refine nextKeeps_next.2 (words_inUpdate fun v x => ?_)
  split <;> simp

@[simp] theorem nextKeeps_execVerifycomplete {path : MgmtPath} {ok : Verdicts} : NextKeeps s (execVerifycomplete path ok s) := by
  refine nextKeeps_next.2 (words_inUpdate fun v x => ?_)
  split <;> simp

@[simp] theorem nextKeeps_execApplycomplete {path : MgmtPath} {ok : Bool} : NextKeeps s (execApplycomplete path ok s) := by
  refine nextKeeps_next.2 (words_inUpdate fun v x => ?_)
  split <;> simp

@[simp] theorem nextKeeps_execActivatefirmware {path : MgmtPath} {selfContained copyOk : Bool} :
    NextKeeps s (execActivatefirmware path selfContained copyOk s) := by
  simp [execActivatefirmware]

@[simp] theorem nextKeeps_execGetstatus {path : MgmtPath} : NextKeeps s (execGetstatus path s) := by simp [execGetstatus]

@[simp] theorem nextKeeps_execCancelupdatecomponent {path : MgmtPath} : NextKeeps s (execCancelupdatecomponent path s) := by
  simp [execCancelupdatecomponent]

@[simp] theorem words_cancelUpdate : s.cancelUpdate.words = s.words := words_update
@[simp] theorem nextKeeps_execCancelupdate {path : MgmtPath} : NextKeeps s (execCancelupdate path s) := by simp [execCancelupdate]

@[simp] theorem nextKeeps_execUpdateIdleTimeout : NextKeeps s (execUpdateIdleTimeout s) := by
  unfold execUpdateIdleTimeout
  split <;> simp

/-! #### Machine/Plinth -/

@[simp] theorem words_loadSettings {b : List Byte} : (s.loadSettings b).words = s.words := by simp [State.loadSettings]
@[simp] theorem words_loadDrops : s.loadDrops.words = s.words := by simp [State.loadDrops, part_words]
@[simp] theorem words_loadVerdicts {b : List Byte} : (s.loadVerdicts b).words = s.words := by simp [State.loadVerdicts, part_words]

@[simp] theorem words_load {id : Nat} {f : State → List Byte → State} (hf : ∀ v b, (f v b).words = v.words) :
    (s.load id f).words = s.words := by
  unfold State.load
  split <;> simp [hf]

@[simp] theorem nextKeeps_execPlinthOverheat : NextKeeps s (execPlinthOverheat s) := by simp [execPlinthOverheat]
@[simp] theorem nextKeeps_execFlashRetryAfterCool : NextKeeps s (execFlashRetryAfterCool s) := by simp [execFlashRetryAfterCool]

/-! #### Machine/Setup -/

@[simp] theorem words_accessFault {off : Nat} : (s.accessFault off).words = s.words := by simp [State.accessFault]

@[simp] theorem nextKeeps_execSetupRead {a : BarAddr} {w : Width} : NextKeeps s (execSetupRead a w s) := by
  unfold execSetupRead
  dsimp only
  (repeat' split) <;> simp

@[simp] theorem words_writePlain {off v : Nat} : (s.writePlain off v).words = s.words := by
  unfold State.writePlain
  split <;> simp

@[simp] theorem words_writeKeyCmd {v : Nat} : (s.writeKeyCmd v).words = s.words := by simp [State.writeKeyCmd]

@[simp] theorem words_writeHifRng {off v : Nat} : (s.writeHifRng off v).words = s.words := by
  unfold State.writeHifRng
  split
  · simp
  · split
    · simp
    · split <;> simp

/-! #### Machine/TileScalar -/

@[simp] theorem nextKeeps_runRRR {t : TileNo} {rd rs1 rs2 : Reg} {f : Word → Word → Word} :
    NextKeeps s (s.runRRR t rd rs1 rs2 f) := by
  simp [State.runRRR]

@[simp] theorem nextKeeps_runRR {t : TileNo} {rd rs1 : Reg} {f : Word → Word} : NextKeeps s (s.runRR t rd rs1 f) := by
  simp [State.runRR]

@[simp] theorem nextKeeps_runDiv {t : TileNo} {rd rs1 rs2 : Reg} {f : Word → Word → Word} :
    NextKeeps s (s.runDiv t rd rs1 rs2 f) := by
  simp [State.runDiv]

@[simp] theorem nextKeeps_execAdd {t : TileNo} {rd rs1 rs2 : Reg} : NextKeeps s (execAdd t rd rs1 rs2 s) := by simp [execAdd]
@[simp] theorem nextKeeps_execSub {t : TileNo} {rd rs1 rs2 : Reg} : NextKeeps s (execSub t rd rs1 rs2 s) := by simp [execSub]
@[simp] theorem nextKeeps_execAnd {t : TileNo} {rd rs1 rs2 : Reg} : NextKeeps s (execAnd t rd rs1 rs2 s) := by simp [execAnd]
@[simp] theorem nextKeeps_execOr {t : TileNo} {rd rs1 rs2 : Reg} : NextKeeps s (execOr t rd rs1 rs2 s) := by simp [execOr]
@[simp] theorem nextKeeps_execXor {t : TileNo} {rd rs1 rs2 : Reg} : NextKeeps s (execXor t rd rs1 rs2 s) := by simp [execXor]
@[simp] theorem nextKeeps_execShl {t : TileNo} {rd rs1 rs2 : Reg} : NextKeeps s (execShl t rd rs1 rs2 s) := by simp [execShl]
@[simp] theorem nextKeeps_execShr {t : TileNo} {rd rs1 rs2 : Reg} : NextKeeps s (execShr t rd rs1 rs2 s) := by simp [execShr]
@[simp] theorem nextKeeps_execSar {t : TileNo} {rd rs1 rs2 : Reg} : NextKeeps s (execSar t rd rs1 rs2 s) := by simp [execSar]
@[simp] theorem nextKeeps_execCmpeq {t : TileNo} {rd rs1 rs2 : Reg} : NextKeeps s (execCmpeq t rd rs1 rs2 s) := by simp [execCmpeq]
@[simp] theorem nextKeeps_execCmplt {t : TileNo} {rd rs1 rs2 : Reg} : NextKeeps s (execCmplt t rd rs1 rs2 s) := by simp [execCmplt]

@[simp] theorem nextKeeps_execCmpltu {t : TileNo} {rd rs1 rs2 : Reg} : NextKeeps s (execCmpltu t rd rs1 rs2 s) := by
  simp [execCmpltu]

@[simp] theorem nextKeeps_execMul {t : TileNo} {rd rs1 rs2 : Reg} : NextKeeps s (execMul t rd rs1 rs2 s) := by simp [execMul]
@[simp] theorem nextKeeps_execMulh {t : TileNo} {rd rs1 rs2 : Reg} : NextKeeps s (execMulh t rd rs1 rs2 s) := by simp [execMulh]
@[simp] theorem nextKeeps_execMulhu {t : TileNo} {rd rs1 rs2 : Reg} : NextKeeps s (execMulhu t rd rs1 rs2 s) := by simp [execMulhu]
@[simp] theorem nextKeeps_execDiv {t : TileNo} {rd rs1 rs2 : Reg} : NextKeeps s (execDiv t rd rs1 rs2 s) := by simp [execDiv]
@[simp] theorem nextKeeps_execDivu {t : TileNo} {rd rs1 rs2 : Reg} : NextKeeps s (execDivu t rd rs1 rs2 s) := by simp [execDivu]
@[simp] theorem nextKeeps_execRem {t : TileNo} {rd rs1 rs2 : Reg} : NextKeeps s (execRem t rd rs1 rs2 s) := by simp [execRem]
@[simp] theorem nextKeeps_execRemu {t : TileNo} {rd rs1 rs2 : Reg} : NextKeeps s (execRemu t rd rs1 rs2 s) := by simp [execRemu]
@[simp] theorem nextKeeps_execPopc {t : TileNo} {rd rs1 : Reg} : NextKeeps s (execPopc t rd rs1 s) := by simp [execPopc]
@[simp] theorem nextKeeps_execClz {t : TileNo} {rd rs1 : Reg} : NextKeeps s (execClz t rd rs1 s) := by simp [execClz]
@[simp] theorem nextKeeps_execCtz {t : TileNo} {rd rs1 : Reg} : NextKeeps s (execCtz t rd rs1 s) := by simp [execCtz]

@[simp] theorem nextKeeps_execAddi {t : TileNo} {rd rs1 : Reg} {imm : BitVec 16} : NextKeeps s (execAddi t rd rs1 imm s) := by
  simp [execAddi]

@[simp] theorem nextKeeps_execAndi {t : TileNo} {rd rs1 : Reg} {imm : BitVec 16} : NextKeeps s (execAndi t rd rs1 imm s) := by
  simp [execAndi]

@[simp] theorem nextKeeps_execOri {t : TileNo} {rd rs1 : Reg} {imm : BitVec 16} : NextKeeps s (execOri t rd rs1 imm s) := by
  simp [execOri]

@[simp] theorem nextKeeps_execXori {t : TileNo} {rd rs1 : Reg} {imm : BitVec 16} : NextKeeps s (execXori t rd rs1 imm s) := by
  simp [execXori]

@[simp] theorem nextKeeps_execShi {t : TileNo} {rd rs1 : Reg} {imm : BitVec 16} : NextKeeps s (execShi t rd rs1 imm s) := by
  refine nextKeeps_next.2 (words_runInstr fun x => ?_)
  split <;> simp

@[simp] theorem nextKeeps_execLui {t : TileNo} {rd : Reg} {imm : BitVec 16} : NextKeeps s (execLui t rd imm s) := by simp [execLui]

end

/-! ### The functions that may change a word

They reach the arbiter's change, or a reset, through a chain of calls. `agree_f` is about a function that returns a state,
`nextAgrees_execC` about a command: from words that agree with their views to words that agree with their views. -/

section

variable {s u : State}

/-- The one write of a partition state word: the arbiter's change, with notices that leave every word alone. -/
theorem words_pswWrite {n : Nat} {f : Psw → Psw} : (s.pswWrite n f).words = Function.update s.words n ((s.psw n).change f) := by
  simp [State.pswWrite, words_setPart_eq]

@[simp] theorem agree_pswWrite {n : Nat} {f : Psw → Psw} (hw : WordsAgree s.words) : WordsAgree (s.pswWrite n f).words := by
  rw [words_pswWrite]
  exact hw.update conflict_change

@[simp] theorem agree_fenceNow {n : Nat} {cause : BitVec 8} (hw : WordsAgree s.words) : WordsAgree (s.fenceNow n cause).words := by
  unfold State.fenceNow
  dsimp only
  (repeat' split) <;> simp [part_words, hw]

@[simp] theorem agree_fence {n : Nat} {cause : BitVec 8} (hw : WordsAgree s.words) : WordsAgree (s.fence n cause).words := by
  unfold State.fence
  dsimp only
  (repeat' split) <;> simp [part_words, hw]

@[simp] theorem agree_pswChange {n : Nat} {f : Psw → Psw} (hw : WordsAgree s.words) : WordsAgree (s.pswChange n f).words := by
  simp [State.pswChange, hw]

@[simp] theorem agree_writeVerdict {n : Nat} {byFinding : Bool} (hw : WordsAgree s.words) :
    WordsAgree (s.writeVerdict n byFinding).words := by
  simp [State.writeVerdict, hw]

@[simp] theorem agree_partJobEnd {k : DescKey} {n : Nat} (hw : WordsAgree s.words) : WordsAgree (s.partJobEnd k n).words := by
  unfold State.partJobEnd
  dsimp only
  (repeat' split) <;> simp [part_words, hw]

@[simp] theorem agree_jobEnd {k : DescKey} {status info : Nat} (hw : WordsAgree s.words) :
    WordsAgree (s.jobEnd k status info).words := by
  unfold State.jobEnd
  split
  · exact hw
  · simpa using agree_foldl (fun _ _ hv => agree_partJobEnd hv) hw

@[simp] theorem agree_tileFinished {n : Nat} (hw : WordsAgree s.words) : WordsAgree (s.tileFinished n).words := by
  unfold State.tileFinished
  dsimp only
  split <;> simp [hw]

/-- What an instruction's result carries has words that agree with their views. -/
def IRes.Agrees (r : IRes) : Prop :=
  ∀ u, (r = .next u ∨ (∃ pc, r = .jump u pc) ∨ r = .hold u ∨ ∃ vec detail xval, r = .trap u vec detail xval) → WordsAgree u.words

@[simp] theorem IRes.agrees_hold : (IRes.hold u).Agrees ↔ WordsAgree u.words := by simp [IRes.Agrees]

@[simp] theorem agree_runInstr {n : Nat} {f : Tile → IRes} (hf : ∀ x, (f x).Agrees) (hw : WordsAgree s.words) :
    WordsAgree (s.runInstr n f).words := by
  unfold State.runInstr
  dsimp only
  have hr := hf (s.tile n)
  split
  · exact hw
  · split <;> simp_all [IRes.Agrees]

@[simp] theorem agree_settle {n : Nat} (hw : WordsAgree s.words) : WordsAgree (s.settle n).words := by
  unfold State.settle
  extract_lets t
  refine agree_ite hw ?_
  generalize t.wait = w
  cases w with
  | none => simp [hw]
  | waitv | bar | layw | reply => exact hw
  | twait | vwait => exact agree_ite (by simp [hw]) hw
  | fence => exact agree_ite (by simp [hw]) hw
  | dmaWait =>
    dsimp only
    split
    · simp [hw]
    · exact hw
  | done => exact agree_ite (by simp [hw]) (agree_ite (by simp [hw]) hw)

@[simp] theorem agree_stackFault {n : Nat} (hw : WordsAgree s.words) : WordsAgree (s.stackFault n).words := by
  simp [State.stackFault, hw]

@[simp] theorem agree_lineUncorrectable {n l : Nat} (hw : WordsAgree s.words) : WordsAgree (s.lineUncorrectable n l).words := by
  simp [State.lineUncorrectable, hw]

@[simp] theorem agree_channelFails {n l : Nat} (hw : WordsAgree s.words) : WordsAgree (s.channelFails n l).words := by
  simp [State.channelFails, hw]

@[simp] theorem agree_lineRead {n l key : Nat} {err : LineErr} (hw : WordsAgree s.words) :
    WordsAgree (s.lineRead n l key err).1.words := by
  unfold State.lineRead
  split <;> simp [hw]

@[simp] theorem agree_memRead {ilv o len key : Nat} {errs : List LineErr} (hw : WordsAgree s.words) :
    WordsAgree (s.memRead ilv o len key errs).1.words := by
  unfold State.memRead
  refine agree_foldl_fst (fun v lo hv => ?_) hw
  dsimp only
  split
  · next e => exact agree_of_fst e (agree_lineRead hv)
  · next e => exact agree_of_fst e (agree_lineRead hv)

@[simp] theorem agree_memWrite {ilv o key : Nat} {b : List Byte} {errs : List LineErr} (hw : WordsAgree s.words) :
    WordsAgree (s.memWrite ilv o key b errs).1.words := by
  unfold State.memWrite
  split
  next e =>
    have h₁ := agree_of_fst e (agree_foldl_fst (fun v lo hv => by
      dsimp only
      split
      · exact hv
      · split
        · next e => exact agree_of_fst e (agree_lineRead hv)
        · next e => exact agree_of_fst e (agree_lineRead hv)) hw)
    split
    · exact h₁
    · simpa using h₁

@[simp] theorem agree_serve {r : StackReq} {errs : List LineErr} (hw : WordsAgree s.words) : WordsAgree (s.serve r errs).words := by
  unfold State.serve
  dsimp only
  split
  · split
    · next e => simp [agree_of_fst e (agree_memRead hw)]
    · next e => simp [agree_of_fst e (agree_memRead hw)]
  · split
    · split
      · next e => simp [agree_of_fst e (agree_memRead hw)]
      · next e =>
        have h₁ := agree_of_fst e (agree_memRead hw)
        split <;> simp [h₁]
    · split
      · next e => simp [agree_of_fst e (agree_memWrite hw)]
      · next e => simp [agree_of_fst e (agree_memWrite hw)]

theorem nextAgrees_execStackAccess {n : PartNo} {errs : List LineErr} (hw : WordsAgree s.words) :
    NextAgrees (execStackAccess n errs s) := by
  unfold execStackAccess
  dsimp only
  (repeat' split) <;> simp [hw]

theorem nextAgrees_execPatrolScrub {n : PartNo} {err : LineErr} (hw : WordsAgree s.words) :
    NextAgrees (execPatrolScrub n err s) := by
  simp [execPatrolScrub, hw]

@[simp] theorem agree_tensorFault {n code : Nat} {spoiled : List (Nat × Byte)} {fused : Bool} {sticky : optParam (BitVec 8) 0}
    (hw : WordsAgree s.words) :
    WordsAgree (s.tensorFault n code spoiled fused sticky).words := by
  unfold State.tensorFault
  dsimp only
  split <;> simp [hw]

@[simp] theorem agree_tensorDone {n : Nat} {w : List (Nat × Byte)} {sticky : BitVec 8} {a : Int} (hw : WordsAgree s.words) :
    WordsAgree (s.tensorDone n w sticky a).words := by
  simp [State.tensorDone, hw]

@[simp] theorem agree_tensorBegin {n : Nat} {e : TEntry} {half : Bool} (hw : WordsAgree s.words) :
    WordsAgree (s.tensorBegin n e half).words := by
  unfold State.tensorBegin
  dsimp only
  split
  · next e => simp [words_of_fst e words_readTDesc, hw]
  · next e =>
    have h₁ := words_of_fst e words_readTDesc
    split
    · simp [h₁, hw]
    · split
      · split
        · next e => simp [words_of_fst e words_tancAnchor, h₁, hw]
        · next e => simp [words_of_fst e words_tancAnchor, h₁, hw]
      · split
        · next e => simp [words_of_fst e words_anchorPhase, h₁, hw]
        · next e => simp [words_of_fst e words_anchorPhase, h₁, hw]

@[simp] theorem agree_tensorEnd {n : Nat} {e : TEntry} {r : TRun} (hw : WordsAgree s.words) :
    WordsAgree (s.tensorEnd n e r).words := by
  unfold State.tensorEnd
  split
  · simp [hw]
  · split
    · next e => simp [words_of_fst e words_multiply, hw]
    · next e => simp [words_of_fst e words_multiply, hw]

@[simp] theorem agree_dmaEnd {n k st : Nat} (hw : WordsAgree s.words) : WordsAgree (s.dmaEnd n k st).words := by
  simp [State.dmaEnd, hw]

@[simp] theorem agree_dmaFinish {n k : Nat} {x : Xfer} (hw : WordsAgree s.words) : WordsAgree (s.dmaFinish n k x).words := by
  simp [State.dmaFinish, hw]

@[simp] theorem agree_engineFail {n tile k code : Nat} {b : List Byte} {rows : Nat} (hw : WordsAgree s.words) :
    WordsAgree (s.engineFail n tile k code b rows).words := by
  unfold State.engineFail
  dsimp only
  split <;> simp [hw]

theorem nextAgrees_execExpand {n : PartNo} {sid : Nat} {errs : List LineErr} (hw : WordsAgree s.words) :
    NextAgrees (execExpand n sid errs s) := by
  unfold execExpand
  dsimp only
  rw [nextAgrees_next]
  split
  · exact hw
  · refine agree_ite hw ?_
    split
    · simp [hw]
    · split
      · simp [hw]
      · refine agree_ite (by simp [hw]) ?_
        split
        · simp [hw]
        · split
          · next e => simp [agree_of_fst e (agree_memRead hw)]
          · next e =>
            have h₁ := agree_of_fst e (agree_memRead hw)
            split
            · next e => simp [agree_of_fst e (agree_memRead h₁)]
            · next e => simp [agree_of_fst e (agree_memRead h₁)]

theorem nextAgrees_execLoad {n : PartNo} {sid : Nat} {errs : List LineErr} (hw : WordsAgree s.words) :
    NextAgrees (execLoad n sid errs s) := by
  unfold execLoad
  dsimp only
  rw [nextAgrees_next]
  split
  · exact hw
  · refine agree_ite hw ?_
    split
    · simp [hw]
    · refine agree_ite (by simp [hw]) ?_
      split
      · simp [hw]
      · split
        · next e => simp [agree_of_fst e (agree_memRead hw)]
        · next e => simp [agree_of_fst e (agree_memRead hw)]

theorem nextAgrees_execStreamEnd {n : PartNo} {sid : Nat} (hw : WordsAgree s.words) : NextAgrees (execStreamEnd n sid s) := by
  unfold execStreamEnd
  dsimp only
  split
  · simp [hw]
  · split
    · simp [hw]
    · split <;> simp [hw]

@[simp] theorem agree_cutStreams {n : Nat} (hw : WordsAgree s.words) : WordsAgree (s.cutStreams n).words :=
  agree_foldl (fun _ _ hv => agree_engineFail hv) (by simpa using hw)

@[simp] theorem agree_vectorFault {n code : Nat} {sticky : BitVec 8} (hw : WordsAgree s.words) :
    WordsAgree (s.vectorFault n code sticky).words := by
  unfold State.vectorFault
  dsimp only
  split <;> simp [hw]

theorem nextAgrees_execVectorFinish {t : TileNo} (hw : WordsAgree s.words) : NextAgrees (execVectorFinish t s) := by
  unfold execVectorFinish
  dsimp only
  split
  · simp [hw]
  · split
    · simp [hw]
    · split
      · simp [hw]
      · split
        · next e => simp [words_of_fst e words_unitReads, hw]
        · next e =>
          have h₁ := words_of_fst e words_unitReads
          split <;> simp [h₁, hw]

theorem nextAgrees_execDmaComplete {n : PartNo} {x : Fin 72} {k : Fin 8} (hw : WordsAgree s.words) :
    NextAgrees (execDmaComplete n x k s) := by
  unfold execDmaComplete
  dsimp only
  split
  · simp [hw]
  · split <;> simp [hw]

theorem nextAgrees_execFence {t : TileNo} (hw : WordsAgree s.words) : NextAgrees (execFence t s) := by simp [execFence, hw]

theorem nextAgrees_execTwait {t : TileNo} {a : Reg} (hw : WordsAgree s.words) : NextAgrees (execTwait t a s) := by
  simp [execTwait, hw]

theorem nextAgrees_execVwait {t : TileNo} {a : Reg} (hw : WordsAgree s.words) : NextAgrees (execVwait t a s) := by
  simp [execVwait, hw]

@[simp] theorem agree_tileReply {n : Nat} {p : Packet} (hw : WordsAgree s.words) : WordsAgree (s.tileReply n p).words := by
  unfold State.tileReply
  dsimp only
  (repeat' split) <;> simp [hw]

@[simp] theorem agree_tileResend {n : Nat} {tag : BitVec 6} {write : Bool} (hw : WordsAgree s.words) :
    WordsAgree (s.tileResend n tag write).words := by
  unfold State.tileResend
  dsimp only
  split
  · exact hw
  · refine agree_ite hw (agree_ite ?_ ?_)
    · split
      · split
        · next e => simp [words_of_fst e words_streamAdmit, hw]
        · next e => simp [words_of_fst e words_streamAdmit, hw]
      · simp [hw]
    · simp [hw]

theorem nextAgrees_execTileFaultJobEnd {key : DescKey} (hw : WordsAgree s.words) : NextAgrees (execTileFaultJobEnd key s) := by
  unfold execTileFaultJobEnd
  split
  · split <;> simp [hw]
  · simp [hw]

@[simp] theorem agree_fusedFault {n code : Nat} (hw : WordsAgree s.words) : WordsAgree (s.fusedFault n code).words := by
  unfold State.fusedFault
  dsimp only
  split <;> simp [hw]

@[simp] theorem agree_abortMember {n : Nat} (hw : WordsAgree s.words) : WordsAgree (s.abortMember n).words := by
  simp [State.abortMember, hw]

@[simp] theorem agree_abortQueued {num step n : Nat} (hw : WordsAgree s.words) : WordsAgree (s.abortQueued num step n).words := by
  unfold State.abortQueued
  dsimp only
  (repeat' split) <;> simp [hw]

@[simp] theorem agree_stepAborted {ten : BitVec 7} {num step : Nat} {skip : Option Nat} (hw : WordsAgree s.words) :
    WordsAgree (s.stepAborted ten num step skip).words := by
  unfold State.stepAborted
  dsimp only
  refine agree_foldl (fun _ _ hv => agree_abortQueued hv) (agree_foldl (fun v x hv => ?_) ?_)
  · simp [hv]
  · split <;> simp [hw]

@[simp] theorem agree_memberFault {n code : Nat} (hw : WordsAgree s.words) : WordsAgree (s.memberFault n code).words := by
  unfold State.memberFault
  dsimp only
  (repeat' split) <;> simp [hw]

@[simp] theorem agree_fusedMultiplied {n : Nat} (hw : WordsAgree s.words) : WordsAgree (s.fusedMultiplied n).words := by
  unfold State.fusedMultiplied
  dsimp only
  split
  · exact hw
  · split
    · next e => simp [words_of_fst e words_multiply, hw]
    · next e =>
      have h₁ := words_of_fst e words_multiply
      split
      · simp [h₁, hw]
      · simp [h₁, hw]
      · split <;> simp [h₁, hw]

@[simp] theorem agree_fusedMultiply {n : Nat} (hw : WordsAgree s.words) : WordsAgree (s.fusedMultiply n).words := by
  unfold State.fusedMultiply
  split
  · exact hw
  · split
    · next e => simp [words_of_fst e words_anchorPhase, hw]
    · next e => simp [words_of_fst e words_anchorPhase, hw]

@[simp] theorem agree_gatherDone {n : Nat} (hw : WordsAgree s.words) : WordsAgree (s.gatherDone n).words := by
  unfold State.gatherDone
  split <;> simp [hw]

@[simp] theorem agree_fusedBegin {n : Nat} {e : TEntry} {half : Bool} (hw : WordsAgree s.words) :
    WordsAgree (s.fusedBegin n e half).words := by
  unfold State.fusedBegin
  dsimp only
  split
  · next e => simp [words_of_fst e words_readFDesc, hw]
  · next e =>
    have h₁ := words_of_fst e words_readFDesc
    refine agree_ite ?_ ?_
    · simp [h₁, hw]
    · split
      · next e => simp [words_of_fst e words_readTDesc, h₁, hw]
      · next e =>
        have h₂ := words_of_fst e words_readTDesc
        (repeat' split) <;> simp [h₂, h₁, hw]

@[simp] theorem agree_sendChunk {n dst seq slot : Nat} {retry : Bool} (hw : WordsAgree s.words) :
    WordsAgree (s.sendChunk n dst seq slot retry).words := by
  unfold State.sendChunk
  extract_lets t
  split
  · exact hw
  · extract_lets d f
    split
    · split
      next e =>
        have h₁ := words_of_fst e (words_foldl_fst fun v g => by
          split
          · next e => exact words_of_fst e words_spRead
          · next e => exact words_of_fst e words_spRead)
        split <;> simp [h₁, hw]
    · exact hw

@[simp] theorem agree_slotReply {n : Nat} {p : Packet} (hw : WordsAgree s.words) : WordsAgree (s.slotReply n p).words := by
  unfold State.slotReply
  dsimp only
  (repeat' split) <;> simp [hw]

@[simp] theorem agree_chunkFail {no : Nat} {k : Slot} (hw : WordsAgree s.words) : WordsAgree (s.chunkFail no k).words := by
  unfold State.chunkFail
  dsimp only
  split
  · simp [hw]
  · exact agree_foldl (fun v x hv => by simp [hv]) (by simp [hw])

@[simp] theorem agree_deliverChunk {t : Nat} {k : Slot} {b : List Byte} (hw : WordsAgree s.words) :
    WordsAgree (s.deliverChunk t k b).words := by
  unfold State.deliverChunk
  dsimp only
  (repeat' split) <;> simp [hw]

@[simp] theorem agree_chunkCheck {no : Nat} {k : Slot} {b : List Byte} (hw : WordsAgree s.words) :
    WordsAgree (s.chunkCheck no k b).words := by
  unfold State.chunkCheck
  dsimp only
  split
  · simp [hw]
  · split
    · simpa using agree_foldl (fun _ _ hv => agree_deliverChunk hv) (by simp [hw])
    · exact agree_foldl (fun v x hv => by simp [hv]) (by simp [hw])

@[simp] theorem agree_flushSlots {t : Nat} (hw : WordsAgree s.words) : WordsAgree (s.flushSlots t).words := by
  refine agree_foldl (fun v x hv => ?_) hw
  split
  · exact hv
  · split <;> simp [hv]

@[simp] theorem agree_chunkArrives {pkt : Packet} (hw : WordsAgree s.words) : WordsAgree (s.chunkArrives pkt).words := by
  unfold State.chunkArrives
  dsimp only
  (repeat' split) <;> simp [hw]

theorem nextAgrees_execChunk {pkt : Packet} (hw : WordsAgree s.words) : NextAgrees (execChunk pkt s) := by simp [execChunk, hw]

theorem nextAgrees_execSlotTimeout {slot : Fin 384} (hw : WordsAgree s.words) : NextAgrees (execSlotTimeout slot s) := by
  unfold execSlotTimeout
  split <;> simp [hw]

theorem nextAgrees_execAbort {pkt : Packet} (hw : WordsAgree s.words) : NextAgrees (execAbort pkt s) := by
  unfold execAbort
  split
  · simp [hw]
  · split <;> simp [hw]

@[simp] theorem agree_tileInbound {n : Nat} {p : Packet} (hw : WordsAgree s.words) : WordsAgree (s.tileInbound n p).words := by
  simp [State.tileInbound, hw]

theorem nextAgrees_execTilePortInbound {t : TileNo} {pkt : Packet} (hw : WordsAgree s.words) :
    NextAgrees (execTilePortInbound t pkt s) := by
  unfold execTilePortInbound
  split
  · simp [hw]
  · split
    · next e => simp [words_of_arrive e, hw]
    · simp [hw]

@[simp] theorem agree_startHead {t : Nat} {e : TEntry} {half : Bool} (hw : WordsAgree s.words) :
    WordsAgree (s.startHead t e half).words := by
  simp [State.startHead, hw]

theorem nextAgrees_execTensorStart {t : TileNo} (hw : WordsAgree s.words) : NextAgrees (execTensorStart t s) := by
  unfold execTensorStart
  dsimp only
  (repeat' split) <;> simp [part_words, hw]

theorem nextAgrees_execHalfRateStart {t : TileNo} (hw : WordsAgree s.words) : NextAgrees (execHalfRateStart t s) := by
  unfold execHalfRateStart
  dsimp only
  (repeat' split) <;> simp [part_words, hw]

theorem nextAgrees_execTensorFinish {t : TileNo} (hw : WordsAgree s.words) : NextAgrees (execTensorFinish t s) := by
  unfold execTensorFinish
  dsimp only
  (repeat' split) <;> simp [hw]

theorem nextAgrees_execFusedFinish {t : TileNo} (hw : WordsAgree s.words) : NextAgrees (execFusedFinish t s) := by
  unfold execFusedFinish
  dsimp only
  split <;> simp [hw]

theorem nextAgrees_execFusedTimeout {t : TileNo} (hw : WordsAgree s.words) : NextAgrees (execFusedTimeout t s) := by
  unfold execFusedTimeout
  dsimp only
  (repeat' split) <;> simp [hw]

theorem nextAgrees_execSeamResend {east : Bool} {q : Fin 24} {failed : Bool} (hw : WordsAgree s.words) :
    NextAgrees (execSeamResend east q failed s) := by
  simp [execSeamResend, hw]

@[simp] theorem agree_abandonRotation {n : Nat} {cause : BitVec 8} (hw : WordsAgree s.words) :
    WordsAgree (s.abandonRotation n cause).words := by
  unfold State.abandonRotation
  dsimp only
  split
  · exact hw
  · refine agree_foldl (fun v x hv => ?_) (by simp [part_words, hw])
    split <;> simp [hv]

theorem nextAgrees_execRotationCopyDone {n : PartNo} (hw : WordsAgree s.words) : NextAgrees (execRotationCopyDone n s) := by
  unfold execRotationCopyDone
  dsimp only
  split <;> simp [part_words, hw]

@[simp] theorem agree_releaseRotation {n : Nat} (hw : WordsAgree s.words) : WordsAgree (s.releaseRotation n).words := by
  unfold State.releaseRotation
  dsimp only
  split
  · exact hw
  · refine agree_foldl (fun v x hv => ?_) (by simp [part_words, hw])
    split <;> simp [hv]

@[simp] theorem agree_endRotation {n : Nat} (hw : WordsAgree s.words) : WordsAgree (s.endRotation n).words := by
  unfold State.endRotation
  split <;> simp [hw]

theorem nextAgrees_execRotationRelease {n : PartNo} (hw : WordsAgree s.words) : NextAgrees (execRotationRelease n s) := by
  unfold execRotationRelease
  dsimp only
  split
  · rw [nextAgrees_next]
    refine agree_ite hw (agree_foldl (fun _ _ hv => agree_fence hv) ?_)
    simp [part_words, hw]
  · simp [hw]

theorem nextAgrees_execRotationAbandon {n : PartNo} {cause : BitVec 3} (hw : WordsAgree s.words) :
    NextAgrees (execRotationAbandon n cause s) := by
  unfold execRotationAbandon
  split <;> simp [hw]

@[simp] theorem agree_partTakes {k : DescKey} {n : Nat} {wait : Bool} (hw : WordsAgree s.words) :
    WordsAgree (s.partTakes k n wait).words := by
  simp [State.partTakes, part_words, hw]

theorem nextAgrees_execJobLaunch {key : DescKey} (hw : WordsAgree s.words) : NextAgrees (execJobLaunch key s) := by
  unfold execJobLaunch
  dsimp only
  rw [nextAgrees_next]
  split
  · exact hw
  · refine agree_ite (by simp [hw]) ?_
    split
    · simp [hw]
    · split
      · simp [hw]
      · simpa using agree_foldl (fun _ _ hv => agree_partTakes hv) (by simp [hw])

@[simp] theorem agree_endOpen {tm : Team} (hw : WordsAgree s.words) : WordsAgree (s.endOpen tm).words :=
  agree_foldl (fun _ _ hv => agree_memberFault hv) hw

@[simp] theorem agree_breakChunks {c : Ckt} (hw : WordsAgree s.words) : WordsAgree (s.breakChunks c).words := by
  unfold State.breakChunks
  refine agree_ite hw (agree_foldl (fun v n hv => ?_) hw)
  dsimp only
  split
  · exact hv
  · split <;> simp [hv]

theorem nextAgrees_execCircuitBrokenNotice {chip : BitVec 16} {cid : BitVec 12} (hw : WordsAgree s.words) :
    NextAgrees (execCircuitBrokenNotice chip cid s) := by
  unfold execCircuitBrokenNotice
  dsimp only
  (repeat' split) <;> simp [hw]

@[simp] theorem agree_partPort {k : Packet} (hw : WordsAgree s.words) : WordsAgree (s.partPort k).words := by
  unfold State.partPort
  dsimp only
  (repeat' split) <;> simp [part_words, hw]

@[simp] theorem agree_target {d : Option MPort} {k : Packet} (hw : WordsAgree s.words) : WordsAgree (s.target d k).words := by
  unfold State.target
  refine agree_ite (by simp [hw]) ?_
  split
  · simp [hw]
  · split <;> simp [hw]
  · simp [hw]

theorem nextAgrees_targetOf {t : BitVec 4} {k : Packet} (hw : WordsAgree s.words) : NextAgrees (s.targetOf t k) := by
  unfold State.targetOf
  rw [nextAgrees_next]
  refine agree_ite hw ?_
  split
  · next e => simp [words_of_arrive e, hw]
  · exact hw

theorem nextAgrees_execRd {pkt : Packet} (hw : WordsAgree s.words) : NextAgrees (execRd pkt s) := nextAgrees_targetOf hw
theorem nextAgrees_execWr {pkt : Packet} (hw : WordsAgree s.words) : NextAgrees (execWr pkt s) := nextAgrees_targetOf hw
theorem nextAgrees_execWrp {pkt : Packet} (hw : WordsAgree s.words) : NextAgrees (execWrp pkt s) := nextAgrees_targetOf hw
theorem nextAgrees_execAtm {pkt : Packet} (hw : WordsAgree s.words) : NextAgrees (execAtm pkt s) := nextAgrees_targetOf hw
theorem nextAgrees_execPush {pkt : Packet} (hw : WordsAgree s.words) : NextAgrees (execPush pkt s) := nextAgrees_targetOf hw
theorem nextAgrees_execFwr {pkt : Packet} (hw : WordsAgree s.words) : NextAgrees (execFwr pkt s) := nextAgrees_targetOf hw

@[simp] theorem agree_replyAt {k : Packet} (hw : WordsAgree s.words) : WordsAgree (s.replyAt k).words := by
  unfold State.replyAt
  dsimp only
  (repeat' split) <;> simp [hw]

@[simp] theorem agree_replyComes {k : Packet} (hw : WordsAgree s.words) : WordsAgree (s.replyComes k).words := by
  unfold State.replyComes
  refine agree_ite hw ?_
  split
  · next e => simp [words_of_arrive e, hw]
  · exact hw

theorem nextAgrees_execRetryResend {a : RetryAgent} {tag : BitVec 6} {write : Bool} (hw : WordsAgree s.words) :
    NextAgrees (execRetryResend a tag write s) := by
  unfold execRetryResend
  dsimp only
  (repeat' split) <;> simp [hw]

theorem nextAgrees_execRdr {pkt : Packet} (hw : WordsAgree s.words) : NextAgrees (execRdr pkt s) := by simp [execRdr, hw]
theorem nextAgrees_execAck {pkt : Packet} (hw : WordsAgree s.words) : NextAgrees (execAck pkt s) := by simp [execAck, hw]

theorem nextAgrees_execPark {key : DescKey} (hw : WordsAgree s.words) : NextAgrees (execPark key s) := by
  unfold execPark
  dsimp only
  rw [nextAgrees_next]
  split
  · exact hw
  · refine agree_ite (by simp [hw]) (agree_ite hw ?_)
    split
    · simp [hw]
    · simpa using agree_foldl (fun v n hv => by simp [hv]) hw

@[simp] theorem agree_unparkPart {n : Nat} (hw : WordsAgree s.words) : WordsAgree (s.unparkPart n).words := by
  simp [State.unparkPart, part_words, hw]

@[simp] theorem agree_unparkTry {key : DescKey} (hw : WordsAgree s.words) : WordsAgree (s.unparkTry key).words := by
  unfold State.unparkTry
  dsimp only
  (repeat' split) <;> simp [part_words, hw]

theorem nextAgrees_execUnparkStep {key : DescKey} (hw : WordsAgree s.words) : NextAgrees (execUnparkStep key s) := by
  simp [execUnparkStep, hw]

@[simp] theorem agree_firePart {n : Nat} {lt : Word} {c : PCal} (hw : WordsAgree s.words) :
    WordsAgree (s.firePart n lt c).words := by
  unfold State.firePart
  split <;> simp [part_words, hw]

@[simp] theorem agree_fireDue {d : Due} (hw : WordsAgree s.words) : WordsAgree (s.fireDue d).words := by
  unfold State.fireDue
  split <;> simp [part_words, hw]

theorem nextAgrees_execCalendarFire (hw : WordsAgree s.words) : NextAgrees (execCalendarFire s) := by
  unfold execCalendarFire
  rw [nextAgrees_next]
  refine agree_ite hw ?_
  split <;> simp [hw]

theorem nextAgrees_execPhaseRelease {n : PartNo} (hw : WordsAgree s.words) : NextAgrees (execPhaseRelease n s) := by
  unfold execPhaseRelease
  dsimp only
  (repeat' split) <;> simp [hw]

theorem nextAgrees_execTopologyActivation (hw : WordsAgree s.words) : NextAgrees (execTopologyActivation s) := by
  unfold execTopologyActivation
  rw [nextAgrees_next]
  refine agree_ite hw ?_
  split
  · split <;> simp [hw]
  · exact hw

theorem nextAgrees_execDone {t : TileNo} (hw : WordsAgree s.words) : NextAgrees (execDone t s) := by simp [execDone, hw]

@[simp] theorem agree_abortTry {k : DescKey} (hw : WordsAgree s.words) : WordsAgree (s.abortTry k).words := by
  unfold State.abortTry
  split
  · exact hw
  · split
    · exact hw
    · exact agree_ite hw (agree_jobEnd hw)

@[simp] theorem agree_tileResetEnd {t : Nat} {fromDriver crcOk : Bool} (hw : WordsAgree s.words) :
    WordsAgree (s.tileResetEnd t fromDriver crcOk).words := by
  unfold State.tileResetEnd
  extract_lets waits s₁ s₂ scope rst s₃ cut s₄ s₅
  have h₄ : WordsAgree s₄.words := by simp [s₄, s₃, s₂, s₁, hw]
  have h₅ : WordsAgree s₅.words := agree_foldl (fun _ _ hv => agree_abortTry hv) h₄
  exact agree_ite (by simp [h₅]) h₅

@[simp] theorem agree_tileResetStart {t : Nat} {fromDriver crcOk : Bool} (hw : WordsAgree s.words) :
    WordsAgree (s.tileResetStart t fromDriver crcOk).words := by
  simp [State.tileResetStart, hw]

@[simp] theorem agree_orderTiles {scope : Nat} {l : List Nat} {crcOk : Bool} (hw : WordsAgree s.words) :
    WordsAgree (s.orderTiles scope l crcOk).words := by
  unfold State.orderTiles
  refine agree_ite (by simp [hw]) (agree_ite (by simp [hw]) ?_)
  exact agree_foldl (fun _ _ hv => agree_tileResetStart hv) (by simp [hw])

@[simp] theorem agree_resetBegin {n : Nat} {cause : BitVec 8} {driver holds : Bool} (hw : WordsAgree s.words) :
    WordsAgree (s.resetBegin n cause driver holds).words := by
  simp [State.resetBegin, part_words, hw]

@[simp] theorem agree_resetOrder {n : Nat} {cause : BitVec 8} {driver holds : Bool} (hw : WordsAgree s.words) :
    WordsAgree (s.resetOrder n cause driver holds).words := by
  unfold State.resetOrder
  dsimp only
  (repeat' split) <;> simp [part_words, hw]

@[simp] theorem agree_orderParts {mask : Nat} (hw : WordsAgree s.words) : WordsAgree (s.orderParts mask).words := by
  unfold State.orderParts
  refine agree_ite (by simp [hw]) (agree_ite (by simp [hw]) (agree_ite (by simp [hw]) ?_))
  exact agree_foldl (fun _ _ hv => agree_resetOrder hv) (by simp [hw])

@[simp] theorem agree_prtRst {v : Nat} {crcOk : Bool} (hw : WordsAgree s.words) : WordsAgree (s.prtRst v crcOk).words := by
  unfold State.prtRst
  dsimp only
  (repeat' split) <;> simp [hw]

theorem nextAgrees_execTileReset {t : TileNo} {fromDriver crcOk : Bool} (hw : WordsAgree s.words) :
    NextAgrees (execTileReset t fromDriver crcOk s) := by
  unfold execTileReset
  rw [nextAgrees_next]
  refine agree_ite ?_ ?_
  · split <;> simp [hw]
  · simp [hw]

theorem nextAgrees_execClusterReset {v : Word} {crcOk : Bool} (hw : WordsAgree s.words) :
    NextAgrees (execClusterReset v crcOk s) := by
  simp [execClusterReset, hw]

theorem nextAgrees_execPartitionReset {v : Word} (hw : WordsAgree s.words) : NextAgrees (execPartitionReset v s) := by
  simp [execPartitionReset, hw]

theorem nextAgrees_execHardTrip {n : PartNo} {holds : Bool} (hw : WordsAgree s.words) : NextAgrees (execHardTrip n holds s) := by
  simp [execHardTrip, hw]

theorem nextAgrees_execDrainLimit {t : TileNo} (hw : WordsAgree s.words) : NextAgrees (execDrainLimit t s) := by
  unfold execDrainLimit
  split <;> simp [hw]

@[simp] theorem agree_resetStop {n : Nat} (hw : WordsAgree s.words) : WordsAgree (s.resetStop n).words := by
  unfold State.resetStop
  extract_lets mine scope rst s₁ s₂
  have h₁ : WordsAgree s₁.words := by simp [s₁, hw]
  have h₂ : WordsAgree s₂.words := agree_foldl (fun v t hv => by simp [hv]) h₁
  simp [h₂]

@[simp] theorem agree_resetClear {n : Nat} {r : ResetRun} {crcBad : List TileNo} {channelBad : Bool} {seamsOk : List (Fin 24)}
    (hw : WordsAgree s.words) : WordsAgree (s.resetClear n r crcBad channelBad seamsOk).words := by
  unfold State.resetClear
  extract_lets s₁ s₂ k s₃ s₄ ageing p s₅ s₆ left
  have h₃ : WordsAgree s₃.words := by simp [s₃, s₂, s₁, hw]
  have h₄ : WordsAgree s₄.words := agree_foldl (fun v x hv => by simp [hv]) h₃
  clear_value s₄
  have h₅ : WordsAgree s₅.words := agree_setPart rfl h₄
  clear_value s₅
  have h₆ : WordsAgree s₆.words := agree_ite (by simp [h₅]) h₅
  clear_value s₆
  exact agree_setPart rfl h₆

theorem nextAgrees_execResetStep {n : PartNo} {crcBad : List TileNo} {channelBad : Bool} {seamsOk : List (Fin 24)}
    (hw : WordsAgree s.words) : NextAgrees (execResetStep n crcBad channelBad seamsOk s) := by
  unfold execResetStep
  extract_lets p next
  have hn : ∀ v : State, WordsAgree v.words → WordsAgree (next v).words := fun v hv => by
    simp only [next]
    split
    · exact agree_setPart rfl hv
    · exact hv
  clear_value next
  rw [nextAgrees_next]
  refine agree_ite hw ?_
  cases p.reset with
  | none =>
    dsimp only
    split
    · exact agree_ite hw (agree_resetOrder (agree_setPart rfl hw))
    · exact hw
  | some r =>
    dsimp only
    split
    · exact hn _ (agree_resetStop hw)
    · exact hn _ (agree_setPart rfl (by simp [hw]))
    · exact hn _ (by rwa [words_resetDrain])
    · exact hn _ (agree_resetClear hw)
    · exact hn _ (by rwa [words_resetRetire])
    · exact hw

@[simp] theorem agree_resetFinish {n : Nat} {r : ResetRun} (hw : WordsAgree s.words) : WordsAgree (s.resetFinish n r).words := by
  unfold State.resetFinish
  extract_lets p causes oos s₁ s₂ s₃ seq s₄ s₅ rst s₆
  have h₁ : s₁.words = s.words := words_startCycle
  clear_value s₁
  have h₂ : WordsAgree s₂.words := agree_setPart (h₁ ▸ rfl) (h₁ ▸ hw)
  clear_value s₂
  have h₃ : WordsAgree s₃.words := agree_ite (agree_pswChange h₂) (agree_ite (agree_pswChange h₂) (agree_pswChange h₂))
  clear_value s₃
  have h₆ : WordsAgree s₆.words := by simp [s₆, s₅, s₄, h₃]
  clear_value s₆
  simp only [words_rstDone]
  exact agree_foldl (fun _ _ hv => agree_abortTry hv) h₆

theorem nextAgrees_execPartitionResetDone {n : PartNo} (hw : WordsAgree s.words) : NextAgrees (execPartitionResetDone n s) := by
  unfold execPartitionResetDone
  split <;> simp [hw]

@[simp] theorem agree_resetWhole {n : Nat} {cause : BitVec 8} (hw : WordsAgree s.words) :
    WordsAgree (s.resetWhole n cause).words := by
  rw [State.resetWhole]
  split
  next s₂ slot e =>
    extract_lets s₃
    have h₃ : WordsAgree s₃.words := by
      rw [words_resetDrain, words_of_fst e words_sampleStep]
      refine agree_resetStop ?_
      split
      · exact hw
      · exact agree_resetBegin hw
    clear_value s₃
    split
    · exact h₃
    · extract_lets s₄
      have h₄ : WordsAgree s₄.words := agree_resetClear h₃
      clear_value s₄
      split
      · exact h₄
      · extract_lets s₅
        have h₅ : WordsAgree s₅.words := by rwa [words_resetRetire]
        clear_value s₅
        split
        · exact h₅
        · exact agree_resetFinish h₅

@[simp] theorem agree_writeRecon {w : Nat} (hw : WordsAgree s.words) : WordsAgree (s.writeRecon w).words := by
  unfold State.writeRecon
  dsimp only
  (repeat' split) <;> simp [part_words, hw]

theorem nextAgrees_execPrtRecon {v : Word} (hw : WordsAgree s.words) : NextAgrees (execPrtRecon v s) := by simp [execPrtRecon, hw]

@[simp] theorem agree_sensorFails {i : Nat} (hw : WordsAgree s.words) : WordsAgree (s.sensorFails i).words := by
  simp [State.sensorFails, part_words, hw]

@[simp] theorem agree_dieRead {i : Nat} {r : SensorRead} (hw : WordsAgree s.words) : WordsAgree (s.dieRead i r).words := by
  unfold State.dieRead
  dsimp only
  (repeat' split) <;> simp [hw]

theorem nextAgrees_execThermalSensorRead {reads : List SensorRead} (hw : WordsAgree s.words) :
    NextAgrees (execThermalSensorRead reads s) := by
  unfold execThermalSensorRead
  split
  · simp
  · rw [nextAgrees_next]
    refine agree_ite hw ?_
    simpa using agree_foldl (fun _ _ hv => agree_dieRead hv) hw

@[simp] theorem agree_ageDrop {n op v : Nat} (hw : WordsAgree s.words) : WordsAgree (s.ageDrop n op v).words := by
  simp [State.ageDrop, part_words, hw]

@[simp] theorem agree_ageMeasure {n op : Nat} {slack : BitVec 6} (hw : WordsAgree s.words) :
    WordsAgree (s.ageMeasure n op slack).words := by
  simp [State.ageMeasure, part_words, hw]

theorem nextAgrees_execAgeingMeasurement {n : PartNo} {slack : BitVec 6} {disturbed : Bool} (hw : WordsAgree s.words) :
    NextAgrees (execAgeingMeasurement n slack disturbed s) := by
  simp [execAgeingMeasurement, part_words, hw]

theorem words_coreReset {rails : Bool} : (s.coreReset rails).words = fun _ => .fresh := by
  rw [words_eq]
  funext m
  have hp : (SMap.find? (s.coreReset rails).parts m).map (·.psw) = (SMap.find? s.parts m).map (fun _ => Psw.fresh) := by
    unfold State.coreReset
    refine find?_map_psw (h := fun _ => .fresh) (fun e => ?_) (fun e => ?_) s.parts m <;> rfl
  rw [hp]
  cases SMap.find? s.parts m <;> rfl

@[simp] theorem agree_coreReset {rails : Bool} : WordsAgree (s.coreReset rails).words := by
  rw [words_coreReset]
  exact wordsAgree_fresh

@[simp] theorem agree_zeroize (hw : WordsAgree s.words) : WordsAgree s.zeroize.words := by
  unfold State.zeroize
  dsimp only
  split <;> simp [hw]

@[simp] theorem agree_railsFall {f : Fall} : WordsAgree (s.railsFall f).words := by simp [State.railsFall]
@[simp] theorem agree_startFail {cause : Nat} {f : Fall} : WordsAgree (s.startFail cause f).words := by simp [State.startFail]
@[simp] theorem agree_packageReset (hw : WordsAgree s.words) : WordsAgree s.packageReset.words := by simp [State.packageReset, hw]

theorem nextAgrees_execPackageReset {v : Word} (hw : WordsAgree s.words) : NextAgrees (execPackageReset v s) := by
  simp [execPackageReset, hw]

theorem nextAgrees_execPkgRstN (hw : WordsAgree s.words) : NextAgrees (execPkgRstN s) := by simp [execPkgRstN, hw]
@[simp] theorem agree_enterPs3 : WordsAgree s.enterPs3.words := by simp [State.enterPs3]

theorem nextAgrees_execHintSleep {key : DescKey} (hw : WordsAgree s.words) : NextAgrees (execHintSleep key s) := by
  unfold execHintSleep
  split
  · simp [hw]
  · split <;> simp [hw]

@[simp] theorem agree_restoreTenants (hw : WordsAgree s.words) : WordsAgree s.restoreTenants.words := by
  unfold State.restoreTenants
  split
  · exact agree_foldl (fun _ _ hv => agree_pswChange hv) (by simp [hw])
  · exact hw

@[simp] theorem agree_step6 {rep : StepReport} (hw : WordsAgree s.words) : WordsAgree (s.step6 rep).words := by
  unfold State.step6
  dsimp only
  split <;> simp [hw]

@[simp] theorem agree_step9 {rep : StepReport} (hw : WordsAgree s.words) : WordsAgree (s.step9 rep).words := by
  unfold State.step9
  extract_lets l staging boot s₁ s₂ s₃
  have h₃ : WordsAgree s₃.words :=
    agree_foldl (fun _ _ hv => agree_foldl (fun _ _ hu => agree_ageMeasure hu) hv) (by simp [s₂, s₁, hw])
  exact agree_ite h₃ (by simp [h₃])

@[simp] theorem agree_leaveOff {n : Nat} (hw : WordsAgree s.words) : WordsAgree (s.leaveOff n).words := by
  unfold State.leaveOff
  dsimp only
  (repeat' split) <;> simp [part_words, hw]

theorem nextAgrees_execStartStep {rep : StepReport} (hw : WordsAgree s.words) : NextAgrees (execStartStep rep s) := by
  unfold execStartStep
  rw [nextAgrees_next]
  refine agree_ite hw ?_
  split
  · exact agree_startFail
  · split
    case h_10 => simpa using agree_foldl (fun _ _ hv => agree_leaveOff hv) hw
    all_goals simp [hw]

theorem nextAgrees_execStartStepTimeout {stks : List PartNo} (hw : WordsAgree s.words) :
    NextAgrees (execStartStepTimeout stks s) := by
  simp [execStartStepTimeout, hw]

@[simp] theorem agree_readCmd {p : MgmtPath} {f : State → State × Nat × Nat × List Byte}
    (hf : ∀ v, WordsAgree v.words → WordsAgree (f v).1.words) (hw : WordsAgree s.words) : WordsAgree (s.readCmd p f).words := by
  unfold State.readCmd
  dsimp only
  split
  · exact hw
  · split
    · simpa using hw
    · simpa using hf _ (by simpa using hw)

@[simp] theorem agree_orderCmd {p : MgmtPath} {f : State → State × Nat × Nat × List Byte}
    (hf : ∀ v, WordsAgree v.words → WordsAgree (f v).1.words) (hw : WordsAgree s.words) : WordsAgree (s.orderCmd p f).words := by
  refine agree_readCmd (fun v hv => ?_) hw
  split
  · exact hv
  · exact hf v hv

@[simp] theorem agree_powerOrder {order : Nat} {ok : Bool} {f : State → State × Nat × Nat × List Byte}
    (hf : WordsAgree (f s).1.words) (hw : WordsAgree s.words) : WordsAgree (s.powerOrder order ok f).1.words := by
  unfold State.powerOrder
  split
  · exact hw
  · split
    · simpa using hw
    · exact hf

@[simp] theorem agree_shutdownBegin (hw : WordsAgree s.words) : WordsAgree s.shutdownBegin.words := by
  simpa [State.shutdownBegin] using agree_foldl (fun v n hv => by simp [hv]) (by simpa using hw)

theorem nextAgrees_execOff {path : MgmtPath} (hw : WordsAgree s.words) : NextAgrees (execOff path s) := by
  refine nextAgrees_next.2 (agree_orderCmd (fun v hv => agree_powerOrder ?_ hv) (by simp [hw]))
  split <;> simp [hv]

theorem nextAgrees_execSleep {path : MgmtPath} (hw : WordsAgree s.words) : NextAgrees (execSleep path s) := by
  refine nextAgrees_next.2 (agree_orderCmd (fun v hv => agree_powerOrder ?_ hv) hw)
  split <;> simp [hv]

theorem nextAgrees_execShutdownSelftestDone {defects : List Defect} {untested : BitVec 16} {ms : BitVec 32}
    (hw : WordsAgree s.words) :
    NextAgrees (execShutdownSelftestDone defects untested ms s) := by
  simp [execShutdownSelftestDone, hw]

theorem nextAgrees_execThermalTrip {sensor : Fin 76} {temp : Nat} (hw : WordsAgree s.words) :
    NextAgrees (execThermalTrip sensor temp s) := by
  simp [execThermalTrip, hw]

@[simp] theorem agree_supplyFault {detail : Nat} : WordsAgree (s.supplyFault detail).words := by simp [State.supplyFault]

theorem nextAgrees_execRailRangeTimeout {rail : Nat} (hw : WordsAgree s.words) : NextAgrees (execRailRangeTimeout rail s) := by
  simp [execRailRangeTimeout, hw]

theorem nextAgrees_execStackRailFault {pp : Bool} (hw : WordsAgree s.words) : NextAgrees (execStackRailFault pp s) := by
  simp [execStackRailFault, hw]

theorem nextAgrees_execOutputBelowSetting {reg : Fin 6} (hw : WordsAgree s.words) : NextAgrees (execOutputBelowSetting reg s) := by
  simp [execOutputBelowSetting, hw]

theorem nextAgrees_execRegulatorPoll {reg : Fin 6} {r : Option RegTelemetry} (hw : WordsAgree s.words) :
    NextAgrees (execRegulatorPoll reg r s) := by
  unfold execRegulatorPoll
  rw [nextAgrees_next]
  refine agree_ite hw ?_
  split
  · extract_lets s₁ s₂ s₃
    have h₁ : WordsAgree s₁.words := by rwa [words_regTelemetry]
    clear_value s₁
    have h₂ : WordsAgree s₂.words := agree_foldl (fun _ _ hv => agree_ite (agree_setPart rfl hv) hv) h₁
    clear_value s₂
    have h₃ : WordsAgree s₃.words := agree_ite (by rwa [words_setRail]) h₂
    clear_value s₃
    exact agree_ite agree_supplyFault h₃
  · simp [part_words, hw]

@[simp] theorem agree_changeBegin {n : Nat} {t : BitVec 7} (hw : WordsAgree s.words) : WordsAgree (s.changeBegin n t).words := by
  unfold State.changeBegin
  extract_lets due old s₁ s₂ s₃ new
  have h₁ : WordsAgree s₁.words := agree_foldl (fun v m hv => by simp [hv]) hw
  simpa [s₃] using agree_cutStreams h₁

@[simp] theorem agree_tenAssign {v : Nat} (hw : WordsAgree s.words) : WordsAgree (s.tenAssign v).words := by
  unfold State.tenAssign
  dsimp only
  (repeat' split) <;> simp [hw]

theorem nextAgrees_execTenAssign {v : Word} (hw : WordsAgree s.words) : NextAgrees (execTenAssign v s) := by
  simp [execTenAssign, hw]

theorem nextAgrees_execTenantChangeDone (hw : WordsAgree s.words) : NextAgrees (execTenantChangeDone s) := by
  unfold execTenantChangeDone
  dsimp only
  rw [nextAgrees_next]
  split
  · exact hw
  · refine agree_ite hw (agree_foldl (fun _ _ hv => agree_fence hv) ?_)
    simp [part_words, hw]

@[simp] theorem agree_fidCmd {path : Option MgmtPath} {f : State → State × Nat × Nat × List Byte}
    (hf : ∀ v, WordsAgree v.words → WordsAgree (f v).1.words) (hw : WordsAgree s.words) : WordsAgree (s.fidCmd path f).words := by
  unfold State.fidCmd
  split
  · exact agree_orderCmd hf hw
  · split
    · exact hw
    · simpa using hf s hw

@[simp] theorem agree_unlockPart {n : Nat} (hw : WordsAgree s.words) : WordsAgree (s.unlockPart n).words := by
  simp [State.unlockPart, part_words, hw]

@[simp] theorem agree_unlockJobs (hw : WordsAgree s.words) : WordsAgree s.unlockJobs.words :=
  agree_foldl (fun _ _ hv => agree_jobEnd hv) hw

@[simp] theorem agree_unlock {scope : BitVec 3} (hw : WordsAgree s.words) : WordsAgree (s.unlock scope).words := by
  simpa [State.unlock] using agree_zeroize (agree_unlockJobs (agree_foldl (fun _ _ hv => agree_unlockPart hv) hw))

theorem nextAgrees_execFidLoad {path : Option MgmtPath} {token : List Byte} {ok : Verdicts} (hw : WordsAgree s.words) :
    NextAgrees (execFidLoad path token ok s) := by
  refine nextAgrees_next.2 (agree_fidCmd (fun v hv => ?_) hw)
  (repeat' split) <;> simp [hv]

theorem nextAgrees_execBoundaryDrive (hw : WordsAgree s.words) : NextAgrees (execBoundaryDrive s) := by simp [execBoundaryDrive, hw]

theorem nextAgrees_execBoundaryDriveExit (hw : WordsAgree s.words) : NextAgrees (execBoundaryDriveExit s) := by
  simp [execBoundaryDriveExit, hw]

theorem nextAgrees_execInternalScan {scope : BitVec 3} (hw : WordsAgree s.words) : NextAgrees (execInternalScan scope s) := by
  simp [execInternalScan, hw]

@[simp] theorem agree_served {p : MgmtPath} {f : State → Answer}
    (hf : ∀ v, WordsAgree v.words → WordsAgree (f v).1.words) (hw : WordsAgree s.words) : WordsAgree (s.served p f).words := by
  unfold State.served
  split
  · exact hw
  · simpa using hf _ (by simpa using hw)

@[simp] theorem agree_type2 {p : MgmtPath} {f : State → Answer}
    (hf : ∀ v, WordsAgree v.words → WordsAgree (f v).1.words) (hw : WordsAgree s.words) : WordsAgree (s.type2 p f).words := by
  refine agree_served (fun v hv => ?_) hw
  split
  · exact hv
  · exact hf v hv

@[simp] theorem agree_type2Tray {p : MgmtPath} {f : State → Answer}
    (hf : ∀ v, WordsAgree v.words → WordsAgree (f v).1.words) (hw : WordsAgree s.words) : WordsAgree (s.type2Tray p f).words := by
  refine agree_type2 (fun v hv => ?_) hw
  split
  · exact hv
  · exact hf v hv

theorem nextAgrees_execEffecterRackVerdict {path : MgmtPath} {n : PartNo} {v : Byte} (hw : WordsAgree s.words) :
    NextAgrees (execEffecterRackVerdict path n v s) := by
  refine nextAgrees_next.2 (agree_type2Tray (fun x hx => ?_) (by simp [hw]))
  split <;> simp [part_words, hx]

@[simp] theorem agree_afterLoss {standby : Bool} : WordsAgree (s.afterLoss standby).words := wordsAgree_fresh

theorem nextAgrees_execStandbyPowerOn {romOk : Bool} {stagedBad : BitVec 3} (hw : WordsAgree s.words) :
    NextAgrees (execStandbyPowerOn romOk stagedBad s) := by
  simp [execStandbyPowerOn, hw]

theorem nextAgrees_execStandbyLoss (hw : WordsAgree s.words) : NextAgrees (execStandbyLoss s) := by simp [execStandbyLoss, hw]

@[simp] theorem agree_writePrtRst {v : Nat} (hw : WordsAgree s.words) : WordsAgree (s.writePrtRst v).words := by
  simp [State.writePrtRst, hw]

@[simp] theorem agree_writeRest {off v : Nat} (hw : WordsAgree s.words) : WordsAgree (s.writeRest off v).words := by
  unfold State.writeRest
  split
  case h_7 =>
    refine agree_ite (by simp [hw]) ?_
    split <;> simp [hw]
  all_goals simp [hw]

theorem nextAgrees_execSetupWrite {a : BarAddr} {w : Width} {v : Word} (hw : WordsAgree s.words) :
    NextAgrees (execSetupWrite a w v s) := by
  unfold execSetupWrite
  dsimp only
  (repeat' split) <;> simp [hw]

end

/-! ### Every step -/

section

variable {s u : State}

theorem NextKeeps.agrees {o : Host.Outcome State Fault Refusal} (h : NextKeeps s o) (hw : WordsAgree s.words) : NextAgrees o :=
  fun u e => by
    rw [h u e]
    exact hw

/-- The commands that may change a word are named; every other command has its lemma in the frame. -/
theorem nextAgrees_exec (c : Instr) (hw : WordsAgree s.words) : NextAgrees (exec c s) := by
  unfold exec
  cases c
  case done => exact nextAgrees_execDone hw
  case fence => exact nextAgrees_execFence hw
  case twait => exact nextAgrees_execTwait hw
  case vwait => exact nextAgrees_execVwait hw
  case tileFaultJobEnd => exact nextAgrees_execTileFaultJobEnd hw
  case dmaComplete => exact nextAgrees_execDmaComplete hw
  case retryResend => exact nextAgrees_execRetryResend hw
  case tilePortInbound => exact nextAgrees_execTilePortInbound hw
  case tensorStart => exact nextAgrees_execTensorStart hw
  case halfRateStart => exact nextAgrees_execHalfRateStart hw
  case tensorFinish => exact nextAgrees_execTensorFinish hw
  case vectorFinish => exact nextAgrees_execVectorFinish hw
  case fusedFinish => exact nextAgrees_execFusedFinish hw
  case fusedTimeout => exact nextAgrees_execFusedTimeout hw
  case chunk => exact nextAgrees_execChunk hw
  case abort => exact nextAgrees_execAbort hw
  case slotTimeout => exact nextAgrees_execSlotTimeout hw
  case stackAccess => exact nextAgrees_execStackAccess hw
  case patrolScrub => exact nextAgrees_execPatrolScrub hw
  case expand => exact nextAgrees_execExpand hw
  case load => exact nextAgrees_execLoad hw
  case streamEnd => exact nextAgrees_execStreamEnd hw
  case seamResend => exact nextAgrees_execSeamResend hw
  case rotationCopyDone => exact nextAgrees_execRotationCopyDone hw
  case rotationRelease => exact nextAgrees_execRotationRelease hw
  case rotationAbandon => exact nextAgrees_execRotationAbandon hw
  case setupWrite => exact nextAgrees_execSetupWrite hw
  case jobLaunch => exact nextAgrees_execJobLaunch hw
  case hintSleep => exact nextAgrees_execHintSleep hw
  case park => exact nextAgrees_execPark hw
  case unparkStep => exact nextAgrees_execUnparkStep hw
  case topologyActivation => exact nextAgrees_execTopologyActivation hw
  case rd => exact nextAgrees_execRd hw
  case wr => exact nextAgrees_execWr hw
  case wrp => exact nextAgrees_execWrp hw
  case atm => exact nextAgrees_execAtm hw
  case push => exact nextAgrees_execPush hw
  case fwr => exact nextAgrees_execFwr hw
  case rdr => exact nextAgrees_execRdr hw
  case ack => exact nextAgrees_execAck hw
  case circuitBrokenNotice => exact nextAgrees_execCircuitBrokenNotice hw
  case calendarFire => exact nextAgrees_execCalendarFire hw
  case phaseRelease => exact nextAgrees_execPhaseRelease hw
  case tenAssign => exact nextAgrees_execTenAssign hw
  case tenantChangeDone => exact nextAgrees_execTenantChangeDone hw
  case fidLoad => exact nextAgrees_execFidLoad hw
  case boundaryDrive => exact nextAgrees_execBoundaryDrive hw
  case internalScan => exact nextAgrees_execInternalScan hw
  case thermalSensorRead => exact nextAgrees_execThermalSensorRead hw
  case thermalTrip => exact nextAgrees_execThermalTrip hw
  case ageingMeasurement => exact nextAgrees_execAgeingMeasurement hw
  case effecterRackVerdict => exact nextAgrees_execEffecterRackVerdict hw
  case off => exact nextAgrees_execOff hw
  case sleep => exact nextAgrees_execSleep hw
  case regulatorPoll => exact nextAgrees_execRegulatorPoll hw
  case standbyPowerOn => exact nextAgrees_execStandbyPowerOn hw
  case standbyLoss => exact nextAgrees_execStandbyLoss hw
  case startStep => exact nextAgrees_execStartStep hw
  case startStepTimeout => exact nextAgrees_execStartStepTimeout hw
  case shutdownSelftestDone => exact nextAgrees_execShutdownSelftestDone hw
  case tileReset => exact nextAgrees_execTileReset hw
  case clusterReset => exact nextAgrees_execClusterReset hw
  case partitionReset => exact nextAgrees_execPartitionReset hw
  case packageReset => exact nextAgrees_execPackageReset hw
  case pkgRstN => exact nextAgrees_execPkgRstN hw
  case hardTrip => exact nextAgrees_execHardTrip hw
  case drainLimit => exact nextAgrees_execDrainLimit hw
  case resetStep => exact nextAgrees_execResetStep hw
  case partitionResetDone => exact nextAgrees_execPartitionResetDone hw
  case prtRecon => exact nextAgrees_execPrtRecon hw
  case railRangeTimeout => exact nextAgrees_execRailRangeTimeout hw
  case stackRailFault => exact nextAgrees_execStackRailFault hw
  case boundaryDriveExit => exact nextAgrees_execBoundaryDriveExit hw
  case outputBelowSetting => exact nextAgrees_execOutputBelowSetting hw
  all_goals exact NextKeeps.agrees (by simp) hw

theorem nextAgrees_step (hw : WordsAgree s.words) : NextAgrees (step s) := by
  unfold step
  split
  · exact nextAgrees_next.2 hw
  · exact nextAgrees_exec _ (by rwa [words_update])

end

/-- Settles O55: standby power-on leaves every word at its reset value; a step changes a word only through the arbiter, which sets
CONFLICT by the views, or by a reset; and a partition in service reads CONFLICT 0 by R18, so its views agree. -/
theorem conflictKept : Obligations.ConflictKept := by
  refine ⟨wordsAgree_fresh, fun s u hw h => nextAgrees_step hw u h, fun s hw n h => ?_⟩
  simp only [Psw.inService, Bool.and_eq_true, Bool.not_eq_true', beq_iff_eq] at h
  obtain ⟨⟨-, hv⟩, hc⟩ := h
  exact ⟨hv, fun hd => by simp [(hw n).2 hd] at hc⟩

end Sys2Proof.Machine

namespace Sys2Proof.Machine

/-! ## Exact arithmetic and rounding (03 R82, R83, R86)

The exact operations are compared with the rationals: the value of a dyadic is its signed significand times its power of two, so
aligning a dyadic to a smaller exponent keeps its value, and a sum of aligned dyadics is a sum of integers. Rounding is one equation
per sign of the scale; an element's own quantum is its exponent, so nothing of it is dropped. -/

/-! ### Values of dyadics -/

theorem value_eq_signed (n : Bool) (m : Nat) (e : Int) : Claims.value n m e = (signed n m : ℚ) * 2 ^ e := by
  cases n <;> simp [Claims.value, signed]

/-- A signed integer is given back by its sign and its magnitude. -/
theorem signed_natAbs (v : Int) : signed (decide (v < 0)) v.natAbs = v := by
  by_cases h : v < 0 <;> simp only [signed, h, decide_true, decide_false, if_true, Bool.false_eq_true, if_false] <;> omega

/-- Writing m × 2^e as a multiple of 2^q, for q ≤ e, keeps its value. -/
theorem value_alignTo (n : Bool) (m : Nat) {e q : Int} (h : q ≤ e) :
    Claims.value n (alignTo m e q) q = Claims.value n m e := by
  have hpow : (2 : ℚ) ^ (e - q).toNat * 2 ^ q = 2 ^ e := by
    rw [← zpow_natCast, ← zpow_add₀ two_ne_zero, Int.toNat_of_nonneg (sub_nonneg.mpr h), sub_add_cancel]
  simp only [Claims.value, alignTo, Nat.cast_mul, Nat.cast_pow, Nat.cast_ofNat]
  rw [← hpow]
  ring

/-- The exact sum is a finite number, and its value is the sum of the values. -/
theorem add_fin_value (n₁ n₂ : Bool) (m₁ m₂ : Nat) (e₁ e₂ : Int) :
    ∃ n m e, (Num.fin n₁ m₁ e₁).add (.fin n₂ m₂ e₂) = .fin n m e ∧
      Claims.value n m e = Claims.value n₁ m₁ e₁ + Claims.value n₂ m₂ e₂ := by
  have hsum : ((signed n₁ (alignTo m₁ e₁ (min e₁ e₂)) + signed n₂ (alignTo m₂ e₂ (min e₁ e₂)) : Int) : ℚ) * 2 ^ min e₁ e₂ =
      Claims.value n₁ m₁ e₁ + Claims.value n₂ m₂ e₂ := by
    rw [← value_alignTo n₁ m₁ (min_le_left e₁ e₂), ← value_alignTo n₂ m₂ (min_le_right e₁ e₂), value_eq_signed, value_eq_signed,
      Int.cast_add, add_mul]
  simp only [Num.add, addFin]
  split
  next hzero =>
    refine ⟨_, _, _, rfl, ?_⟩
    rw [← hsum, hzero]
    simp [Claims.value]
  next =>
    refine ⟨_, _, _, rfl, ?_⟩
    rw [← hsum, value_eq_signed, signed_natAbs]

/-- The exact product is a finite number, and its value is the product of the values. -/
theorem mul_fin_value (n₁ n₂ : Bool) (m₁ m₂ : Nat) (e₁ e₂ : Int) :
    ∃ n m e, (Num.fin n₁ m₁ e₁).mul (.fin n₂ m₂ e₂) = .fin n m e ∧
      Claims.value n m e = Claims.value n₁ m₁ e₁ * Claims.value n₂ m₂ e₂ := by
  refine ⟨_, _, _, rfl, ?_⟩
  have hsign : (if (n₁ != n₂) = true then (-1 : ℚ) else 1) = (if n₁ = true then -1 else 1) * (if n₂ = true then -1 else 1) := by
    cases n₁ <;> cases n₂ <;> norm_num
  simp only [Claims.value, hsign, Nat.cast_mul, zpow_add₀ (two_ne_zero (α := ℚ))]
  ring

theorem exactArithmetic_holds : Claims.exactArithmetic := fun n₁ n₂ m₁ m₂ e₁ e₂ =>
  ⟨add_fin_value n₁ n₂ m₁ m₂ e₁ e₂, mul_fin_value n₁ n₂ m₁ m₂ e₁ e₂⟩

/-! ### Rounding to nearest even -/

theorem rneScale_zero (m : Nat) : rneScale m 0 = (m, false) := by simp [rneScale]

/-- Dropping at least one bit: up when the remainder is above half a unit, or is half a unit and the quotient is odd. -/
theorem rneScale_drop (m k : Nat) : rneScale m (-((k + 1 : Nat) : Int)) =
    (if 2 ^ k < m % 2 ^ (k + 1) ∨ (m % 2 ^ (k + 1) = 2 ^ k ∧ m / 2 ^ (k + 1) % 2 = 1) then m / 2 ^ (k + 1) + 1 else m / 2 ^ (k + 1),
      decide (m % 2 ^ (k + 1) ≠ 0)) := by
  have hneg : ¬ (0 : Int) ≤ -((k + 1 : Nat) : Int) := by omega
  simp only [rneScale, if_neg hneg, neg_neg, Int.toNat_natCast, Nat.add_sub_cancel]

/-- The rule of the tie: of the two multiples of 2h next to m, the chosen one is within h of m, and an even multiple when both are h
away. -/
theorem nearestEven_quotient (m : Nat) {h : Nat} (hpos : 0 < h) :
    let v : Int := ((if h < m % (2 * h) ∨ (m % (2 * h) = h ∧ m / (2 * h) % 2 = 1) then m / (2 * h) + 1 else m / (2 * h) : Nat) : Int)
    |v * (2 * h) - m| ≤ h ∧ (|v * (2 * h) - m| = h → v % 2 = 0) := by
  intro v
  have hr : m % (2 * h) < 2 * h := Nat.mod_lt m (by omega)
  have hm : (m : Int) = 2 * h * (m / (2 * h) : Nat) + (m % (2 * h) : Nat) := mod_cast (Nat.div_add_mod m (2 * h)).symm
  by_cases hup : h < m % (2 * h) ∨ (m % (2 * h) = h ∧ m / (2 * h) % 2 = 1)
  · have hv : v = (m / (2 * h) : Nat) + 1 := by simp only [v, if_pos hup, Nat.cast_succ]
    have hdist : v * (2 * h) - m = 2 * h - (m % (2 * h) : Nat) := by rw [hv]; linarith
    rw [hdist, abs_of_nonneg (by omega)]
    omega
  · have hv : v = (m / (2 * h) : Nat) := by simp only [v, if_neg hup]
    have hdist : v * (2 * h) - m = -(m % (2 * h) : Nat) := by rw [hv]; linarith
    rw [hdist, abs_neg, Nat.abs_cast]
    omega

theorem rneScale_inexact_iff (m k : Nat) : (rneScale m (-(k : Int))).2 = true ↔ m % 2 ^ k ≠ 0 := by
  cases k with
  | zero => simp [rneScale_zero, Nat.mod_one]
  | succ k => rw [rneScale_drop, decide_eq_true_iff]

/-- Dropping bits gives a nearest integer, the even one of two. -/
theorem rneScale_nearestEven (m k : Nat) : let v : Int := (rneScale m (-(k : Int))).1
    2 * |v * 2 ^ k - m| ≤ 2 ^ k ∧ (2 * |v * 2 ^ k - m| = 2 ^ k → v % 2 = 0) := by
  cases k with
  | zero => simp [rneScale_zero]
  | succ k =>
    have hpow : (2 : Int) ^ (k + 1) = 2 * (2 ^ k : Nat) := by push_cast; ring
    have hnear := nearestEven_quotient m (Nat.two_pow_pos k)
    simp only [rneScale_drop, Nat.pow_succ', hpow]
    omega

/-! ### The elements of a format -/

/-- A magnitude without the implicit bit is a subnormal: its unit is the least exponent. -/
theorem quantum_subnormal (f : Fmt) {m : Nat} (h : m < 2 ^ f.mb) : f.quantum m f.emin = f.emin := by
  unfold Fmt.quantum
  split
  next => rfl
  next hm =>
    have hlog : Nat.log2 m < f.mb := (Nat.log2_lt hm).2 h
    omega

/-- A significand of full width stands at its own unit, where the format reaches its exponent. -/
theorem quantum_normal (f : Fmt) {m : Nat} {e : Int} (h : m < 2 ^ f.mb) (he : f.emin ≤ e) :
    f.quantum (2 ^ f.mb + m) e = e := by
  have hpos : 0 < 2 ^ f.mb := Nat.two_pow_pos f.mb
  have hlog : Nat.log2 (2 ^ f.mb + m) = f.mb := by
    rw [Nat.log2_eq_iff (by omega), Nat.pow_succ]
    omega
  rw [Fmt.quantum, if_neg (by omega), hlog]
  omega

/-- A magnitude whose unit is its exponent loses no bit. -/
theorem round_of_quantum_eq {f : Fmt} {m : Nat} {e : Int} (h : f.quantum m e = e) :
    f.round m e = ((e - f.emin).toNat * 2 ^ f.mb + m, false) := by
  simp only [Fmt.round, h, sub_self, rneScale_zero]

/-- The magnitude of every code rounds to that code, exactly: in every format, and above the largest finite code too. -/
theorem round_magOf (f : Fmt) (c : Nat) : f.round (f.magOf c).1 (f.magOf c).2 = (c, false) := by
  have hfrac : c % 2 ^ f.mb < 2 ^ f.mb := Nat.mod_lt c (Nat.two_pow_pos f.mb)
  have hcode : 2 ^ f.mb * (c / 2 ^ f.mb) + c % 2 ^ f.mb = c := Nat.div_add_mod c (2 ^ f.mb)
  unfold Fmt.magOf
  rcases hx : c / 2 ^ f.mb with _ | x
  case zero =>
    have hc : c % 2 ^ f.mb = c := by rw [hx] at hcode; omega
    rw [hc] at hfrac ⊢
    simp [round_of_quantum_eq (quantum_subnormal f hfrac)]
  case succ =>
    have he : f.emin + ((x + 1 : Nat) : Int) - 1 = f.emin + x := by omega
    have hle : f.emin ≤ f.emin + x := by omega
    simp only [Nat.succ_ne_zero, if_false, he, round_of_quantum_eq (quantum_normal f hfrac hle), add_sub_cancel_left,
      Int.toNat_natCast, Prod.mk.injEq, and_true]
    calc x * 2 ^ f.mb + (2 ^ f.mb + c % 2 ^ f.mb)
        = 2 ^ f.mb * (x + 1) + c % 2 ^ f.mb := by ring
      _ = c := by rw [← hx, hcode]

theorem roundsToNearestEven_holds : Claims.roundsToNearestEven :=
  ⟨fun m k => ⟨(rneScale_nearestEven m k).1, (rneScale_nearestEven m k).2, rneScale_inexact_iff m k⟩,
    fun f _ c _ => round_magOf f c⟩

/-- Settles O13: exactness of sums and products, then rounding of dropped bits and of a format's own elements. -/
theorem numbersRound : Obligations.NumbersRound := ⟨exactArithmetic_holds, roundsToNearestEven_holds⟩

end Sys2Proof.Machine

namespace Sys2Proof.Machine

/-! ## The address mapping (04 R107)

A stack and a stack-local byte name one region-0 offset in each mode of their band: `memUnmap` is the inverse of `memMap`, from
which the mapping is one to one and onto, band by band. -/

/-- The region-0 offset that maps to byte `l` of stack `k`. -/
def memUnmap (ilv k l : Nat) : Nat :=
  l / giB * (12 * giB) +
    if bitAt ilv (l / giB) then (l % giB / 4096 * 12 + k) * 4096 + l % giB % 4096 else k * giB + l % giB

theorem memMap_linear {ilv o : Nat} (h : bitAt ilv (o / (12 * giB)) = false) :
    memMap ilv o = (o % (12 * giB) / giB, o / (12 * giB) * giB + o % (12 * giB) % giB) := by
  simp only [memMap, h, Bool.false_eq_true, if_false]

theorem memMap_interleaved {ilv o : Nat} (h : bitAt ilv (o / (12 * giB)) = true) :
    memMap ilv o = (o % (12 * giB) / 4096 % 12,
      o / (12 * giB) * giB + o % (12 * giB) / 4096 / 12 * 4096 + o % (12 * giB) % 4096) := by
  simp only [memMap, h, if_true]

/-- A byte maps to one of the twelve stacks. -/
theorem memMap_stack_lt (ilv o : Nat) : (memMap ilv o).1 < 12 := by
  cases h : bitAt ilv (o / (12 * giB))
  case false =>
    rw [memMap_linear h]
    simp only [giB]
    omega
  case true =>
    rw [memMap_interleaved h]
    exact Nat.mod_lt _ (by decide)

/-- A band's bytes lie in the GiB of the same number of every stack. -/
theorem memMap_band (ilv o : Nat) : (memMap ilv o).2 / giB = o / (12 * giB) := by
  cases h : bitAt ilv (o / (12 * giB))
  case false =>
    rw [memMap_linear h]
    simp only [giB]
    omega
  case true =>
    rw [memMap_interleaved h]
    simp only [giB]
    omega

/-- The offset is found again from its place: the mapping is one to one. -/
theorem memUnmap_memMap (ilv o : Nat) : memUnmap ilv (memMap ilv o).1 (memMap ilv o).2 = o := by
  rw [memUnmap, memMap_band]
  cases h : bitAt ilv (o / (12 * giB))
  case false =>
    rw [memMap_linear h, if_neg Bool.false_ne_true]
    simp only [giB]
    omega
  case true =>
    rw [memMap_interleaved h, if_pos rfl]
    simp only [giB]
    omega

theorem memUnmap_linear {ilv k l : Nat} (h : bitAt ilv (l / giB) = false) :
    memUnmap ilv k l = l / giB * (12 * giB) + (k * giB + l % giB) := by
  simp only [memUnmap, h, Bool.false_eq_true, if_false]

theorem memUnmap_interleaved {ilv k l : Nat} (h : bitAt ilv (l / giB) = true) :
    memUnmap ilv k l = l / giB * (12 * giB) + ((l % giB / 4096 * 12 + k) * 4096 + l % giB % 4096) := by
  simp only [memUnmap, h, if_true]

/-- Place `l` of a stack lies in the band of its GiB. -/
theorem memUnmap_band {ilv k l : Nat} (hk : k < 12) : memUnmap ilv k l / (12 * giB) = l / giB := by
  cases h : bitAt ilv (l / giB)
  case false =>
    rw [memUnmap_linear h]
    simp only [giB]
    omega
  case true =>
    rw [memUnmap_interleaved h]
    simp only [giB]
    omega

/-- Every byte of every stack is some offset's place: the mapping is onto. -/
theorem memMap_memUnmap {ilv k l : Nat} (hk : k < 12) : memMap ilv (memUnmap ilv k l) = (k, l) := by
  have hband := memUnmap_band (ilv := ilv) (l := l) hk
  cases h : bitAt ilv (l / giB)
  case false =>
    rw [memMap_linear (by rw [hband, h]), hband, memUnmap_linear h]
    simp only [giB, Prod.mk.injEq]
    omega
  case true =>
    rw [memMap_interleaved (by rw [hband, h]), hband, memUnmap_interleaved h]
    simp only [giB, Prod.mk.injEq]
    omega

/-- Settles O16: each mode's formula, then the bijection by the inverse mapping. -/
theorem bandsMapOneToOne : Obligations.BandsMapOneToOne := by
  intro ilv o _ u w
  have hband : (memMap ilv o).2 / 2 ^ 30 = u := memMap_band ilv o
  refine ⟨memMap_linear, memMap_interleaved, memMap_stack_lt ilv o, by omega, by omega, fun o' _ h => ?_, fun k l hk hl hu => ?_⟩
  · rw [← memUnmap_memMap ilv o', h, memUnmap_memMap]
  · have hl' : l / giB = u := by simp only [giB]; omega
    exact ⟨memUnmap ilv k l, (memUnmap_band hk).trans hl', memMap_memUnmap hk⟩

end Sys2Proof.Machine

namespace Sys2Proof.Machine

/-! ## Service of a request at a stack (04 R111 to R118) -/

/-! ### Runs of bytes -/

theorem readN_eq_map (m : Memory) (a n : Nat) : m.readN a n = (List.range n).map (fun i => m.read (a + i)) := by
  induction n generalizing a with
  | zero => rfl
  | succ n ih =>
    rw [Memory.readN, ih, List.range_succ_eq_map, List.map_cons, List.map_map]
    refine congrArg _ (List.map_congr_left fun i _ => ?_)
    exact congrArg m.read (by simp only [Nat.succ_eq_add_one]; omega)

@[simp] theorem length_readN (m : Memory) (a n : Nat) : (m.readN a n).length = n := by
  rw [readN_eq_map, List.length_map, List.length_range]

theorem readN_congr {m m' : Memory} {a : Nat} (h : ∀ b, m'.read b = m.read b) (n : Nat) : m'.readN a n = m.readN a n := by
  rw [readN_eq_map, readN_eq_map]
  exact List.map_congr_left fun _ _ => h _

/-- Part of a run is the run that begins there. -/
theorem take_drop_readN (m : Memory) (a : Nat) {i n k : Nat} (h : i + n ≤ k) : ((m.readN a k).drop i).take n = m.readN (a + i) n := by
  refine List.ext_getElem (by simp; omega) fun j hj hj' => ?_
  simp [readN_eq_map, Nat.add_assoc]

theorem readN_writeN_same (m : Memory) (a : Nat) (l : List Byte) : (m.writeN a l).readN a l.length = l := by
  refine List.ext_getElem (length_readN _ _ _) fun j _ hj => ?_
  simp only [readN_eq_map, List.getElem_map, List.getElem_range, read_writeN_in m a j l hj]

theorem getD_readN (m : Memory) (a : Nat) {i n : Nat} (h : i < n) (d : Byte) : (m.readN a n).getD i d = m.read (a + i) := by
  rw [List.getD_eq_getElem _ _ (by simpa using h)]
  simp [readN_eq_map]

@[simp] theorem length_leBytes (n v : Nat) : (leBytes n v).length = n := by
  induction n generalizing v with
  | zero => rfl
  | succ n ih => rw [leBytes, List.length_cons, ih]

/-! ### A range within one line -/

theorem linesOf_within {o len : Nat} (h0 : 0 < len) (h : o % 64 + len ≤ 64) : linesOf o len = [o / 64 * 64] := by
  have hone : (o + len + 63) / 64 - o / 64 = 1 := by omega
  rw [linesOf, hone, List.range_one, List.map_singleton, Nat.add_zero]

/-- A line of region 0 is a line of its stack. -/
theorem memMap_line_aligned (ilv o : Nat) : (memMap ilv (o / 64 * 64)).2 % 64 = 0 := by
  cases h : bitAt ilv (o / 64 * 64 / (12 * giB))
  case false =>
    rw [memMap_linear h]
    simp only [giB]
    omega
  case true =>
    rw [memMap_interleaved h]
    simp only [giB]
    omega

@[simp] theorem length_mergeLine (old : List Byte) (lo o : Nat) (b : List Byte) : (mergeLine old lo o b).length = 64 := by
  simp [mergeLine]

/-- Writing the merged line comes to writing the bytes in their place, where what was merged is what the line held. -/
theorem read_writeN_mergeLine {m : Memory} {l o : Nat} {old b : List Byte} (hin : o % 64 + b.length ≤ 64)
    (hold : ∀ i < 64, i < o % 64 ∨ o % 64 + b.length ≤ i → old.getD i 0 = m.read (l + i)) (a : Nat) :
    (m.writeN l (mergeLine old (o / 64 * 64) o b)).read a = (m.writeN (l + o % 64) b).read a := by
  by_cases ha : l ≤ a ∧ a < l + 64
  case neg =>
    rw [read_writeN_out _ _ _ _ (by simp only [length_mergeLine]; omega), read_writeN_out _ _ _ _ (by omega)]
  case pos =>
    obtain ⟨i, rfl⟩ := Nat.exists_eq_add_of_le ha.1
    have hi : i < 64 := by omega
    rw [read_writeN_in _ _ _ _ (by simpa using hi)]
    simp only [mergeLine, List.getElem_map, List.getElem_range]
    split
    case isTrue h =>
      obtain ⟨j, hj, rfl⟩ : ∃ j < b.length, i = o % 64 + j := ⟨i - o % 64, by omega, by omega⟩
      rw [show o / 64 * 64 + (o % 64 + j) - o = j by omega, List.getD_eq_getElem _ _ hj,
        show l + (o % 64 + j) = l + o % 64 + j by omega, read_writeN_in _ _ _ _ hj]
    case isFalse h =>
      have hout : i < o % 64 ∨ o % 64 + b.length ≤ i := by omega
      rw [hold i hi hout, read_writeN_out _ _ _ _ (by omega)]

/-! ### Reads and writes of one line -/

section

variable {s : State} {ilv o n l key : Nat}

theorem isPoisoned_iff {k : Stack} : k.isPoisoned l = true ↔ l / 64 ∈ k.poison := List.contains_iff_mem

theorem lineRead_poisoned (h : l / 64 ∈ (s.stack n).poison) : s.lineRead n l key .clean = (s, none) :=
  if_pos (isPoisoned_iff.2 h)

theorem lineRead_clean (h : ¬ l / 64 ∈ (s.stack n).poison) : s.lineRead n l key .clean = (s, some (s.linePlain n l key)) :=
  if_neg (mt isPoisoned_iff.1 h)

/-- A line is read back under the key that it was written under. -/
theorem linePlain_own (hl : l % 64 = 0) (h : SMap.find? (s.stack n).keyOf (l / 64) = some key) :
    s.linePlain n l key = (s.stack n).mem.readN l 64 := by
  have hline : l / 64 * 64 = l := by omega
  simp only [State.linePlain, h, if_true, hline]

theorem memRead_poisoned {len : Nat} (hmap : memMap ilv (o / 64 * 64) = (n, l)) (h0 : 0 < len) (hin : o % 64 + len ≤ 64)
    (hp : l / 64 ∈ (s.stack n).poison) : s.memRead ilv o len key [] = (s, none) := by
  simp only [State.memRead, linesOf_within h0 hin, List.foldl_cons, List.foldl_nil, hmap, List.headD_nil, lineRead_poisoned hp,
    Option.map_none]

theorem memRead_own {len : Nat} (hmap : memMap ilv (o / 64 * 64) = (n, l)) (h0 : 0 < len) (hin : o % 64 + len ≤ 64)
    (hp : ¬ l / 64 ∈ (s.stack n).poison) (hk : SMap.find? (s.stack n).keyOf (l / 64) = some key) :
    s.memRead ilv o len key [] = (s, some ((s.stack n).mem.readN (l + o % 64) len)) := by
  have hl : l % 64 = 0 := by simpa only [hmap] using memMap_line_aligned ilv o
  simp only [State.memRead, linesOf_within h0 hin, List.foldl_cons, List.foldl_nil, hmap, List.headD_nil, lineRead_clean hp,
    Option.map_some, List.nil_append, linePlain_own hl hk, take_drop_readN _ _ hin]

/-- A write within one line that is not poisoned, or of the whole line, changes that line alone: its bytes, its key, and POISON, which
clears. -/
theorem memWrite_line {b : List Byte} (hmap : memMap ilv (o / 64 * 64) = (n, l)) (h0 : 0 < b.length) (hin : o % 64 + b.length ≤ 64)
    (hp : b.length = 64 ∨ ¬ l / 64 ∈ (s.stack n).poison ∧ SMap.find? (s.stack n).keyOf (l / 64) = some key) :
    ∃ m : Memory, s.memWrite ilv o key b [] = (s.setStack n { s.stack n with
        mem := m, keyOf := SMap.set (s.stack n).keyOf (l / 64) key, poison := (s.stack n).poison.filter (fun x => x != l / 64) }, true) ∧
      m.readN (l + o % 64) b.length = b ∧
      ∀ a, a < l + o % 64 ∨ l + o % 64 + b.length ≤ a → m.read a = (s.stack n).mem.read a := by
  have hl : l % 64 = 0 := by simpa only [hmap] using memMap_line_aligned ilv o
  have hline : l / 64 * 64 = l := by omega
  have hmerged : ∃ old : List Byte, s.memWrite ilv o key b [] = (s.lineWrite n l key (mergeLine old (o / 64 * 64) o b), true) ∧
      ∀ i < 64, i < o % 64 ∨ o % 64 + b.length ≤ i → old.getD i 0 = (s.stack n).mem.read (l + i) := by
    by_cases hw : b.length = 64
    case pos =>
      have hwhole : wholeLine (o / 64 * 64) o b.length = true := decide_eq_true (by omega)
      refine ⟨[], ?_, fun i _ h => by omega⟩
      simp only [State.memWrite, linesOf_within h0 hin, List.foldl_cons, List.foldl_nil, hwhole, if_true, Option.map_some,
        List.nil_append, hmap]
    case neg =>
      obtain ⟨hnp, hk⟩ := hp.resolve_left hw
      have hpart : wholeLine (o / 64 * 64) o b.length = false := decide_eq_false (by omega)
      refine ⟨(s.stack n).mem.readN l 64, ?_, fun i hi _ => getD_readN _ _ hi 0⟩
      simp only [State.memWrite, linesOf_within h0 hin, List.foldl_cons, List.foldl_nil, hpart, Bool.false_eq_true, if_false,
        Option.map_some, List.nil_append, hmap, List.headD_nil, lineRead_clean hnp, linePlain_own hl hk]
  obtain ⟨old, hwrite, hold⟩ := hmerged
  have hread := read_writeN_mergeLine (m := (s.stack n).mem) hin hold
  refine ⟨(s.stack n).mem.writeN l (mergeLine old (o / 64 * 64) o b), ?_, ?_, fun a ha => ?_⟩
  · rw [hwrite, State.lineWrite, hline]
  · rw [readN_congr hread, readN_writeN_same]
  · rw [hread, read_writeN_out _ _ _ _ ha]

/-- A poisoned line refuses a write of a part of it. -/
theorem memWrite_part_poisoned {b : List Byte} (hmap : memMap ilv (o / 64 * 64) = (n, l)) (h0 : 0 < b.length)
    (hin : o % 64 + b.length ≤ 64) (hb : b.length < 64) (hp : l / 64 ∈ (s.stack n).poison) :
    s.memWrite ilv o key b [] = (s, false) := by
  have hpart : wholeLine (o / 64 * 64) o b.length = false := decide_eq_false (by omega)
  simp only [State.memWrite, linesOf_within h0 hin, List.foldl_cons, List.foldl_nil, hpart, Bool.false_eq_true, if_false,
    hmap, List.headD_nil, lineRead_poisoned hp]

end

/-! ### Atomics -/

/-- The first byte of a field and the bytes after it. -/
theorem fieldLE_succ (b : List Byte) (off n : Nat) : fieldLE b off (n + 1) = fieldLE b off 1 + 256 * fieldLE b (off + 1) n := by
  unfold fieldLE
  rw [← List.drop_drop]
  cases b.drop off with
  | nil => simp [leNat]
  | cons x r => simp [leNat]

theorem fieldLE_one_lt (b : List Byte) (off : Nat) : fieldLE b off 1 < 256 := by
  unfold fieldLE
  cases b.drop off with
  | nil => simp [leNat]
  | cons x r => simpa [leNat] using x.isLt

/-- The five operations of 07 R194. -/
theorem atomNew_eq {b : List Byte} {op : Nat} (hop : op ≤ 4) (h : fieldLE b 16 8 = op) (old : Word) :
    atomNew b old = some (Claims.atomic op (BitVec.ofNat 64 (fieldLE b 0 8)) (BitVec.ofNat 64 (fieldLE b 8 8)) old) := by
  have hsplit : fieldLE b 16 8 = fieldLE b 16 1 + 256 * fieldLE b 17 7 := fieldLE_succ b 16 7
  have hlt := fieldLE_one_lt b 16
  have hrest : fieldLE b 17 7 = 0 := by omega
  have hcode : fieldLE b 16 1 = op := by omega
  simp only [atomNew, hrest, hcode, ne_eq, not_true_eq_false, if_false]
  match op, hop with
  | 0, _ => rfl
  | 1, _ => rfl
  | 2, _ => rfl
  | 3, _ => simp only [Claims.atomic, BitVec.slt, decide_eq_true_eq]
  | 4, _ => simp only [Claims.atomic, BitVec.slt, decide_eq_true_eq]

/-! ### What an answer leaves alone -/

@[simp] theorem stack_answer (s : State) (p : Packet) (st : Nat) (b : List Byte) (m : Nat) : (s.answer p st b).stack m = s.stack m := by
  unfold State.answer
  split <;> rfl

@[simp] theorem tiles_answer (s : State) (p : Packet) (st : Nat) (b : List Byte) : (s.answer p st b).tiles = s.tiles := by
  unfold State.answer
  split <;> rfl

theorem out_answer (s : State) (p : Packet) (st : Nat) (b : List Byte) :
    (s.answer p st b).out = s.out ++ (if expectsReply p.typ then [.packet (p.replyTo st b)] else []) := by
  unfold State.answer
  split
  · rfl
  · exact (List.append_nil _).symm

/-! ### Service -/

section

variable {s : State} {n : PartNo} {r : StackReq} {q : List StackReq}

theorem exec_stackAccess (errs : List LineErr) : exec (.stackAccess n errs) s = execStackAccess n errs s := rfl

theorem exec_stackAccess_waits (hq : (s.stack n.val).queue = r :: q)
    (h : (s.stack n.val).selfRef = true ∨ s.rangeCopying r.ilv (gaOffset r.pkt.addr) (Packet.len r.pkt) = true) (errs : List LineErr) :
    exec (.stackAccess n errs) s = .next s := by
  have hwait : (!s.railsOn || (s.stack n.val).selfRef || s.rangeCopying r.ilv (gaOffset r.pkt.addr) (Packet.len r.pkt)) = true := by
    rcases h with h | h <;> simp [h]
  simp only [exec_stackAccess, execStackAccess, hq, hwait, if_true]

/-- The head of the queue leaves it and is served. -/
theorem exec_stackAccess_serves (hq : (s.stack n.val).queue = r :: q) (hr : s.railsOn = true) (hs : (s.stack n.val).selfRef = false)
    (hc : s.rangeCopying r.ilv (gaOffset r.pkt.addr) (Packet.len r.pkt) = false) :
    exec (.stackAccess n []) s =
      .next ((s.setStack n.val { s.stack n.val with queue := q, lastUse := s.now }).serve r []) := by
  simp only [exec_stackAccess, execStackAccess, hq, hr, hs, hc, noRetrain, List.zip_nil_right, List.find?_nil, Option.map_none,
    Bool.not_true, Bool.or_false, Bool.false_eq_true, if_false]

end

/-! The families of types that service tells apart. -/

theorem typ_reads {p : Packet} (ht : p.typ = 0 ∨ p.typ = 4) : (p.typ == tRD || p.typ == tPUSH) = true := by
  rcases ht with h | h <;> rw [h] <;> rfl

theorem typ_writes {p : Packet} (ht : p.typ = 1 ∨ p.typ = 2) : (p.typ == tRD || p.typ == tPUSH) = false ∧ (p.typ == tATM) = false := by
  rcases ht with h | h <;> rw [h] <;> exact ⟨rfl, rfl⟩

theorem typ_atomic {p : Packet} (ht : p.typ = 3) : (p.typ == tRD || p.typ == tPUSH) = false ∧ (p.typ == tATM) = true := by
  rw [ht]
  exact ⟨rfl, rfl⟩

theorem len_of_write {p : Packet} (ht : p.typ = 1 ∨ p.typ = 2) : Packet.len p = p.payload.length := by
  rcases ht with ht | ht <;> simp [Packet.len, ht, tRD, tATM, tPUSH]

theorem len_of_atomic {p : Packet} (ht : p.typ = 3) : Packet.len p = 8 := by simp [Packet.len, ht, tRD, tATM]

section

variable {s : State} {r : StackReq}

/-- A read or a push goes on with the bytes that were read. -/
theorem serve_read {b : List Byte} (ht : r.pkt.typ = 0 ∨ r.pkt.typ = 4)
    (hr : s.memRead r.ilv (gaOffset r.pkt.addr) (Packet.len r.pkt) r.key [] = (s, some b)) :
    s.serve r [] = s.readDone r.pkt b := by
  simp only [State.serve, typ_reads ht, if_true, hr]

/-- A write that was let pass changes its line, and is then acknowledged where that is not done. -/
theorem serve_write {u : State} (ht : r.pkt.typ = 1 ∨ r.pkt.typ = 2)
    (hw : s.memWrite r.ilv (gaOffset r.pkt.addr) r.key r.pkt.payload [] = (u, true)) :
    s.serve r [] = if r.acked then u else u.answer r.pkt stOK [] := by
  obtain ⟨hread, hatm⟩ := typ_writes ht
  simp only [State.serve, hread, hatm, Bool.false_eq_true, if_false, hw]

theorem serve_atomic {b : List Byte} {v : Word} (ht : r.pkt.typ = 3)
    (hr : s.memRead r.ilv (gaOffset r.pkt.addr) 8 r.key [] = (s, some b))
    (hv : atomNew r.pkt.payload (BitVec.ofNat 64 (leNat b)) = some v) :
    s.serve r [] = (s.memWrite r.ilv (gaOffset r.pkt.addr) r.key (leBytes 8 v.toNat) []).1.answer r.pkt stOK b := by
  obtain ⟨hread, hatm⟩ := typ_atomic ht
  simp only [State.serve, hread, hatm, Bool.false_eq_true, if_false, if_true, hr, hv]

/-- A request that reads a poisoned line is answered with the poisoned-data status. -/
theorem serve_poisoned {n l : Nat} (ht : r.pkt.typ = 0 ∨ r.pkt.typ = 3 ∨ r.pkt.typ = 4 ∨
      (r.pkt.typ = 1 ∧ Packet.len r.pkt < 64 ∧ r.acked = false))
    (hmap : memMap r.ilv (gaOffset r.pkt.addr / 64 * 64) = (n, l))
    (h0 : 0 < Packet.len r.pkt) (hin : gaOffset r.pkt.addr % 64 + Packet.len r.pkt ≤ 64) (hp : l / 64 ∈ (s.stack n).poison) :
    s.serve r [] = s.answer r.pkt stPoison [] := by
  have hbad := memRead_poisoned (key := r.key) hmap h0 hin hp
  have read (h : r.pkt.typ = 0 ∨ r.pkt.typ = 4) : s.serve r [] = s.answer r.pkt stPoison [] := by
    simp only [State.serve, typ_reads h, if_true, hbad]
  rcases ht with ht | ht | ht | ⟨ht, hlen, hack⟩
  · exact read (.inl ht)
  · obtain ⟨hread, hatm⟩ := typ_atomic ht
    rw [len_of_atomic ht] at hbad
    simp only [State.serve, hread, hatm, Bool.false_eq_true, if_false, if_true, hbad]
  · exact read (.inr ht)
  · obtain ⟨hread, hatm⟩ := typ_writes (.inl ht)
    rw [len_of_write (.inl ht)] at h0 hin hlen
    have hwrite := memWrite_part_poisoned (key := r.key) hmap h0 hin hlen hp
    simp only [State.serve, hread, hatm, Bool.false_eq_true, if_false, hwrite, hack]

end

/-- Each clause is the head's service on the state whose queue it has left; that state's stack has the same bytes, keys and poison. -/
theorem stackAccesses_holds : Claims.stackAccesses := by
  intro s n r q k p o len l hq hr
  refine ⟨fun h => exec_stackAccess_waits hq h [], ?_⟩
  intro hs hc hn h0 hin _ k' old
  have hmap : memMap r.ilv (o / 64 * 64) = (n.val, l) := Prod.ext hn rfl
  obtain ⟨u, hu⟩ : ∃ u, u = s.setStack n.val k' := ⟨_, rfl⟩
  have hk' : u.stack n.val = k' := by rw [hu, stack_setStack]
  have hserve : exec (.stackAccess n []) s = .next (u.serve r []) := by rw [hu]; exact exec_stackAccess_serves hq hr hs hc
  refine ⟨fun hp hk => ?_, fun hp => ?_⟩
  · have hup : ¬ l / 64 ∈ (u.stack n.val).poison := by rw [hk']; exact hp
    have huk : SMap.find? (u.stack n.val).keyOf (l / 64) = some r.key := by rw [hk']; exact hk
    refine ⟨fun ht => ?_, fun ht => ?_, fun ht hack => ?_, fun op hop ht hcode => ?_⟩
    · rw [hserve, serve_read (.inl ht) (memRead_own hmap h0 hin hup huk), hk', hu, State.readDone, if_neg (by rw [ht]; decide)]
      rfl
    · rw [hserve, serve_read (.inr ht) (memRead_own hmap h0 hin hup huk), hk', hu, State.readDone, if_pos (by rw [ht]; rfl), length_readN]
      rfl
    · have hlen : len = p.payload.length := len_of_write ht
      rw [hlen] at h0 hin
      obtain ⟨m, hw, hin', hout⟩ := memWrite_line hmap h0 hin (.inr ⟨hup, huk⟩)
      rw [hk'] at hw hout
      refine ⟨m, ?_, hlen ▸ hin', fun b hb => hout b (hlen ▸ hb)⟩
      rw [hserve, serve_write ht hw, hack, hu, setStack_setStack]
      by_cases h64 : len = 64
      · rw [if_pos (decide_eq_true h64), if_neg (by omega)]
        rfl
      · rw [if_neg (by simpa using h64), if_pos (by omega)]
        rfl
    · intro v
      have hlen : len = 8 := len_of_atomic ht
      rw [hlen] at h0 hin
      have hr8 : u.memRead r.ilv o 8 r.key [] = (u, some old) := by rw [memRead_own hmap h0 hin hup huk, hk', ← hlen]
      obtain ⟨m, hw, hin', hout⟩ := memWrite_line (b := leBytes 8 v.toNat) hmap (by simp) (by simpa using hin) (.inr ⟨hup, huk⟩)
      rw [length_leBytes] at hin' hout
      rw [hk'] at hw hout
      refine ⟨_, hserve.trans (congrArg _ (serve_atomic ht hr8 (atomNew_eq hop hcode _))), ?_⟩
      rw [hw, out_answer, stack_answer, stack_setStack, hu, ht]
      exact ⟨rfl, hin', hout⟩
  · have hup : l / 64 ∈ (u.stack n.val).poison := by rw [hk']; exact hp
    refine ⟨fun ht => ?_, fun ht h64 hack => ?_⟩
    · rw [hserve, serve_poisoned ht hmap h0 hin hup, hu]
      rfl
    · have hlen : len = p.payload.length := len_of_write ht
      rw [hlen] at h0 hin h64
      obtain ⟨m, hw, hin', hout⟩ := memWrite_line (key := r.key) (s := u) hmap h0 hin (.inl h64)
      refine ⟨_, hserve.trans (congrArg _ (serve_write ht hw)), ?_⟩
      rw [hack, if_pos rfl, stack_setStack]
      have ho : o % 64 = 0 := by omega
      refine ⟨by simp, ?_⟩
      rw [h64, ho] at hin'
      exact hin'

/-! ### Admission -/

section

variable {s v : State} {n : PartNo} {p : Packet}

/-- A request that has come to the stack's port is put to the checks of R111. -/
theorem exec_stackRequest_arrived (hr : s.railsOn = true) (hv : Claims.cameToStack s n.val p v) :
    exec (.stackRequest n p) s = .next (v.stackAdmit n.val p) := by
  obtain ⟨d, hd⟩ := hv
  show Host.Outcome.next (if !s.railsOn then s else _) = _
  rw [hr]
  refine congrArg _ ?_
  show (match s.arrive _ p with | some (s, _) => s.stackAdmit n.val p | none => s) = _
  split
  next e => cases e.symm.trans hd; rfl
  next e => cases e.symm.trans hd

/-- What a request needs of its window is what 11 R322 asks. -/
theorem windowOk_needs (ht : Claims.stackType p) :
    s.windowOk p.tenant.toNat (gaOffset p.addr) (Packet.len p) (needs p (gaOffset p.addr) (Packet.len p)).1
      (needs p (gaOffset p.addr) (Packet.len p)).2 = Claims.mayTouch s p := by
  unfold Claims.mayTouch needs
  rcases ht with h | h | h | h | h <;> rw [h] <;> rfl

/-- Whole lines are what a write that reads nothing covers. -/
theorem needs_whole (ht : Claims.stackType p) :
    (!(needs p (gaOffset p.addr) (Packet.len p)).1 && (needs p (gaOffset p.addr) (Packet.len p)).2) =
      ((p.typ == 1 || p.typ == 2) && gaOffset p.addr % 64 == 0 && (gaOffset p.addr + Packet.len p) % 64 == 0) := by
  have hpart : (!decide (gaOffset p.addr % 64 ≠ 0 ∨ (gaOffset p.addr + Packet.len p) % 64 ≠ 0) && true) =
      (gaOffset p.addr % 64 == 0 && (gaOffset p.addr + Packet.len p) % 64 == 0) := by
    by_cases h1 : gaOffset p.addr % 64 = 0 <;> by_cases h2 : (gaOffset p.addr + Packet.len p) % 64 = 0 <;> simp [h1, h2]
  unfold needs
  rcases ht with h | h | h | h | h <;> rw [h]
  · rfl
  · exact hpart
  · exact hpart
  · rfl
  · rfl

/-- Replacing a stack by one that agrees with it in `f` leaves `f` of every stack. -/
theorem stack_setStack_same {α : Type} (f : Stack → α) {s : State} {n : Nat} {k : Stack} (h : f k = f (s.stack n)) (m : Nat) :
    f ((s.setStack n k).stack m) = f (s.stack m) := by
  by_cases hm : m = n
  · rw [hm, stack_setStack, h]
  · rw [stack_setStack_ne s k hm]

/-- `u` is `s` after a request was turned back with a status: no queue entry, no byte and no tile changed, and the status was sent to
a requester that waits for a reply. -/
def State.TurnedBack (s : State) (n : Nat) (p : Packet) (status : Nat) (u : State) : Prop :=
  (u.stack n).queue = (s.stack n).queue ∧ (∀ m, (u.stack m).mem = (s.stack m).mem) ∧ u.tiles = s.tiles ∧
    u.out = s.out ++ (if p.typ = 2 then [] else [.packet (p.replyTo status [])])

theorem expectsReply_of_stackType (ht : Claims.stackType p) : expectsReply p.typ = !(p.typ == 2) := by
  rcases ht with h | h | h | h | h <;> rw [h] <;> rfl

/-- Answering with a status alone turns a request back. -/
theorem turnedBack_answer (ht : Claims.stackType p) (hq : (v.stack n.val).queue = (s.stack n.val).queue)
    (hm : ∀ m, (v.stack m).mem = (s.stack m).mem) (hx : v.tiles = s.tiles) (ho : v.out = s.out) (st : Nat) :
    s.TurnedBack n.val p st (v.answer p st []) := by
  refine ⟨by rw [stack_answer, hq], fun m => by rw [stack_answer, hm], by rw [tiles_answer, hx], ?_⟩
  rw [out_answer, expectsReply_of_stackType ht, ho]
  by_cases h : p.typ = 2 <;> simp [h]

/-! The steps of R111, in order. -/

theorem stackAdmit_barred (ht : Claims.stackType p) (h : (s.psw n.val).state = .fenced ∨ (s.psw n.val).state = .resetting) :
    s.TurnedBack n.val p 6 (s.stackAdmit n.val p) := by
  have hbar : s.barred n.val = true := by rcases h with h | h <;> simp [State.barred, h]
  have hans : s.TurnedBack n.val p 6 (s.answer p stNoPart []) := turnedBack_answer ht rfl (fun _ => rfl) rfl rfl _
  simp only [State.stackAdmit, hbar, if_true, State.bar]
  split
  case isTrue => exact hans
  case isFalse hno =>
    rw [answer_none s p _ _ (by simpa using hno)] at hans
    exact hans

theorem stackAdmit_off (ht : Claims.stackType p) (h : (s.psw n.val).state = .off) :
    s.TurnedBack n.val p 5 (s.stackAdmit n.val p) := by
  have hbar : s.barred n.val = false := by simp [State.barred, h]
  simp only [State.stackAdmit, hbar, h, Bool.false_eq_true, if_false, if_true]
  exact turnedBack_answer ht rfl (fun _ => rfl) rfl rfl _

section

variable (ht : Claims.stackType p) (hf : (s.psw n.val).state ≠ .fenced) (hg : (s.psw n.val).state ≠ .resetting)
  (ho : (s.psw n.val).state ≠ .off)

include hf hg in
theorem barred_eq_false : s.barred n.val = false := by simp [State.barred, hf, hg]

include ht hf hg ho

theorem stackAdmit_noWindow (h : Claims.mayTouch s p = false) : s.TurnedBack n.val p 3 (s.stackAdmit n.val p) := by
  simp only [State.stackAdmit, barred_eq_false hf hg, ho, windowOk_needs ht, h, Bool.false_eq_true, if_false, Bool.not_false, if_true]
  exact turnedBack_answer ht rfl (fun _ => rfl) rfl rfl _

theorem stackAdmit_spare (h : Claims.mayTouch s p = true) (hsp : Claims.touchesSpare s p = true) :
    s.TurnedBack n.val p 3 (s.stackAdmit n.val p) := by
  have hsp' : (linesOf (gaOffset p.addr) (Packet.len p)).any (fun lo => spareL (memMap s.memIlv lo).2) = true := hsp
  simp only [State.stackAdmit, barred_eq_false hf hg, ho, windowOk_needs ht, h, hsp', Bool.false_eq_true, if_false, Bool.not_true, if_true]
  refine turnedBack_answer (s := s) (v := s.setStack n.val _) ht ?_ (fun m => ?_) rfl rfl stRefused
  · rw [stack_setStack]
  · exact stack_setStack_same Stack.mem (by rfl) m

theorem stackAdmit_noKey (h : Claims.mayTouch s p = true) (hsp : Claims.touchesSpare s p = false)
    (hk : SMap.find? s.sec.keys p.tenant.toNat = none) : s.TurnedBack n.val p 3 (s.stackAdmit n.val p) := by
  have hsp' : (linesOf (gaOffset p.addr) (Packet.len p)).any (fun lo => spareL (memMap s.memIlv lo).2) = false := hsp
  simp only [State.stackAdmit, barred_eq_false hf hg, ho, windowOk_needs ht, h, hsp', hk, Bool.false_eq_true, if_false, Bool.not_true]
  exact turnedBack_answer ht rfl (fun _ => rfl) rfl rfl _

theorem stackAdmit_queues {key : Nat} (h : Claims.mayTouch s p = true) (hsp : Claims.touchesSpare s p = false)
    (hk : SMap.find? s.sec.keys p.tenant.toNat = some key) :
    let whole := (p.typ == 1 || p.typ == 2) && gaOffset p.addr % 64 == 0 && (gaOffset p.addr + Packet.len p) % 64 == 0
    let u := s.setStack n.val { s.stack n.val with queue := (s.stack n.val).queue ++ [⟨p, key, whole, s.memIlv⟩], lastUse := s.now }
    s.stackAdmit n.val p = if whole then u.answer p stOK [] else u := by
  have hsp' : (linesOf (gaOffset p.addr) (Packet.len p)).any (fun lo => spareL (memMap s.memIlv lo).2) = false := hsp
  simp only [State.stackAdmit, barred_eq_false hf hg, ho, windowOk_needs ht, h, hsp', hk, needs_whole ht, Bool.false_eq_true, if_false,
    Bool.not_true]

end

end

/-- An arrival changes the flights alone, so the checks are those of the state before it. -/
theorem stackRequestsQueue_holds : Claims.stackRequestsQueue := by
  intro s v n p k st whole turned hr ht hv
  have hexec := exec_stackRequest_arrived hr hv
  obtain ⟨m, rfl⟩ : ∃ m, v = { s with mesh := m } := by
    obtain ⟨d, hd⟩ := hv
    rcases arrive_eq hd with ⟨rfl, -, -⟩ | ⟨i, f, -, -, -, -, rfl⟩
    · exact ⟨v.mesh, rfl⟩
    · exact ⟨_, rfl⟩
  let v : State := { s with mesh := m }
  have back {status : Nat} (h : v.TurnedBack n.val p status (v.stackAdmit n.val p)) : turned status := ⟨_, hexec, h⟩
  refine ⟨fun h => back (stackAdmit_barred ht h), fun h => back (stackAdmit_off ht h), fun hf hg ho => ⟨fun hw => ?_, fun hw hsp => ?_,
    fun hw hsp hk => ?_, fun key hw hsp hk => ?_⟩⟩
  · exact back (stackAdmit_noWindow ht hf hg ho hw)
  · exact back (stackAdmit_spare ht hf hg ho hw hsp)
  · exact back (stackAdmit_noKey ht hf hg ho hw hsp hk)
  · exact hexec.trans (congrArg _ (stackAdmit_queues (s := v) ht hf hg ho hw hsp hk))

/-- Settles O17: admission by the steps of R111, then the service of the head of the queue. -/
theorem stackServes : Obligations.StackServes := ⟨stackRequestsQueue_holds, stackAccesses_holds⟩

end Sys2Proof.Machine

namespace Sys2Proof.Machine

/-! ## The upkeep of a stack (04 R118 to R121, R126, R127)

Notices, reports and journal records reach rings, the Cleat and the plinth, never a tile or a stack; so of each command of the upkeep
it remains to say what it does to the one stack that it names. -/

section

variable {s u v : State}

/-! ### What leaves every tile and every stack alone -/

/-- `u` has the tiles and the stacks of `s`. -/
def State.SameUnits (s u : State) : Prop := u.tiles = s.tiles ∧ u.stks = s.stks

theorem State.SameUnits.trans (h : s.SameUnits u) (h' : u.SameUnits v) : s.SameUnits v := ⟨h'.1.trans h.1, h'.2.trans h.2⟩

theorem sameUnits_raise (s : State) (n : Nat) : s.SameUnits (s.raise n) := by
  obtain ⟨c, h⟩ := raise_frame s n
  rw [h]
  exact ⟨rfl, rfl⟩

theorem sameUnits_hifSet (s : State) (b : Nat) : s.SameUnits (s.hifSet b) := by
  unfold State.hifSet
  split
  · exact ⟨rfl, rfl⟩
  · exact .trans (by exact ⟨rfl, rfl⟩) (sameUnits_raise _ _)

theorem sameUnits_sendMsix (s : State) (fn vec : Nat) : s.SameUnits (s.sendMsix fn vec) := by
  unfold State.sendMsix
  dsimp only
  split
  · exact ⟨rfl, rfl⟩
  · split <;> exact ⟨rfl, rfl⟩

theorem sameUnits_ringEntry (s : State) (r : Nat) (now : Bool) : s.SameUnits (s.ringEntry r now) := by
  unfold State.ringEntry
  dsimp only
  split
  · exact ⟨rfl, rfl⟩
  · split
    · exact sameUnits_sendMsix _ _ _
    · exact ⟨rfl, rfl⟩

theorem sameUnits_putEntry (s : State) (r : Nat) (b : List Byte) (now : Bool) : s.SameUnits (s.putEntry r b now).1 := by
  unfold State.putEntry
  dsimp only
  split
  · exact (sameUnits_hifSet (s.setRing r _) 3).trans (sameUnits_raise _ _)
  · exact sameUnits_ringEntry _ _ _

theorem sameUnits_noticeTo (s : State) (t code part detail data : Nat) : s.SameUnits (s.noticeTo t code part detail data).1 := by
  unfold State.noticeTo
  split
  · exact ⟨rfl, rfl⟩
  · dsimp only
    split
    · exact ⟨rfl, rfl⟩
    · split
      · exact sameUnits_putEntry _ _ _ _
      · exact ⟨rfl, rfl⟩

theorem sameUnits_noticeOne (s : State) (t code part detail data : Nat) : s.SameUnits (s.noticeOne t code part detail data) := by
  unfold State.noticeOne
  split
  · exact ⟨rfl, rfl⟩
  · dsimp only
    split
    · exact sameUnits_noticeTo _ _ _ _ _ _
    · exact (sameUnits_noticeTo _ _ _ _ _ _).trans (sameUnits_noticeTo _ _ _ _ _ _)

theorem sameUnits_noticePart (s : State) (n code detail data : Nat) : s.SameUnits (s.noticePart n code detail data) := by
  unfold State.noticePart
  dsimp only
  split
  · exact sameUnits_noticeOne _ _ _ _ _ _
  · exact (sameUnits_noticeOne _ _ _ _ _ _).trans (sameUnits_noticeOne _ _ _ _ _ _)

theorem sameUnits_report (s : State) (code detail : Nat) : s.SameUnits (s.report code detail) := by
  unfold State.report
  dsimp only
  split <;> split <;> exact ⟨rfl, rfl⟩

/-- A change of a bad-row list reaches the plinth alone. -/
theorem journalRows_frame (s : State) : ∃ g, s.journalRows = { s with mgmt := g } := by
  unfold State.journalRows State.journal
  dsimp only
  split <;> exact ⟨_, rfl⟩

theorem sameUnits_journalRows (s : State) : s.SameUnits s.journalRows := by
  obtain ⟨g, h⟩ := journalRows_frame s
  rw [h]
  exact ⟨rfl, rfl⟩

theorem sameUnits_limitCheck (s : State) : s.SameUnits s.limitCheck := by
  unfold State.limitCheck
  split
  · exact ⟨rfl, rfl⟩
  · exact .trans (by exact ⟨rfl, rfl⟩) (sameUnits_raise _ _)

theorem sameUnits_hotCheck (s : State) : s.SameUnits s.hotCheck := by
  unfold State.hotCheck
  extract_lets d k cool since w
  split
  · exact .trans (by exact ⟨rfl, rfl⟩) ((sameUnits_raise _ _).trans (sameUnits_limitCheck _))
  · exact ⟨rfl, rfl⟩

theorem State.SameUnits.stack_eq (h : s.SameUnits u) (m : Nat) : u.stack m = s.stack m := by
  unfold State.stack
  rw [h.2]

/-! ### What changes no stored byte -/

/-- Every stored byte, the key that it was written under, and every tile of `u` are those of `s`. -/
def State.KeepsBytes (s u : State) : Prop :=
  (∀ m, (u.stack m).mem = (s.stack m).mem ∧ (u.stack m).keyOf = (s.stack m).keyOf) ∧ u.tiles = s.tiles

theorem State.KeepsBytes.trans (h : s.KeepsBytes u) (h' : u.KeepsBytes v) : s.KeepsBytes v :=
  ⟨fun m => ⟨(h'.1 m).1.trans (h.1 m).1, (h'.1 m).2.trans (h.1 m).2⟩, h'.2.trans h.2⟩

theorem State.SameUnits.keepsBytes (h : s.SameUnits u) : s.KeepsBytes u :=
  ⟨fun m => by rw [h.stack_eq m]; exact ⟨rfl, rfl⟩, h.1⟩

theorem keepsBytes_setStack {n : Nat} {k : Stack} (hm : k.mem = (s.stack n).mem) (hk : k.keyOf = (s.stack n).keyOf) :
    s.KeepsBytes (s.setStack n k) :=
  ⟨fun m => ⟨stack_setStack_same Stack.mem hm m, stack_setStack_same Stack.keyOf hk m⟩, rfl⟩

/-! ### The bad-row list and the patrol scrub -/

/-- Listing a row changes no unit, or the list and the marks of exhausted spares of the one stack. -/
theorem listRow_cases (s : State) (n l source : Nat) : s.SameUnits (s.listRow n l source) ∨
    ∃ e x b, (s.setStack n { s.stack n with spareExh := e, exhRows := x, badRows := b }).SameUnits (s.listRow n l source) := by
  unfold State.listRow
  dsimp only
  split
  · exact .inl ⟨rfl, rfl⟩
  · split
    · split
      · exact .inl ⟨rfl, rfl⟩
      · exact .inr ⟨true, _, (s.stack n).badRows, ((sameUnits_report _ _ _).trans (sameUnits_noticePart _ _ _ _ _)).trans
          (sameUnits_raise _ _)⟩
    · exact .inr ⟨(s.stack n).spareExh, (s.stack n).exhRows, _, sameUnits_journalRows _⟩

theorem keepsBytes_listRow (s : State) (n l source : Nat) : s.KeepsBytes (s.listRow n l source) := by
  rcases listRow_cases s n l source with h | ⟨e, x, b, h⟩
  · exact h.keepsBytes
  · exact (keepsBytes_setStack (by rfl) (by rfl)).trans h.keepsBytes

theorem listRow_corrected (s : State) (n l source : Nat) : ((s.listRow n l source).stack n).corrected = (s.stack n).corrected := by
  rcases listRow_cases s n l source with h | ⟨e, x, b, h⟩
  · rw [h.stack_eq]
  · rw [h.stack_eq, stack_setStack]

theorem lineRead_correctable (s : State) (n l key : Nat) : (s.lineRead n l key .correctable).1 = s.lineCorrected n l := by
  unfold State.lineRead
  dsimp only
  split
  · rfl
  · rw [if_neg (by simp)]

theorem keepsBytes_lineCorrected (s : State) (n l : Nat) : s.KeepsBytes (s.lineCorrected n l) := by
  unfold State.lineCorrected
  dsimp only
  split
  · exact (keepsBytes_setStack (by rfl) (by rfl)).trans (keepsBytes_listRow _ _ _ _)
  · exact keepsBytes_setStack rfl rfl

/-- A corrected line is counted. -/
theorem lineCorrected_corrected (s : State) (n l : Nat) :
    ((s.lineCorrected n l).stack n).corrected = satAdd (s.stack n).corrected 1 0xFFFFFFF := by
  unfold State.lineCorrected
  dsimp only
  split
  · rw [listRow_corrected, stack_setStack]
  · rw [stack_setStack]

theorem patrolScrub_corrects {n : PartNo} (hr : s.railsOn = true) (hh : s.scrubHours ≠ 0) (hs : (s.stack n.val).selfRef = false)
    (hq : (s.stack n.val).queue = []) (hc : s.rowCopying n.val ((s.stack n.val).servesFor (s.stack n.val).scrubPos) = false)
    (hst : (s.psw n.val).state = .idle ∨ (s.psw n.val).state = .active ∨ (s.psw n.val).state = .fenced) :
    ∃ u, exec (.patrolScrub n .correctable) s = .next u ∧ s.KeepsBytes u ∧
      (u.stack n.val).corrected = satAdd (s.stack n.val).corrected 1 0xFFFFFFF ∧
      (u.stack n.val).scrubPos =
        (if (s.stack n.val).scrubPos + 64 < 48 * 2 ^ 30 then (s.stack n.val).scrubPos + 64 else 0) := by
  have hgo : (!s.railsOn || s.scrubHours == 0 || (s.stack n.val).selfRef || !(s.stack n.val).queue.isEmpty ||
      !((s.psw n.val).state == .idle || (s.psw n.val).state == .active || (s.psw n.val).state == .fenced) ||
      s.rowCopying n.val ((s.stack n.val).servesFor (s.stack n.val).scrubPos)) = false := by
    rw [hr, hs, hq, hc, beq_eq_false_iff_ne.2 hh]
    rcases hst with h | h | h <;> rw [h] <;> rfl
  let l := (s.stack n.val).servesFor (s.stack n.val).scrubPos
  refine ⟨(s.lineCorrected n.val l).setStack n.val { (s.lineCorrected n.val l).stack n.val with
    scrubPos := if (s.stack n.val).scrubPos + 64 < 48 * 2 ^ 30 then (s.stack n.val).scrubPos + 64 else 0 }, ?_,
    (keepsBytes_lineCorrected s n.val l).trans (keepsBytes_setStack rfl rfl), ?_, ?_⟩
  · show execPatrolScrub n .correctable s = _
    simp only [execPatrolScrub, hgo, Bool.false_eq_true, if_false, reduceCtorEq, lineRead_correctable]
    rfl
  · rw [stack_setStack]
    exact lineCorrected_corrected s n.val l
  · rw [stack_setStack]

/-! ### Remapping -/

/-- An entry that a stack's bad-row list holds under `e`, 0 where it holds none. -/
def State.badRow (s : State) (n e : Nat) : BitVec 32 := SMap.get 0 (s.stack n).badRows e

theorem State.SameUnits.badRow_eq (h : s.SameUnits u) (n e : Nat) : u.badRow n e = s.badRow n e := by
  unfold State.badRow
  rw [h.stack_eq]

/-- An entry that lists no row, or whose row is remapped already, is left as it is. -/
theorem remapRow_idle {n e : Nat} (h : ¬ ((s.badRow n e).getLsbD 31 = true ∧ (s.badRow n e).getLsbD 22 = false)) (bad : List Nat) :
    s.remapRow n e bad = s := by
  refine if_pos ?_
  show (!(s.badRow n e).getLsbD 31 || (s.badRow n e).getLsbD 22) = true
  revert h
  cases (s.badRow n e).getLsbD 31 <;> cases (s.badRow n e).getLsbD 22 <;> simp

/-- The entry of a remapped row: REMAPPED set, and the mark of a lost line where there is one. -/
def remappedEntry (w : BitVec 32) (lost : Bool) : BitVec 32 := w ||| 0x400000 ||| (if lost then 0x100000 else 0)

/-- Remapping a listed row changes its entry and its stack's poison. -/
theorem remapRow_listed {n e : Nat} (hv : (s.badRow n e).getLsbD 31 = true) (hr : (s.badRow n e).getLsbD 22 = false) (bad : List Nat) :
    ∃ p lost, s.remapRow n e bad = (s.setStack n { s.stack n with
        poison := p, badRows := SMap.set (s.stack n).badRows e (remappedEntry (s.badRow n e) lost) }).journalRows ∧
      ((∃ i ∈ bad, i < 16) → lost = true) := by
  have hgo : (!brValid (s.badRow n e) || brRemapped (s.badRow n e)) = false := by
    show (!(s.badRow n e).getLsbD 31 || (s.badRow n e).getLsbD 22) = false
    rw [hv, hr]
    rfl
  refine ⟨_, _, if_neg (ne_of_eq_of_ne hgo Bool.false_ne_true), ?_⟩
  rintro ⟨i, hi, hlt⟩
  refine List.any_eq_true.2 ⟨i, List.mem_range.2 hlt, ?_⟩
  rw [List.contains_iff_mem, List.mem_append, List.mem_filter, Bool.not_eq_true', ← Bool.not_eq_true, List.contains_iff_mem]
  refine Classical.or_iff_not_imp_left.2 fun hp => ⟨List.mem_map.2 ⟨i, ?_, rfl⟩, hp⟩
  exact List.mem_filter.2 ⟨hi, decide_eq_true hlt⟩

theorem remappedEntry_keeps {w : BitVec 32} {i : Nat} (h : w.getLsbD i = true) (lost : Bool) :
    (remappedEntry w lost).getLsbD i = true := by
  simp [remappedEntry, h]

theorem remappedEntry_remapped (w : BitVec 32) (lost : Bool) : (remappedEntry w lost).getLsbD 22 = true := by
  simp [remappedEntry]

theorem remappedEntry_lost (w : BitVec 32) : (remappedEntry w true).getLsbD 20 = true := by
  simp [remappedEntry]

/-- The row and the bank of an entry stay. -/
theorem remappedEntry_row (w : BitVec 32) (lost : Bool) : (remappedEntry w lost).extractLsb' 0 20 = w.extractLsb' 0 20 := by
  cases lost <;> simp [remappedEntry, BitVec.extractLsb'_or]

theorem remapRow_badRow {n e : Nat} (hv : (s.badRow n e).getLsbD 31 = true) (hr : (s.badRow n e).getLsbD 22 = false) (bad : List Nat) :
    ∃ lost, (s.remapRow n e bad).badRow n e = remappedEntry (s.badRow n e) lost ∧ ((∃ i ∈ bad, i < 16) → lost = true) := by
  obtain ⟨p, lost, h, hl⟩ := remapRow_listed hv hr bad
  refine ⟨lost, ?_, hl⟩
  rw [h, (sameUnits_journalRows _).badRow_eq, State.badRow, stack_setStack, get_set_same]

/-- After the remapping of a listed row its entry shows REMAPPED. -/
theorem remapRow_remapped {n e : Nat} (hv : (s.badRow n e).getLsbD 31 = true) (bad : List Nat) :
    ((s.remapRow n e bad).badRow n e).getLsbD 22 = true := by
  cases hr : (s.badRow n e).getLsbD 22
  case true => rw [remapRow_idle (by simp [hr]), hr]
  case false =>
    obtain ⟨lost, h, -⟩ := remapRow_badRow hv hr bad
    rw [h, remappedEntry_remapped]

/-- No remapping clears a bit of any entry. -/
theorem remapRow_keeps_bit {m i b : Nat} (h : (s.badRow m i).getLsbD b = true) (n e : Nat) (bad : List Nat) :
    ((s.remapRow n e bad).badRow m i).getLsbD b = true := by
  by_cases hl : (s.badRow n e).getLsbD 31 = true ∧ (s.badRow n e).getLsbD 22 = false
  case neg => rw [remapRow_idle hl, h]
  case pos =>
    obtain ⟨p, lost, hu, -⟩ := remapRow_listed hl.1 hl.2 bad
    rw [hu, (sameUnits_journalRows _).badRow_eq]
    by_cases hm : m = n
    case neg => rwa [State.badRow, stack_setStack_ne _ _ hm]
    case pos =>
      subst hm
      rw [State.badRow, stack_setStack]
      by_cases hi : i = e
      case neg => rwa [get_set_ne _ _ _ hi]
      case pos =>
        subst hi
        rw [get_set_same]
        exact remappedEntry_keeps h lost

theorem keepsBytes_remapRow (s : State) (n e : Nat) (bad : List Nat) : s.KeepsBytes (s.remapRow n e bad) := by
  by_cases hl : (s.badRow n e).getLsbD 31 = true ∧ (s.badRow n e).getLsbD 22 = false
  case neg => rw [remapRow_idle hl]; exact ⟨fun _ => ⟨rfl, rfl⟩, rfl⟩
  case pos =>
    obtain ⟨p, lost, hu, -⟩ := remapRow_listed hl.1 hl.2 bad
    rw [hu]
    exact (keepsBytes_setStack (by rfl) (by rfl)).trans (sameUnits_journalRows _).keepsBytes

theorem remapRow_setup (s : State) (n e : Nat) (bad : List Nat) : (s.remapRow n e bad).setup = s.setup := by
  by_cases hl : (s.badRow n e).getLsbD 31 = true ∧ (s.badRow n e).getLsbD 22 = false
  case neg => rw [remapRow_idle hl]
  case pos =>
    obtain ⟨p, lost, hu, -⟩ := remapRow_listed hl.1 hl.2 bad
    obtain ⟨g, hg⟩ := journalRows_frame (s.setStack n { s.stack n with
      poison := p, badRows := SMap.set (s.stack n).badRows e (remappedEntry (s.badRow n e) lost) })
    rw [hu, hg]
    rfl

theorem rowRemap_remaps {n : PartNo} {e : Fin 1024} (hr : s.railsOn = true) (ha : s.autoRemap = true)
    (hv : (s.badRow n.val e.val).getLsbD 31 = true) (h22 : (s.badRow n.val e.val).getLsbD 22 = false) (bad : List Nat) :
    ∃ u w, exec (.rowRemap n e bad) s = .next u ∧ s.KeepsBytes u ∧ u.badRow n.val e.val = w ∧
      w.getLsbD 31 = true ∧ w.getLsbD 22 = true ∧ w.extractLsb' 0 20 = (s.badRow n.val e.val).extractLsb' 0 20 ∧
      ((∃ i ∈ bad, i < 16) → w.getLsbD 20 = true) := by
  obtain ⟨lost, hw, hl⟩ := remapRow_badRow hv h22 bad
  refine ⟨s.remapRow n.val e.val bad, _, ?_, keepsBytes_remapRow _ _ _ _, hw, remappedEntry_keeps hv lost, remappedEntry_remapped _ _,
    remappedEntry_row _ _, fun h => by rw [hl h, remappedEntry_lost]⟩
  show execRowRemap n e bad s = _
  rw [execRowRemap, hr, ha]
  rfl

/-! ### AUTO_REMAP -/

/-- The remapping of every row that stack `n` lists. -/
def State.remapStack (bad : List Nat) (s : State) (n : Nat) : State :=
  ((s.stack n).badRows.map (·.1)).foldl
    (fun s e => s.remapRow n e ((bad.filter (fun b => b / 16 == 1024 * n + e)).map (· % 16))) s

theorem remapStack_keeps_bit {m i b : Nat} (h : (s.badRow m i).getLsbD b = true) (bad : List Nat) (n : Nat) :
    ((s.remapStack bad n).badRow m i).getLsbD b = true :=
  List.foldlRecOn (motive := fun u : State => (u.badRow m i).getLsbD b = true) _ _ h fun _ hu _ _ => remapRow_keeps_bit hu _ _ _

/-- An entry with VALID is one of the list. -/
theorem mem_badRows_of_valid {n e : Nat} (hv : (s.badRow n e).getLsbD 31 = true) : e ∈ (s.stack n).badRows.map (·.1) := by
  unfold State.badRow at hv
  generalize (s.stack n).badRows = l at hv
  induction l with
  | nil => exact absurd hv (by simp [SMap.get, SMap.find?])
  | cons x r ih =>
    obtain ⟨j, w⟩ := x
    by_cases hj : j = e
    · simp [hj]
    · refine List.mem_cons_of_mem _ (ih ?_)
      simpa [SMap.get, SMap.find?, hj] using hv

theorem remapStack_remapped {n e : Nat} (hv : (s.badRow n e).getLsbD 31 = true) (bad : List Nat) :
    ((s.remapStack bad n).badRow n e).getLsbD 22 = true :=
  foldl_reaches _ (I := fun v => (v.badRow n e).getLsbD 31 = true) (P := fun v => (v.badRow n e).getLsbD 22 = true)
    (mem_badRows_of_valid hv) hv (fun _ _ h => remapRow_keeps_bit h _ _ _) (fun _ h => remapRow_remapped h _)
    (fun _ _ h => remapRow_keeps_bit h _ _ _)

theorem remapStack_keeps (s : State) (bad : List Nat) (n : Nat) :
    s.KeepsBytes (s.remapStack bad n) ∧ (s.remapStack bad n).setup = s.setup :=
  List.foldlRecOn (motive := fun u : State => s.KeepsBytes u ∧ u.setup = s.setup) _ _ ⟨⟨fun _ => ⟨rfl, rfl⟩, rfl⟩, rfl⟩
    fun _ hu _ _ => ⟨hu.1.trans (keepsBytes_remapRow _ _ _ _), (remapRow_setup _ _ _ _).trans hu.2⟩

theorem autoRemap_remaps (hr : s.railsOn = true) (v : Word) (bad : List Nat) (hl : s.setupLocked = false) (hv : v.getLsbD 12 = true)
    (ha : s.autoRemap = false) :
    ∃ u, exec (.autoRemap v bad) s = .next u ∧ s.KeepsBytes u ∧ u.autoRemap = true ∧
      ∀ m e, m < 12 → (s.badRow m e).getLsbD 31 = true → (u.badRow m e).getLsbD 22 = true := by
  let w := s.setReg offMemCfg 0x1818 (v.toNat % 0x2000)
  have hexec : exec (.autoRemap v bad) s = .next ((List.range 12).foldl (fun s n => s.remapStack bad n) w) := by
    have hgo : (!s.railsOn || s.setupLocked || !bitAt v.toNat 12 || s.autoRemap) = false := by
      rw [hr, hl, ha, show bitAt v.toNat 12 = true from hv]
      rfl
    show execAutoRemap v bad s = _
    rw [execAutoRemap, hgo, if_neg Bool.false_ne_true]
    rfl
  have hkeeps : s.KeepsBytes ((List.range 12).foldl (fun s n => s.remapStack bad n) w) ∧
      ((List.range 12).foldl (fun s n => s.remapStack bad n) w).setup = w.setup :=
    List.foldlRecOn (motive := fun u : State => s.KeepsBytes u ∧ u.setup = w.setup) _ _ ⟨⟨fun _ => ⟨rfl, rfl⟩, rfl⟩, rfl⟩
      fun _ hu _ _ => ⟨hu.1.trans (remapStack_keeps _ _ _).1, (remapStack_keeps _ _ _).2.trans hu.2⟩
  refine ⟨_, hexec, hkeeps.1, ?_, fun m e hm hb => ?_⟩
  · unfold State.autoRemap State.memCfg State.reg
    rw [hkeeps.2]
    show bitAt (w.reg offMemCfg 0x1818) 12 = true
    rw [reg_setReg_same, bitAt, Nat.testBit_mod_two_pow, show (0x2000 : Nat) = 2 ^ 13 from rfl, Nat.testBit_mod_two_pow,
      show v.toNat.testBit 12 = true from hv]
    rfl
  · exact foldl_reaches _ (I := fun u => (u.badRow m e).getLsbD 31 = true) (P := fun u => (u.badRow m e).getLsbD 22 = true)
      (List.mem_range.2 hm) hb (fun _ _ h => remapStack_keeps_bit h _ _) (fun _ h => remapStack_remapped h _)
      (fun _ _ h => remapStack_keeps_bit h _ _)

/-! ### Temperature, refresh and self-refresh -/

theorem stackTempRead_reads (hr : s.railsOn = true) (n : PartNo) {t : Int} :
    ∃ u, exec (.stackTempRead n (some t)) s = .next u ∧ s.KeepsBytes u ∧ (u.stack n.val).tempC = t.toNat / 4 ∧
      (u.stack n.val).hot = if 340 < t then true else if t ≤ 328 then false else (s.stack n.val).hot := by
  have hexec : exec (.stackTempRead n (some t)) s = .next (State.hotCheck { s.setStack n.val { s.stack n.val with
      tempC := t.toNat / 4, sensFails := 0, hot := if 340 < t then true else if t ≤ 328 then false else (s.stack n.val).hot } with
        thm := { s.thm with stackT := SMap.set s.thm.stackT n.val t.toNat } }) := by
    refine congrArg _ (if_neg ?_)
    rw [hr]
    exact Bool.false_ne_true
  refine ⟨_, hexec, .trans ?_ (sameUnits_hotCheck _).keepsBytes, ?_, ?_⟩
  · exact keepsBytes_setStack (by rfl) (by rfl)
  · rw [(sameUnits_hotCheck _).stack_eq]
    exact congrArg Stack.tempC (stack_setStack s n.val _)
  · rw [(sameUnits_hotCheck _).stack_eq]
    exact congrArg Stack.hot (stack_setStack s n.val _)

theorem stackTempRead_fails (hr : s.railsOn = true) (n : PartNo) (h : 2 ≤ (s.stack n.val).sensFails) :
    ∃ u, exec (.stackTempRead n none) s = .next u ∧ s.KeepsBytes u ∧ (u.stack n.val).hot = true := by
  let f := (s.stack n.val).sensFails + 1
  let v := s.setStack n.val { s.stack n.val with sensFails := f, hot := if 3 ≤ f then true else (s.stack n.val).hot }
  have hexec : exec (.stackTempRead n none) s = .next (if f = 3 then v.report 4 (64 + n.val) else v).hotCheck := by
    refine congrArg _ (if_neg ?_)
    rw [hr]
    exact Bool.false_ne_true
  have hsame : v.SameUnits (if f = 3 then v.report 4 (64 + n.val) else v).hotCheck := by
    refine .trans ?_ (sameUnits_hotCheck _)
    split
    · exact sameUnits_report _ _ _
    · exact ⟨rfl, rfl⟩
  refine ⟨_, hexec, .trans ?_ hsame.keepsBytes, ?_⟩
  · exact keepsBytes_setStack (by rfl) (by rfl)
  · rw [hsame.stack_eq, stack_setStack]
    exact if_pos (by omega)

end

/-- Settles O18, command by command. -/
theorem stackUpkeep : Obligations.StackUpkeep := by
  intro s n k st keeps hr
  refine ⟨fun hh hs hq hc hst => patrolScrub_corrects hr hh hs hq hc hst, fun e bad => ?_,
    fun v bad hl hv ha => autoRemap_remaps hr v bad hl hv ha, fun t _ => ?_, stackTempRead_fails hr n, fun b hs => ?_, fun hs hq => ?_,
    fun hs hq hx hst hd => ?_⟩
  · intro w ha hv h22
    exact rowRemap_remaps hr ha hv h22 bad
  · obtain ⟨u, hexec, hkeeps, htemp, hhot⟩ := stackTempRead_reads hr n (t := t)
    refine ⟨u, hexec, hkeeps, htemp, fun h => ?_, fun h => ?_, fun h h' => ?_⟩
    · rw [hhot, if_pos h]
    · rw [hhot, if_neg (by omega), if_pos h]
    · rw [hhot, if_neg (by omega), if_neg (by omega)]
  · refine congrArg _ (if_neg ?_)
    rw [hr, show (s.stack n.val).selfRef = false from hs]
    exact Bool.false_ne_true
  · refine congrArg _ (if_pos ?_)
    rw [hr, show (s.stack n.val).selfRef = true from hs]
    rcases hq with hq | hq
    · simpa using .inl hq
    · simpa using .inr hq
  · refine congrArg _ (if_pos ?_)
    rw [hr, show (s.psw n.val).state = .parked from hst, show (s.stack n.val).selfRef = false from hs,
      show (s.stack n.val).queue = [] from hq, show (s.stack n.val).streams = [] from hx]
    exact decide_eq_true hd

end Sys2Proof.Machine

namespace Sys2Proof.Machine

/-! ## The pointing engine (04 R128 to R136) -/

/-! ### Expansion (04 R132, 03 R73 to R75) -/

section

variable {α : Type} {f : Nat → List α} {e : Nat}

/-- Entries of one size in a row: their length, and the element at a place. -/
theorem length_flatMap_range (hf : ∀ j, (f j).length = e) (n : Nat) : ((List.range n).flatMap f).length = n * e := by
  simp [List.length_flatMap, hf]

theorem getD_flatMap_range (hf : ∀ j, (f j).length = e) {n i : Nat} (h : i < n * e) (d : α) :
    ((List.range n).flatMap f).getD i d = (f (i / e)).getD (i % e) d := by
  induction n with
  | zero => omega
  | succ n ih =>
    have hlen := length_flatMap_range hf n
    rw [List.range_succ, List.flatMap_append, List.flatMap_singleton]
    by_cases hi : i < n * e
    case pos => rw [List.getD_append _ _ _ _ (by rw [hlen]; exact hi), ih hi]
    case neg =>
      obtain ⟨j, rfl⟩ := Nat.exists_eq_add_of_le (Nat.le_of_not_lt hi)
      have hj : j < e := by rw [Nat.add_mul] at h; omega
      rw [List.getD_append_right _ _ _ _ (by rw [hlen]; omega), hlen, Nat.add_sub_cancel_left, Nat.add_comm,
        Nat.add_mul_div_right _ _ (by omega), Nat.div_eq_of_lt hj, Nat.zero_add, Nat.add_mul_mod_self_right, Nat.mod_eq_of_lt hj]

end

/-- A codebook has as many entries as an index has values. -/
theorem vqSize_eq {code : Nat} (h : code ≤ 2) : 2 ^ vqIndex code * vqEntry code = vqSize code := by
  match code, h with
  | 0, _ => rfl
  | 1, _ => rfl
  | 2, _ => rfl

/-- The entry that index `j` names. -/
def entryAt (code : Nat) (book ix : List Byte) (skip j : Nat) : List Byte :=
  (book.drop (leNat ix / 2 ^ skip / 2 ^ (vqIndex code * j) % 2 ^ vqIndex code * vqEntry code)).take (vqEntry code)

theorem length_entryAt {code : Nat} {book : List Byte} (hc : code ≤ 2) (hb : book.length = vqSize code) (ix : List Byte) (skip j : Nat) :
    (entryAt code book ix skip j).length = vqEntry code := by
  have hi : leNat ix / 2 ^ skip / 2 ^ (vqIndex code * j) % 2 ^ vqIndex code + 1 ≤ 2 ^ vqIndex code :=
    Nat.mod_lt _ (Nat.two_pow_pos _)
  have hend := Nat.mul_le_mul_right (vqEntry code) hi
  rw [vqSize_eq hc, ← hb, Nat.add_mul, Nat.one_mul] at hend
  rw [entryAt, List.length_take, List.length_drop]
  omega

theorem getD_entryAt {code : Nat} {book ix : List Byte} {skip j i : Nat} (hi : i < vqEntry code) (d : Byte) :
    (entryAt code book ix skip j).getD i d = book.getD (Claims.indexAt code ix skip j * vqEntry code + i) d := by
  have hix : leNat ix / 2 ^ skip / 2 ^ (vqIndex code * j) % 2 ^ vqIndex code = Claims.indexAt code ix skip j := by
    rw [Nat.div_div_eq_div_mul, ← Nat.pow_add]
    rfl
  rw [entryAt, hix, List.getD_eq_getElem?_getD, List.getD_eq_getElem?_getD, List.getElem?_take_of_lt hi, List.getElem?_drop]

/-- Expansion: the entries in turn, cut to the count's bytes, the high half of the last cleared where the count is odd. -/
theorem expandBytes_eq (code : Nat) (book ix : List Byte) (skip idxs count : Nat) :
    expandBytes code book ix skip idxs count =
      let cut := ((List.range idxs).flatMap (entryAt code book ix skip)).take ((count + 1) / 2)
      if count % 2 = 1 then cut.mapIdx (fun i x => if i + 1 = cut.length then x &&& 0x0F else x) else cut := rfl

/-- The first `c` bytes of the entries in turn. -/
theorem take_entries {code : Nat} {book : List Byte} (hc : code ≤ 2) (hb : book.length = vqSize code) (ix : List Byte) (skip : Nat)
    {n c : Nat} (hn : c ≤ n * vqEntry code) :
    let cut := ((List.range n).flatMap (entryAt code book ix skip)).take c
    cut.length = c ∧ ∀ i < c, cut.getD i 0 =
      book.getD (Claims.indexAt code ix skip (i / vqEntry code) * vqEntry code + i % vqEntry code) 0 := by
  intro cut
  have hentry := length_entryAt hc hb ix skip
  have he : 0 < vqEntry code := by unfold vqEntry; split <;> decide
  refine ⟨by rw [List.length_take, length_flatMap_range hentry]; omega, fun i hi => ?_⟩
  rw [List.getD_eq_getElem?_getD, List.getElem?_take_of_lt hi, ← List.getD_eq_getElem?_getD,
    getD_flatMap_range hentry (Nat.lt_of_lt_of_le hi hn), getD_entryAt (Nat.mod_lt i he)]

/-- Only the last byte loses its high half. -/
theorem getD_clearLast (l : List Byte) {i : Nat} (hi : i < l.length) :
    (l.mapIdx (fun i x => if i + 1 = l.length then x &&& 0x0F else x)).getD i 0 =
      if i + 1 = l.length then l.getD i 0 &&& 0x0F else l.getD i 0 := by
  rw [List.getD_eq_getElem _ _ (by rwa [List.length_mapIdx]), List.getElem_mapIdx, List.getD_eq_getElem _ _ hi]

/-- The indices that a count asks for name bytes enough. -/
theorem count_le_entries (count : Nat) {e : Nat} (he : 0 < e) : (count + 1) / 2 ≤ (count + 2 * e - 1) / (2 * e) * e := by
  have hlt := Nat.lt_div_mul_add (a := count + 2 * e - 1) (b := 2 * e) (by omega)
  have hmul : (count + 2 * e - 1) / (2 * e) * (2 * e) = 2 * ((count + 2 * e - 1) / (2 * e) * e) := by ring
  omega

/-- Byte `i` of an expansion, with the widths and sizes of the code's table. -/
theorem expandBytes_bytes {code : Nat} {book : List Byte} (hc : code ≤ 2) (hb : book.length = vqSize code) (ix : List Byte)
    (skip count : Nat) :
    let e := vqEntry code
    let out := expandBytes code book ix skip ((count + 2 * e - 1) / (2 * e)) count
    out.length = (count + 1) / 2 ∧ ∀ i < (count + 1) / 2,
      let b := book.getD (Claims.indexAt code ix skip (i / e) * e + i % e) 0
      out.getD i 0 = if count % 2 = 1 ∧ i + 1 = (count + 1) / 2 then b &&& 0x0F else b := by
  intro e out
  have he : 0 < e := by show 0 < vqEntry code; unfold vqEntry; split <;> decide
  obtain ⟨hlen, hget⟩ := take_entries hc hb ix skip (count_le_entries count he)
  by_cases hodd : count % 2 = 1
  case pos =>
    rw [show out = _ from (expandBytes_eq code book ix skip _ count).trans (if_pos hodd)]
    refine ⟨by rw [List.length_mapIdx, hlen], fun i hi => ?_⟩
    rw [getD_clearLast _ (hlen.symm ▸ hi), hget i hi, hlen]
    simp only [hodd, true_and, e]
  case neg =>
    rw [show out = _ from (expandBytes_eq code book ix skip _ count).trans (if_neg hodd)]
    refine ⟨hlen, fun i hi => ?_⟩
    rw [hget i hi]
    exact (if_neg fun h => hodd h.1).symm

theorem expandsIndices_holds : Claims.expandsIndices :=
  fun _ _ ix skip count hc hb => expandBytes_bytes hc hb ix skip count

/-! ### Writes of a unit into the scratchpad of a tile whose core waits for nothing -/

section

variable {s : State} {n : Nat}

theorem recheck_of_noWait {t : Tile} (hw : t.wait = .none) (off len : Nat) : t.recheck off len = t := by
  simp only [Tile.recheck, hw]

/-- A store changes the scratchpad and the record of its errors alone. -/
theorem store_of_noWait {t : Tile} (hw : t.wait = .none) (off : Nat) (b : List Byte) :
    ∃ e, t.store off b = { t with scratch := t.scratch.writeN off b, upsets := e } := by
  rw [Tile.store, recheck_of_noWait (by exact hw)]
  exact ⟨_, rfl⟩

theorem spWrite_tile (hw : (s.tile n).wait = .none) (off : Nat) (b : List Byte) :
    ∃ e, (s.spWrite n off b).tile n = { s.tile n with scratch := (s.tile n).scratch.writeN off b, upsets := e } := by
  obtain ⟨e, he⟩ := store_of_noWait hw off b
  exact ⟨e, (tile_setTile s n _).trans he⟩

/-- The places of a run are places of its cells. -/
theorem runsOf_subset {w : List (Nat × Byte)} {r : Nat × List Byte} (hr : r ∈ runsOf w) {i : Nat} (hi : i < r.2.length) :
    ∃ c ∈ w, c.1 = r.1 + i := by
  induction w generalizing r i with
  | nil => cases hr
  | cons c w ih =>
    obtain ⟨a, b⟩ := c
    have later {r' : Nat × List Byte} (h : r' ∈ runsOf w) {j : Nat} (hj : j < r'.2.length) : ∃ c ∈ (a, b) :: w, c.1 = r'.1 + j := by
      obtain ⟨c, hc, e⟩ := ih h hj
      exact ⟨c, List.mem_cons_of_mem _ hc, e⟩
    have single (hr : r = (a, [b])) : ∃ c ∈ (a, b) :: w, c.1 = r.1 + i := by
      subst hr
      simp only [List.length_singleton] at hi
      exact ⟨_, List.mem_cons_self, by show a = a + i; omega⟩
    rw [runsOf] at hr
    split at hr
    next => exact single (List.mem_singleton.1 hr)
    next a' l rest hruns =>
      split at hr
      next hnext =>
        rcases List.mem_cons.1 hr with rfl | hr
        · cases i with
          | zero => exact ⟨_, List.mem_cons_self, rfl⟩
          | succ i =>
            obtain ⟨c, hc, e⟩ := later (r' := (a', l)) (hruns ▸ List.mem_cons_self) (j := i) (by simpa using hi)
            exact ⟨c, hc, by rw [e]; show a' + i = a + (i + 1); omega⟩
        · exact later (hruns ▸ List.mem_cons_of_mem _ hr) hi
      next =>
        rcases List.mem_cons.1 hr with hr | hr
        · exact single hr
        · exact later (hruns ▸ hr) hi

/-- A unit's writes change the scratchpad at the places of its cells, and leave every stack. -/
theorem unitWrites_tile (hw : (s.tile n).wait = .none) (w : List (Nat × Byte)) :
    (s.unitWrites n w).stks = s.stks ∧ ∃ m e, (s.unitWrites n w).tile n = { s.tile n with scratch := m, upsets := e } ∧
      ∀ a, (∀ c ∈ w, c.1 ≠ a) → m.read a = (s.tile n).scratch.read a := by
  refine List.foldlRecOn (motive := fun u : State => u.stks = s.stks ∧
    ∃ m e, u.tile n = { s.tile n with scratch := m, upsets := e } ∧
      ∀ a, (∀ c ∈ w, c.1 ≠ a) → m.read a = (s.tile n).scratch.read a) _ _ ⟨rfl, _, _, rfl, fun _ _ => rfl⟩ ?_
  rintro u ⟨hs, m, e, hu, hm⟩ r hr
  obtain ⟨e', hu'⟩ := spWrite_tile (s := u) (n := n) (by rw [hu]; exact hw) r.1 r.2
  refine ⟨hs, m.writeN r.1 r.2, e', by rw [hu', hu], fun a ha => ?_⟩
  rw [read_writeN_out _ _ _ _ ?_, hm a ha]
  by_contra hin
  obtain ⟨c, hc, hca⟩ := runsOf_subset hr (i := a - r.1) (by omega)
  exact ha c hc (by omega)

theorem mem_freeCells {d : Nat} {l : List (Nat × Nat)} {c : Nat × Byte} (h : c ∈ freeCells d l) :
    ∃ r ∈ l, r.1 ≤ c.1 ∧ c.1 < r.1 + r.2 := by
  obtain ⟨r, hr, hc⟩ := List.mem_flatMap.1 h
  obtain ⟨i, hi, rfl⟩ := List.mem_map.1 hc
  exact ⟨r, hr, Nat.le_add_right _ _, Nat.add_lt_add_left (List.mem_range.1 hi) _⟩

/-- Spoiled rows lie in the transfer's destination. -/
theorem dmaSpoil_tile (hw : (s.tile n).wait = .none) (x : Xfer) (first : Nat) :
    (s.dmaSpoil n x first).stks = s.stks ∧ ∃ m e, (s.dmaSpoil n x first).tile n = { s.tile n with scratch := m, upsets := e } ∧
      ∀ a, (∀ i < x.rows, a < gaByte (rowAddr x.dst x.dstride i) ∨ gaByte (rowAddr x.dst x.dstride i) + x.len ≤ a) →
        m.read a = (s.tile n).scratch.read a := by
  obtain ⟨hs, m, e, ht, hm⟩ := unitWrites_tile (s := s.draw) (n := n) hw (freeCells s.free
    ((((List.range x.rows).drop first).filter (fun i => s.ownSpad n (rowAddr x.dst x.dstride i))).map
      (fun i => (gaByte (rowAddr x.dst x.dstride i), x.len))))
  refine ⟨hs, m, e, ht, fun a ha => hm a fun c hc hca => ?_⟩
  obtain ⟨r, hr, hlo, hhi⟩ := mem_freeCells hc
  obtain ⟨i, hi, rfl⟩ := List.mem_map.1 hr
  have hrow := ha i (List.mem_range.1 (List.mem_of_mem_drop (List.mem_of_mem_filter hi)))
  simp only at hlo hhi
  omega

/-! ### A transfer that the engine serves -/

/-- The core goes on by itself, and nothing traps it: no fault waits, and events do not interrupt. -/
def Tile.idle (y : Tile) : Prop :=
  (y.running = true ∧ y.halted = false ∧ y.drain = none ∧ y.wait = .none) ∧
    y.tfault = none ∧ y.vfault = none ∧ y.lateErr = none ∧ y.cst.ei = false

theorem wait_of_idle {y : Tile} (h : y.idle) : y.wait = .none := by
  obtain ⟨⟨-, -, -, hw⟩, -⟩ := h
  exact hw

theorem idle_of_streamServes {y : Tile} {h : Nat} {X : Xfer} (hy : Claims.streamServes y h X) : y.idle := by
  obtain ⟨-, -, -, -, ha, hw, hc, hei⟩ := hy
  simp only [Claims.awake, Bool.and_eq_true, Bool.not_eq_true', Option.isNone_iff_eq_none] at ha
  simp only [Claims.calm, Bool.and_eq_true, Option.isNone_iff_eq_none] at hc
  obtain ⟨⟨hr, hh⟩, hd⟩ := ha
  obtain ⟨⟨⟨ht, hv⟩, hl⟩, -⟩ := hc
  exact ⟨⟨hr, hh, hd, hw⟩, ht, hv, hl, hei⟩

/-- Nothing is to be settled at such a core. -/
theorem settle_idle (h : (s.tile n).idle) : s.settle n = s := by
  obtain ⟨⟨hr, hh, hd, hw⟩, ht, hv, hl, hei⟩ := h
  unfold State.settle
  simp only [hr, hh, hd, hw, Bool.not_true, Option.isSome_none, Bool.or_false, Bool.false_eq_true, if_false]
  exact boundary_clear s n ⟨ht, hv, hl, fun he => by rw [hei] at he; exact Bool.false_ne_true he.1⟩

theorem dmaEnd_idle {h : Nat} (hi : (s.tile n).idle) (st : Nat) : s.dmaEnd n h st = s.dmaMark n h st := by
  refine settle_idle ?_
  rw [State.dmaMark, tile_setTile]
  exact hi

theorem handle_lt {y : Tile} {h : Nat} {X : Xfer} (hx : y.handles.toList.getD h .free = .running X) : h < 8 := by
  by_contra hge
  rw [List.getD_eq_default _ _ (by simpa using Nat.le_of_not_lt hge)] at hx
  cases hx

theorem xfer?_of_running {y : Tile} {h : Nat} {X : Xfer} (hx : y.handles.toList.getD h .free = .running X) : y.xfer? h = some X := by
  simp only [Tile.xfer?, hx]

theorem getD_setIfInBounds (v : Vector Handle 8) {h : Nat} (hh : h < 8) (x : Handle) : (v.setIfInBounds h x).toList.getD h .free = x := by
  rw [Vector.toList_setIfInBounds, List.getD_eq_getElem _ _ (by simpa using hh), List.getElem_set_self]

theorem tile_setXfer (s : State) (n h : Nat) (X : Xfer) :
    (s.setXfer n h X).tile n = { s.tile n with handles := (s.tile n).handles.setIfInBounds h (.running X) } := tile_setTile _ _ _

theorem xfer?_setXfer {h : Nat} (hh : h < 8) (X : Xfer) : ((s.setXfer n h X).tile n).xfer? h = some X := by
  rw [tile_setXfer]
  exact xfer?_of_running (getD_setIfInBounds _ hh _)

theorem setXfer_setXfer (h : Nat) (X Y : Xfer) : (s.setXfer n h X).setXfer n h Y = s.setXfer n h Y := by
  rw [State.setXfer, tile_setXfer, State.setXfer, State.setXfer, setTile_setTile, Vector.setIfInBounds_setIfInBounds]

/-- A transfer of the pointing engine asks for no piece itself. -/
theorem dmaAsk_pe {h : Nat} {ten : BitVec 7} {X : Xfer} (hp : X.pe = true) : s.dmaAsk n h ten X = none :=
  if_pos (by rw [hp]; rfl)

/-- A failed transfer moves nothing more. -/
theorem dmaRun_failed {h : Nat} {X : Xfer} (hx : (s.tile n).xfer? h = some X) (hf : X.failed.isSome = true) (k : Nat) :
    s.dmaRun n h k = s := by
  cases k with
  | zero => rfl
  | succ k => simp only [State.dmaRun, hx, hf, Bool.true_or, if_true]

/-- One turn of the engine that writes. -/
theorem dmaRun_write {h : Nat} {X : Xfer} {u : State} (hx : (s.tile n).xfer? h = some X) (hf : X.failed = none)
    (hd : (s.tile n).drain = none) (hw : ∀ ten, s.dmaWrite n h ten X = some u) (k : Nat) : s.dmaRun n h (k + 1) = u.dmaRun n h k := by
  simp only [State.dmaRun, hx, hf, hd, Option.isSome_none, Bool.or_self, Bool.false_eq_true, if_false, hw]

/-- With nothing come for it, a transfer of the pointing engine waits. -/
theorem dmaRun_waits {h : Nat} {X : Xfer} (hx : (s.tile n).xfer? h = some X) (hp : X.pe = true) (hg : X.got = []) (k : Nat) :
    s.dmaRun n h k = s := by
  cases k with
  | zero => rfl
  | succ k => simp only [State.dmaRun, hx, State.dmaWrite, hg, List.find?_nil, dmaAsk_pe hp, ite_self]

/-- What comes for a transfer of rows `0` to `upTo` of a stream's output `b`: their pieces, then the failure that ended the stream. -/
def Xfer.deliveries (X : Xfer) (b : List Byte) (upTo : Nat) (fail : Option Nat) : List (Nat × Byte × List Byte) :=
  (List.range (upTo * X.perRow)).map (fun i =>
    (i, (0 : Byte), (b.drop (i / X.perRow * X.len + 4096 * (i % X.perRow))).take (min 4096 (X.len - 4096 * (i % X.perRow))))) ++
  match fail with
  | some st => [(max (upTo * X.perRow) X.written, BitVec.ofNat 8 st, [])]
  | none => []

theorem streamRows_eq {h : Nat} {X : Xfer} (hx : (s.tile n).xfer? h = some X) (b : List Byte) (upTo : Nat) (fail : Option Nat) :
    s.streamRows n h b upTo fail = (s.setXfer n h { X with got := X.deliveries b upTo fail, asked := X.total }).dmaPump n h := by
  simp only [State.streamRows, hx]
  rfl

/-- A row that fits one piece comes as it is. -/
theorem deliveries_row {X : Xfer} {b : List Byte} (hper : X.perRow = 1) (h4096 : X.len ≤ 4096) (hb : b.length = X.len) :
    X.deliveries b 1 none = [(0, 0, b)] := by
  simp [Xfer.deliveries, hper, ← hb, hb ▸ h4096]

theorem deliveries_failure (X : Xfer) (st : Nat) : X.deliveries [] 0 (some st) = [(X.written, BitVec.ofNat 8 st, [])] := by
  simp [Xfer.deliveries]

theorem dmaPump_eq {h : Nat} {X : Xfer} (hx : (s.tile n).xfer? h = some X) : s.dmaPump n h = s.dmaRun n h (2 * X.total + 1) := by
  simp only [State.dmaPump, hx]

/-- A row that fits one piece is written to the own scratchpad as it comes. -/
theorem dmaWrite_own {h : Nat} {X : Xfer} {b : List Byte} (hg : X.got = [(0, 0, b)]) (hw : X.written = 0)
    (ho : s.ownSpad n X.dst = true) (ten : BitVec 7) :
    s.dmaWrite n h ten X = some ((s.setXfer n h { X with written := 1, got := [] }).spWrite n (gaByte X.dst) b) := by
  have hdst : (X.piece 0).2.1 = X.dst := by simp [Xfer.piece, rowAddr]
  simp only [State.dmaWrite, hg, hw, List.find?_cons, beq_self_eq_true, hdst, ho, ne_eq, not_true_eq_false, if_false, if_true,
    List.filter_cons, bne_self_eq_false, Bool.false_eq_true, List.filter_nil]

/-- One row delivered to a transfer of the pointing engine is in place, and the transfer runs on. -/
theorem streamRows_writes {h : Nat} {X : Xfer} {b : List Byte} (hX : Claims.streamServes (s.tile n) h X) (hrows : X.rows = 1)
    (h1 : 1 ≤ X.len) (h4096 : X.len ≤ 4096) (hw : X.written = 0) (ho : s.ownSpad n X.dst = true) (hb : b.length = X.len) :
    ((s.streamRows n h b 1 none).tile n).scratch = (s.tile n).scratch.writeN (gaByte X.dst) b ∧
      ((s.streamRows n h b 1 none).tile n).handles =
        (s.tile n).handles.setIfInBounds h (.running { X with asked := 1, written := 1, got := [] }) := by
  obtain ⟨⟨-, -, hd, hwait⟩, -⟩ := idle_of_streamServes hX
  obtain ⟨hrun, hp, hf, -⟩ := hX
  have hh := handle_lt hrun
  have hper : X.perRow = 1 := by unfold Xfer.perRow; omega
  have htot : X.total = 1 := by rw [Xfer.total, hrows, hper]
  have hrow := streamRows_eq (xfer?_of_running hrun) b 1 none
  rw [htot, deliveries_row hper h4096 hb] at hrow
  let X₁ : Xfer := { X with got := [(0, 0, b)], asked := 1 }
  let X₂ : Xfer := { X with asked := 1, written := 1, got := [] }
  have hwrite (ten : BitVec 7) : (s.setXfer n h X₁).dmaWrite n h ten X₁ = some ((s.setXfer n h X₂).spWrite n (gaByte X.dst) b) :=
    (dmaWrite_own (s := s.setXfer n h X₁) (X := X₁) rfl hw ho ten).trans (by rw [setXfer_setXfer])
  obtain ⟨e, htile⟩ := spWrite_tile (s := s.setXfer n h X₂) (n := n) (by rw [tile_setXfer]; exact hwait) (gaByte X.dst) b
  have hx₂ : (((s.setXfer n h X₂).spWrite n (gaByte X.dst) b).tile n).xfer? h = some X₂ := by
    rw [htile]
    exact xfer?_setXfer hh X₂
  have hend : s.streamRows n h b 1 none = (s.setXfer n h X₂).spWrite n (gaByte X.dst) b := by
    rw [hrow, dmaPump_eq (xfer?_setXfer hh X₁), dmaRun_write (xfer?_setXfer hh X₁) hf (by rw [tile_setXfer]; exact hd) hwrite,
      dmaRun_waits hx₂ hp rfl]
  rw [hend, htile, tile_setXfer]
  exact ⟨rfl, rfl⟩

/-- A failure with no row before it: the transfer fails with the status. -/
theorem streamRows_fails {h st : Nat} {X : Xfer} (hX : Claims.streamServes (s.tile n) h X) (hst : BitVec.ofNat 8 st ≠ 0) :
    s.streamRows n h [] 0 (some st) =
      s.setXfer n h { X with got := [], asked := X.total, failed := some (BitVec.ofNat 8 st) } := by
  obtain ⟨⟨-, -, hd, -⟩, -⟩ := idle_of_streamServes hX
  obtain ⟨hrun, hp, hf, -⟩ := hX
  have hh := handle_lt hrun
  have hrow := streamRows_eq (xfer?_of_running hrun) [] 0 (some st)
  rw [deliveries_failure] at hrow
  let X₁ : Xfer := { X with got := [(X.written, BitVec.ofNat 8 st, [])], asked := X.total }
  let X₂ : Xfer := { X with got := [], asked := X.total, failed := some (BitVec.ofNat 8 st) }
  have hfail (ten : BitVec 7) : (s.setXfer n h X₁).dmaWrite n h ten X₁ = some (s.setXfer n h X₂) := by
    have hfailed : X₁.fail (BitVec.ofNat 8 st).toNat = X₂ := by
      simp only [Xfer.fail, X₁, X₂, hf, Option.isSome_none, Bool.false_eq_true, if_false, BitVec.ofNat_toNat, BitVec.setWidth_eq]
    simp only [State.dmaWrite, X₁, List.find?_cons, beq_self_eq_true, hst, ne_eq, not_false_eq_true, if_true]
    exact congrArg some ((congrArg _ hfailed).trans (setXfer_setXfer h X₁ X₂))
  rw [hrow, dmaPump_eq (xfer?_setXfer hh X₁), dmaRun_write (xfer?_setXfer hh X₁) hf (by rw [tile_setXfer]; exact hd) hfail,
    dmaRun_failed (xfer?_setXfer hh X₂) rfl]

/-! ### The end of a transfer -/

theorem dmaCross_pe {X : Xfer} (hp : X.pe = true) : s.dmaCross n X = false := by
  simp only [State.dmaCross, hp, Bool.not_true, Bool.false_and]

theorem dmaFinish_done {h : Nat} {X : Xfer} (hi : (s.tile n).idle) (hp : X.pe = true) (hf : X.failed = none) :
    s.dmaFinish n h X = s.dmaMark n h 0 := by
  simp only [State.dmaFinish, dmaCross_pe hp, hf, Option.isSome_none, Bool.false_eq_true, if_false, Option.getD_none]
  exact dmaEnd_idle hi 0

/-- A failed transfer spoils its unfinished rows, and its handle completes with the status. -/
theorem dmaFinish_failed {h : Nat} {X : Xfer} {st : Byte} (hi : (s.tile n).idle) (hp : X.pe = true) (hf : X.failed = some st) :
    s.dmaFinish n h X = (s.dmaSpoil n X (X.written / X.perRow)).dmaMark n h st.toNat := by
  simp only [State.dmaFinish, dmaCross_pe hp, hf, Option.isSome_some, Bool.false_eq_true, if_false, if_true, Option.getD_some]
  refine dmaEnd_idle ?_ _
  obtain ⟨-, m, e, ht, -⟩ := dmaSpoil_tile (s := s) (wait_of_idle hi) X (X.written / X.perRow)
  rw [ht]
  exact hi

end

/-! ### A stream that the engine refuses -/

/-- The engine's error ends the transfer at once: no stack changes beyond the record of the error, the handle completes with the
status, and only rows of the destination change. -/
theorem engineFail_ends {s : State} {n t h code : Nat} {X : Xfer} (hX : Claims.streamServes (s.tile t) h X) :
    let u := s.engineFail n t h code [] 0
    u.stks = (s.engineErr n code).stks ∧
      (u.tile t).handles = (s.tile t).handles.setIfInBounds h (.completed (BitVec.ofNat 8 (engineStatus code))) ∧
      (u.tile t).event = (s.tile t).event ||| 4 ∧
      ∀ a, (∀ i < X.rows, a < gaByte (rowAddr X.dst X.dstride i) ∨ gaByte (rowAddr X.dst X.dstride i) + X.len ≤ a) →
        (u.tile t).scratch.read a = (s.tile t).scratch.read a := by
  intro u
  have hst : engineStatus code = 4 ∨ engineStatus code = 5 := by unfold engineStatus; split <;> simp
  have hne : BitVec.ofNat 8 (engineStatus code) ≠ 0 := by rcases hst with h | h <;> rw [h] <;> decide
  have hnat : (BitVec.ofNat 8 (engineStatus code)).toNat = engineStatus code := by rcases hst with h | h <;> rw [h] <;> rfl
  let Y : Xfer := { X with got := [], asked := X.total, failed := some (BitVec.ofNat 8 (engineStatus code)) }
  let v := (s.engineErr n code).setXfer t h Y
  have hv : v.tile t = { s.tile t with handles := (s.tile t).handles.setIfInBounds h (.running Y) } := tile_setXfer _ _ _ _
  have hidle := idle_of_streamServes hX
  have hi : (v.tile t).idle := by rw [hv]; exact hidle
  have hrows : (s.engineErr n code).streamRows t h [] 0 (some (engineStatus code)) = v := streamRows_fails (s := s.engineErr n code) hX hne
  obtain ⟨hrun, hp, hf, hout, -⟩ := hX
  have hover : v.dmaOver t h Y = true := by
    have hout' : (v.tile t).dmaOut h = 0 := by rw [hv]; exact hout
    simp only [State.dmaOver, hout', Y, Option.isSome_some, Bool.true_or, beq_self_eq_true, Bool.and_self]
  have hu : u = (v.dmaSpoil t Y (Y.written / Y.perRow)).dmaMark t h (engineStatus code) := by
    show (s.engineFail n t h code [] 0) = _
    simp only [State.engineFail, hrows, v, xfer?_setXfer (handle_lt hrun) Y]
    rw [if_pos hover, dmaFinish_failed (s := v) (X := Y) hi hp rfl, hnat]
  obtain ⟨hstks, m, e, ht, hm⟩ := dmaSpoil_tile (s := v) (wait_of_idle hi) Y (Y.written / Y.perRow)
  have hz : engineStatus code ≠ 0 := by omega
  rw [hu, State.dmaMark, tile_setTile, ht, hv]
  refine ⟨hstks, ?_, if_neg hz, fun a ha => (hm a ha).trans (by rw [hv])⟩
  exact Vector.setIfInBounds_setIfInBounds ..

/-! ### EXPAND, LOAD and STREAM_END -/

section

variable {s : State} {n : PartNo} {sid : Nat} {x : Stream}

theorem noRetrain_nil (lines : List Nat) : noRetrain lines [] = none := by
  rw [noRetrain, List.zip_nil_right]
  rfl

/-- What lets a stream take its turn. -/
def State.mayRun (s : State) (n : PartNo) (sid : Nat) (x : Stream) : Prop :=
  (s.stack n.val).streams.find? (fun z => z.sid == sid) = some x ∧ s.engineMay n.val x = true ∧ x.active = false ∧
    (s.stack n.val).runs sid = true

/-- The streams after stream `sid` has delivered. -/
def Stack.delivered (k : Stack) (sid : Nat) : List Stream := k.streams.map (fun z => if z.sid == sid then { z with active := true } else z)

/-- A stream on a Ready bank of its own reads its indices and delivers their expansion. -/
theorem exec_expand_delivers (hrun : s.mayRun n sid x) (hl : x.load = false) (hb : (s.stack n.val).behindLoad x = false)
    (hok : ((s.stack n.val).banks.toList.getD x.bank .empty).refuses x = none)
    (hw : s.windowOk x.owner.toNat x.range.1 x.range.2 true false = true) {key : Nat} (hk : s.keyOfTag x.owner = some key)
    {ix : List Byte} (hr : s.memRead s.memIlv x.range.1 x.range.2 key [] = (s, some ix)) :
    exec (.expand n sid []) s = .next ((s.setStack n.val { s.stack n.val with
        streams := (s.stack n.val).delivered sid, lastUse := s.now }).streamRows x.tile x.handle
      (expandBytes x.code ((s.stack n.val).banks.toList.getD x.bank .empty).data ix (x.first * vqIndex x.code % 8) x.indices x.count)
      x.rows none) := by
  obtain ⟨hf, hm, ha, hs⟩ := hrun
  show execExpand n sid [] s = _
  simp only [execExpand, hf, hl, ha, hs, hb, hm, noRetrain_nil, hok, hw, hk, hr, Bool.not_true, Bool.or_self, Bool.false_eq_true,
    if_false]
  rfl

/-- One whose bank refuses it leaves the engine with the bank's error. -/
theorem exec_expand_refused (hrun : s.mayRun n sid x) (hl : x.load = false) (hb : (s.stack n.val).behindLoad x = false) {c : Nat}
    (hno : ((s.stack n.val).banks.toList.getD x.bank .empty).refuses x = some c) :
    exec (.expand n sid []) s = .next ((s.dropStream n.val sid).engineFail n.val x.tile x.handle c [] 0) := by
  obtain ⟨hf, hm, ha, hs⟩ := hrun
  show execExpand n sid [] s = _
  simp only [execExpand, hf, hl, ha, hs, hb, hm, noRetrain_nil, hno, Bool.not_true, Bool.or_self, Bool.false_eq_true, if_false]

theorem refuses_eq_none {b : Bank} (hs : b.state = 2) (ho : b.owner = x.owner) (ht : b.tag = x.cbTag) (hc : b.code = x.code) :
    b.refuses x = none := by
  simp [Bank.refuses, hs, ho, ht, hc]

/-- The first stream on its bank, a LOAD, makes the bank Ready with what it read, and delivers the receipt. -/
theorem exec_load_delivers (hrun : s.mayRun n sid x) (hl : x.load = true)
    (hb : ((s.stack n.val).firstOn x.bank).map (·.sid) = some sid)
    (hw : s.windowOk x.owner.toNat x.range.1 x.range.2 true false = true) {key : Nat} (hk : s.keyOfTag x.owner = some key)
    {book : List Byte} (hr : s.memRead s.memIlv x.range.1 x.range.2 key [] = (s, some book)) :
    let k := { s.stack n.val with
      banks := (s.stack n.val).banks.setIfInBounds x.bank ⟨2, x.code, x.cbTag, x.owner, book⟩ }
    exec (.load n sid []) s = .next (((s.setStack n.val k).setStack n.val { k with
        streams := (s.stack n.val).delivered sid, lastUse := s.now }).streamRows x.tile x.handle (receipt x book s.lay.time) 1 none) := by
  obtain ⟨hf, hm, ha, hs⟩ := hrun
  intro k
  show execLoad n sid [] s = _
  simp only [execLoad, hf, hl, ha, hs, hb, hm, noRetrain_nil, hw, hk, hr, Bool.not_true, Bool.or_self, Bool.false_eq_true, if_false,
    bne_self_eq_false, stack_setStack]
  rfl

/-- A delivered stream whose rows are written leaves the engine, and its handle completes. -/
theorem exec_streamEnd_completes {X : Xfer} (hf : (s.stack n.val).streams.find? (fun z => z.sid == sid) = some x)
    (ha : x.active = true) (hX : Claims.streamServes (s.tile x.tile) x.handle X) (hw : X.total ≤ X.written) :
    exec (.streamEnd n sid) s = .next ((s.dropStream n.val sid).dmaMark x.tile x.handle 0) := by
  have hi := idle_of_streamServes hX
  obtain ⟨hrun, hp, hfail, hout, -⟩ := hX
  have hover : (s.dropStream n.val sid).dmaOver x.tile x.handle X = true := by
    show ((X.failed.isSome || decide (X.total ≤ X.written)) && (s.tile x.tile).dmaOut x.handle == 0) = true
    rw [hout, decide_eq_true hw, Bool.or_true]
    rfl
  have hx : ((s.dropStream n.val sid).tile x.tile).xfer? x.handle = some X := xfer?_of_running hrun
  show execStreamEnd n sid s = _
  simp only [execStreamEnd, hf, ha, Bool.not_true, Bool.false_eq_true, if_false, hx, hover, if_true]
  rw [dmaFinish_done (s := s.dropStream n.val sid) hi hp hfail]

end

theorem streamsRun_holds : Claims.streamsRun := by
  intro s n sid x k y bank delivered hf
  refine ⟨?_, ?_, ?_, ?_, ?_⟩
  · intro key ix hm ha hs hl hb hst ho ht hc hw hk hr
    exact exec_expand_delivers ⟨hf, hm, ha, hs⟩ hl hb (refuses_eq_none hst ho ht hc) hw hk hr
  · intro key book hm ha hs hl _ hb hw hk hr k₁
    exact exec_load_delivers ⟨hf, hm, ha, hs⟩ hl hb hw hk hr
  · intro X b hX hrows h1 h4096 hw ho hb
    exact streamRows_writes hX hrows h1 h4096 hw ho hb
  · intro X hm ha hs hl hb hst hX
    obtain ⟨hstks, hh, he, hbytes⟩ := engineFail_ends (s := s.dropStream n.val sid) (n := n.val) (code := 4) hX
    have hstack (m : Nat) : ((s.dropStream n.val sid).engineFail n.val x.tile x.handle 4 [] 0).stack m =
        ((s.dropStream n.val sid).engineErr n.val 4).stack m := congrArg (fun l => SMap.get Stack.fresh l m) hstks
    refine ⟨_, exec_expand_refused ⟨hf, hm, ha, hs⟩ hl hb (if_pos hst), ?_, ?_, hh, he, hbytes⟩
    · rw [hstack, State.engineErr, stack_setStack]
      rfl
    · rw [hstack, State.engineErr, stack_setStack, State.dropStream, stack_setStack]
  · intro X ha hX hw
    refine ⟨_, exec_streamEnd_completes hf ha hX hw, ?_, ?_, ?_, ?_, fun m hm => tile_setTile_ne _ _ hm⟩
    · exact congrArg Stack.streams (stack_setStack s n.val _)
    · rw [State.dmaMark, tile_setTile]
      rfl
    · rw [State.dmaMark, tile_setTile]
      rfl
    · rw [State.dmaMark, tile_setTile]
      rfl

/-- Settles O19: the expansion, byte by byte, then the life of streams and loads. -/
theorem streamsExpand : Obligations.StreamsExpand := ⟨expandsIndices_holds, streamsRun_holds⟩

end Sys2Proof.Machine

namespace Sys2Proof.Machine

/-! ## Seams and the firmware broadcast (05 R143, R154, R155) -/

section

variable {s u : State}

/-! ### What leaves the router alone

A fencing order reaches the partition word, rings, the Cleat and the error log. One lemma per function that it goes through, in the order
of Machine/Ops. -/

theorem router_ite {c : Prop} [Decidable c] : (if c then s else u).router = if c then s.router else u.router :=
  apply_ite State.router c s u

@[simp] theorem router_raise (s : State) (n : Nat) : (s.raise n).router = s.router := by
  obtain ⟨c, h⟩ := raise_frame (s := s) n
  rw [h]

@[simp] theorem router_partEvent (s : State) (n k : Nat) : (s.partEvent n k).router = s.router := router_raise _ _

@[simp] theorem router_cast (s : State) (mask : Nat) (what : Cast) : (s.cast mask what).router = s.router := rfl

@[simp] theorem router_logErr (s : State) (r : ErrRec) : (s.logErr r).router = s.router := by simp [State.logErr, router_ite]

@[simp] theorem router_sendMsix (s : State) (fn vec : Nat) : (s.sendMsix fn vec).router = s.router := by
  simp [State.sendMsix, router_ite]

@[simp] theorem router_hifSet (s : State) (b : Nat) : (s.hifSet b).router = s.router := by simp [State.hifSet, router_ite]

@[simp] theorem router_ringEntry (s : State) (r : Nat) (now : Bool) : (s.ringEntry r now).router = s.router := by
  simp [State.ringEntry, router_ite]

@[simp] theorem router_putEntry (s : State) (r : Nat) (b : List Byte) (now : Bool) : (s.putEntry r b now).1.router = s.router := by
  unfold State.putEntry
  dsimp only
  split <;> simp

@[simp] theorem router_noticeTo (s : State) (t code part detail data : Nat) :
    (s.noticeTo t code part detail data).1.router = s.router := by
  unfold State.noticeTo
  split
  · rfl
  · dsimp only
    split
    · rfl
    · split <;> simp

@[simp] theorem router_noticeOne (s : State) (t code part detail data : Nat) :
    (s.noticeOne t code part detail data).router = s.router := by
  unfold State.noticeOne
  split
  · rfl
  · simp [router_ite]

@[simp] theorem router_noticePart (s : State) (n code detail data : Nat) : (s.noticePart n code detail data).router = s.router := by
  simp [State.noticePart, router_ite]

@[simp] theorem router_pswWrite (s : State) (n : Nat) (f : Psw → Psw) : (s.pswWrite n f).router = s.router := by
  simp [State.pswWrite, router_ite]

@[simp] theorem router_fenceNow (s : State) (n : Nat) (cause : BitVec 8) : (s.fenceNow n cause).router = s.router := by
  unfold State.fenceNow
  dsimp only
  split
  case h_1 => rfl
  case h_2 => split <;> simp
  case h_3 | h_4 => simp
  case h_5 | h_6 => simp [router_ite]

@[simp] theorem router_dropRotation (s : State) (n : Nat) : (s.dropRotation n).router = s.router := by
  unfold State.dropRotation
  dsimp only
  split <;> simp

@[simp] theorem router_fence (s : State) (n : Nat) (cause : BitVec 8) : (s.fence n cause).router = s.router := by
  unfold State.fence
  split
  · rfl
  · split <;> simp [router_ite]

end

/-! ### SEAM_RESEND (R143) -/

/-- A port that leaves service clears its own bit of its own die's ports, and no other. -/
theorem seamUp_seamDown (r : Router) (east e : Bool) (q : Nat) {p : Nat} (hp : p < 24) :
    (r.seamDown east q).seamUp e p = (r.seamUp e p && !(e == east && p == q)) := by
  have hbit (w : BitVec 24) : (w &&& ~~~(BitVec.ofNat 24 (2 ^ q))).getLsbD p = (w.getLsbD p && !(p == q)) := by
    rw [BitVec.getLsbD_and, BitVec.getLsbD_not, BitVec.getLsbD_ofNat, Nat.testBit_two_pow, Bool.beq_eq_decide_eq]
    simp only [hp, decide_true, Bool.true_and, eq_comm]
  match east, e with
  | true, true => exact hbit r.seamEast
  | false, false => exact hbit r.seamWest
  | true, false => exact (Bool.and_true _).symm
  | false, true => exact (Bool.and_true _).symm

section

variable {s : State} {east : Bool} {q : Fin 24}

/-- The number of a seam port among those of both dies. -/
def seamKey (east : Bool) (q : Fin 24) : Nat := q.val + if east then 24 else 0

theorem exec_seamResend_good (hr : s.railsOn = true) (hup : s.router.seamUp east q.val = true) :
    exec (.seamResend east q false) s = .next { s with router := { s.router with
      seamRetry := satAdd s.router.seamRetry 1 0xFFFF, seamFails := SMap.del s.router.seamFails (seamKey east q) } } := by
  show execSeamResend east q false s = _
  simp only [execSeamResend, hr, hup, Bool.not_true, Bool.or_self, Bool.false_eq_true, if_false, Bool.not_false, if_true, seamKey]

theorem exec_seamResend_failed (hr : s.railsOn = true) (hup : s.router.seamUp east q.val = true)
    (hf : SMap.get 0 s.router.seamFails (seamKey east q) + 1 < 8) :
    exec (.seamResend east q true) s = .next { s with router := { s.router with
      seamRetry := satAdd s.router.seamRetry 1 0xFFFF,
      seamFails := SMap.set s.router.seamFails (seamKey east q) (SMap.get 0 s.router.seamFails (seamKey east q) + 1) } } := by
  show execSeamResend east q true s = _
  unfold seamKey at hf ⊢
  simp only [execSeamResend, hr, hup, Bool.not_true, Bool.or_self, Bool.false_eq_true, if_false, hf, if_true]

/-- The router after the failed resend that takes the port out of service. -/
def Router.seamLost (r : Router) (east : Bool) (q : Fin 24) : Router :=
  { ({ r with seamRetry := satAdd r.seamRetry 1 0xFFFF } : Router).seamDown east q.val with
    seamFails := SMap.del r.seamFails (seamKey east q) }

theorem exec_seamResend_lost (hr : s.railsOn = true) (hup : s.router.seamUp east q.val = true)
    (hf : ¬ SMap.get 0 s.router.seamFails (seamKey east q) + 1 < 8) :
    exec (.seamResend east q true) s = .next ((({ s with router := s.router.seamLost east q } : State).partEvent
      (seamOwner east q.val) 6).fence (seamOwner east q.val) 4) := by
  show execSeamResend east q true s = _
  unfold seamKey at hf
  simp only [execSeamResend, hr, hup, Bool.not_true, Bool.or_self, Bool.false_eq_true, if_false, hf]
  rfl

end

/-! ### The firmware region (R154, R155) -/

section

variable {s u : State} {image : List Byte}

/-- The image reaches one tile: its scratchpad, the record of its errors, a WAITV's watch, and what the CRC checks go by. -/
theorem putFirmware_frame (s : State) (image : List Byte) (t : Nat) : ∃ e w c d, s.putFirmware image t =
    (s.countSp c d).setTile t { s.tile t with
      scratch := (s.tile t).scratch.writeN 0 image, upsets := e, wait := w, fwCrc := crc32c image, fwTry := 0 } := by
  have hstore (x : Tile) : ∃ e w, x.store 0 image = { x with scratch := x.scratch.writeN 0 image, upsets := e, wait := w } := by
    unfold Tile.store Tile.recheck
    dsimp only
    split
    · split <;> exact ⟨_, _, rfl⟩
    · exact ⟨_, _, rfl⟩
  obtain ⟨e, w, h⟩ := hstore (s.tile t)
  refine ⟨e, w, ((s.tile t).partErrs 0 image.length).1, ((s.tile t).partErrs 0 image.length).2, ?_⟩
  have hwrite : s.spWrite t 0 image = (s.countSp ((s.tile t).partErrs 0 image.length).1 ((s.tile t).partErrs 0 image.length).2).setTile t
      { s.tile t with scratch := (s.tile t).scratch.writeN 0 image, upsets := e, wait := w } := by
    rw [← h]
    rfl
  simp only [State.putFirmware, hwrite, tile_setTile, setTile_setTile]

@[simp] theorem tile_countSp (s : State) (c d m : Nat) : (s.countSp c d).tile m = s.tile m := rfl
@[simp] theorem part_countSp (s : State) (c d m : Nat) : (s.countSp c d).part m = s.part m := rfl

/-- `u` is `s` after the image was put into the tiles of `l`: those hold it, with its CRC; no tile changed beyond the image's length, and
no other tile, partition or output changed. -/
def State.Programmed (s : State) (image : List Byte) (l : List Nat) (u : State) : Prop :=
  (∀ t ∈ l, (u.tile t).scratch.readN 0 image.length = image ∧ (u.tile t).fwCrc = crc32c image) ∧
  (∀ t b, image.length ≤ b → (u.tile t).scratch.read b = (s.tile t).scratch.read b) ∧
  (∀ t, t ∉ l → u.tile t = s.tile t) ∧ (∀ n, u.part n = s.part n) ∧ u.out = s.out

theorem programmed_nil (s : State) (image : List Byte) : s.Programmed image [] s :=
  ⟨fun _ h => absurd h List.not_mem_nil, fun _ _ _ => rfl, fun _ _ => rfl, fun _ => rfl, rfl⟩

theorem programmed_putFirmware {l : List Nat} (h : s.Programmed image l u) (t : Nat) :
    s.Programmed image (l ++ [t]) (u.putFirmware image t) := by
  obtain ⟨hin, hbeyond, hout, hpart, ho⟩ := h
  obtain ⟨e, w, c, d, hu⟩ := putFirmware_frame u image t
  rw [hu]
  refine ⟨fun m hm => ?_, fun m b hb => ?_, fun m hm => ?_, hpart, ho⟩
  · by_cases hmt : m = t
    · subst hmt
      rw [tile_setTile]
      exact ⟨readN_writeN_same _ 0 image, rfl⟩
    · rw [tile_setTile_ne _ _ hmt]
      exact hin m ((List.mem_append.1 hm).resolve_right fun h => hmt (List.mem_singleton.1 h))
  · by_cases hmt : m = t
    · subst hmt
      rw [tile_setTile]
      exact (read_writeN_out _ 0 b image (.inr (by omega))).trans (hbeyond m b hb)
    · rw [tile_setTile_ne _ _ hmt]
      exact hbeyond m b hb
  · simp only [List.mem_append, List.mem_singleton, not_or] at hm
    rw [tile_setTile_ne _ _ hm.2]
    exact hout m hm.1

theorem programmed_foldl {l : List Nat} (h : s.Programmed image l u) (ts : List Nat) :
    s.Programmed image (l ++ ts) (ts.foldl (fun s t => s.putFirmware image t) u) := by
  induction ts generalizing l u with
  | nil => rwa [List.append_nil]
  | cons t ts ih => simpa using ih (programmed_putFirmware h t)

/-- The partitions of a set in turn: programming leaves their lists of retired tiles alone. -/
theorem programmed_parts {l : List Nat} (h : s.Programmed image l u) (ns : List Nat) :
    s.Programmed image (l ++ ns.flatMap s.liveTiles)
      (ns.foldl (fun s n => (s.liveTiles n).foldl (fun s t => s.putFirmware image t) s) u) := by
  induction ns generalizing l u with
  | nil => rwa [List.flatMap_nil, List.append_nil]
  | cons n ns ih =>
    have hlive : u.liveTiles n = s.liveTiles n := by
      obtain ⟨-, -, -, hpart, -⟩ := h
      rw [State.liveTiles, hpart, State.liveTiles]
    rw [List.flatMap_cons, ← List.append_assoc, ← hlive]
    exact ih (programmed_foldl h _)

theorem mem_liveTiles {n t : Nat} : t ∈ s.liveTiles n ↔ ∃ x < 72, x ∉ (s.part n).retired ∧ 72 * n + x = t := by
  simp only [State.liveTiles, List.mem_filterMap, List.mem_range, List.contains_iff_mem]
  refine exists_congr fun x => and_congr_right fun _ => ?_
  split <;> simp_all

theorem mem_psetList {m : BitVec 12} {n : Nat} : n ∈ psetList m ↔ n < 12 ∧ m.getLsbD n = true := by
  simp [psetList, maskList, BitVec.getLsbD]

/-- A tile is programmed by a broadcast where its partition is named and it is not retired. -/
theorem mem_broadcastTiles {mask : BitVec 12} {n x : Nat} (hn : n < 12) (hx : x < 72) :
    72 * n + x ∈ (psetList mask).flatMap s.liveTiles ↔ mask.getLsbD n = true ∧ x ∉ (s.part n).retired := by
  simp only [List.mem_flatMap, mem_psetList, mem_liveTiles]
  constructor
  · rintro ⟨n', ⟨-, hm⟩, x', hx', hr, e⟩
    obtain ⟨rfl, rfl⟩ : n' = n ∧ x' = x := by omega
    exact ⟨hm, hr⟩
  · rintro ⟨hm, hr⟩
    exact ⟨n, ⟨hn, hm⟩, x, hx, hr, rfl⟩

theorem exec_firmwareBroadcast {mask : BitVec 12} (hr : s.railsOn = true) (hl : image.length = 32768) :
    ∃ v, s.Programmed image ((psetList mask).flatMap s.liveTiles) v ∧ exec (.firmwareBroadcast mask image) s =
      .next { v with fwImage := image, out := s.out ++ [Claims.castTo mask.toNat (.firmware image)] } := by
  have hv := programmed_parts (programmed_nil s image) (psetList mask)
  rw [List.nil_append] at hv
  refine ⟨_, hv, ?_⟩
  obtain ⟨-, -, -, -, ho⟩ := hv
  show execFirmwareBroadcast mask image s = _
  rw [execFirmwareBroadcast, if_neg (show ¬ image.length ≠ progBase from not_not.2 hl), hr, ← ho]
  rfl

end

section

variable {s : State} {n : PartNo} {i : Fin 72}

/-- What a CRC check asks for: the rails, an image and a tile that is not retired. -/
def State.mayCheck (s : State) (n : PartNo) (i : Fin 72) : Prop :=
  s.railsOn = true ∧ s.fwImage ≠ [] ∧ i.val ∉ (s.part n.val).retired

/-- The CRC-32C of a tile's firmware region. -/
def Tile.crcFound (x : Tile) : BitVec 32 := crc32c (x.scratch.readN 0 progBase)

theorem exec_firmwareCrcCheck (hc : s.mayCheck n i) : exec (.firmwareCrcCheck n i) s = .next (
    let t := 72 * n.val + i.val
    let x := s.tile t
    if x.crcFound = x.fwCrc then s.setTile t { x with fwTry := 0 }
    else if 1 ≤ x.fwTry then s.setTile t { x with fwTry := x.fwTry + 1, marked := true }
    else (s.putFirmware s.fwImage t).setTile t { (s.putFirmware s.fwImage t).tile t with fwTry := 1 }) := by
  obtain ⟨hr, hi, hn⟩ := hc
  have hgo : (!s.railsOn || s.fwImage.isEmpty || (s.part n.val).retired.contains i.val) = false := by simp [hr, hi, hn]
  show execFirmwareCrcCheck n i s = _
  simp only [execFirmwareCrcCheck, hgo, Bool.false_eq_true, if_false, Tile.crcFound]

/-- A tile that differs for the first time is sent the image again. -/
theorem exec_firmwareCrcCheck_again (hc : s.mayCheck n i)
    (hd : (s.tile (72 * n.val + i.val)).crcFound ≠ (s.tile (72 * n.val + i.val)).fwCrc)
    (h0 : (s.tile (72 * n.val + i.val)).fwTry = 0) :
    let t := 72 * n.val + i.val
    ∃ u, exec (.firmwareCrcCheck n i) s = .next u ∧ (u.tile t).scratch.readN 0 s.fwImage.length = s.fwImage ∧ (u.tile t).fwTry = 1 ∧
      (u.tile t).marked = (s.tile t).marked ∧ ∀ m, m ≠ t → u.tile m = s.tile m := by
  intro t
  obtain ⟨e, w, c, d, hu⟩ := putFirmware_frame s s.fwImage t
  refine ⟨_, (exec_firmwareCrcCheck hc).trans (by rw [if_neg hd, if_neg (by omega)]), ?_⟩
  rw [hu, tile_setTile, setTile_setTile, tile_setTile]
  exact ⟨readN_writeN_same _ 0 _, rfl, rfl, fun m hm => tile_setTile_ne _ _ hm⟩

end

/-- Settles O21: broadcasts, then CRC checks, then resent flits. -/
theorem broadcastAndSeams : Obligations.BroadcastAndSeams := by
  intro s hr
  refine ⟨fun mask image hl => ?_, fun n i hn hi => ?_, fun east q hup => ?_⟩
  · obtain ⟨v, ⟨hin, hbeyond, hout, -, -⟩, hexec⟩ := exec_firmwareBroadcast (mask := mask) hr hl
    rw [hl] at hin hbeyond
    refine ⟨_, hexec, fun n x hn hm hx hx' => hin _ ((mem_broadcastTiles hn hx).2 ⟨hm, hx'⟩), hbeyond, fun n x hn hx h => ?_,
      rfl, rfl⟩
    refine hout _ fun hmem => ?_
    obtain ⟨hm, hx'⟩ := (mem_broadcastTiles hn hx).1 hmem
    exact h.elim (fun h => Bool.false_ne_true (h.symm.trans hm)) hx'
  · have hc : s.mayCheck n i := ⟨hr, hi, hn⟩
    intro t x crc
    refine ⟨fun h => ?_, exec_firmwareCrcCheck_again hc, fun h h1 => ?_⟩
    · exact (exec_firmwareCrcCheck hc).trans (congrArg _ (if_pos h))
    · exact (exec_firmwareCrcCheck hc).trans (congrArg _ ((if_neg h).trans (if_pos h1)))
  · refine ⟨exec_seamResend_good hr hup, exec_seamResend_failed hr hup, fun h8 => ?_⟩
    refine ⟨_, exec_seamResend_lost hr hup (by simp only [seamKey, h8]; decide), ?_⟩
    rw [router_fence, router_partEvent]
    refine ⟨?_, fun e p hp => seamUp_seamDown _ east e q.val hp⟩
    cases east <;> rfl

end Sys2Proof.Machine

namespace Sys2Proof.Machine

/-! ## The armature record (05 R144, R146, R149, R150)

A record maps every physical index once: its logical map and its spares together are a rearrangement of the 72 indices. A move swaps one
tile of the map with one spare, so a rotation, move by move, keeps that. -/

/-- The record maps 70 logical indices, and they and the spares name the 72 physical indices, each once (R144). -/
def Armature.Maps (a : Armature) : Prop := a.lmap.length = 70 ∧ (a.lmap ++ a.spares.map (·.1)).Perm (List.range 72)

theorem Armature.Maps.nodup_spares {a : Armature} (h : a.Maps) : (a.spares.map (·.1)).Nodup := by
  obtain ⟨-, hperm⟩ := h
  exact (hperm.nodup_iff.2 List.nodup_range).of_append_right

/-- The two spares in ascending order, as R144 lists them. -/
def orderSpares (l : List (Nat × Bool)) : List (Nat × Bool) :=
  match l with
  | [a, b] => if b.1 < a.1 then [b, a] else [a, b]
  | l => l

theorem perm_orderSpares (l : List (Nat × Bool)) : (orderSpares l).Perm l := by
  unfold orderSpares
  split
  · split
    · exact .swap ..
    · exact .refl _
  · exact .refl _

/-! ### Building a record (R146) -/

section

variable {retired : List Nat} {epoch : BitVec 16} {a : Armature}

/-- The retired physical indices, and the others. -/
def retiredIdx (retired : List Nat) : List Nat := (List.range 72).filter retired.contains
def liveIdx (retired : List Nat) : List Nat := (List.range 72).filter (fun x => !(retiredIdx retired).contains x)

/-- The live tiles of the highest indices, as many as it takes to have two spares. -/
def extraIdx (retired : List Nat) : List Nat :=
  (liveIdx retired).drop ((liveIdx retired).length - (2 - (retiredIdx retired).length))

theorem buildArm_eq (h : buildArm retired epoch = some a) : (retiredIdx retired).length ≤ 2 ∧
    a = { lmap := (liveIdx retired).filter (fun x => !(extraIdx retired).contains x)
          spares := orderSpares ((retiredIdx retired).map (·, true) ++ (extraIdx retired).map (·, false))
          epoch := epoch } := by
  by_cases hr : 2 < (retiredIdx retired).length
  · cases (if_pos hr).symm.trans h
  · exact ⟨by omega, (Option.some.inj ((if_neg hr).symm.trans h)).symm⟩

theorem mem_retiredIdx {x : Nat} : x ∈ retiredIdx retired ↔ x < 72 ∧ x ∈ retired := by simp [retiredIdx]

theorem mem_liveIdx {x : Nat} : x ∈ liveIdx retired ↔ x < 72 ∧ x ∉ retired := by
  have hlive : x ∈ liveIdx retired ↔ x < 72 ∧ x ∉ retiredIdx retired := by simp [liveIdx]
  rw [hlive, mem_retiredIdx]
  tauto

theorem extraIdx_sublist (retired : List Nat) : (extraIdx retired).Sublist (liveIdx retired) := List.drop_sublist ..

theorem nodup_retiredIdx (retired : List Nat) : (retiredIdx retired).Nodup := List.nodup_range.filter _

theorem nodup_liveIdx (retired : List Nat) : (liveIdx retired).Nodup := List.nodup_range.filter _

/-- Every index is retired or live. -/
theorem length_liveIdx (retired : List Nat) : (retiredIdx retired).length + (liveIdx retired).length = 72 := by
  have hperm : (retiredIdx retired ++ liveIdx retired).Perm (List.range 72) := by
    refine (List.perm_ext_iff_of_nodup ((nodup_retiredIdx _).append (nodup_liveIdx _) ?_) List.nodup_range).2 fun x => ?_
    · exact fun x hr hl => (mem_liveIdx.1 hl).2 (mem_retiredIdx.1 hr).2
    · simp only [List.mem_append, mem_retiredIdx, mem_liveIdx, List.mem_range]
      tauto
  simpa using hperm.length_eq

theorem perm_spares (h : buildArm retired epoch = some a) :
    (a.spares.map (·.1)).Perm (retiredIdx retired ++ extraIdx retired) := by
  obtain ⟨-, rfl⟩ := buildArm_eq h
  exact ((perm_orderSpares _).map _).trans (.of_eq (by simp [Function.comp_def]))

theorem mem_lmap (h : buildArm retired epoch = some a) {x : Nat} : x ∈ a.lmap ↔ x ∈ liveIdx retired ∧ x ∉ extraIdx retired := by
  obtain ⟨-, rfl⟩ := buildArm_eq h
  simp

/-- The built record numbers its tiles in ascending order. -/
theorem lmap_ascending (h : buildArm retired epoch = some a) : a.lmap.Pairwise (· < ·) := by
  obtain ⟨-, rfl⟩ := buildArm_eq h
  exact (List.pairwise_lt_range.filter _).filter _

/-- A retired tile is a spare marked as retired. -/
theorem retired_mem_spares (h : buildArm retired epoch = some a) {x : Nat} (hx : x < 72) (hr : x ∈ retired) : (x, true) ∈ a.spares := by
  obtain ⟨-, rfl⟩ := buildArm_eq h
  exact (perm_orderSpares _).mem_iff.2 (List.mem_append_left _ (List.mem_map_of_mem (mem_retiredIdx.2 ⟨hx, hr⟩)))

theorem maps_buildArm (h : buildArm retired epoch = some a) : a.Maps := by
  have hspares := perm_spares h
  have hdisj : (retiredIdx retired).Disjoint (extraIdx retired) := fun x hr he =>
    (mem_liveIdx.1 ((extraIdx_sublist _).mem he)).2 (mem_retiredIdx.1 hr).2
  have hnodup : (a.lmap ++ a.spares.map (·.1)).Nodup := by
    refine List.Nodup.append (lmap_ascending h).nodup (hspares.nodup_iff.2 ?_) fun x hl hs => ?_
    · exact (nodup_retiredIdx _).append ((nodup_liveIdx _).sublist (extraIdx_sublist _)) hdisj
    · obtain ⟨hlive, hex⟩ := (mem_lmap h).1 hl
      rcases List.mem_append.1 (hspares.mem_iff.1 hs) with hr | he
      · exact (mem_liveIdx.1 hlive).2 (mem_retiredIdx.1 hr).2
      · exact hex he
  have hperm : (a.lmap ++ a.spares.map (·.1)).Perm (List.range 72) := by
    refine (List.perm_ext_iff_of_nodup hnodup List.nodup_range).2 fun x => ?_
    have hex : x ∈ extraIdx retired → x ∈ liveIdx retired := (extraIdx_sublist _).mem
    simp only [List.mem_append, hspares.mem_iff, mem_lmap h, mem_retiredIdx, mem_liveIdx, List.mem_range] at hex ⊢
    tauto
  refine ⟨?_, hperm⟩
  obtain ⟨h2, -⟩ := buildArm_eq h
  have htotal := hperm.length_eq
  have hlen := hspares.length_eq
  have hlive := length_liveIdx retired
  simp only [List.length_append, List.length_range, extraIdx, List.length_drop] at htotal hlen
  omega

end

/-! ### The moves of a record (R150 steps 5 and 6) -/

section

variable {a : Armature}

/-- One move: the logical index goes to the spare, and the tile that held it becomes the spare. -/
def Armature.move (a : Armature) (m : Nat × Nat × Nat) : Armature :=
  { a with lmap := a.lmap.set m.1 m.2.2, spares := orderSpares (a.spares.map (fun x => if x.1 == m.2.2 then (m.2.1, x.2) else x)) }

theorem moved_eq (a : Armature) (ms : List (Nat × Nat × Nat)) :
    a.moved ms = ms.foldl Armature.move { a with epoch := a.epoch + 1 } := rfl

/-- The moves take different logical indices of the record from the tiles that they have, to different spares. -/
def Armature.Admits (a : Armature) (ms : List (Nat × Nat × Nat)) : Prop :=
  (ms.map (·.1)).Nodup ∧ (ms.map (·.2.2)).Nodup ∧ ∀ m ∈ ms, a.lmap[m.1]? = some m.2.1 ∧ m.2.2 ∈ a.spares.map (·.1)

/-- Replacing one element of a list without repetitions. -/
theorem map_replace_perm {l : List Nat} {x y : Nat} (hl : l.Nodup) (hy : y ∈ l) :
    (l.map (fun k => if k == y then x else k)).Perm (x :: l.erase y) := by
  have hrest : (l.erase y).map (fun k => if k == y then x else k) = l.erase y := by
    refine (List.map_congr_left fun k hk => ?_).trans (List.map_id' _)
    exact if_neg fun he => (hl.mem_erase_iff.1 hk).1 (beq_iff_eq.1 he)
  have hmap := (List.perm_cons_erase hy).map (fun k => if k == y then x else k)
  rwa [List.map_cons, hrest, if_pos BEq.rfl] at hmap

theorem spares_move (a : Armature) (m : Nat × Nat × Nat) :
    ((a.move m).spares.map (·.1)).Perm ((a.spares.map (·.1)).map (fun k => if k == m.2.2 then m.2.1 else k)) := by
  refine ((perm_orderSpares _).map _).trans (.of_eq ?_)
  rw [List.map_map, List.map_map]
  exact List.map_congr_left fun k _ => apply_ite Prod.fst _ _ _

/-- A move swaps a tile of the map with a spare. -/
theorem maps_move {m : Nat × Nat × Nat} {ms : List (Nat × Nat × Nat)} (ha : a.Maps) (h : a.Admits (m :: ms)) : (a.move m).Maps := by
  obtain ⟨-, -, hall⟩ := h
  obtain ⟨hm, hs⟩ := hall m List.mem_cons_self
  have hnodup := ha.nodup_spares
  obtain ⟨hlen, hperm⟩ := ha
  obtain ⟨hi, hx⟩ := List.getElem?_eq_some_iff.1 hm
  refine ⟨(List.length_set ..).trans hlen, .trans ?_ hperm⟩
  have hmap := List.set_perm_cons_eraseIdx hi m.2.2
  have hold : (m.2.1 :: a.lmap.eraseIdx m.1).Perm a.lmap := hx ▸ List.getElem_cons_eraseIdx_perm hi
  have hspares := (spares_move a m).trans (map_replace_perm (x := m.2.1) hnodup hs)
  have hspare := List.perm_cons_erase hs
  calc List.Perm ((a.move m).lmap ++ (a.move m).spares.map (·.1))
        ((m.2.2 :: a.lmap.eraseIdx m.1) ++ (m.2.1 :: (a.spares.map (·.1)).erase m.2.2)) := hmap.append hspares
    List.Perm _ (m.2.2 :: m.2.1 :: (a.lmap.eraseIdx m.1 ++ (a.spares.map (·.1)).erase m.2.2)) := .cons _ List.perm_middle
    List.Perm _ (m.2.1 :: m.2.2 :: (a.lmap.eraseIdx m.1 ++ (a.spares.map (·.1)).erase m.2.2)) := .swap ..
    List.Perm _ ((m.2.1 :: a.lmap.eraseIdx m.1) ++ (m.2.2 :: (a.spares.map (·.1)).erase m.2.2)) := .cons _ List.perm_middle.symm
    List.Perm _ (a.lmap ++ a.spares.map (·.1)) := hold.append hspare.symm

theorem admits_move {m : Nat × Nat × Nat} {ms : List (Nat × Nat × Nat)} (h : a.Admits (m :: ms)) : (a.move m).Admits ms := by
  obtain ⟨hidx, hto, hall⟩ := h
  obtain ⟨hi, hidx⟩ := List.nodup_cons.1 hidx
  obtain ⟨ht, hto⟩ := List.nodup_cons.1 hto
  refine ⟨hidx, hto, fun k hk => ?_⟩
  obtain ⟨hl, hs⟩ := hall k (List.mem_cons_of_mem _ hk)
  refine ⟨?_, (spares_move a m).mem_iff.2 (List.mem_map.2 ⟨k.2.2, hs, if_neg fun he => ?_⟩)⟩
  · rw [← hl]
    exact List.getElem?_set_ne fun he => hi (List.mem_map.2 ⟨k, hk, he.symm⟩)
  · exact ht (List.mem_map.2 ⟨k, hk, beq_iff_eq.1 he⟩)

theorem moves_keep_index {ms : List (Nat × Nat × Nat)} {i : Nat} (hi : i ∉ ms.map (·.1)) :
    (ms.foldl Armature.move a).lmap[i]? = a.lmap[i]? := by
  induction ms generalizing a with
  | nil => rfl
  | cons m ms ih =>
    simp only [List.map_cons, List.mem_cons, not_or] at hi
    exact (ih hi.2).trans (List.getElem?_set_ne (Ne.symm hi.1))

/-- A rotation's moves keep every physical index named once, and each puts its logical index on its spare. -/
theorem maps_moves {ms : List (Nat × Nat × Nat)} (ha : a.Maps) (h : a.Admits ms) :
    (ms.foldl Armature.move a).Maps ∧ ∀ m ∈ ms, (ms.foldl Armature.move a).lmap[m.1]? = some m.2.2 := by
  induction ms generalizing a with
  | nil => exact ⟨ha, fun _ hm => absurd hm List.not_mem_nil⟩
  | cons m ms ih =>
    obtain ⟨hmaps, hput⟩ := ih (maps_move ha h) (admits_move h)
    obtain ⟨hidx, -, hall⟩ := h
    obtain ⟨hl, -⟩ := hall m List.mem_cons_self
    refine ⟨hmaps, fun k hk => ?_⟩
    rcases List.mem_cons.1 hk with rfl | hk
    · obtain ⟨hi, -⟩ := List.getElem?_eq_some_iff.1 hl
      exact (moves_keep_index (List.nodup_cons.1 hidx).1).trans (List.getElem?_set_self hi)
    · exact hput k hk

theorem epoch_moves (ms : List (Nat × Nat × Nat)) : (ms.foldl Armature.move a).epoch = a.epoch :=
  List.foldlRecOn (motive := fun b : Armature => b.epoch = a.epoch) ms Armature.move rfl fun _ h _ _ => h

theorem epoch_moved (a : Armature) (ms : List (Nat × Nat × Nat)) : (a.moved ms).epoch = a.epoch + 1 := epoch_moves ms

end

/-! ### The choice of the moves (R149) -/

section

variable {p : Part} {a : Armature} {taken : List Nat}

/-- Tile `x` does not come before tile `y` in the choice of the hottest: a lower score, or the same and no lower index. -/
def Part.NotBefore (p : Part) (x y : Nat) : Prop :=
  SMap.get 0 p.heat x < SMap.get 0 p.heat y ∨ (SMap.get 0 p.heat x = SMap.get 0 p.heat y ∧ y ≤ x)

/-- The better of the choice so far and one more candidate (logical index, tile). -/
def hotter (p : Part) (taken : List Nat) (m : Option (Nat × Nat)) (c : Nat × Nat) : Option (Nat × Nat) :=
  if taken.contains c.2 then m else
  match m with
  | none => some c
  | some b =>
    let hc := SMap.get 0 p.heat c.2
    let hb := SMap.get 0 p.heat b.2
    if hb < hc ∨ (hb = hc ∧ c.2 < b.2) then some c else some b

theorem hottest_eq (p : Part) (a : Armature) (taken : List Nat) :
    hottest p a taken = (a.lmap.mapIdx (fun i x => (i, x))).foldl (hotter p taken) none := rfl

/-- `m` is the best of the candidates of `l` that are not taken. -/
def Part.Best (p : Part) (taken : List Nat) (l : List (Nat × Nat)) (m : Option (Nat × Nat)) : Prop :=
  match m with
  | none => ∀ c ∈ l, c.2 ∈ taken
  | some b => b ∈ l ∧ b.2 ∉ taken ∧ ∀ c ∈ l, c.2 ∉ taken → p.NotBefore c.2 b.2

theorem best_hotter {l : List (Nat × Nat)} {m : Option (Nat × Nat)} (h : p.Best taken l m) (c : Nat × Nat) :
    p.Best taken (l ++ [c]) (hotter p taken m c) := by
  unfold hotter
  by_cases hc : c.2 ∈ taken
  · rw [if_pos (List.contains_iff_mem.2 hc)]
    cases m with
    | none =>
      intro k hk
      rcases List.mem_append.1 hk with hk | hk
      · exact h k hk
      · exact List.mem_singleton.1 hk ▸ hc
    | some b =>
      obtain ⟨hb, ht, hall⟩ := h
      refine ⟨List.mem_append_left _ hb, ht, fun k hk hkt => ?_⟩
      rcases List.mem_append.1 hk with hk | hk
      · exact hall k hk hkt
      · cases List.mem_singleton.1 hk
        exact absurd hc hkt
  · rw [if_neg (mt List.contains_iff_mem.1 hc)]
    cases m with
    | none =>
      refine ⟨List.mem_append_right _ List.mem_cons_self, hc, fun k hk hkt => ?_⟩
      rcases List.mem_append.1 hk with hk | hk
      · exact absurd (h k hk) hkt
      · cases List.mem_singleton.1 hk
        exact .inr ⟨rfl, Nat.le_refl _⟩
    | some b =>
      obtain ⟨hb, ht, hall⟩ := h
      dsimp only
      split
      next hlt =>
        refine ⟨List.mem_append_right _ List.mem_cons_self, hc, fun k hk hkt => ?_⟩
        rcases List.mem_append.1 hk with hk | hk
        · have := hall k hk hkt
          unfold Part.NotBefore at this ⊢
          omega
        · cases List.mem_singleton.1 hk
          exact .inr ⟨rfl, Nat.le_refl _⟩
      next hge =>
        refine ⟨List.mem_append_left _ hb, ht, fun k hk hkt => ?_⟩
        rcases List.mem_append.1 hk with hk | hk
        · exact hall k hk hkt
        · cases List.mem_singleton.1 hk
          unfold Part.NotBefore
          omega

theorem best_hottest (p : Part) (a : Armature) (taken : List Nat) :
    p.Best taken (a.lmap.mapIdx (fun i x => (i, x))) (hottest p a taken) := by
  rw [hottest_eq]
  generalize a.lmap.mapIdx (fun i x => (i, x)) = l
  induction l using List.reverseRecOn with
  | nil => exact fun _ hc => absurd hc List.not_mem_nil
  | append_singleton l c ih =>
    rw [List.foldl_append]
    exact best_hotter ih c

/-- The hottest tile is in service at its logical index, is not taken, and no free tile comes before it. -/
theorem hottest_some {i x : Nat} (h : hottest p a taken = some (i, x)) :
    a.lmap[i]? = some x ∧ x ∉ taken ∧ ∀ y ∈ a.lmap, y ∉ taken → p.NotBefore y x := by
  have hbest := best_hottest p a taken
  rw [h] at hbest
  obtain ⟨hmem, ht, hall⟩ := hbest
  obtain ⟨j, hj, he⟩ := List.mem_mapIdx.1 hmem
  obtain ⟨rfl, rfl⟩ := Prod.mk.inj he
  refine ⟨List.getElem?_eq_getElem hj, ht, fun y hy hyt => ?_⟩
  obtain ⟨k, hk, rfl⟩ := List.getElem_of_mem hy
  exact hall (k, a.lmap[k]) (List.mem_mapIdx.2 ⟨k, hk, rfl⟩) hyt

/-- One more spare: the hottest tile that no earlier move takes goes to it. -/
def addMove (p : Part) (a : Armature) (l : List (Nat × Nat × Nat)) (sp : Nat) : List (Nat × Nat × Nat) :=
  match hottest p a (l.map (fun m => m.2.1)) with
  | some (i, x) => l ++ [(i, x, sp)]
  | none => l

theorem movesOf_eq (p : Part) (a : Armature) : movesOf p a = a.freeSpares.foldl (addMove p a) [] := rfl

/-- What holds of the moves to the spares of `sps`: each takes a tile in service, no tile twice, to spares in their order; and the first
takes the hottest of all. -/
def Armature.Chosen (a : Armature) (p : Part) (sps : List Nat) (ms : List (Nat × Nat × Nat)) : Prop :=
  (∀ m ∈ ms, a.lmap[m.1]? = some m.2.1) ∧ (ms.map (·.2.1)).Nodup ∧ (ms.map (·.2.2)).Sublist sps ∧
    ∀ m, ms.head? = some m → hottest p a [] = some (m.1, m.2.1)

theorem chosen_addMove {sps : List Nat} {ms : List (Nat × Nat × Nat)} (h : a.Chosen p sps ms) (sp : Nat) :
    a.Chosen p (sps ++ [sp]) (addMove p a ms sp) := by
  obtain ⟨hat, hnodup, hsub, hhead⟩ := h
  unfold addMove
  split
  next i x hx =>
    obtain ⟨hl, ht, -⟩ := hottest_some hx
    refine ⟨fun m hm => ?_, ?_, ?_, fun m hm => ?_⟩
    · rcases List.mem_append.1 hm with hm | hm
      · exact hat m hm
      · cases List.mem_singleton.1 hm
        exact hl
    · rw [List.map_append]
      exact hnodup.append (List.nodup_singleton _) fun y hy hy' =>
        ht ((List.mem_singleton.1 hy').subst (motive := (· ∈ ms.map (·.2.1))) hy)
    · rw [List.map_append]
      exact hsub.append (.refl _)
    · cases ms with
      | nil =>
        cases hm
        exact hx
      | cons k ms => exact hhead m hm
  next => exact ⟨hat, hnodup, hsub.trans (List.sublist_append_left ..), hhead⟩

theorem chosen_movesOf (p : Part) (a : Armature) : a.Chosen p a.freeSpares (movesOf p a) := by
  rw [movesOf_eq]
  generalize a.freeSpares = sps
  induction sps using List.reverseRecOn with
  | nil => exact ⟨fun _ h => absurd h List.not_mem_nil, .nil, .slnil, fun _ h => nomatch h⟩
  | append_singleton l sp ih =>
    rw [List.foldl_append]
    exact chosen_addMove ih sp

theorem mem_freeSpares {y : Nat} (h : y ∈ a.freeSpares) : (y, false) ∈ a.spares := by
  obtain ⟨⟨y', r⟩, hm, rfl⟩ := List.mem_map.1 h
  obtain ⟨hm, hr⟩ := List.mem_filter.1 hm
  cases r
  · exact hm
  · cases hr

theorem getD_of_getElem? {l : List Nat} {i x d : Nat} (h : l[i]? = some x) : l.getD i d = x := by
  rw [List.getD_eq_getElem?_getD, h, Option.getD_some]

/-- The record admits the moves of its rotation. -/
theorem admits_movesOf (ha : a.Maps) (p : Part) : a.Admits (movesOf p a) := by
  obtain ⟨hat, hnodup, hsub, -⟩ := chosen_movesOf p a
  have hfree : a.freeSpares.Sublist (a.spares.map (·.1)) := List.filter_sublist.map _
  refine ⟨List.Nodup.of_map (fun i => a.lmap.getD i 72) ?_, ha.nodup_spares.sublist (hsub.trans hfree), fun m hm =>
    ⟨hat m hm, hfree.mem (hsub.mem (List.mem_map_of_mem (f := (·.2.2)) hm))⟩⟩
  have htiles : (movesOf p a).map ((fun i => a.lmap.getD i 72) ∘ (·.1)) = (movesOf p a).map (·.2.1) :=
    List.map_congr_left fun m hm => getD_of_getElem? (hat m hm)
  rwa [List.map_map, htiles]

end

theorem armatureRecords_holds : Claims.armatureRecords := by
  intro retired epoch a p h
  have ha := maps_buildArm h
  obtain ⟨hat, -, hsub, hhead⟩ := chosen_movesOf p a
  obtain ⟨⟨hlen', hperm'⟩, hput⟩ := maps_moves (a := { a with epoch := a.epoch + 1 }) ha (admits_movesOf ha p)
  obtain ⟨hlen, hperm⟩ := ha
  have hepoch : a.epoch = epoch := by
    obtain ⟨-, rfl⟩ := buildArm_eq h
    rfl
  refine ⟨hepoch, hlen, hperm, lmap_ascending h, fun x hx hr => retired_mem_spares h hx hr, ?_, fun m hm x hx => ?_⟩
  · refine ⟨(epoch_moved a _).trans (by rw [hepoch]), hlen', hperm', fun m hm => ?_⟩
    exact ⟨getD_of_getElem? (hat m hm), getD_of_getElem? (hput m hm),
      mem_freeSpares (hsub.mem (List.mem_map_of_mem (f := (·.2.2)) hm))⟩
  · obtain ⟨-, -, hall⟩ := hottest_some (hhead m hm)
    exact hall x hx List.not_mem_nil

end Sys2Proof.Machine

namespace Sys2Proof.Machine

/-! ## A rotation, step by step (05 R148 to R152) -/

section

variable {s : State} {n : PartNo} {a : Armature} {r : RotState}

/-! ### ROTATION: the hold, and the markers it waits for -/

/-- What a rotation needs in order to start (R148). -/
def State.mayRotate (s : State) (n : PartNo) (a : Armature) : Prop :=
  let p := s.part n.val
  (s.railsOn = true ∧ p.psw.state = .idle ∧ p.becameIdle = true ∧ p.jobs = []) ∧
    s.armCfg.testBit 0 = true ∧ p.rotLast + max 1 (s.armCfg / 256 % 65536) * 1600000 ≤ s.now ∧
    a.freeSpares ≠ [] ∧ ∃ m ∈ movesOf p a, SMap.get 0 p.heat m.2.1 ≠ 0

/-- The markers of R151: to each moving tile, from every tile port, and from the partition port on each channel it has used. -/
def State.rotationMarkers (s : State) (n : PartNo) (ms : List (Nat × Nat × Nat)) : List (Nat × Option Nat × Nat) :=
  ms.flatMap (fun m => (s.logicalTiles.map (fun t => (72 * n.val + m.2.1, some t, 0))) ++
    (maskList (SMap.get 0 (s.part n.val).portUsed m.2.1) 4).map (fun c => (72 * n.val + m.2.1, none, c)))

theorem tilePort_mem_markers {ms : List (Nat × Nat × Nat)} {m : Nat × Nat × Nat} (hm : m ∈ ms) {t : Nat} (ht : t ∈ s.logicalTiles) :
    (72 * n.val + m.2.1, some t, 0) ∈ s.rotationMarkers n ms :=
  List.mem_flatMap.2 ⟨m, hm, List.mem_append_left _ (List.mem_map.2 ⟨t, ht, rfl⟩)⟩

theorem partPort_mem_markers {ms : List (Nat × Nat × Nat)} {m : Nat × Nat × Nat} (hm : m ∈ ms) {c : Nat} (hc : c < 4)
    (hu : (SMap.get 0 (s.part n.val).portUsed m.2.1).testBit c = true) : (72 * n.val + m.2.1, none, c) ∈ s.rotationMarkers n ms :=
  List.mem_flatMap.2 ⟨m, hm, List.mem_append_right _ (List.mem_map.2 ⟨c, List.mem_filter.2 ⟨List.mem_range.2 hc, hu⟩, rfl⟩)⟩

/-- The rotation as it starts. -/
def State.rotationStarted (s : State) (n : PartNo) (a : Armature) : RotState :=
  let ms := movesOf (s.part n.val) a
  { moves := ms, markers := s.rotationMarkers n ms, step := 3, held := [], started := s.now }

/-- The rotation in its third step, with the hold broadcast. -/
def State.rotationHeld (s : State) (n : PartNo) (a : Armature) : State :=
  (s.setPart n.val { s.part n.val with rot := some (s.rotationStarted n a), rotLast := s.now, becameIdle := false }).cast 0xFFF
    (.hold (Claims.movingIds n.val (s.rotationStarted n a).moves))

theorem rotationHeld_part (s : State) (n : PartNo) (a : Armature) : (s.rotationHeld n a).part n.val =
    { s.part n.val with rot := some (s.rotationStarted n a), rotLast := s.now, becameIdle := false } := part_setPart s n.val _

theorem exec_rotation (ha : (s.part n.val).arm = some a) (hrot : (s.part n.val).rot = none) (hgo : s.mayRotate n a) :
    exec (.rotation n) s = .next (s.rotationHeld n a) := by
  obtain ⟨⟨hr, hidle, hbecame, hjobs⟩, hen, hleast, hfree, m, hm, hheat⟩ := hgo
  have htime : decide (s.now < (s.part n.val).rotLast + max 1 (bits s.armCfg 23 8) * fcPerMs) = false :=
    decide_eq_false (Nat.not_lt.2 hleast)
  have hhot : ((movesOf (s.part n.val) a).map (fun m => SMap.get 0 (s.part n.val).heat m.2.1)).all (· == 0) = false := by
    refine Bool.eq_false_iff.2 fun h => hheat ?_
    exact beq_iff_eq.1 (List.all_eq_true.1 h _ (List.mem_map.2 ⟨m, hm, rfl⟩))
  have hspare : a.freeSpares.isEmpty = false := by simp [hfree]
  show execRotation n s = _
  simp only [execRotation, State.rotationHeld, ha, hrot, hr, hidle, hbecame, hjobs, htime, hhot, hspare,
    show bitAt s.armCfg 0 = true from hen, bne_self_eq_false, List.isEmpty_nil, Bool.not_true, Bool.or_self, Bool.false_eq_true, if_false]
  rfl

/-! ### DRAIN_MARKER -/

/-- A marker with no packet of its sender before it is struck off; with the last one the copy begins. -/
theorem exec_drainMarker {t : TileNo} (ht : t.val / 72 = n.val) (hrot : (s.part n.val).rot = some r) (h3 : r.step = 3)
    (hlate : s.rotationLate r = false) {src : Option TileNo} {c : Fin 4}
    (hmesh : ∀ f ∈ s.mesh, ∀ x : TileNo, src = some x → f.lane ≠ (.tile x.val, .tile t.val, c.val)) :
    exec (.drainMarker t ⟨src, c⟩) s =
      let left := r.markers.filter (fun m => m != (t.val, src.map (·.val), c.val))
      .next (s.setPart n.val { s.part n.val with rot := some { r with markers := left, step := if left = [] then 4 else 3 } }) := by
  have hclear : (s.mesh.any fun f => src.any fun x => f.lane == (.tile x.val, .tile t.val, c.val)) = false := by
    refine List.any_eq_false.2 fun f hf h => ?_
    cases src with
    | none => exact Bool.false_ne_true h
    | some x => exact hmesh f hf x rfl (beq_iff_eq.1 h)
  show execDrainMarker t ⟨src, c⟩ s = _
  simp only [execDrainMarker, ht, hrot, h3, hlate, hclear, ne_eq, not_true_eq_false, decide_false, Bool.or_self, Bool.false_eq_true,
    if_false, List.isEmpty_iff]

/-! ### ROTATION_COPY_DONE -/

theorem spRead_state (s : State) (m off len : Nat) :
    ∃ c d, (s.spRead m off len).1 = (s.setTile m ((s.tile m).correct off len)).countSp c d := by
  unfold State.spRead
  dsimp only
  split <;> exact ⟨_, _, rfl⟩

/-- A copy leaves the spare with the moving tile's scratchpad, and no partition, no output and no other scratchpad changes. -/
theorem copyTile_copies (s : State) (k x y : Nat) :
    ((s.copyTile k x y).tile (72 * k + y)).scratch = (s.tile (72 * k + x)).scratch ∧
      (∀ m, m ≠ 72 * k + y → ((s.copyTile k x y).tile m).scratch = (s.tile m).scratch) ∧
      (∀ m, (s.copyTile k x y).part m = s.part m) ∧ (s.copyTile k x y).out = s.out := by
  obtain ⟨c, d, hread⟩ := spRead_state s (72 * k + x) 0 spadEnd
  let v := (s.spRead (72 * k + x) 0 spadEnd).1
  have hscratch (m : Nat) : (v.tile m).scratch = (s.tile m).scratch := by
    simp only [v, hread, tile_countSp]
    by_cases hm : m = 72 * k + x
    · rw [hm, tile_setTile]
      rfl
    · rw [tile_setTile_ne _ _ hm]
  have hcopy : s.copyTile k x y = v.setTile (72 * k + y) { v.tile (72 * k + y) with
      scratch := (v.tile (72 * k + x)).scratch, upsets := [], tenant := (v.tile (72 * k + x)).tenant,
      fwCrc := (v.tile (72 * k + x)).fwCrc } := rfl
  rw [hcopy]
  refine ⟨?_, fun m hm => ?_, fun m => ?_, ?_⟩
  · rw [tile_setTile]
    exact hscratch _
  · rw [tile_setTile_ne _ _ hm]
    exact hscratch m
  · simp only [part_setTile_keeps, v, hread, part_countSp]
  · simp only [setTile_out, v, hread]
    rfl

/-- The copies of a rotation in turn. -/
def State.copyTiles (s : State) (k : Nat) (ms : List (Nat × Nat × Nat)) : State := ms.foldl (fun s m => s.copyTile k m.2.1 m.2.2) s

theorem copyTiles_keeps (s : State) (k : Nat) (ms : List (Nat × Nat × Nat)) :
    (∀ t, (∀ m ∈ ms, t ≠ 72 * k + m.2.2) → ((s.copyTiles k ms).tile t).scratch = (s.tile t).scratch) ∧
      (∀ m, (s.copyTiles k ms).part m = s.part m) ∧ (s.copyTiles k ms).out = s.out := by
  induction ms generalizing s with
  | nil => exact ⟨fun _ _ => rfl, fun _ => rfl, rfl⟩
  | cons m ms ih =>
    obtain ⟨-, htile, hpart, hout⟩ := copyTile_copies s k m.2.1 m.2.2
    obtain ⟨ihtile, ihpart, ihout⟩ := ih (s.copyTile k m.2.1 m.2.2)
    refine ⟨fun t ht => ?_, fun i => (ihpart i).trans (hpart i), ihout.trans hout⟩
    exact (ihtile t fun j hj => ht j (List.mem_cons_of_mem _ hj)).trans (htile t (ht m List.mem_cons_self))

/-- Where no copy overwrites a tile that moves, or a spare twice, each spare ends with its moving tile's scratchpad. -/
theorem copyTiles_copies {ms : List (Nat × Nat × Nat)} (k : Nat) (hto : (ms.map (·.2.2)).Nodup)
    (hfrom : ∀ i ∈ ms, ∀ j ∈ ms, i.2.1 ≠ j.2.2) :
    ∀ m ∈ ms, ((s.copyTiles k ms).tile (72 * k + m.2.2)).scratch = (s.tile (72 * k + m.2.1)).scratch := by
  induction ms generalizing s with
  | nil => exact fun _ h => absurd h List.not_mem_nil
  | cons m ms ih =>
    obtain ⟨hcopy, hother, -, -⟩ := copyTile_copies s k m.2.1 m.2.2
    obtain ⟨hm, hto⟩ := List.nodup_cons.1 hto
    intro i hi
    rcases List.mem_cons.1 hi with rfl | hi
    · obtain ⟨hkeep, -, -⟩ := copyTiles_keeps (s.copyTile k i.2.1 i.2.2) k ms
      exact (hkeep _ fun j hj he => hm (List.mem_map.2 ⟨j, hj, (Nat.add_left_cancel he).symm⟩)).trans hcopy
    · have hne := hfrom i (List.mem_cons_of_mem _ hi) m List.mem_cons_self
      refine (ih (s := s.copyTile k m.2.1 m.2.2) hto (fun x hx y hy =>
        hfrom x (List.mem_cons_of_mem _ hx) y (List.mem_cons_of_mem _ hy)) i hi).trans (hother _ ?_)
      omega

@[simp] theorem tile_setArm (s : State) (k : Nat) (a : Armature) (t : Nat) : (s.setArm k a).tile t = s.tile t := rfl

theorem out_setArm (s : State) (k : Nat) (a : Armature) :
    (s.setArm k a).out = s.out ++ [Claims.castTo 0xFFF (.record k (a.bytes k))] := rfl

/-- The copies made, and the new record in force. -/
def State.rotationCopied (s : State) (n : PartNo) (a : Armature) (r : RotState) : State :=
  let u := (s.copyTiles n.val r.moves).setArm n.val (a.moved r.moves)
  u.setPart n.val { u.part n.val with rot := some { r with step := 5 } }

theorem exec_rotationCopyDone (hrot : (s.part n.val).rot = some r) (ha : (s.part n.val).arm = some a) (h4 : r.step = 4)
    (hlate : s.rotationLate r = false) (hbad : s.rotationBad n.val r = false) :
    exec (.rotationCopyDone n) s = .next (s.rotationCopied n a r) := by
  show execRotationCopyDone n s = _
  simp only [execRotationCopyDone, hrot, ha, h4, hlate, hbad, ne_eq, not_true_eq_false, decide_false, Bool.or_self, Bool.false_eq_true,
    if_false]
  rfl

theorem rotationCopied_records (s : State) (n : PartNo) (a : Armature) (r : RotState) :
    let u := s.rotationCopied n a r
    u.part n.val = { s.part n.val with
        arm := some (a.moved r.moves), epoch := (a.moved r.moves).epoch, rot := some { r with step := 5 } } ∧
      u.out = s.out ++ [Claims.castTo 0xFFF (.record n.val ((a.moved r.moves).bytes n.val))] ∧
      ∀ t, u.tile t = (s.copyTiles n.val r.moves).tile t := by
  obtain ⟨-, hpart, hout⟩ := copyTiles_keeps s n.val r.moves
  have hset : ((s.copyTiles n.val r.moves).setArm n.val (a.moved r.moves)).part n.val =
      { s.part n.val with arm := some (a.moved r.moves), epoch := (a.moved r.moves).epoch } := by
    rw [State.setArm, hpart]
    exact part_setPart (s.copyTiles n.val r.moves) n.val _
  refine ⟨?_, ?_, fun t => ?_⟩
  · rw [State.rotationCopied, part_setPart, hset]
  · rw [State.rotationCopied, setPart_out, out_setArm, hout]
  · rw [State.rotationCopied, tile_setPart_keeps, tile_setArm]

/-! ### The end of a rotation -/

/-- The release of the moving ids, broadcast to every partition. -/
def releaseCast (n : PartNo) (r : RotState) : Output := Claims.castTo 0xFFF (.release (Claims.movingIds n.val r.moves))

/-- A partition's new values, its event and a broadcast: the event reaches the Cleat alone. -/
theorem part_event_cast (s : State) (k e : Nat) (q : Part) (what : Cast) :
    let u := ((s.setPart k q).partEvent k e).cast 0xFFF what
    u.part k = q ∧ u.out = s.out ++ [Claims.castTo 0xFFF what] ∧ u.tiles = s.tiles := by
  obtain ⟨c, hc⟩ := raise_frame (s := s.setPart k q) (1025 + 8 * k + e)
  rw [State.partEvent, hc]
  exact ⟨part_setPart s k q, rfl, rfl⟩

theorem releaseRotation_ends (hrot : (s.part n.val).rot = some r) (hheld : r.held = []) :
    let u := s.releaseRotation n.val
    u.part n.val = { s.part n.val with rot := none, heat := [], rotations := satAdd (s.part n.val).rotations 1 0xFFFFFFFF } ∧
      u.out = s.out ++ [releaseCast n r] ∧ u.tiles = s.tiles := by
  simp only [State.releaseRotation, hrot, hheld, List.foldl_nil]
  exact part_event_cast ..

theorem abandonRotation_ends (hrot : (s.part n.val).rot = some r) (hheld : r.held = []) (cause : BitVec 8) :
    let u := s.abandonRotation n.val cause
    u.part n.val = { s.part n.val with rot := none, lastAbort := cause } ∧ u.out = s.out ++ [releaseCast n r] ∧ u.tiles = s.tiles := by
  simp only [State.abandonRotation, hrot, hheld, List.foldl_nil]
  exact part_event_cast ..

theorem exec_rotationRelease (hrot : (s.part n.val).rot = some r) (h5 : r.step = 5) (hf : (s.part n.val).fencesHeld = []) :
    exec (.rotationRelease n) s = .next ((s.releaseRotation n.val).setPart n.val
      { (s.releaseRotation n.val).part n.val with fencesHeld := [] }) := by
  show execRotationRelease n s = _
  simp only [execRotationRelease, hrot, h5, hf, ne_eq, not_true_eq_false, if_false, List.foldl_nil]

/-- The causes of R152 that need no held write: late markers, a double-bit word in the copy, or an order for the partition. -/
def State.abandonCause (s : State) (n : PartNo) (r : RotState) (cause : BitVec 3) : Prop :=
  cause = 1 ∧ r.step = 3 ∧ r.started + 16000 ≤ s.now ∨ cause = 3 ∧ r.step = 4 ∧ s.rotationBad n.val r = true ∨ cause = 4 ∧ r.step < 5

/-- The rotation is abandoned once the double-bit word, if it is that, has been counted. -/
theorem exec_rotationAbandon {cause : BitVec 3} (hrot : (s.part n.val).rot = some r) (hc : s.abandonCause n r cause) :
    ∃ v : State, exec (.rotationAbandon n cause) s = .next (v.abandonRotation n.val (cause.setWidth 8)) ∧
      v.part n.val = s.part n.val ∧ v.out = s.out ∧ v.tiles = s.tiles := by
  show ∃ v : State, execRotationAbandon n cause s = _ ∧ _
  rcases hc with ⟨rfl, h3, hlate⟩ | ⟨rfl, h4, hbad⟩ | ⟨rfl, h5⟩
  · exact ⟨s, by simp [execRotationAbandon, hrot, h3, hlate], rfl, rfl, rfl⟩
  · exact ⟨s.countSp 0 1, by simp [execRotationAbandon, hrot, h4, hbad], rfl, rfl, rfl⟩
  · exact ⟨s, by simp [execRotationAbandon, hrot, h5], rfl, rfl, rfl⟩

end

theorem rotationSteps_holds : Claims.rotationSteps := by
  intro s n a r p ha hr
  refine ⟨fun hrot hidle hbecame hen hjobs hleast hfree hheat => ?_, fun hrot => ⟨?_, ?_, ?_, ?_⟩⟩
  · refine ⟨_, s.rotationStarted n a, exec_rotation ha hrot ⟨⟨hr, hidle, hbecame, hjobs⟩, hen, hleast, hfree, hheat⟩, ?_⟩
    rw [rotationHeld_part]
    exact ⟨rfl, rfl, rfl, fun m hm t ht => tilePort_mem_markers hm ht, fun m hm c hc hu => partPort_mem_markers hm hc hu, rfl, rfl, rfl,
      rfl, ha, rfl⟩
  · intro t src c ht h3 hlate hmesh
    exact exec_drainMarker ht hrot h3 hlate hmesh
  · intro h4 hlate hbad hnodup
    obtain ⟨-, hto, hdisj⟩ := List.nodup_append.1 hnodup
    have hfrom : ∀ i ∈ r.moves, ∀ j ∈ r.moves, i.2.1 ≠ j.2.2 := fun i hi j hj =>
      hdisj _ (List.mem_map_of_mem (f := (·.2.1)) hi) _ (List.mem_map_of_mem (f := (·.2.2)) hj)
    obtain ⟨hkeep, -, -⟩ := copyTiles_keeps s n.val r.moves
    obtain ⟨hpart, hout, htile⟩ := rotationCopied_records s n a r
    refine ⟨_, exec_rotationCopyDone hrot ha h4 hlate hbad, ?_⟩
    rw [hpart]
    refine ⟨rfl, epoch_moved a _, rfl, hout, fun m hm => ?_⟩
    rw [htile, htile]
    exact ⟨copyTiles_copies n.val hto hfrom m hm, hkeep _ fun j hj he => hfrom m hm j hj (Nat.add_left_cancel he)⟩
  · intro h5 hheld hf
    obtain ⟨hpart, hout, htiles⟩ := releaseRotation_ends hrot hheld
    have hend := part_setPart (s.releaseRotation n.val) n.val { (s.releaseRotation n.val).part n.val with fencesHeld := [] }
    rw [hpart] at hend
    refine ⟨_, exec_rotationRelease hrot h5 hf, ?_⟩
    rw [hpart, hend, setPart_out, setPart_tiles, hout]
    exact ⟨rfl, rfl, List.mem_append_right _ List.mem_cons_self, rfl, ha, htiles⟩
  · intro cause hcause hheld
    obtain ⟨v, hexec, hp, -, ht⟩ := exec_rotationAbandon hrot hcause
    obtain ⟨hpart, hout, htiles⟩ := abandonRotation_ends (s := v) (n := n) (hp.symm ▸ hrot) hheld (cause.setWidth 8)
    refine ⟨_, hexec, ?_⟩
    rw [hpart, hp, hout]
    exact ⟨rfl, rfl, List.mem_append_right _ List.mem_cons_self, ha, rfl, htiles.trans ht⟩

/-- Settles O20: the record by its moves, each a swap, then the steps of a rotation. -/
theorem rotationsKeepMap : Obligations.RotationsKeepMap := ⟨armatureRecords_holds, rotationSteps_holds⟩

end Sys2Proof.Machine

namespace Sys2Proof.Machine

/-! ## Rings and descriptors (06 R161 to R184)

Entries, notices, messages and stops of rings reach the rings, the vectors, HIF_ERR, the Cleat and what leaves the package, and they
leave the counts of descriptors alone; a notice reaches an event ring that runs and no other. So a completion is what it does to the two
rings that it names, and then such work. -/

/-! ### The work of rings -/

section

variable {s u v : State}

/-- The counts that a completion moves (R173): the descriptors in flight, those completed, and the slots reserved. -/
def Ring.counts (g : Ring) : Nat × BitVec 32 × Nat := (g.inflight, g.completed, g.reserved)

/-- A ring as its stop leaves it (R164). -/
def Ring.halted (g : Ring) (err : Nat) : Ring := { g with err := BitVec.ofNat 8 err, stopped := true }

/-- `u` is `s` after work of the rings: entries, messages, stops. -/
structure State.RingWork (s u : State) : Prop where
  frame : u = { s with rings := u.rings, msix := u.msix, msixAt := u.msixAt, hifErr := u.hifErr, cleat := u.cleat, out := u.out }
  counts : ∀ r, (u.ring r).counts = (s.ring r).counts
  sent : s.out <+: u.out
  errs : ∀ b, s.hifErr.getLsbD b = true → u.hifErr.getLsbD b = true

theorem State.RingWork.refl (s : State) : s.RingWork s := ⟨rfl, fun _ => rfl, List.prefix_refl _, fun _ h => h⟩

theorem State.RingWork.trans (h : s.RingWork u) (h' : u.RingWork v) : s.RingWork v where
  frame := by
    rw [h'.frame, h.frame]
  counts r := (h'.counts r).trans (h.counts r)
  sent := h.sent.trans h'.sent
  errs b hb := h'.errs b (h.errs b hb)

theorem State.RingWork.reg (h : s.RingWork u) (off rst : Nat) : u.reg off rst = s.reg off rst := by
  rw [h.frame]
  rfl

theorem State.RingWork.descs (h : s.RingWork u) : u.descs = s.descs := by rw [h.frame]

theorem State.RingWork.tiles (h : s.RingWork u) : u.tiles = s.tiles := by rw [h.frame]

theorem State.RingWork.mem_out (h : s.RingWork u) {o : Output} (ho : o ∈ s.out) : o ∈ u.out := h.sent.subset ho

theorem ringWork_setRing (s : State) {r : Nat} {g : Ring} (h : g.counts = (s.ring r).counts) : s.RingWork (s.setRing r g) where
  frame := rfl
  counts q := by
    by_cases hq : q = r
    · rw [hq, ring_setRing, h]
    · rw [ring_setRing_ne _ _ hq]
  sent := List.prefix_refl _
  errs _ hb := hb

theorem ringWork_emit (s : State) (o : Output) : s.RingWork (s.emit o) :=
  ⟨rfl, fun _ => rfl, List.prefix_append _ _, fun _ h => h⟩

theorem ringWork_raise (s : State) (n : Nat) : s.RingWork (s.raise n) := by
  obtain ⟨c, h⟩ := raise_frame s n
  rw [h]
  exact ⟨rfl, fun _ => rfl, List.prefix_refl _, fun _ hb => hb⟩

theorem ringWork_hifSet (s : State) (b : Nat) : s.RingWork (s.hifSet b) := by
  unfold State.hifSet
  split
  · exact .refl s
  · refine .trans (u := { s with hifErr := s.hifErr ||| (1 <<< b) }) ⟨rfl, fun _ => rfl, List.prefix_refl _, fun i hi => ?_⟩
      (ringWork_raise _ _)
    rw [BitVec.getLsbD_or, hi, Bool.true_or]

theorem ringWork_sendMsix (s : State) (fn vec : Nat) : s.RingWork (s.sendMsix fn vec) := by
  unfold State.sendMsix
  dsimp only
  split
  · exact ⟨rfl, fun _ => rfl, List.prefix_refl _, fun _ h => h⟩
  · split
    · exact .refl s
    · exact ⟨rfl, fun _ => rfl, List.prefix_append _ _, fun _ h => h⟩

theorem ring_sendMsix (s : State) (fn vec q : Nat) : (s.sendMsix fn vec).ring q = s.ring q := by
  unfold State.sendMsix
  dsimp only
  split
  · rfl
  · split <;> rfl

theorem ring_raise (s : State) (n q : Nat) : (s.raise n).ring q = s.ring q := by
  obtain ⟨c, h⟩ := raise_frame s n
  rw [h]
  rfl

theorem ring_hifSet (s : State) (b q : Nat) : (s.hifSet b).ring q = s.ring q := by
  unfold State.hifSet
  split
  · rfl
  · exact ring_raise _ _ _

theorem ringWork_ringEntry (s : State) (r : Nat) (now : Bool) : s.RingWork (s.ringEntry r now) := by
  unfold State.ringEntry
  dsimp only
  split
  · exact .refl s
  · split
    · exact .trans (ringWork_setRing s (by rfl)) (ringWork_sendMsix _ _ _)
    · exact ringWork_setRing s rfl

/-- An entry moves the moderation of its ring alone. -/
theorem ring_ringEntry (s : State) (r q : Nat) (now : Bool) :
    ((s.ringEntry r now).ring q).pkgIndex = (s.ring q).pkgIndex ∧ (q ≠ r → (s.ringEntry r now).ring q = s.ring q) := by
  have keep (g : Ring) (hg : g.pkgIndex = (s.ring r).pkgIndex) :
      ((s.setRing r g).ring q).pkgIndex = (s.ring q).pkgIndex ∧ (q ≠ r → (s.setRing r g).ring q = s.ring q) := by
    by_cases hq : q = r
    · subst hq
      exact ⟨by rw [ring_setRing, hg], fun h => absurd rfl h⟩
    · rw [ring_setRing_ne _ _ hq]
      exact ⟨rfl, fun _ => rfl⟩
  unfold State.ringEntry
  dsimp only
  split
  · exact ⟨rfl, fun _ => rfl⟩
  · split
    · rw [ring_sendMsix]
      exact keep _ rfl
    · exact keep _ rfl

theorem ringWork_putEntry (s : State) (r : Nat) (b : List Byte) (now : Bool) : s.RingWork (s.putEntry r b now).1 := by
  unfold State.putEntry
  dsimp only
  split
  · exact (ringWork_setRing s (g := (s.ring r).halted 5) rfl).trans ((ringWork_hifSet _ 3).trans (ringWork_raise _ 1485))
  · exact .trans (.trans (ringWork_setRing s (by rfl)) (ringWork_emit _ _)) (ringWork_ringEntry _ _ _)

theorem ring_putEntry_ne (s : State) {r q : Nat} (b : List Byte) (now : Bool) (h : q ≠ r) :
    (s.putEntry r b now).1.ring q = s.ring q := by
  unfold State.putEntry
  dsimp only
  split
  · rw [ring_raise, ring_hifSet, ring_setRing_ne _ _ h]
  · rw [(ring_ringEntry _ r q now).2 h, ring_emit_keeps, ring_setRing_ne _ _ h]

/-- Where the package's next entry of `n` bytes in ring `r` lies (R162). -/
def State.entryAddr (s : State) (r n : Nat) : Nat := s.rngBase r + (s.ring r).pkgIndex.toNat % 2 ^ cfgLog2 (s.rngCfg r) * n

theorem putEntry_writes (s : State) {r : Nat} {b : List Byte} (now : Bool)
    (h : s.hostFails (s.entryAddr r b.length) b.length = false) : ∃ u, s.putEntry r b now = (u, true) ∧
      (u.ring r).pkgIndex = (s.ring r).pkgIndex + 1 ∧ .hostWrite (s.ringWho r) (s.entryAddr r b.length) b ∈ u.out := by
  have hput : s.putEntry r b now = ((((s.setRing r { s.ring r with pkgIndex := (s.ring r).pkgIndex + 1 }).emit
      (.hostWrite (s.ringWho r) (s.entryAddr r b.length) b)).ringEntry r now), true) :=
    if_neg (Bool.not_eq_true _ ▸ h)
  refine ⟨_, hput, ?_, (ringWork_ringEntry _ r now).mem_out (List.mem_append_right _ List.mem_cons_self)⟩
  rw [(ring_ringEntry _ r r now).1, ring_emit_keeps, ring_setRing]

/-! ### Notices -/

/-- A ring that no notice reaches: it has stopped, or is no event ring (R182). -/
def State.unnoticed (s : State) (r : Nat) : Prop := (s.ring r).stopped = true ∨ cfgKind (s.rngCfg r) ≠ 2

/-- `u` is `s` after notices: work of the rings that leaves the rings beside it as they were. -/
structure State.Notified (s u : State) : Prop extends s.RingWork u where
  quiet : ∀ r, s.unnoticed r → u.ring r = s.ring r

theorem State.Notified.refl (s : State) : s.Notified s := ⟨.refl s, fun _ _ => rfl⟩

theorem State.Notified.trans (h : s.Notified u) (h' : u.Notified v) : s.Notified v := by
  refine ⟨h.toRingWork.trans h'.toRingWork, fun r hr => ?_⟩
  have hu : u.unnoticed r := by
    rw [State.unnoticed, h.quiet r hr, State.rngCfg, h.reg]
    exact hr
  exact (h'.quiet r hu).trans (h.quiet r hr)

theorem eventRing_kind {t r : Nat} (h : s.eventRing t = some r) : cfgKind (s.rngCfg r) = 2 := by
  obtain ⟨e, he, rfl⟩ := Option.map_eq_some_iff.1 h
  have := List.find?_some he
  simp only [Bool.and_eq_true, decide_eq_true_eq] at this
  exact this.1.2

theorem notified_noticeTo (s : State) (t code part detail data : Nat) : s.Notified (s.noticeTo t code part detail data).1 := by
  unfold State.noticeTo
  split
  · exact .refl s
  next r hr =>
    have hne (q : Nat) (hq : s.unnoticed q) (hs : ¬ (s.ring r).stopped = true) : q ≠ r := by
      rintro rfl
      exact hq.elim hs fun hk => hk (eventRing_kind hr)
    dsimp only
    split
    · exact .refl s
    · next hs =>
      split
      · exact ⟨ringWork_putEntry _ _ _ _, fun q hq => ring_putEntry_ne s _ _ (hne q hq hs)⟩
      · exact ⟨ringWork_setRing s rfl, fun q hq => ring_setRing_ne _ _ (hne q hq hs)⟩

theorem notified_noticeOne (s : State) (t code part detail data : Nat) : s.Notified (s.noticeOne t code part detail data) := by
  unfold State.noticeOne
  split
  · exact .refl s
  · dsimp only
    split
    · exact notified_noticeTo _ _ _ _ _ _
    · exact (notified_noticeTo _ _ _ _ _ _).trans (notified_noticeTo _ _ _ _ _ _)

/-- A ring stops (R164), and then notices go out. -/
theorem stopRing_notified (s : State) (r err : Nat) :
    ((s.setRing r ((s.ring r).halted err)).raise 1485).Notified (s.stopRing r err) := by
  unfold State.stopRing
  dsimp only
  split
  · exact notified_noticeOne _ _ _ _ _ _
  · exact (notified_noticeOne _ _ _ _ _ _).trans (notified_noticeOne _ _ _ _ _ _)

theorem ringWork_stopRing (s : State) (r err : Nat) : s.RingWork (s.stopRing r err) :=
  .trans (.trans (ringWork_setRing s (by rfl)) (ringWork_raise _ _)) (stopRing_notified s r err).toRingWork

theorem ring_stopRing (s : State) (r err : Nat) : (s.stopRing r err).ring r = (s.ring r).halted err := by
  have hr : ((s.setRing r ((s.ring r).halted err)).raise 1485).ring r = (s.ring r).halted err := by rw [ring_raise, ring_setRing]
  rw [(stopRing_notified s r err).quiet r (.inl (by rw [hr]; rfl)), hr]

/-- A ring that no notice reaches is not touched by the stop of another. -/
theorem ring_stopRing_ne (s : State) {r q : Nat} (err : Nat) (hq : q ≠ r) (h : s.unnoticed q) :
    (s.stopRing r err).ring q = s.ring q := by
  have hr : ((s.setRing r ((s.ring r).halted err)).raise 1485).ring q = s.ring q := by rw [ring_raise, ring_setRing_ne _ _ hq]
  have hw : s.RingWork ((s.setRing r ((s.ring r).halted err)).raise 1485) :=
    .trans (ringWork_setRing s (by rfl)) (ringWork_raise _ _)
  refine ((stopRing_notified s r err).quiet q ?_).trans hr
  rw [State.unnoticed, hr, State.rngCfg, hw.reg]
  exact h

end

end Sys2Proof.Machine

namespace Sys2Proof.Machine

/-! ### A completion (06 R173, R179, R180) -/

section

variable {s u : State} {k : DescKey} {d : Desc}

theorem desc?_dropDesc (s : State) (k : DescKey) : (s.dropDesc k).desc? k = none := by
  simp [State.desc?, State.dropDesc]

/-- What replaces the entry of a key stands under the key. -/
theorem find?_replace {α : Type} {l : List (DescKey × α)} {x : α} (h : (l.find? (fun e => e.1 == k)).map (·.2) = some x) (y : α) :
    ((l.map (fun e => if e.1 == k then (k, y) else e)).find? (fun e => e.1 == k)).map (·.2) = some y := by
  have hf (e : DescKey × α) : ((if e.1 == k then (k, y) else e).1 == k) = (e.1 == k) := by
    split
    · next he => rw [he, beq_self_eq_true]
    · rfl
  obtain ⟨e, he, -⟩ := Option.map_eq_some_iff.1 h
  have hk : (e.1 == k) = true := List.find?_some (p := fun e : DescKey × α => e.1 == k) he
  rw [List.find?_map, Function.comp_def, funext hf, he, Option.map_some, Option.map_some, if_pos hk]

/-- What is added under a new key stands under the key. -/
theorem find?_added {α : Type} {l : List (DescKey × α)} (h : (l.find? (fun e => e.1 == k)).map (·.2) = none) (x : α) :
    ((l ++ [(k, x)]).find? (fun e => e.1 == k)).map (·.2) = some x := by
  have hn : l.find? (fun e => e.1 == k) = none := Option.map_eq_none_iff.1 h
  simp [List.find?_append, hn]

theorem desc?_setDesc (h : s.desc? k = some d) (e : Desc) : (s.setDesc k e).desc? k = some e := find?_replace h e

theorem job?_setJob {j : Job} (h : s.job? k = some j) (i : Job) : (s.setJob k i).job? k = some i := find?_replace h i

/-- A descriptor is gone, and its ring's counts have moved (R173). -/
def State.tallied (s : State) (k : DescKey) : State :=
  (s.dropDesc k).setRing k.ring.val
    { s.ring k.ring.val with inflight := (s.ring k.ring.val).inflight - 1, completed := (s.ring k.ring.val).completed + 1 }

/-- And its reservation is given back. -/
def State.released (s : State) (k : DescKey) (d : Desc) : State :=
  (s.tallied k).setRing d.cq { (s.tallied k).ring d.cq with reserved := ((s.tallied k).ring d.cq).reserved - 1 }

theorem ring_tallied (s : State) (k : DescKey) (q : Nat) : (s.tallied k).ring q =
    { s.ring q with
      inflight := if q = k.ring.val then (s.ring q).inflight - 1 else (s.ring q).inflight
      completed := if q = k.ring.val then (s.ring q).completed + 1 else (s.ring q).completed } := by
  by_cases hk : q = k.ring.val
  · subst hk
    simp [State.tallied]
  · simp [State.tallied, ring_setRing_ne _ _ hk, hk]

theorem ring_released (s : State) (k : DescKey) (d : Desc) (q : Nat) : (s.released k d).ring q =
    { s.ring q with
      inflight := if q = k.ring.val then (s.ring q).inflight - 1 else (s.ring q).inflight
      completed := if q = k.ring.val then (s.ring q).completed + 1 else (s.ring q).completed
      reserved := if q = d.cq then (s.ring q).reserved - 1 else (s.ring q).reserved } := by
  by_cases hq : q = d.cq
  · subst hq
    rw [State.released, ring_setRing, ring_tallied, if_pos rfl]
  · rw [State.released, ring_setRing_ne _ _ hq, ring_tallied, if_neg hq]

/-- The entry is not written: NOCMPL on an OK, a ring that was reset, or a completion ring that has stopped (R179, R159). -/
def State.noEntry (s : State) (d : Desc) (st : Nat) : Prop :=
  d.gone = true ∨ (bitAt (fieldLE d.bytes 2 1) 2 = true ∧ st = 0) ∨ (s.ring d.cq).stopped = true

/-- The entry of a completion (R179). -/
def State.entryOf (s : State) (k : DescKey) (d : Desc) (st info value : Nat) : List Byte :=
  Claims.entryBytesOf d (s.ring k.ring.val).pkgIndex.toNat k.ring.val
    (if (s.ring d.cq).pkgIndex.toNat / 2 ^ cfgLog2 (s.rngCfg d.cq) % 2 = 0 then 1 else 0) st info value

theorem length_entryOf (st info value : Nat) : (s.entryOf k d st info value).length = 16 := by
  simp [State.entryOf, Claims.entryBytesOf]

theorem completionBytes_eq (st info value : Nat) :
    completionBytes (fieldLE d.bytes 4 4) (s.ring k.ring.val).pkgIndex.toNat k.ring.val
      (phaseBit (s.rngCfg d.cq) (s.ring d.cq).pkgIndex) st (fieldLE d.bytes 1 1) info d.late value = s.entryOf k d st info value := by
  have hphase : phaseBit (s.rngCfg d.cq) (s.ring d.cq).pkgIndex =
      if (s.ring d.cq).pkgIndex.toNat / 2 ^ cfgLog2 (s.rngCfg d.cq) % 2 = 0 then 1 else 0 := by
    simp [phaseBit, b2n]
  have hlate : b2n d.late * 0x8000 = if d.late = true then 32768 else 0 := by cases d.late <;> rfl
  rw [completionBytes, hphase, hlate, Nat.mul_comm _ 0x8000]
  rfl

/-- An entry is written at the producer index, or its ring stops. -/
def State.enter (s : State) (r : Nat) (b : List Byte) (now : Bool) : State :=
  match s.putEntry r b now with
  | (v, true) => v
  | (v, false) => v.stopRing r 5

theorem ringWork_enter (s : State) (r : Nat) (b : List Byte) (now : Bool) : s.RingWork (s.enter r b now) := by
  have h := ringWork_putEntry s r b now
  unfold State.enter
  split
  · next v e =>
    rw [e] at h
    exact h
  · next v e =>
    rw [e] at h
    exact h.trans (ringWork_stopRing v r 5)

theorem enter_writes (s : State) {r : Nat} {b : List Byte} (now : Bool)
    (h : s.hostFails (s.entryAddr r b.length) b.length = false) :
    ((s.enter r b now).ring r).pkgIndex = (s.ring r).pkgIndex + 1 ∧
      .hostWrite (s.ringWho r) (s.entryAddr r b.length) b ∈ (s.enter r b now).out := by
  obtain ⟨u, hu, hpkg, hout⟩ := putEntry_writes s now h
  rw [State.enter, hu]
  exact ⟨hpkg, hout⟩

/-- A completion moves the counts, and enters its entry where there is one. -/
theorem complete_eq (h : s.desc? k = some d) (hw : d.wiped = false) (st info value : Nat) :
    (s.noEntry d st → s.complete k st info value = s.released k d) ∧
    (¬ s.noEntry d st → s.complete k st info value =
      (s.released k d).enter d.cq (s.entryOf k d st info value) (bitAt (fieldLE d.bytes 2 1) 0)) := by
  have hstop : ((s.tallied k).ring d.cq).stopped = (s.ring d.cq).stopped := by rw [ring_tallied]
  have hindex : ((s.tallied k).ring d.cq).pkgIndex = (s.ring d.cq).pkgIndex := by rw [ring_tallied]
  have hhead : ((s.released k d).ring k.ring.val).pkgIndex = (s.ring k.ring.val).pkgIndex := by rw [ring_released]
  have hc : s.complete k st info value =
      if d.gone ∨ (bitAt (fieldLE d.bytes 2 1) 2 ∧ st = 0) ∨ ((s.tallied k).ring d.cq).stopped then s.released k d
      else (s.released k d).enter d.cq (completionBytes (fieldLE d.bytes 4 4)
          ((s.released k d).ring k.ring.val).pkgIndex.toNat k.ring.val
          (phaseBit (s.rngCfg d.cq) ((s.tallied k).ring d.cq).pkgIndex) st (fieldLE d.bytes 1 1) info d.late value)
          (bitAt (fieldLE d.bytes 2 1) 0) := by
    simp only [State.complete, h, hw]
    rfl
  rw [hstop, hindex, hhead, completionBytes_eq] at hc
  exact ⟨fun hn => hc.trans (if_pos hn), fun hn => hc.trans (if_neg hn)⟩

/-- Past the counts, a completion is work of the rings. -/
theorem ringWork_complete (h : s.desc? k = some d) (hw : d.wiped = false) (st info value : Nat) :
    (s.released k d).RingWork (s.complete k st info value) := by
  obtain ⟨hnone, hput⟩ := complete_eq h hw st info value
  by_cases hn : s.noEntry d st
  · rw [hnone hn]
    exact .refl _
  · rw [hput hn]
    exact ringWork_enter _ _ _ _

/-- Where the host memory of the entry can be written, the entry stands at the producer index. -/
theorem complete_writes (h : s.desc? k = some d) (hw : d.wiped = false) {st : Nat} (info value : Nat) (hn : ¬ s.noEntry d st)
    (hf : s.hostFails (s.entryAddr d.cq 16) 16 = false) :
    ((s.complete k st info value).ring d.cq).pkgIndex = (s.ring d.cq).pkgIndex + 1 ∧
      .hostWrite (s.ringWho d.cq) (s.entryAddr d.cq 16) (s.entryOf k d st info value) ∈ (s.complete k st info value).out := by
  have hi : ((s.released k d).ring d.cq).pkgIndex = (s.ring d.cq).pkgIndex := by rw [ring_released]
  have ha : (s.released k d).entryAddr d.cq 16 = s.entryAddr d.cq 16 := by
    rw [State.entryAddr, hi]
    rfl
  have hlen := length_entryOf (s := s) (k := k) (d := d) st info value
  obtain ⟨hpkg, hout⟩ := enter_writes (s.released k d) (r := d.cq) (b := s.entryOf k d st info value)
    (bitAt (fieldLE d.bytes 2 1) 0) (by rw [hlen, ha]; exact hf)
  rw [hlen, ha] at hout
  rw [(complete_eq h hw st info value).2 hn]
  exact ⟨hpkg.trans (by rw [hi]), hout⟩

theorem bitAt_flags (b : List Byte) (i : Nat) : bitAt (fieldLE b 2 1) i = (b.getD 2 0).getLsbD i := by
  have hone (l : List Byte) : leNat (l.take 1) = (l.getD 0 0).toNat := by cases l <;> simp [leNat]
  rw [fieldLE, hone, List.getD_eq_getElem?_getD, List.getElem?_drop]
  rfl

theorem complete_ends (h : s.desc? k = some d) (hw : d.wiped = false) (st info value : Nat) :
    Claims.ended s (s.complete k st info value) k d st info value := by
  have hwork := ringWork_complete h hw st info value
  have hcounts (q : Nat) := (hwork.counts q).trans (congrArg Ring.counts (ring_released s k d q))
  refine ⟨?_, ?_, ?_, ?_, fun hgone hflag hstop hfail => complete_writes h hw info value ?_ hfail⟩
  · rw [State.desc?, hwork.descs]
    exact desc?_dropDesc s k
  · refine (congrArg (·.1) (hcounts _)).trans (if_pos rfl)
  · refine (congrArg (·.2.1) (hcounts _)).trans (if_pos rfl)
  · refine (congrArg (·.2.2) (hcounts _)).trans (if_pos rfl)
  · rintro (hg | ⟨hb, h0⟩ | hs)
    · exact absurd (hgone.symm.trans hg) (by decide)
    · rw [bitAt_flags] at hb
      exact hflag.elim (fun hf => absurd (hf.symm.trans hb) (by decide)) (fun hne => hne h0)
    · exact absurd (hstop.symm.trans hs) (by decide)

theorem complete_tiles (h : s.desc? k = some d) (hw : d.wiped = false) (st info value : Nat) :
    (s.complete k st info value).tiles = s.tiles := (ringWork_complete h hw st info value).tiles

theorem complete_mem_out (h : s.desc? k = some d) (hw : d.wiped = false) (st info value : Nat) {o : Output} (ho : o ∈ s.out) :
    o ∈ (s.complete k st info value).out := (ringWork_complete h hw st info value).mem_out ho

end

/-! ### DESCRIPTOR_FETCH (06 R171, R173) -/

section

variable (s : State) (r : RingNo)

theorem exec_descriptorFetch (rd : HostRead) : exec (.descriptorFetch r rd) s = execDescriptorFetch r rd s := rfl

/-- The next descriptor of the ring may start: the host is live and fetching is let go, the ring is an enabled submission ring that runs,
with a descriptor whose read has been sent, room for another in flight, and a free slot of its completion ring. -/
def State.mayStart (s : State) (r : RingNo) : Prop :=
  s.hostLive = true ∧ s.fetchEn = true ∧ cfgEn (s.rngCfg r.val) = true ∧ cfgKind (s.rngCfg r.val) = 0 ∧
  (s.ring r.val).stopped = false ∧ (s.ring r.val).lead ≠ 0 ∧ (s.ring r.val).asked ≠ 0 ∧ (s.ring r.val).inflight < 256 ∧
  s.slotFree (cfgCq (s.rngCfg r.val)) = true ∧
  s.desc? ⟨r, (s.ring r.val).pkgIndex⟩ = none

variable {s r}

theorem exec_descriptorFetch_error (h : s.mayStart r) :
    exec (.descriptorFetch r .error) s = .next ((s.hostReadErr false).stopRing r.val 4) := by
  obtain ⟨hlive, hfetch, hen, hkind, hstop, hlead, hasked, hfly, hslot, hnone⟩ := h
  rw [exec_descriptorFetch]
  simp [execDescriptorFetch, hlive, hfetch, hen, hkind, hstop, hlead, hasked, hfly, hslot, hnone]

theorem exec_descriptorFetch_refused (h : s.mayStart r) {b : List Byte} (hb : b.length = 64) {st info : Nat}
    (href : refusalOf (cfgTenant (s.rngCfg r.val)) b = some (st, info)) :
    exec (.descriptorFetch r (.ok b)) s =
      .next ((s.startDesc ⟨r, (s.ring r.val).pkgIndex⟩ b).complete ⟨r, (s.ring r.val).pkgIndex⟩ st info 0) := by
  obtain ⟨hlive, hfetch, hen, hkind, hstop, hlead, hasked, hfly, hslot, hnone⟩ := h
  rw [exec_descriptorFetch]
  simp [execDescriptorFetch, hlive, hfetch, hen, hkind, hstop, hlead, hasked, hfly, hslot, hnone, hb, href]

/-- A descriptor without START_LT and FENCE starts at once. -/
theorem exec_descriptorFetch_starts (h : s.mayStart r) {b : List Byte} (hb : b.length = 64)
    (href : refusalOf (cfgTenant (s.rngCfg r.val)) b = none) (hlt : fieldLE b 8 8 = 0) (hfence : (b.getD 2 0).getLsbD 1 = false) :
    exec (.descriptorFetch r (.ok b)) s = .next (s.startDesc ⟨r, (s.ring r.val).pkgIndex⟩ b) := by
  obtain ⟨hlive, hfetch, hen, hkind, hstop, hlead, hasked, hfly, hslot, hnone⟩ := h
  rw [← bitAt_flags] at hfence
  rw [exec_descriptorFetch]
  simp [execDescriptorFetch, hlive, hfetch, hen, hkind, hstop, hlead, hasked, hfly, hslot, hnone, hb, href, hlt, hfence]

/-- The descriptor that the start of `b` in ring `r` leaves. -/
def State.startedDesc (s : State) (r : RingNo) (b : List Byte) : Desc :=
  { bytes := b, tenant := BitVec.ofNat 7 (cfgTenant (s.rngCfg r.val)), pasid := (s.ringWho r.val).pasid, cq := cfgCq (s.rngCfg r.val),
    ready := true, late := false, busy := false, gone := false, wiped := false, aux := s.lay.time.toNat }

/-- A ring whose next descriptor starts. -/
def Ring.starts (g : Ring) : Ring :=
  { g with pkgIndex := g.pkgIndex + 1, lead := g.lead - 1, asked := g.asked - 1, started := g.started + 1, inflight := g.inflight + 1 }

/-- The ring's index, lead and counts move as its next descriptor starts (R173). -/
def State.begun (s : State) (r : Nat) : State := s.setRing r (s.ring r).starts

theorem ring_startDesc (s : State) (k : DescKey) (b : List Byte) (q : Nat) : (s.startDesc k b).ring q =
    { if q = k.ring.val then (s.ring q).starts else s.ring q with
      reserved := if q = cfgCq (s.rngCfg k.ring.val) then (s.ring q).reserved + 1 else (s.ring q).reserved } := by
  have hv : (s.begun k.ring.val).ring q = if q = k.ring.val then (s.ring q).starts else s.ring q := by
    split
    · next h => rw [h, State.begun, ring_setRing]
    · next h => exact ring_setRing_ne _ _ h
  have hres (c : Prop) [Decidable c] : (if c then (s.ring q).starts else s.ring q).reserved = (s.ring q).reserved := by
    split <;> rfl
  have hs : (s.startDesc k b).ring q = ((s.begun k.ring.val).setRing (cfgCq (s.rngCfg k.ring.val))
      { (s.begun k.ring.val).ring (cfgCq (s.rngCfg k.ring.val)) with
        reserved := ((s.begun k.ring.val).ring (cfgCq (s.rngCfg k.ring.val))).reserved + 1 }).ring q := rfl
  rw [hs]
  by_cases hq : q = cfgCq (s.rngCfg k.ring.val)
  · rw [if_pos hq, ← hq, ring_setRing, hv, hres]
  · rw [if_neg hq, ring_setRing_ne _ _ hq, hv, ← hres (q = k.ring.val)]

theorem startDesc_taken (s : State) (r : RingNo) (b : List Byte) :
    Claims.taken s (s.startDesc ⟨r, (s.ring r.val).pkgIndex⟩ b) r b (s.startedDesc r b) := by
  have hr := ring_startDesc s ⟨r, (s.ring r.val).pkgIndex⟩ b r.val
  have hq := ring_startDesc s ⟨r, (s.ring r.val).pkgIndex⟩ b (cfgCq (s.rngCfg r.val))
  rw [if_pos rfl] at hr
  refine ⟨rfl, rfl, rfl, rfl, rfl, rfl, rfl, rfl, rfl, ?_⟩
  rw [hr, hq]
  exact ⟨rfl, rfl, rfl, rfl, if_pos rfl⟩

theorem desc?_startDesc (hn : s.desc? ⟨r, (s.ring r.val).pkgIndex⟩ = none) (b : List Byte) :
    (s.startDesc ⟨r, (s.ring r.val).pkgIndex⟩ b).desc? ⟨r, (s.ring r.val).pkgIndex⟩ = some (s.startedDesc r b) := by
  obtain ⟨hframe, -⟩ := startDesc_taken s r b
  rw [hframe]
  exact find?_added hn _

/-- A read of host memory that fails sets HIF_ERR (R165, R172), and the ring stops. -/
theorem stopRing_hostReadErr (s : State) (r : Nat) (ats : Bool) :
    let u := (s.hostReadErr ats).stopRing r 4
    (u.ring r).stopped = true ∧ (u.ring r).err = 4 ∧ u.hifErr.getLsbD (if ats then 3 else 4) = true ∧ u.descs = s.descs := by
  obtain ⟨e, c, h, he⟩ := hifSet_frame s (b := if ats then 3 else 4) (by cases ats <;> decide)
  have hwork := ringWork_stopRing (s.hostReadErr ats) r 4
  have hring := ring_stopRing (s.hostReadErr ats) r 4
  refine ⟨by rw [hring]; rfl, by rw [hring]; rfl, hwork.errs _ ?_, hwork.descs.trans ?_⟩
  · rw [State.hostReadErr, h]
    exact he
  · rw [State.hostReadErr, h]

end

/-- Settles O24: a start, a refusal as a start that completes at once, and a failed read as a stop of the ring. -/
theorem descriptorsStart : Obligations.DescriptorsStart := by
  intro s r c g k hlive hfetch hen hkind hstop hlead hasked hfly hslot hnone
  have hmay : s.mayStart r := ⟨hlive, hfetch, hen, hkind, hstop, hlead, hasked, hfly, hslot, hnone⟩
  refine ⟨fun b hb href hlt hfence => ?_, fun b st info hb href => ?_, ?_⟩
  · exact ⟨_, _, exec_descriptorFetch_starts hmay hb href hlt hfence, startDesc_taken s r b⟩
  · exact ⟨_, _, _, exec_descriptorFetch_refused hmay hb href, startDesc_taken s r b,
      complete_ends (desc?_startDesc hnone b) rfl st info 0⟩
  · exact ⟨_, exec_descriptorFetch_error hmay, stopRing_hostReadErr s r.val false⟩

end Sys2Proof.Machine

namespace Sys2Proof.Machine

/-! ## The classes that the host interface carries out (06 R174 to R178, 17 R470) -/

/-! ### Fields of a descriptor -/

theorem leNat_lt (l : List Byte) : leNat l < 256 ^ l.length := by
  induction l with
  | nil => simp [leNat]
  | cons b l ih =>
    rw [leNat, List.length_cons, pow_succ]
    have := b.isLt
    omega

theorem fieldLE_lt (b : List Byte) (off n : Nat) : fieldLE b off n < 256 ^ n :=
  lt_of_lt_of_le (leNat_lt _) (Nat.pow_le_pow_right (by decide) (List.length_take_le _ _))

theorem toNat_fieldLE (b : List Byte) (off : Nat) : (BitVec.ofNat 64 (fieldLE b off 8)).toNat = fieldLE b off 8 := by
  rw [BitVec.toNat_ofNat, Nat.mod_eq_of_lt ((fieldLE_lt b off 8).trans_eq (by norm_num))]

section

variable {s u v : State} {k : DescKey} {d : Desc}

theorem readyDesc_of_ready {cls : Nat} (h : Claims.ready s k d cls) : s.readyDesc k cls = some d := by
  obtain ⟨hd, hr, hready, hbusy, -, hcls⟩ := h
  simp [State.readyDesc, hd, hr, hready, hbusy, hcls]

/-! ### DMA, Lay-scheduled events and diagnostics (R176 to R178) -/

theorem exec_dma (h : Claims.ready s k d 2) :
    (dmaRoom d.bytes = 0 →
      exec (.dma k) s = .next ((s.setDesc k { d with busy := true, aux := dmaRoom d.bytes }).complete k 0xA 0 0)) ∧
    (dmaRoom d.bytes ≠ 0 → fieldLE d.bytes 0x24 1 = 0 → exec (.dma k) s =
      .next ((s.setDesc k { d with busy := true, aux := dmaRoom d.bytes }).emit
        (.hostRead d.who (fieldLE d.bytes 0x10 8) (dmaRoom d.bytes)))) := by
  show (_ → execDma k s = _) ∧ (_ → _ → execDma k s = _)
  simp only [execDma, readyDesc_of_ready h, toNat_fieldLE]
  exact ⟨fun h0 => by rw [if_pos h0], fun h0 hdir => by rw [if_neg h0, if_pos hdir]⟩

/-- The bytes that the engines have read from the package go to host memory, and the transfer ends with OK. -/
theorem exec_hostDmaComplete_moved (hd : s.desc? k = some d) (hr : s.railsOn = true) (hbusy : d.busy = true)
    (hcls : fieldLE d.bytes 1 1 = 2) {b : List Byte} (hb : b.length = d.aux) (hlen : d.aux = fieldLE d.bytes 0x20 4) (hne : b ≠ [])
    (hdir : fieldLE d.bytes 0x24 1 = 1) : exec (.hostDmaComplete k (.moved b)) s =
      .next ((s.emit (.hostWrite d.who (fieldLE d.bytes 0x18 8) b)).complete k 0 0 b.length) := by
  have hout : s.dmaOut d b = s.emit (.hostWrite d.who (fieldLE d.bytes 0x18 8) b) := by
    simp only [State.dmaOut, toNat_fieldLE]
    rw [if_neg (by simpa using hne), if_pos hdir]
  show execHostDmaComplete k (.moved b) s = _
  simp [execHostDmaComplete, hd, hr, hbusy, hcls, hout, hb, ← hlen]

theorem exec_layScheduledEvent (h : Claims.ready s k d 5) : exec (.layScheduledEvent k) s = .next (s.complete k 0 0 d.aux) := by
  show execLayScheduledEvent k s = _
  simp only [execLayScheduledEvent, readyDesc_of_ready h]

theorem readyDiag_of_ready (h : Claims.ready s k d 8) {act : Nat} (ha : fieldLE d.bytes 0x10 1 = act) : s.readyDiag k act = some d := by
  simp only [State.readyDiag, readyDesc_of_ready h, ha, if_true]

/-- The records that fit go to BUF, and the diagnostic completes with their length. -/
theorem diagCopy_ends (hd : s.desc? k = some d) (hw : d.wiped = false) (recs : List (List Byte)) :
    let b := fitRecords (fieldLE d.bytes 0x20 4) recs
    (b = [] → Claims.ended s (s.diagCopy k d recs) k d 0 0 0) ∧
    (b ≠ [] → s.hostFails (fieldLE d.bytes 0x18 8) b.length = false → Claims.ended s (s.diagCopy k d recs) k d 0 0 b.length ∧
      .hostWrite d.who (fieldLE d.bytes 0x18 8) b ∈ (s.diagCopy k d recs).out) := by
  unfold State.diagCopy
  intro b
  refine ⟨fun hb => ?_, fun hb hf => ?_⟩
  · rw [if_pos (by simpa using hb)]
    exact complete_ends hd hw 0 0 0
  · rw [if_neg (by simpa using hb), if_neg (by rw [hf]; decide)]
    let w := s.emit (.hostWrite d.who (fieldLE d.bytes 0x18 8) b)
    have hdw : w.desc? k = some d := hd
    exact ⟨complete_ends hdw hw 0 0 _, complete_mem_out hdw hw 0 0 _ (List.mem_append_right _ List.mem_cons_self)⟩

/-! ### The partitions take a job (R174, 01 R22) -/

/-- What a job asks of the word of a partition: Idle becomes Active. -/
def Psw.activate (q : Psw) : Psw := if q.state == .idle then { q with state := .active } else q

/-- A change of a word sets CONFLICT by the views that it asks for (R15, R19); SEQ may advance. -/
theorem change_eq (p : Psw) (f : Psw → Psw) :
    ∃ m, p.change f = { f p with conflict := (f p).disagree1 || (f p).disagree2, seq := m } := by
  unfold Psw.change
  dsimp only
  split
  · next h => exact ⟨p.seq, h.symm⟩
  · exact ⟨p.seq + 1, rfl⟩

theorem inService_iff {p : Psw} : p.inService = true ↔
    (p.state = .idle ∨ p.state = .active) ∧ p.fencePend = false ∧ p.verdict = .inService ∧ p.conflict = false := by
  simp [Psw.inService, and_assoc]

/-- A partition in service stays in service, Active. -/
theorem activate_inService {p : Psw} (h : p.inService = true) :
    (p.change Psw.activate).inService = true ∧ (p.change Psw.activate).state = .active := by
  obtain ⟨hs, hf, hv, -⟩ := inService_iff.1 h
  obtain ⟨m, hm⟩ := change_eq p Psw.activate
  have hact : p.activate = { p with state := .active } := by
    rcases hs with hs | hs
    · simp [Psw.activate, hs]
    · simp only [Psw.activate, ← hs, ite_self]
  rw [hm, hact]
  exact ⟨inService_iff.2 ⟨.inr rfl, hf, hv, by simp [Psw.disagree1, Psw.disagree2, hv]⟩, rfl⟩

/-- A partition whose word a job has activated. -/
def Part.activated (p : Part) : Part := { p with psw := p.psw.change Psw.activate }

/-- The change sends no notice and orders no fence: it may raise the event of a new STATE. -/
theorem pswChange_activate {n : Nat} (h : (s.psw n).inService = true) :
    ∃ c, s.pswChange n Psw.activate = { s.setPart n (s.part n).activated with cleat := c } := by
  obtain ⟨hserve, hactive⟩ := activate_inService h
  obtain ⟨hstate, -, -, -⟩ := inService_iff.1 h
  obtain ⟨-, -, -, hconf⟩ := inService_iff.1 hserve
  have hcalm : ¬ ((s.psw n).state = .fenced ∨ (s.psw n).state = .resetting) := by
    rcases hstate with h | h <;> simp [h]
  have hwrite : ∃ c, s.pswWrite n Psw.activate = { s.setPart n (s.part n).activated with cleat := c } := by
    unfold State.pswWrite
    extract_lets p q x s₁ s₂ s₃
    have h₃ : s₃ = s₂ := if_neg fun hn => hn.2.elim (by simp [q, p, hactive]) fun hn => hn.elim (by simp [q, p, hactive]) hcalm
    rw [if_neg (by simp [q, p, hconf]), h₃]
    by_cases hq : q.state = p.state
    · exact ⟨s.cleat, if_neg (not_not.2 hq)⟩
    · obtain ⟨c, hc⟩ := raise_frame s₁ (1025 + 8 * n + 2)
      exact ⟨c, (if_pos hq).trans hc⟩
  obtain ⟨c, hc⟩ := hwrite
  have hpsw : State.psw { s.setPart n (s.part n).activated with cleat := c } n = (s.psw n).change Psw.activate :=
    congrArg Part.psw (part_setPart s n _)
  refine ⟨c, ?_⟩
  unfold State.pswChange
  dsimp only
  rw [hc, hpsw, if_neg (by simp [hconf])]

theorem pswChange_setPart {n : Nat} {p : Part} (h : p.psw.inService = true) :
    ∃ c, (s.setPart n p).pswChange n Psw.activate = { s.setPart n p.activated with cleat := c } := by
  obtain ⟨c, hc⟩ := pswChange_activate (s := s.setPart n p) (n := n) (by rw [State.psw, part_setPart]; exact h)
  rw [part_setPart, setPart_setPart] at hc
  exact ⟨c, hc⟩

/-- The record of a partition that takes job `k`. -/
def Part.taking (p : Part) (k : DescKey) (wait : Bool) : Part :=
  { p with jobs := p.jobs ++ [k], waiting := if wait then p.waiting ++ [k] else p.waiting, admitted := p.admitted + 1,
           becameIdle := false }

/-- A partition in service takes a job: it keeps its armature, and is Active. -/
theorem partTakes_inService {n : Nat} (h : (s.psw n).inService = true) (wait : Bool) :
    ∃ c q, s.partTakes k n wait = { s.setPart n q with cleat := c } ∧ q.arm = (s.part n).arm ∧ q.psw.inService = true ∧
      q.psw.state = .active := by
  obtain ⟨c, hc⟩ := pswChange_setPart (s := s) (n := n) (p := (s.part n).taking k wait) h
  obtain ⟨hserve, hactive⟩ := activate_inService h
  exact ⟨c, ((s.part n).taking k wait).activated, hc, rfl, hserve, hactive⟩

/-- Every partition of a list in service takes a job. -/
theorem foldl_partTakes {l : List Nat} (h : ∀ n ∈ l, (s.psw n).inService = true) (wait : Nat → Bool) :
    let v := l.foldl (fun s n => s.partTakes k n (wait n)) s
    v = { s with parts := v.parts, cleat := v.cleat } ∧ (∀ n, (v.part n).arm = (s.part n).arm) ∧
      ∀ n, n ∈ l ∨ (s.psw n).state = .active → (v.psw n).state = .active := by
  induction l generalizing s with
  | nil => exact ⟨rfl, fun _ => rfl, fun n hn => hn.resolve_left List.not_mem_nil⟩
  | cons m l ih =>
    obtain ⟨c, q, hq, harm, hserve, hactive⟩ := partTakes_inService (k := k) (h m List.mem_cons_self) (wait m)
    have hpart (n : Nat) : State.part { s.setPart m q with cleat := c } n = if n = m then q else s.part n := by
      split
      · next hn => exact hn ▸ part_setPart s m q
      · next hn => exact part_setPart_ne s q hn
    have hserves : ∀ n ∈ l, (State.psw { s.setPart m q with cleat := c } n).inService = true := by
      intro n hn
      rw [State.psw, hpart]
      split
      · exact hserve
      · exact h n (List.mem_cons_of_mem _ hn)
    obtain ⟨hframe, harms, hact⟩ := ih hserves
    rw [List.foldl_cons, hq]
    refine ⟨hframe, fun n => (harms n).trans ?_, fun n hn => hact n ?_⟩
    · rw [hpart]
      split
      · next hn => rw [harm, hn]
      · rfl
    · rw [State.psw, hpart]
      split
      · exact .inr hactive
      · next hne => exact hn.imp_left fun hn => (List.mem_cons.1 hn).resolve_left hne

/-! ### The tiles receive the job (R175, 02 R35) -/

/-- The tile runs job `k` from `pc`, in its first frame. -/
def Tile.runsJob (x : Tile) (k : DescKey) (pc : Word) : Prop :=
  x.running = true ∧ x.cst = ⟨0, 1, false, true⟩ ∧ x.key = k ∧ x.pc = pc

/-- The tile can run the job: it runs nothing and has not halted, or runs the job already. -/
def Tile.takesJob (x : Tile) (k : DescKey) (pc : Word) : Prop := (x.running = false ∧ x.halted = false) ∨ x.runsJob k pc

/-- `v` is `s` after launches of job `k` at `pc`: a tile that can run the job still can, and one that runs it still does. -/
structure State.Launches (k : DescKey) (pc : Word) (s v : State) : Prop where
  frame : v = { s with tiles := v.tiles, jobs := v.jobs }
  takes : ∀ t, (s.tile t).takesJob k pc → (v.tile t).takesJob k pc
  runs : ∀ t, (s.tile t).runsJob k pc → (v.tile t).runsJob k pc

theorem State.Launches.refl (k : DescKey) (pc : Word) (s : State) : State.Launches k pc s s := ⟨rfl, fun _ h => h, fun _ h => h⟩

theorem State.Launches.trans {pc : Word} (h : State.Launches k pc s u) (h' : State.Launches k pc u v) : State.Launches k pc s v where
  frame := by rw [h'.frame, h.frame]
  takes t ht := h'.takes t (h.takes t ht)
  runs t ht := h'.runs t (h.runs t ht)

theorem State.Launches.tilesOf {pc : Word} (h : State.Launches k pc s v) (n : Nat) : v.tilesOf n = s.tilesOf n := by
  rw [h.frame]
  rfl

theorem launches_setTile {pc : Word} {t : Nat} {x : Tile} (ht : (s.tile t).takesJob k pc → x.takesJob k pc)
    (hr : (s.tile t).runsJob k pc → x.runsJob k pc) : State.Launches k pc s (s.setTile t x) := by
  have htile (m : Nat) : (s.setTile t x).tile m = if m = t then x else s.tile m := by
    split
    · next h => rw [h, tile_setTile]
    · next h => exact tile_setTile_ne s x h
  refine ⟨rfl, fun m hm => ?_, fun m hm => ?_⟩
  · rw [htile]
    split
    · next h => exact ht (h ▸ hm)
    · exact hm
  · rw [htile]
    split
    · next h => exact hr (h ▸ hm)
    · exact hm

theorem key_launch (x : Tile) (k : DescKey) (j : Job) : (x.launch k j).key = k := by
  have hr : (Fin.ofNat 8192 (BitVec.ofNat 13 k.ring.val).toNat) = k.ring := by
    apply Fin.ext
    simp
  show DescKey.mk (Fin.ofNat 8192 (BitVec.ofNat 13 k.ring.val).toNat) k.index = k
  rw [hr]

/-- A launch reaches one tile; if that can run the job, it then runs it. -/
theorem launchTile_launches {j : Job} (hj : s.job? k = some j) (t : Nat) :
    State.Launches k (j.entry.setWidth 64) s (s.launchTile k t) ∧ (s.launchTile k t).jobs = s.jobs ∧
      ((s.tile t).takesJob k (j.entry.setWidth 64) → ((s.launchTile k t).tile t).runsJob k (j.entry.setWidth 64)) := by
  have heq : s.launchTile k t =
      if (s.tile t).running || (s.tile t).halted then s.setTile t { s.tile t with jobs := (s.tile t).jobs ++ [k] }
      else s.setTile t { (s.tile t).launch k j with lastFc := s.now } := by
    simp only [State.launchTile, hj]
  rw [heq]
  by_cases hc : ((s.tile t).running || (s.tile t).halted) = true
  · rw [if_pos hc, tile_setTile]
    refine ⟨launches_setTile (fun h => h) (fun h => h), rfl, fun h => h.resolve_left ?_⟩
    rintro ⟨hrun, hhalt⟩
    simp [hrun, hhalt] at hc
  · have hrun : Tile.runsJob { (s.tile t).launch k j with lastFc := s.now } k (j.entry.setWidth 64) :=
      ⟨rfl, rfl, key_launch (s.tile t) k j, rfl⟩
    rw [if_neg hc, tile_setTile]
    exact ⟨launches_setTile (fun _ => .inr hrun) (fun _ => hrun), rfl, fun _ => hrun⟩

theorem foldl_launchTile {j : Job} (hj : s.job? k = some j) (l : List Nat) :
    let v := l.foldl (fun s t => s.launchTile k t) s
    State.Launches k (j.entry.setWidth 64) s v ∧ v.jobs = s.jobs ∧
      ∀ t ∈ l, (s.tile t).takesJob k (j.entry.setWidth 64) → (v.tile t).runsJob k (j.entry.setWidth 64) := by
  induction l generalizing s with
  | nil => exact ⟨.refl _ _ _, rfl, fun t ht => absurd ht List.not_mem_nil⟩
  | cons m l ih =>
    obtain ⟨hl, hjobs, hrun⟩ := launchTile_launches hj m
    obtain ⟨hl', hjobs', hrun'⟩ := ih (s := s.launchTile k m) (by rw [State.job?, hjobs]; exact hj)
    refine ⟨hl.trans hl', hjobs'.trans hjobs, fun t ht htake => ?_⟩
    rcases List.mem_cons.1 ht with rfl | ht
    · exact hl'.runs t (hrun htake)
    · exact hrun' t ht (hl.takes t htake)

/-- The tiles of one partition receive the job. -/
theorem admitTiles_launches {j : Job} (hj : s.job? k = some j) (n : Nat) :
    State.Launches k (j.entry.setWidth 64) s (s.admitTiles k n) ∧
      (∃ i, (s.admitTiles k n).job? k = some i ∧ i.entry = j.entry ∧ i.admitted = j.admitted ++ [n] ∧
        i.tiles = j.tiles ++ s.tilesOf n) ∧
      ∀ t ∈ s.tilesOf n, (s.tile t).takesJob k (j.entry.setWidth 64) →
        ((s.admitTiles k n).tile t).runsJob k (j.entry.setWidth 64) := by
  let i : Job := { j with admitted := j.admitted ++ [n], tiles := j.tiles ++ s.tilesOf n, since := SMap.set j.since n (s.part n).tcAcc }
  have heq : s.admitTiles k n = (s.tilesOf n).foldl (fun s t => s.launchTile k t) (s.setJob k i) := by
    simp only [State.admitTiles, hj]
    rfl
  have hi : (s.setJob k i).job? k = some i := job?_setJob hj i
  obtain ⟨hl, hjobs, hrun⟩ := foldl_launchTile hi (s.tilesOf n)
  rw [← heq] at hl hjobs hrun
  have hset : State.Launches k (j.entry.setWidth 64) s (s.setJob k i) := ⟨rfl, fun _ h => h, fun _ h => h⟩
  exact ⟨hset.trans hl, ⟨i, by rw [State.job?, hjobs]; exact hi, rfl, rfl, rfl⟩, hrun⟩

/-- The tiles of every partition of a list receive the job. -/
theorem foldl_admitTiles {j : Job} (hj : s.job? k = some j) (l : List Nat) :
    let v := l.foldl (fun s n => s.admitTiles k n) s
    State.Launches k (j.entry.setWidth 64) s v ∧
      (∃ i, v.job? k = some i ∧ i.admitted = j.admitted ++ l ∧ i.tiles = j.tiles ++ l.flatMap s.tilesOf) ∧
      ∀ n ∈ l, ∀ t ∈ s.tilesOf n, (s.tile t).takesJob k (j.entry.setWidth 64) → (v.tile t).runsJob k (j.entry.setWidth 64) := by
  induction l generalizing s j with
  | nil => exact ⟨.refl _ _ _, ⟨j, hj, by simp, by simp⟩, fun n hn => absurd hn List.not_mem_nil⟩
  | cons m l ih =>
    obtain ⟨hl, ⟨i, hi, hentry, hadm, htiles⟩, hrun⟩ := admitTiles_launches hj m
    obtain ⟨hl', ⟨i', hi', hadm', htiles'⟩, hrun'⟩ := ih hi
    rw [hentry] at hl' hrun'
    rw [funext hl.tilesOf] at htiles' hrun'
    refine ⟨hl.trans hl', ⟨i', hi', by rw [hadm', hadm]; simp, ?_⟩, fun n hn t ht htake => ?_⟩
    · rw [htiles', htiles, List.append_assoc, List.flatMap_cons]
    · rcases List.mem_cons.1 hn with rfl | hn
      · exact hl'.runs t (hrun t ht htake)
      · exact hrun' n hn t ht (hl.takes t htake)

/-! ### JOB_LAUNCH (R174, R175) -/

/-- The partitions that a launch asks for. -/
def Desc.pset (d : Desc) : List Nat := psetList (BitVec.ofNat 12 (fieldLE d.bytes 0x10 2))

/-- The partitions of the set that have been Idle for long. -/
def State.slowOf (s : State) (d : Desc) : List Nat := d.pset.filter s.longIdle

/-- Every partition of the set takes the job of the launch. -/
def State.launchTaken (s : State) (k : DescKey) (d : Desc) : State :=
  d.pset.foldl (fun v n => v.partTakes k n ((s.slowOf d).contains n))
    { s.setDesc k { d with busy := true } with launchLast := k.ring.val, jobs := s.jobs ++ [(k, Job.start d)] }

/-- A launch whose ring's turn has come is refused by the first partition of another tenant, then by the first that is not in service;
else its partitions take the job, and the tiles of those that have not been Idle for long receive it. -/
theorem exec_jobLaunch (h : Claims.ready s k d 1) (hheld : s.setHeld d.pset = false) (hturn : s.launchTurn k.ring.val = true) :
    exec (.jobLaunch k) s = .next (
      match d.pset.filter (fun n => (s.psw n).tenant != d.tenant) with
      | n :: _ => State.complete { s with launchLast := k.ring.val } k 5 n 0
      | [] => match d.pset.filter (fun n => !(s.psw n).inService) with
        | n :: _ => State.complete { s with launchLast := k.ring.val } k 6 n 0
        | [] => (d.pset.filter (fun n => !(s.slowOf d).contains n)).foldl (fun s n => s.admitTiles k n) (s.launchTaken k d)) := by
  have hw : State.setHeld { s with launchLast := k.ring.val } d.pset = false := hheld
  show execJobLaunch k s = _
  unfold Desc.pset at hw hheld
  simp only [execJobLaunch, readyDesc_of_ready h, hturn, hheld, Bool.not_false, Bool.and_self, if_true, hw, Bool.not_true, Bool.or_self,
    Bool.false_eq_true, if_false]
  rfl

theorem exec_jobLaunch_foreign (h : Claims.ready s k d 1) (hheld : s.setHeld d.pset = false) (hturn : s.launchTurn k.ring.val = true)
    {n : Nat} {rest : List Nat} (hn : d.pset.filter (fun m => (s.psw m).tenant != d.tenant) = n :: rest) :
    exec (.jobLaunch k) s = .next (State.complete { s with launchLast := k.ring.val } k 5 n 0) := by
  rw [exec_jobLaunch h hheld hturn, hn]

theorem filter_foreign (h : ∀ m ∈ d.pset, (s.psw m).tenant = d.tenant) :
    d.pset.filter (fun m => (s.psw m).tenant != d.tenant) = [] :=
  List.filter_eq_nil_iff.2 fun m hm => by simp [h m hm]

theorem exec_jobLaunch_out (h : Claims.ready s k d 1) (hheld : s.setHeld d.pset = false) (hturn : s.launchTurn k.ring.val = true)
    (hten : ∀ m ∈ d.pset, (s.psw m).tenant = d.tenant) {n : Nat} {rest : List Nat}
    (hn : d.pset.filter (fun m => !(s.psw m).inService) = n :: rest) :
    exec (.jobLaunch k) s = .next (State.complete { s with launchLast := k.ring.val } k 6 n 0) := by
  rw [exec_jobLaunch h hheld hturn, filter_foreign hten, hn]

theorem exec_jobLaunch_admits (h : Claims.ready s k d 1) (hheld : s.setHeld d.pset = false) (hturn : s.launchTurn k.ring.val = true)
    (hten : ∀ m ∈ d.pset, (s.psw m).tenant = d.tenant) (hserve : ∀ m ∈ d.pset, (s.psw m).inService = true)
    (hidle : ∀ m ∈ d.pset, s.longIdle m = false) :
    exec (.jobLaunch k) s = .next (d.pset.foldl (fun s n => s.admitTiles k n) (s.launchTaken k d)) := by
  have hout : d.pset.filter (fun m => !(s.psw m).inService) = [] := List.filter_eq_nil_iff.2 fun m hm => by simp [hserve m hm]
  have hslow : s.slowOf d = [] := List.filter_eq_nil_iff.2 fun m hm => by simp [hidle m hm]
  have hall : d.pset.filter (fun n => !(s.slowOf d).contains n) = d.pset := List.filter_eq_self.2 fun m _ => by simp [hslow]
  rw [exec_jobLaunch h hheld hturn, filter_foreign hten, hout, hall]

/-- An admitted launch: the job with its partitions and their tiles, the words, and the tiles that run it. -/
theorem launchTaken_admits (hserve : ∀ n ∈ d.pset, (s.psw n).inService = true) (hjob : s.job? k = none) :
    let u := d.pset.foldl (fun s n => s.admitTiles k n) (s.launchTaken k d)
    (∃ j, u.job? k = some j ∧ j.admitted = d.pset ∧ j.tiles = d.pset.flatMap s.tilesOf) ∧
      (∀ n ∈ d.pset, (u.psw n).state = .active) ∧
      ∀ n ∈ d.pset, ∀ t ∈ s.tilesOf n, (s.tile t).running = false → (s.tile t).halted = false →
        (u.tile t).runsJob k ((Job.start d).entry.setWidth 64) := by
  let w : State := { s.setDesc k { d with busy := true } with launchLast := k.ring.val, jobs := s.jobs ++ [(k, Job.start d)] }
  obtain ⟨hframe, harm, hactive⟩ := foldl_partTakes (s := w) (k := k) (l := d.pset) hserve (fun n => (s.slowOf d).contains n)
  have hv : (s.launchTaken k d).job? k = some (Job.start d) := by
    rw [State.launchTaken, hframe]
    exact find?_added hjob (Job.start d)
  have hof : (s.launchTaken k d).tilesOf = s.tilesOf := funext fun n => by
    have hn : ((s.launchTaken k d).part n).arm = (s.part n).arm := harm n
    rw [State.tilesOf, hn, State.tilesOf]
  have htile (t : Nat) : (s.launchTaken k d).tile t = s.tile t := by
    rw [State.launchTaken, hframe]
    rfl
  obtain ⟨hl, ⟨j, hj, hadm, htiles⟩, hrun⟩ := foldl_admitTiles hv d.pset
  rw [hof] at htiles hrun
  refine ⟨⟨j, hj, hadm, htiles⟩, fun n hn => ?_, fun n hn t ht hr hh => hrun n hn t ht (.inl ?_)⟩
  · rw [hl.frame]
    exact hactive n (.inl hn)
  · rw [htile]
    exact ⟨hr, hh⟩

theorem start_entry (d : Desc) : (Job.start d).entry.setWidth 64 = BitVec.ofNat 64 (fieldLE d.bytes 0x14 4) := by
  have hlt : fieldLE d.bytes 0x14 4 < 2 ^ 32 := (fieldLE_lt d.bytes 0x14 4).trans_eq (by norm_num)
  apply BitVec.eq_of_toNat_eq
  simp only [Job.start, BitVec.toNat_setWidth, BitVec.toNat_ofNat]
  rw [Nat.mod_eq_of_lt hlt]

end

/-- Settles O25, class by class. -/
theorem descriptorClasses : Obligations.DescriptorClasses := by
  intro s k d set buf copies
  have hcopies {i : Instr} {recs : List (List Byte)} (h : Claims.ready s k d 8) (he : exec i s = .next (s.diagCopy k d recs)) :
      copies i recs := by
    obtain ⟨hd, -, -, -, hw, -⟩ := h
    obtain ⟨hnone, hsome⟩ := diagCopy_ends hd hw recs
    exact ⟨fun hb => ⟨_, he, hnone hb⟩, fun hb hf => ⟨_, he, hsome hb hf⟩⟩
  refine ⟨fun h hheld hturn => ?_, fun h => ?_, fun b hd hr hbusy hw hcls hb hlen hne hdir => ?_, fun h => ?_, fun h => ?_⟩
  · obtain ⟨hd, -, -, -, hw, -⟩ := id h
    have hd' : State.desc? { s with launchLast := k.ring.val } k = some d := hd
    refine ⟨fun hset hjob => ?_, fun n rest hn => ?_, fun n rest hten hn => ?_⟩
    · have hserve : ∀ n ∈ d.pset, (s.psw n).inService = true := fun n hn => (hset n hn).2.1
      obtain ⟨⟨j, hj, hadm, htiles⟩, hactive, hrun⟩ := launchTaken_admits hserve hjob
      rw [start_entry] at hrun
      exact ⟨_, j, exec_jobLaunch_admits h hheld hturn (fun n hn => (hset n hn).1) hserve (fun n hn => (hset n hn).2.2), hj, hadm, htiles,
        fun n hn _ => hactive n hn, hrun⟩
    · exact ⟨_, exec_jobLaunch_foreign h hheld hturn hn, complete_ends hd' hw 5 n 0, complete_tiles hd' hw 5 n 0⟩
    · exact ⟨_, exec_jobLaunch_out h hheld hturn hten hn, complete_ends hd' hw 6 n 0, complete_tiles hd' hw 6 n 0⟩
  · obtain ⟨hd, -, -, -, hw, -⟩ := id h
    have hd' := desc?_setDesc hd { d with busy := true, aux := dmaRoom d.bytes }
    refine ⟨fun h0 hdir => ⟨_, (exec_dma h).2 h0 hdir, rfl, hd'⟩, fun h0 => ⟨_, (exec_dma h).1 h0, ?_⟩⟩
    exact complete_ends hd' hw 0xA 0 0
  · have hd' : (s.emit (.hostWrite d.who (fieldLE d.bytes 0x18 8) b)).desc? k = some d := hd
    exact ⟨_, exec_hostDmaComplete_moved hd hr hbusy hcls hb hlen hne hdir, complete_ends hd' hw 0 0 _,
      complete_mem_out hd' hw 0 0 _ (List.mem_append_right _ List.mem_cons_self)⟩
  · obtain ⟨hd, -, -, -, hw, -⟩ := id h
    exact ⟨_, exec_layScheduledEvent h, complete_ends hd hw 0 0 d.aux⟩
  · obtain ⟨hd, -, -, -, hw, -⟩ := id h
    refine ⟨fun ha => ⟨s.complete k 0 0 0, ?_, complete_ends hd hw 0 0 0⟩, fun ha => hcopies h ?_, fun ha => hcopies h ?_,
      fun ha => hcopies h ?_⟩
    · show execDiagEcho k s = _
      simp only [execDiagEcho, readyDiag_of_ready h ha]
    · show execDiagErrlog k s = _
      simp only [execDiagErrlog, readyDiag_of_ready h ha]
    · show execDiagProgress k s = _
      simp only [execDiagProgress, readyDiag_of_ready h ha]
    · show execDiagPrtstate k s = _
      simp only [execDiagPrtstate, readyDiag_of_ready h ha]

end Sys2Proof.Machine

namespace Sys2Proof.Machine

/-! ## Doorbell lines, ring set-up and interrupts (06 R162 to R168, R184) -/

/-! ### DOORBELL_LINE_ENABLE (R165) -/

theorem dblCtl_setReg_same (s : State) (l v : Nat) : (s.setReg (offDblCtl l) 0 v).dblCtl l = v % 2 ^ 64 := reg_setReg_same s _ _ _

theorem dblCtl_setReg_ne (s : State) {l m : Nat} (h : m ≠ l) (v : Nat) : (s.setReg (offDblCtl l) 0 v).dblCtl m = s.dblCtl m :=
  reg_setReg_ne s _ _ _ (offDblCtl_inj h)

/-- The control word that enabling a line with `w` leaves: EN only for a legal tenant. -/
def lineCtlOf (w : Nat) : Nat := if bitAt w 0 && decide (lineTenant w ≤ 64) then w else w / 2 * 2

theorem lineCtlOf_eq (w : Nat) : lineCtlOf w = if w % 2 = 1 ∧ w / 2 % 128 ≤ 64 then w else w - w % 2 := by
  have h0 : bitAt w 0 = decide (w % 2 = 1) := Nat.testBit_zero w
  have ht : lineTenant w = w / 2 % 128 := rfl
  rw [lineCtlOf, h0, ht]
  simp only [Bool.and_eq_true, decide_eq_true_eq]
  split
  · rfl
  · omega

theorem writeDblCtl_enables {s : State} {l : Nat} (h : lineEn (s.dblCtl l) = false) (v : Nat) :
    ∃ x o, s.writeDblCtl l v = { s.setReg (offDblCtl l) 0 (lineCtlOf (v % 2 ^ 29)) with lines := x, out := o } := by
  have hw : s.writeDblCtl l v =
      let w := v % 2 ^ 29
      let u := s.setReg (offDblCtl l) 0 (lineCtlOf w)
      if bitAt w 0 && decide (lineTenant w ≤ 64) && u.hostLive && u.coherent then u.readLine l else u := by
    simp only [State.writeDblCtl, h]
    rfl
  rw [hw]
  dsimp only
  split
  · exact ⟨_, _, rfl⟩
  · exact ⟨s.lines, s.out, rfl⟩

theorem doorbellLineEnable_takes (s : State) (l : LineNo) (v : Word) (hb : s.barLive = true) (h : lineEn (s.dblCtl l.val) = false) :
    let w := v.toNat % 2 ^ 29
    ∃ u, exec (.doorbellLineEnable l v) s = .next u ∧
      u.dblCtl l.val = (if w % 2 = 1 ∧ w / 2 % 128 ≤ 64 then w else w - w % 2) ∧
      (∀ m, m ≠ l.val → u.dblCtl m = s.dblCtl m) ∧ u.rings = s.rings := by
  intro w
  obtain ⟨x, o, hw⟩ := writeDblCtl_enables (s := s.barAccess) (l := l.val) h v.toNat
  have he : exec (.doorbellLineEnable l v) s = .next (s.barAccess.writeDblCtl l.val v.toNat) := by
    show execDoorbellLineEnable l v s = _
    simp only [execDoorbellLineEnable, hb, if_true]
  have hlt : lineCtlOf w < 2 ^ 64 := by
    rw [lineCtlOf_eq]
    split <;> omega
  refine ⟨_, he, ?_, fun m hm => ?_, ?_⟩ <;> rw [hw]
  · rw [← lineCtlOf_eq]
    exact (dblCtl_setReg_same s.barAccess l.val _).trans (Nat.mod_eq_of_lt hlt)
  · exact dblCtl_setReg_ne s.barAccess hm _
  · rfl

/-! ### RING_ENABLE (R163) -/

/-- The fields of a control word above EN do not depend on EN. -/
theorem bits_pred {c hi lo : Nat} (hc : c % 2 = 1) (hlo : 1 ≤ lo) : bits (c - 1) hi lo = bits c hi lo := by
  have h : (c - 1) / 2 ^ lo = c / 2 ^ lo := by
    obtain ⟨m, rfl⟩ := Nat.exists_eq_add_of_le' hlo
    rw [pow_succ, Nat.mul_comm, ← Nat.div_div_eq_div_mul, ← Nat.div_div_eq_div_mul, show (c - 1) / 2 = c / 2 by omega]
  rw [bits, bits, h]

theorem rngCfg_setReg_same (s : State) (r v : Nat) : (s.setReg (offRngCfg r) rngCfgReset v).rngCfg r = v % 2 ^ 64 :=
  reg_setReg_same s _ _ _

theorem rngCfg_setReg_ne (s : State) {r q : Nat} (h : q ≠ r) (v : Nat) :
    (s.setReg (offRngCfg r) rngCfgReset v).rngCfg q = s.rngCfg q := reg_setReg_ne s _ _ _ (offRngCfg_inj h)

theorem dblCtl_setReg_rngCfg (s : State) {l : Nat} (hl : l < 1024) (r v : Nat) :
    (s.setReg (offRngCfg r) rngCfgReset v).dblCtl l = s.dblCtl l := reg_setReg_ne s _ _ _ (offDblCtl_ne_offRngCfg hl r)

theorem dblAddr_setReg_rngCfg (s : State) (l r v : Nat) :
    (s.setReg (offRngCfg r) rngCfgReset v).dblAddr l = s.dblAddr l :=
  reg_setReg_ne s _ _ _ (by simp only [offDblAddr, offRngCfg]; omega)

theorem cfgDbl_lt (c : Nat) : cfgDbl c < 1024 := Nat.mod_lt _ (by decide)

/-- The checks of R163 in their order, the ring limit last. -/
theorem ringCheck_good {s : State} {r c : Nat} (h : Claims.goodRing s r c) :
    s.ringCheck r c = if 512 ≤ s.ringCount (cfgTenant c) then some 2 else none := by
  obtain ⟨hkind, hlow, hhigh, hten, hline, hlten, hcq, hevent⟩ := h
  have hother : ¬ (cfgKind c = 2 ∧ (s.rings.any (fun e =>
      e.1 != r && cfgEn (s.rngCfg e.1) && cfgKind (s.rngCfg e.1) == 2 && cfgTenant (s.rngCfg e.1) == cfgTenant c)) = true) := by
    rintro ⟨h2, hany⟩
    obtain ⟨e, he, hc⟩ := List.any_eq_true.1 hany
    simp only [Bool.and_eq_true, bne_iff_ne, beq_iff_eq] at hc
    obtain ⟨⟨⟨hne, hen⟩, hk⟩, ht⟩ := hc
    exact hevent h2 e he hne ⟨hen, hk, ht⟩
  unfold State.ringCheck
  dsimp only
  rw [if_neg (by omega), if_neg (by simp [hline, hlten]), if_neg, if_neg hother]
  rintro ⟨h0, hbad⟩
  obtain ⟨hen, hk, ht⟩ := hcq h0
  simp [hen, hk, ht] at hbad

theorem ringCheck_bad {s : State} {r c : Nat} (h : ¬ Claims.goodRing s r c) : s.ringCheck r c = some 1 := by
  have hkind : cfgKind c < 4 := Nat.mod_lt _ (by decide)
  unfold State.ringCheck
  dsimp only
  split
  · rfl
  next hfields =>
  split
  · rfl
  next hline =>
  split
  · rfl
  next hcq =>
  split
  · rfl
  next hevent =>
  simp only [Bool.or_eq_true, Bool.not_eq_eq_eq_not, Bool.not_true, bne_iff_ne, not_or, Bool.not_eq_false, not_not] at hline
  refine absurd ⟨by omega, by omega, by omega, by omega, hline.1, hline.2, fun h0 => ?_, fun h2 e he hne hc => hevent ⟨h2, ?_⟩⟩ h
  · by_contra hno
    refine hcq ⟨h0, ?_⟩
    by_contra hok
    simp only [Bool.not_eq_eq_eq_not, Bool.not_true, not_or, Bool.not_eq_false, not_not] at hok
    exact hno hok
  · obtain ⟨hen, hk, ht⟩ := hc
    exact List.any_eq_true.2 ⟨e, he, by simp [hne, hen, hk, ht]⟩

theorem cfgEn_of_even {w : Nat} (h : w % 2 = 0) : cfgEn (w % 2 ^ 64) = false := by
  rw [cfgEn, bitAt, Nat.testBit_zero]
  simp only [decide_eq_false_iff_not]
  omega

theorem odd_of_bit {v : Word} (h : v.getLsbD 0 = true) : v.toNat % 2 = 1 := by
  simpa [Nat.testBit_zero] using (show v.toNat.testBit 0 = true from h)

/-- Writing a ring's control word with EN 0 over one with EN 0 leaves every enabled ring as it was. -/
theorem enabled_setReg {s : State} {r w : Nat} (hw : w % 2 = 0) (hr : cfgEn (s.rngCfg r) = false) (q : Nat) (P : Nat → Prop) :
    (cfgEn ((s.setReg (offRngCfg r) rngCfgReset w).rngCfg q) = true ∧ P ((s.setReg (offRngCfg r) rngCfgReset w).rngCfg q)) ↔
      (cfgEn (s.rngCfg q) = true ∧ P (s.rngCfg q)) := by
  by_cases hq : q = r
  · subst hq
    have hen : cfgEn ((s.setReg (offRngCfg q) rngCfgReset w).rngCfg q) = false := by
      rw [rngCfg_setReg_same, cfgEn_of_even hw]
    simp [hen, hr]
  · rw [rngCfg_setReg_ne s hq]

theorem ringCount_setReg {s : State} {r w : Nat} (hw : w % 2 = 0) (hr : cfgEn (s.rngCfg r) = false) (t : Nat) :
    (s.setReg (offRngCfg r) rngCfgReset w).ringCount t = s.ringCount t := by
  unfold State.ringCount
  refine congrArg List.length (List.filter_congr fun e _ => ?_)
  rw [Bool.eq_iff_iff]
  simpa using enabled_setReg hw hr e.1 (fun c => cfgTenant c = t)

theorem goodRing_setReg {s : State} {r c : Nat} (hc : c % 2 = 1) (hr : cfgEn (s.rngCfg r) = false) :
    Claims.goodRing (s.setReg (offRngCfg r) rngCfgReset (c - 1)) r (c - 1) ↔ Claims.goodRing s r c := by
  have hf {hi lo : Nat} (hlo : 1 ≤ lo) : bits (c - 1) hi lo = bits c hi lo := bits_pred hc hlo
  have hen := fun q => enabled_setReg (s := s) (r := r) (w := c - 1) (by omega) hr q
  have hkind : cfgKind (c - 1) = cfgKind c := hf (by decide)
  have hlog : cfgLog2 (c - 1) = cfgLog2 c := hf (by decide)
  have hten : cfgTenant (c - 1) = cfgTenant c := hf (by decide)
  have hdbl : cfgDbl (c - 1) = cfgDbl c := hf (by decide)
  have hcq : cfgCq (c - 1) = cfgCq c := hf (by decide)
  unfold Claims.goodRing
  dsimp only
  rw [hkind, hlog, hten, hdbl, hcq, dblCtl_setReg_rngCfg s (cfgDbl_lt c), hen _ (fun q => cfgKind q = 1 ∧ cfgTenant q = cfgTenant c)]
  simp only [hen _ (fun d => cfgKind d = 2 ∧ cfgTenant d = cfgTenant c)]
  rfl

/-- The state in which RING_ENABLE checks ring `r`: its control word with EN 0. -/
def State.ringAsked (s : State) (r c : Nat) : State := s.barAccess.setReg (offRngCfg r) rngCfgReset (c - 1)

theorem ringCheck_asked {s : State} {r c : Nat} (hc : c % 2 = 1) (hr : cfgEn (s.rngCfg r) = false) :
    (Claims.goodRing s r c →
      (s.ringAsked r c).ringCheck r (c - 1) = if 512 ≤ s.ringCount (cfgTenant c) then some 2 else none) ∧
    (¬ Claims.goodRing s r c → (s.ringAsked r c).ringCheck r (c - 1) = some 1) := by
  have hgood : Claims.goodRing (s.ringAsked r c) r (c - 1) ↔ Claims.goodRing s r c := goodRing_setReg (s := s.barAccess) hc hr
  have hten : cfgTenant (c - 1) = cfgTenant c := bits_pred hc (by decide)
  have hcount : (s.ringAsked r c).ringCount (cfgTenant (c - 1)) = s.ringCount (cfgTenant c) := by
    rw [hten]
    exact ringCount_setReg (s := s.barAccess) (by omega) hr _
  exact ⟨fun h => by rw [ringCheck_good (hgood.2 h), hcount], fun h => ringCheck_bad (mt hgood.1 h)⟩

/-- A ring that starts empty (R163). -/
def Ring.emptied (g : Ring) : Ring :=
  { g with stopped := false, lead := 0, asked := 0, unsent := 0, timer := none, dropped := 0 }

/-- RING_ENABLE with every check passed, as its slot is read: EN reads 1, and the read has been sent. -/
def State.ringOn (s : State) (r c : Nat) : State :=
  let u := (s.ringAsked r c).setReg (offRngCfg r) rngCfgReset c
  u.emit (.hostRead (u.ringWho r) (u.dblAddr (cfgDbl c) + 8 * cfgSlot c) 8)

theorem exec_ringEnable {s : State} {r : RingNo} {v : Word} (hb : s.barLive = true) (hr : cfgEn (s.rngCfg r.val) = false)
    (hv : v.getLsbD 0 = true) :
    (∀ e rd, (s.ringAsked r.val v.toNat).ringCheck r.val (v.toNat - 1) = some e →
      exec (.ringEnable r v rd) s = .next ((s.ringAsked r.val v.toNat).setRing r.val { s.ring r.val with err := e })) ∧
    ((s.ringAsked r.val v.toNat).ringCheck r.val (v.toNat - 1) = none →
      (∀ b, b.length = 8 → exec (.ringEnable r v (.ok b)) s =
        .next ((s.ringOn r.val v.toNat).setRing r.val { (s.ring r.val).emptied with
          pkgIndex := BitVec.ofNat 32 (fieldLE b 0 4), hostIdx := BitVec.ofNat 32 (fieldLE b 0 4) })) ∧
      exec (.ringEnable r v .translation) s =
        .next ((((s.ringOn r.val v.toNat).setRing r.val (s.ring r.val).emptied).hostReadErr true).stopRing r.val 4)) := by
  have h0 : bitAt v.toNat 0 = true := hv
  have hr' : cfgEn (s.barAccess.rngCfg r.val) = false := hr
  have hb' : s.barAccess.barLive = true := hb
  refine ⟨fun e rd he => ?_, fun hn => ⟨fun b hlen => ?_, ?_⟩⟩
  · show execRingEnable r v rd s = _
    unfold State.ringAsked at he
    simp only [execRingEnable, hb', hr', h0, he]
    rfl
  · show execRingEnable r v (.ok b) s = _
    unfold State.ringAsked at hn
    simp only [execRingEnable, hb', hr', h0, hn, hlen]
    rfl
  · show execRingEnable r v .translation s = _
    unfold State.ringAsked at hn
    simp only [execRingEnable, hb', hr', h0, hn]
    rfl

theorem ringOn_rngCfg (s : State) (r : Nat) (v : Word) : (s.ringOn r v.toNat).rngCfg r = v.toNat :=
  (rngCfg_setReg_same (s.ringAsked r v.toNat) r v.toNat).trans (Nat.mod_eq_of_lt v.isLt)

/-- The slot is read with the function and the PASID of the ring (R165). -/
theorem ringOn_out (s : State) (r : Nat) (v : Word) : (s.ringOn r v.toNat).out = s.out ++
    [.hostRead ⟨cfgTenant v.toNat, (s.lineWho (cfgDbl v.toNat)).pasid⟩ (s.dblAddr (cfgDbl v.toNat) + 8 * cfgSlot v.toNat) 8] := by
  let u := (s.ringAsked r v.toNat).setReg (offRngCfg r) rngCfgReset v.toNat
  have hcfg : u.rngCfg r = v.toNat := ringOn_rngCfg s r v
  have hctl {l : Nat} (hl : l < 1024) : u.dblCtl l = s.dblCtl l :=
    (dblCtl_setReg_rngCfg _ hl r _).trans (dblCtl_setReg_rngCfg s.barAccess hl r _)
  have haddr (l : Nat) : u.dblAddr l = s.dblAddr l :=
    (dblAddr_setReg_rngCfg _ l r _).trans (dblAddr_setReg_rngCfg s.barAccess l r _)
  have hwho : u.ringWho r = ⟨cfgTenant v.toNat, (s.lineWho (cfgDbl v.toNat)).pasid⟩ := by
    unfold State.ringWho State.lineWho
    dsimp only
    rw [hcfg, hctl (cfgDbl_lt _)]
  show s.out ++ [.hostRead (u.ringWho r) (u.dblAddr (cfgDbl v.toNat) + 8 * cfgSlot v.toNat) 8] = _
  rw [hwho, haddr]

theorem ringEnable_good (s : State) (r : RingNo) (v : Word) (hb : s.barLive = true) (hr : cfgEn (s.rngCfg r.val) = false)
    (hv : v.getLsbD 0 = true) (hgood : Claims.goodRing s r.val v.toNat) (hcount : s.ringCount (cfgTenant v.toNat) < 512) :
    (∀ b, b.length = 8 → ∃ u, exec (.ringEnable r v (.ok b)) s = .next u ∧ u.rngCfg r.val = v.toNat ∧
      (u.ring r.val).pkgIndex = BitVec.ofNat 32 (fieldLE b 0 4) ∧ (u.ring r.val).hostIdx = BitVec.ofNat 32 (fieldLE b 0 4) ∧
      (u.ring r.val).lead = 0 ∧ (u.ring r.val).stopped = false ∧ (∀ q, q ≠ r.val → u.ring q = s.ring q) ∧
      u.out = s.out ++ [.hostRead ⟨cfgTenant v.toNat, (s.lineWho (cfgDbl v.toNat)).pasid⟩
        (s.dblAddr (cfgDbl v.toNat) + 8 * cfgSlot v.toNat) 8]) ∧
    ∃ u, exec (.ringEnable r v .translation) s = .next u ∧ (u.ring r.val).stopped = true ∧ (u.ring r.val).err = 4 ∧
      u.hifErr.getLsbD 3 = true := by
  have hc : v.toNat % 2 = 1 := odd_of_bit hv
  have hcheck : (s.ringAsked r.val v.toNat).ringCheck r.val (v.toNat - 1) = none :=
    ((ringCheck_asked hc hr).1 hgood).trans (if_neg (by omega))
  obtain ⟨hok, hfail⟩ := (exec_ringEnable hb hr hv).2 hcheck
  refine ⟨fun b hlen => ⟨_, hok b hlen, ringOn_rngCfg s r.val v, ?_⟩, ?_⟩
  · rw [ring_setRing]
    exact ⟨rfl, rfl, rfl, rfl, fun q hq => ring_setRing_ne _ _ hq, ringOn_out s r.val v⟩
  · obtain ⟨hstop, herr, hhif, -⟩ := stopRing_hostReadErr ((s.ringOn r.val v.toNat).setRing r.val (s.ring r.val).emptied) r.val true
    exact ⟨_, hfail, hstop, herr, hhif⟩

/-- A check that fails leaves EN 0 and the check's error code. -/
theorem ringEnable_refused {s : State} (r : RingNo) (v : Word) (hb : s.barLive = true) (hr : cfgEn (s.rngCfg r.val) = false)
    (hv : v.getLsbD 0 = true) {e : BitVec 8} (he : (s.ringAsked r.val v.toNat).ringCheck r.val (v.toNat - 1) = some e) (rd : HostRead) :
    ∃ u, exec (.ringEnable r v rd) s = .next u ∧ cfgEn (u.rngCfg r.val) = false ∧ (u.ring r.val).err = e := by
  have hc : v.toNat % 2 = 1 := odd_of_bit hv
  have hcfg : (s.ringAsked r.val v.toNat).rngCfg r.val = (v.toNat - 1) % 2 ^ 64 := rngCfg_setReg_same s.barAccess r.val _
  refine ⟨_, (exec_ringEnable hb hr hv).1 e rd he, ?_, by rw [ring_setRing]⟩
  show cfgEn ((s.ringAsked r.val v.toNat).rngCfg r.val) = false
  rw [hcfg, cfgEn_of_even (by omega)]

theorem ringEnable_refuses (s : State) (r : RingNo) (v : Word) (hb : s.barLive = true) (hr : cfgEn (s.rngCfg r.val) = false)
    (hv : v.getLsbD 0 = true) :
    (¬ Claims.goodRing s r.val v.toNat → ∀ rd, ∃ u, exec (.ringEnable r v rd) s = .next u ∧ cfgEn (u.rngCfg r.val) = false ∧
      (u.ring r.val).err = 1) ∧
    (Claims.goodRing s r.val v.toNat → 512 ≤ s.ringCount (cfgTenant v.toNat) → ∀ rd,
      ∃ u, exec (.ringEnable r v rd) s = .next u ∧ cfgEn (u.rngCfg r.val) = false ∧ (u.ring r.val).err = 2) := by
  have hc : v.toNat % 2 = 1 := odd_of_bit hv
  obtain ⟨hgood, hbad⟩ := ringCheck_asked hc hr
  exact ⟨fun h rd => ringEnable_refused r v hb hr hv (hbad h) rd,
    fun h hn rd => ringEnable_refused r v hb hr hv ((hgood h).trans (if_pos hn)) rd⟩

/-! ### RING_DISABLE (R163) -/

theorem ringInUse_iff (s : State) (r : Nat) : Claims.ringInUse s r ↔
    cfgKind (s.rngCfg r) = 1 ∧ ((s.ring r).reserved ≠ 0 ∨ (s.rings.any (fun e =>
      cfgEn (s.rngCfg e.1) && cfgKind (s.rngCfg e.1) == 0 && cfgCq (s.rngCfg e.1) == r)) = true) := by
  simp only [Claims.ringInUse, List.any_eq_true, Bool.and_eq_true, beq_iff_eq, and_assoc]

theorem writeRngCfg_inUse {s : State} {r : Nat} (hr : cfgEn (s.rngCfg r) = true) (hu : Claims.ringInUse s r) (v : Nat) :
    s.writeRngCfg r v = s.setRing r { s.ring r with err := 6 } := by
  simp only [State.writeRngCfg, hr]
  exact if_pos ((ringInUse_iff s r).1 hu)

theorem writeRngCfg_off {s : State} {r : Nat} (hr : cfgEn (s.rngCfg r) = true) (hu : ¬ Claims.ringInUse s r) (v : Nat) :
    s.writeRngCfg r v = s.ringOff r := by
  simp only [State.writeRngCfg, hr]
  exact if_neg (mt (ringInUse_iff s r).2 hu)

theorem ringDisable_disables (s : State) (r : RingNo) (v : Word) (hb : s.barLive = true) (hr : cfgEn (s.rngCfg r.val) = true)
    (hv : v.getLsbD 0 = false) : ∃ u, exec (.ringDisable r v) s = .next u ∧
      (Claims.ringInUse s r.val → (u.ring r.val).err = 6 ∧ u.rngCfg r.val = s.rngCfg r.val) ∧
      (¬ Claims.ringInUse s r.val → cfgEn (u.rngCfg r.val) = false ∧ (u.ring r.val).lead = 0 ∧ (u.ring r.val).stopped = false) := by
  have h0 : bitAt v.toNat 0 = false := hv
  have he : exec (.ringDisable r v) s = .next (s.barAccess.writeRngCfg r.val v.toNat) := by
    show execRingDisable r v s = _
    simp only [execRingDisable, hb, h0]
    rfl
  refine ⟨_, he, fun hu => ?_, fun hu => ?_⟩
  · rw [writeRngCfg_inUse (s := s.barAccess) hr hu, ring_setRing]
    exact ⟨rfl, rfl⟩
  · have hring : (s.barAccess.ringOff r.val).ring r.val = { s.ring r.val with lead := 0, asked := 0, stopped := false } :=
      ring_setRing _ _ _
    rw [writeRngCfg_off (s := s.barAccess) hr hu, hring]
    exact ⟨ringOff_rngCfg s.barAccess r.val, rfl, rfl⟩

/-! ### SNOOP_INVALIDATION (R166) -/

/-- The read of a line, as the mode in force sends it. -/
def State.doorbellFetch (s : State) (l : Nat) : Output :=
  if s.coherent = true then .rdShared (s.lineWho l) (s.dblAddr l) else .hostRead (s.lineWho l) (s.dblAddr l) 64

theorem readLine_reads (s : State) (l : Nat) : ((s.readLine l).line l) = { s.line l with busy := true } ∧
    (s.readLine l).out = s.out ++ [s.doorbellFetch l] := ⟨line_setLine _ _ _, rfl⟩

theorem snoopInvalidation_reads (s : State) (l : LineNo) (hlive : s.hostLive = true) (hen : lineEn (s.dblCtl l.val) = true)
    (hco : s.coherent = true) : ∃ u, exec (.snoopInvalidation l) s = .next u ∧ .snoopAnswer (s.dblAddr l.val) ∈ u.out ∧
      (u.line l.val).busy = true ∧ (u.line l.val).cached = false ∧
      ((s.line l.val).busy = false → .rdShared (s.lineWho l.val) (s.dblAddr l.val) ∈ u.out) ∧
      ((s.line l.val).busy = true → (u.line l.val).again = true) := by
  obtain ⟨c, hc⟩ := raise_frame (s.emit (.snoopAnswer (s.dblAddr l.val))) (1 + l.val)
  let w : State := { s.emit (.snoopAnswer (s.dblAddr l.val)) with cleat := c }
  have he : exec (.snoopInvalidation l) s = .next (
      if (s.line l.val).busy then w.setLine l.val { s.line l.val with cached := false, again := true }
      else (w.setLine l.val { s.line l.val with cached := false }).readLine l.val) := by
    show execSnoopInvalidation l s = _
    simp only [execSnoopInvalidation, hlive, hco, hen, hc]
    rfl
  have hsent : .snoopAnswer (s.dblAddr l.val) ∈ s.out ++ [.snoopAnswer (s.dblAddr l.val)] := List.mem_append_right _ List.mem_cons_self
  rw [he]
  by_cases hbusy : (s.line l.val).busy = true
  · refine ⟨_, rfl, ?_⟩
    rw [if_pos hbusy, line_setLine]
    exact ⟨hsent, hbusy, rfl, fun h => absurd (h.symm.trans hbusy) (by decide), fun _ => rfl⟩
  · refine ⟨_, rfl, ?_⟩
    obtain ⟨hline, hout⟩ := readLine_reads (w.setLine l.val { s.line l.val with cached := false }) l.val
    have hread : (w.setLine l.val { s.line l.val with cached := false }).doorbellFetch l.val =
        .rdShared (s.lineWho l.val) (s.dblAddr l.val) := if_pos hco
    rw [if_neg hbusy, hline, hout, hread, line_setLine]
    exact ⟨List.mem_append_left _ hsent, rfl, rfl, fun _ => List.mem_append_right _ List.mem_cons_self, fun h => absurd h hbusy⟩

/-! ### DOORBELL_POLL (R166, R167) -/

/-- A line's turn in a sweep: it is read, unless its last read is not over. -/
def State.pollLine (s : State) (l : Nat) : State :=
  let u := { s with pollNext := l + 1 }
  if (u.line l).busy then u else u.readLine l

theorem exec_doorbellPoll (h : s.hostLive = true) :
    exec .doorbellPoll s = .next (s.pollBegin.pollTurn.foldl State.pollLine s.pollBegin) := by
  show execDoorbellPoll s = _
  simp only [execDoorbellPoll, h]
  rfl

/-- No turn of a sweep takes back a read: a line that is being read still is, and what has been sent stays sent. -/
theorem pollLine_keeps (s : State) (l m : Nat) : ((s.line m).busy = true → ((s.pollLine l).line m).busy = true) ∧
    s.out <+: (s.pollLine l).out ∧ (s.pollLine l).pollAt = s.pollAt := by
  unfold State.pollLine
  dsimp only
  split
  · exact ⟨fun h => h, List.prefix_refl _, rfl⟩
  · refine ⟨fun h => ?_, List.prefix_append _ _, rfl⟩
    by_cases hm : m = l
    · rw [hm, (readLine_reads _ l).1]
    · exact (congrArg Line.busy (line_setLine_ne s _ hm)).trans h

/-- A line that is not being read is read in its turn. -/
theorem pollLine_reads {s : State} {l : Nat} (h : (s.line l).busy = false) :
    ((s.pollLine l).line l).busy = true ∧ s.doorbellFetch l ∈ (s.pollLine l).out ∧ (s.pollLine l).pollAt = s.pollAt := by
  have hp : s.pollLine l = State.readLine { s with pollNext := l + 1 } l := if_neg (by
    show ¬ (s.line l).busy = true
    rw [h]
    decide)
  obtain ⟨hline, hout⟩ := readLine_reads { s with pollNext := l + 1 } l
  rw [hp, hline, hout]
  exact ⟨rfl, List.mem_append_right _ List.mem_cons_self, rfl⟩

/-- A sweep begins once the interval has passed and every read of the last one is over. -/
theorem pollBegin_begins {s : State} (hl : ∀ m ∈ s.linesOn, m < s.pollNext ∧ (s.line m).busy = false)
    (ht : s.pollAt + s.pollSpan ≤ s.now) : s.pollBegin = { s with pollAt := s.now, pollNext := 0 } := by
  refine if_pos ?_
  rw [Bool.and_eq_true, List.all_eq_true]
  exact ⟨decide_eq_true ht, fun m hm => by simp [hl m hm]⟩

/-- The lowest enabled line has the first turn of a sweep that has begun. -/
theorem pollTurn_first {s : State} {l : Nat} (h : s.linesOn.head? = some l) (hn : s.pollNext = 0) (ht : s.pollAt ≤ s.now) :
    ∃ rest, s.pollTurn = l :: rest := by
  obtain ⟨r, hr⟩ := List.head?_eq_some_iff.1 h
  unfold State.pollTurn
  dsimp only
  rw [hr, List.mapIdx_cons, List.filterMap_cons_some (b := l) (by simp [hn, ht])]
  exact ⟨_, rfl⟩

theorem doorbellPoll_reads (s : State) (l : LineNo) (hlive : s.hostLive = true) :
    let span := 1600 * (if s.coherent = true then 1000 else max 1 (min 1000 (s.hifCtl / 16 % 1024)))
    s.linesOn.head? = some l.val → (∀ m ∈ s.linesOn, m < s.pollNext ∧ (s.line m).busy = false) → s.pollAt + span ≤ s.now →
    ∃ u, exec .doorbellPoll s = .next u ∧ (u.line l.val).busy = true ∧ u.pollAt = s.now ∧ s.doorbellFetch l.val ∈ u.out := by
  intro span hhead hlines ht
  have hbegin := pollBegin_begins hlines ht
  obtain ⟨rest, hrest⟩ := pollTurn_first (s := { s with pollAt := s.now, pollNext := 0 }) hhead rfl (le_refl _)
  obtain ⟨r, hr⟩ := List.head?_eq_some_iff.1 hhead
  obtain ⟨-, hidle⟩ := hlines l.val (hr ▸ List.mem_cons_self)
  refine ⟨_, exec_doorbellPoll hlive, ?_⟩
  rw [hbegin, hrest, List.foldl_cons]
  obtain ⟨hbusy, hsent, hat⟩ := pollLine_reads (s := { s with pollAt := s.now, pollNext := 0 }) (l := l.val) hidle
  refine List.foldlRecOn (motive := fun v : State => (v.line l.val).busy = true ∧ v.pollAt = s.now ∧ s.doorbellFetch l.val ∈ v.out)
    rest _ ⟨hbusy, hat, hsent⟩ ?_
  rintro v ⟨hb, ha, ho⟩ m -
  obtain ⟨hb', ho', ha'⟩ := pollLine_keeps v m l.val
  exact ⟨hb' hb, ha'.trans ha, ho'.subset ho⟩

/-! ### DOORBELL_READ (R162, R168) -/

theorem ringWork_askFetch (s : State) (r : Nat) : s.RingWork (s.askFetch r) := by
  unfold State.askFetch
  extract_lets c g size first n a u
  split
  · exact .refl s
  · have hu : s.RingWork u :=
      (ringWork_setRing s (r := r) (g := { s.ring r with asked := (s.ring r).lead }) rfl).trans (ringWork_emit _ _)
    split
    · exact hu
    · exact hu.trans (ringWork_emit _ _)

theorem ring_askFetch_ne (s : State) {r q : Nat} (h : q ≠ r) : (s.askFetch r).ring q = s.ring q := by
  by_cases hm : s.mayFetch r ∧ (s.ring r).asked < (s.ring r).lead
  · rw [askFetch_ring s hm.1 hm.2, ring_setRing_ne _ _ h]
  · rw [askFetch_idle s hm]

/-- An overflow notice is work of the rings that reaches its own event ring and those that take notices (R182, R164). -/
theorem overflowNotice_keeps (s : State) (r : Nat) :
    s.RingWork (s.overflowNotice r) ∧ ∀ q, q ≠ r → s.unnoticed q → (s.overflowNotice r).ring q = s.ring q := by
  unfold State.overflowNotice
  extract_lets c g
  split
  · exact ⟨.refl s, fun _ _ _ => rfl⟩
  · let b := noticeBytes 5 0xFF g.dropped s.lay.time 0 (phaseBit c g.pkgIndex)
    have hwork := ringWork_putEntry s r b false
    have hring (q : Nat) := ring_putEntry_ne s (r := r) (q := q) b false
    split
    · next v e =>
      rw [e] at hwork hring
      exact ⟨hwork.trans (ringWork_setRing v rfl), fun q hq _ => (ring_setRing_ne _ _ hq).trans (hring q hq)⟩
    · next v e =>
      rw [e] at hwork hring
      split
      · exact ⟨hwork, fun q hq _ => hring q hq⟩
      · have hn := notified_noticeTo v 0 4 0xFF r 5
        refine ⟨hwork.trans hn.toRingWork, fun q hq hu => (hn.quiet q ?_).trans (hring q hq)⟩
        rw [State.unnoticed, hring q hq, State.rngCfg, hwork.reg]
        exact hu

/-- What a slot says to one ring leaves the others, but for event rings that take notices. -/
theorem slotSeen_keeps (s : State) (r : Nat) (x : BitVec 32) :
    s.RingWork (s.slotSeen r x) ∧ ∀ q, q ≠ r → s.unnoticed q → (s.slotSeen r x).ring q = s.ring q := by
  have hset (g : Ring) (hg : g.counts = (s.ring r).counts) :
      s.RingWork (s.setRing r g) ∧ ∀ q, q ≠ r → (s.setRing r g).ring q = s.ring q :=
    ⟨ringWork_setRing s hg, fun q hq => ring_setRing_ne _ _ hq⟩
  unfold State.slotSeen
  extract_lets c g lead u
  obtain ⟨hwork, hring⟩ := hset { s.ring r with hostIdx := x } rfl
  obtain ⟨hwork', hring'⟩ := hset { s.ring r with lead := lead, hostIdx := x } rfl
  have hsame : s.RingWork s ∧ ∀ q, q ≠ r → s.unnoticed q → s.ring q = s.ring q := ⟨.refl s, fun _ _ _ => rfl⟩
  split
  · exact hsame
  split
  · split
    · exact ⟨hwork'.trans (ringWork_askFetch _ _), fun q hq _ => (ring_askFetch_ne _ hq).trans (hring' q hq)⟩
    split
    · exact ⟨ringWork_stopRing s r 3, fun q hq hu => ring_stopRing_ne s 3 hq hu⟩
    · exact hsame
  split
  · split
    · obtain ⟨how, hor⟩ := overflowNotice_keeps u r
      refine ⟨hwork.trans how, fun q hq hu => (hor q hq ?_).trans (hring q hq)⟩
      rw [State.unnoticed, show u.ring q = s.ring q from hring q hq]
      exact hu
    · exact ⟨hwork, fun q hq _ => hring q hq⟩
  · exact hsame

/-- A slot gives a submission ring that runs its lead; one that is too large stops it. -/
theorem slotSeen_submission {s : State} {r : Nat} (hk : cfgKind (s.rngCfg r) = 0) (hs : (s.ring r).stopped = false) (x : BitVec 32) :
    let lead := (x - (s.ring r).pkgIndex).toNat
    let g := (s.slotSeen r x).ring r
    (lead < 2 ^ cfgLog2 (s.rngCfg r) → g.lead = lead ∧ g.stopped = false ∧ g.pkgIndex = (s.ring r).pkgIndex) ∧
    (2 ^ cfgLog2 (s.rngCfg r) ≤ lead → lead < 2 ^ 31 → g.stopped = true ∧ g.err = 3) := by
  intro lead g
  have hseen : s.slotSeen r x = if lead < 2 ^ cfgLog2 (s.rngCfg r) then
      (s.setRing r { s.ring r with lead := lead, hostIdx := x }).askFetch r
      else if lead < 2 ^ 31 then s.stopRing r 3 else s := by
    simp only [State.slotSeen, hs, hk]
    rfl
  refine ⟨fun hlt => ?_, fun hge hlt => ?_⟩
  · have hg : g = ((s.setRing r { s.ring r with lead := lead, hostIdx := x }).askFetch r).ring r := by
      rw [← hseen.trans (if_pos hlt)]
    rw [hg]
    rcases askFetch_ring_or (s.setRing r { s.ring r with lead := lead, hostIdx := x }) r r with h | h <;> rw [h, ring_setRing]
    · exact ⟨rfl, hs, rfl⟩
    · exact ⟨rfl, hs, rfl⟩
  · have hg : g = (s.ring r).halted 3 := by
      rw [← ring_stopRing, ← hseen.trans ((if_neg (Nat.not_lt.2 hge)).trans (if_pos hlt))]
    rw [hg]
    exact ⟨rfl, rfl⟩

/-- What a line read acts on: the line's slots as they were read. -/
def State.lineSeen (s : State) (l : Nat) (b : List Byte) : State :=
  let u := s.setLine l { s.line l with seen := lineSlots b }
  if !u.coherent && !(s.line l).seen.isEmpty && (s.line l).seen != lineSlots b then u.raise (1 + l) else u

/-- The slot of ring `r` acts on the ring. -/
def State.slotActs (b : List Byte) (s : State) (r : Nat) : State := s.slotSeen r ((lineSlots b).getD (cfgSlot (s.rngCfg r)) 0)

theorem exec_doorbellRead_ok {s : State} {l : LineNo} (hlive : s.hostLive = true) (hen : lineEn (s.dblCtl l.val) = true) {b : List Byte}
    (hb : b.length = 64) : exec (.doorbellRead l (.ok b)) s =
      .next (((s.ringsOfLine l.val).foldl (State.slotActs b) (s.lineSeen l.val b)).lineDone l.val) := by
  have hrings : (s.lineSeen l.val b).ringsOfLine l.val = s.ringsOfLine l.val := by
    unfold State.lineSeen
    dsimp only
    split
    · obtain ⟨c, hc⟩ := raise_frame (s.setLine l.val { s.line l.val with seen := lineSlots b }) (1 + l.val)
      rw [hc]
      rfl
    · rfl
  rw [← hrings]
  show execDoorbellRead l (.ok b) s = _
  simp only [execDoorbellRead, hlive, hen, hb]
  rfl

theorem lineDone_rings (s : State) (l : Nat) : (s.lineDone l).rings = s.rings := by
  unfold State.lineDone
  dsimp only
  split <;> rfl

theorem ring_lineDone (s : State) (l r : Nat) : (s.lineDone l).ring r = s.ring r := by
  rw [State.ring, lineDone_rings, State.ring]

theorem lineDone_hifErr (s : State) (l : Nat) : (s.lineDone l).hifErr = s.hifErr := by
  unfold State.lineDone
  dsimp only
  split <;> rfl

/-- A fact of one submission ring that the ring's own turn brings about, and keeps, holds after every slot of the line has acted. -/
theorem foldl_slotActs {s : State} {l : List Nat} {r : Nat} {b : List Byte} {P Q : Ring → Prop} (hr : r ∈ l)
    (hk : cfgKind (s.rngCfg r) = 0) (hp : P (s.ring r))
    (hact : ∀ v, s.RingWork v → P (v.ring r) → Q ((State.slotActs b v r).ring r)) (hq : ∀ g, Q g → P g) :
    Q ((l.foldl (State.slotActs b) s).ring r) := by
  have hwork (v : State) (y : Nat) (hv : s.RingWork v) : s.RingWork (State.slotActs b v y) := hv.trans (slotSeen_keeps v y _).1
  have hring (v : State) (y : Nat) (hv : s.RingWork v) (hy : y ≠ r) : (State.slotActs b v y).ring r = v.ring r :=
    (slotSeen_keeps v y _).2 r hy.symm (.inr (by rw [State.rngCfg, hv.reg, ← State.rngCfg, hk]; decide))
  refine (foldl_reaches (I := fun v => s.RingWork v ∧ P (v.ring r)) (P := fun v => s.RingWork v ∧ Q (v.ring r)) s hr
    ⟨.refl s, hp⟩ ?_ (fun v hv => ⟨hwork v r hv.1, hact v hv.1 hv.2⟩) ?_).2
  · rintro v y ⟨hv, hp⟩
    refine ⟨hwork v y hv, ?_⟩
    by_cases hy : y = r
    · rw [hy]
      exact hq _ (hact v hv hp)
    · rw [hring v y hv hy]
      exact hp
  · rintro v y ⟨hv, hvq⟩
    refine ⟨hwork v y hv, ?_⟩
    by_cases hy : y = r
    · rw [hy]
      exact hact v hv (hq _ hvq)
    · rw [hring v y hv hy]
      exact hvq

theorem slot_eq (b : List Byte) (c : Nat) : (lineSlots b).getD (cfgSlot c) 0 = BitVec.ofNat 32 (fieldLE b (8 * cfgSlot c) 4) := by
  have h : cfgSlot c < 8 := Nat.mod_lt _ (by decide)
  simp [lineSlots, List.getD_eq_getElem?_getD, h]

/-- Every submission ring of the line that runs gets its lead, or stops where its lead is too large. -/
theorem slotActs_leads {s : State} {l : List Nat} {r : Nat} (b : List Byte) (hr : r ∈ l) (hk : cfgKind (s.rngCfg r) = 0)
    (hs : (s.ring r).stopped = false) :
    let lead := (BitVec.ofNat 32 (fieldLE b (8 * cfgSlot (s.rngCfg r)) 4) - (s.ring r).pkgIndex).toNat
    let g := (l.foldl (State.slotActs b) s).ring r
    (lead < 2 ^ cfgLog2 (s.rngCfg r) → g.lead = lead ∧ g.stopped = false) ∧
    (2 ^ cfgLog2 (s.rngCfg r) ≤ lead → lead < 2 ^ 31 → g.stopped = true ∧ g.err = 3) := by
  intro lead g
  have hcfg {v : State} (hv : s.RingWork v) : v.rngCfg r = s.rngCfg r := hv.reg _ _
  let x := BitVec.ofNat 32 (fieldLE b (8 * cfgSlot (s.rngCfg r)) 4)
  have hact (v : State) (hv : s.RingWork v) : State.slotActs b v r = v.slotSeen r x := by
    rw [State.slotActs, hcfg hv, slot_eq]
  have hseen (v : State) (hv : s.RingWork v) (hvs : (v.ring r).stopped = false) (hvp : (v.ring r).pkgIndex = (s.ring r).pkgIndex) :
      let g := (v.slotSeen r x).ring r
      (lead < 2 ^ cfgLog2 (s.rngCfg r) → g.lead = lead ∧ g.stopped = false ∧ g.pkgIndex = (s.ring r).pkgIndex) ∧
      (2 ^ cfgLog2 (s.rngCfg r) ≤ lead → lead < 2 ^ 31 → g.stopped = true ∧ g.err = 3) := by
    have h := slotSeen_submission (s := v) (by rw [hcfg hv]; exact hk) hvs x
    rw [hvp, hcfg hv] at h
    exact h
  refine ⟨fun hlt => ?_, fun hge hlt => ?_⟩
  · refine And.imp_right And.left (foldl_slotActs (b := b) (P := fun g => g.stopped = false ∧ g.pkgIndex = (s.ring r).pkgIndex)
      (Q := fun g => g.lead = lead ∧ g.stopped = false ∧ g.pkgIndex = (s.ring r).pkgIndex) hr hk ⟨hs, rfl⟩ ?_ (fun g hg => hg.2))
    rintro v hv ⟨hvs, hvp⟩
    rw [hact v hv]
    exact (hseen v hv hvs hvp).1 hlt
  · refine foldl_slotActs (b := b)
      (P := fun g => (g.stopped = false ∧ g.pkgIndex = (s.ring r).pkgIndex) ∨ (g.stopped = true ∧ g.err = 3))
      (Q := fun g => g.stopped = true ∧ g.err = 3) hr hk (.inl ⟨hs, rfl⟩) ?_ (fun g hg => .inr hg)
    rintro v hv (⟨hvs, hvp⟩ | hdone)
    · rw [hact v hv]
      exact (hseen v hv hvs hvp).2 hge hlt
    · have hidle : State.slotActs b v r = v := if_pos hdone.1
      rw [hidle]
      exact hdone

theorem lineSeen_eq (s : State) (l : Nat) (b : List Byte) :
    ∃ x c, s.lineSeen l b = { s with lines := x, cleat := c } := by
  unfold State.lineSeen
  dsimp only
  split
  · obtain ⟨c, hc⟩ := raise_frame (s.setLine l { s.line l with seen := lineSlots b }) (1 + l)
    exact ⟨_, c, hc⟩
  · exact ⟨_, s.cleat, rfl⟩

theorem doorbellRead_leads (s : State) (l : LineNo) (hlive : s.hostLive = true) (hen : lineEn (s.dblCtl l.val) = true) {b : List Byte}
    (hb : b.length = 64) : ∃ u, exec (.doorbellRead l (.ok b)) s = .next u ∧
      (∀ r ∈ s.ringsOfLine l.val, cfgKind (s.rngCfg r) = 0 → (s.ring r).stopped = false →
        let lead := (BitVec.ofNat 32 (fieldLE b (8 * cfgSlot (s.rngCfg r)) 4) - (s.ring r).pkgIndex).toNat
        (lead < 2 ^ cfgLog2 (s.rngCfg r) → (u.ring r).lead = lead ∧ (u.ring r).stopped = false) ∧
        (2 ^ cfgLog2 (s.rngCfg r) ≤ lead → lead < 2 ^ 31 → (u.ring r).stopped = true ∧ (u.ring r).err = 3)) := by
  refine ⟨_, exec_doorbellRead_ok hlive hen hb, fun r hr hk hs => ?_⟩
  rw [ring_lineDone]
  obtain ⟨x, c, hseen⟩ := lineSeen_eq s l.val b
  rw [hseen]
  exact slotActs_leads (s := { s with lines := x, cleat := c }) b hr hk hs

theorem doorbellRead_fails (s : State) (l : LineNo) (hlive : s.hostLive = true) (hen : lineEn (s.dblCtl l.val) = true) :
    ∃ u, exec (.doorbellRead l .error) s = .next u ∧ u.hifErr.getLsbD 4 = true ∧ u.rings = s.rings := by
  obtain ⟨e, c, h, he⟩ := hifSet_frame s (b := 4) (by decide)
  have hx : exec (.doorbellRead l .error) s = .next ((s.hifSet 4).lineDone l.val) := by
    show execDoorbellRead l .error s = _
    simp only [execDoorbellRead, hlive, hen]
    rfl
  refine ⟨_, hx, ?_⟩
  rw [lineDone_rings, lineDone_hifErr, h]
  exact ⟨he, rfl⟩

/-! ### Messages (R184) -/

/-- An unmasked vector that has sent nothing in this fc sends its message. -/
theorem sendMsix_sends {s : State} {fn vec : Nat} (hm : (SMap.get (true, false) s.msix (fn * 64 + vec)).1 = false)
    (ht : SMap.find? s.msixAt (fn * 64 + vec) ≠ some s.now) :
    let m := SMap.get (0, 0) s.msixTab (fn * 64 + vec)
    (s.sendMsix fn vec).out = s.out ++ [.msix fn vec m.1 m.2] := by
  simp only [State.sendMsix, hm, ht]
  rfl

theorem sendMsix_msix {s : State} {fn vec : Nat} (hm : (SMap.get (true, false) s.msix (fn * 64 + vec)).1 = false) :
    (s.sendMsix fn vec).msix = s.msix := by
  simp only [State.sendMsix, hm]
  rw [if_neg (by decide)]
  split <;> rfl

theorem moderationTimer_sends (s : State) (r : RingNo) {d : Nat} (ht : (s.ring r.val).timer = some d) (hd : d < s.now) :
    let c := s.rngCfg r.val
    ∃ u, exec (.moderationTimer r) s = .next u ∧ (u.ring r.val).unsent = 0 ∧ (u.ring r.val).timer = none ∧
      ((SMap.get (true, false) s.msix (cfgTenant c * 64 + cfgVector c)).1 = false →
        SMap.find? s.msixAt (cfgTenant c * 64 + cfgVector c) ≠ some s.now →
        let m := SMap.get (0, 0) s.msixTab (cfgTenant c * 64 + cfgVector c)
        u.out = s.out ++ [.msix (cfgTenant c) (cfgVector c) m.1 m.2]) := by
  intro c
  have he : exec (.moderationTimer r) s =
      .next ((s.setRing r.val { s.ring r.val with unsent := 0, timer := none }).sendMsix (cfgTenant c) (cfgVector c)) := by
    show execModerationTimer r s = _
    simp only [execModerationTimer, ht, hd, if_true]
    rfl
  refine ⟨_, he, ?_⟩
  rw [ring_sendMsix, ring_setRing]
  exact ⟨rfl, rfl, fun hm hat => sendMsix_sends (s := s.setRing r.val _) hm hat⟩

theorem msixVectorUnmask_sends (s : State) (fn : TenantNo) (vec : BitVec 6) (hb : s.barLive = true) :
    let k := fn.val * 64 + vec.toNat
    ∃ u, exec (.msixVectorUnmask fn vec) s = .next u ∧ SMap.get (true, false) u.msix k = (false, false) ∧
      ((SMap.get (true, false) s.msix k).2 = true → SMap.find? s.msixAt k ≠ some s.now → let m := SMap.get (0, 0) s.msixTab k
        u.out = s.out ++ [.msix fn.val vec.toNat m.1 m.2]) ∧
      ((SMap.get (true, false) s.msix k).2 = false → u.out = s.out) := by
  intro k
  let w : State := { s with msix := SMap.set s.msix k (false, false) }
  have hw : SMap.get (true, false) w.msix k = (false, false) := get_set_same _ _ _ _
  have he : exec (.msixVectorUnmask fn vec) s =
      .next (if (SMap.get (true, false) s.msix k).2 = true then w.sendMsix fn.val vec.toNat else w) := by
    show execMsixVectorUnmask fn vec s = _
    simp only [execMsixVectorUnmask, hb, State.maskVector, Bool.false_and, Bool.not_false, Bool.and_true]
    rfl
  rw [he]
  refine ⟨_, rfl, ?_, fun hp hat => ?_, fun hp => ?_⟩
  · split
    · rw [sendMsix_msix (by rw [hw])]
      exact hw
    · exact hw
  · rw [if_pos hp]
    exact sendMsix_sends (s := w) (by rw [hw]) hat
  · rw [if_neg (by rw [hp]; decide)]

/-- Settles O23: the lines, the set-up of rings, what reads a line and what a read says, then the messages. -/
theorem ringsRun : Obligations.RingsRun := by
  refine fun s => ⟨doorbellLineEnable_takes s,
    fun r v hb hr hv => ⟨ringEnable_good s r v hb hr hv, ringEnable_refuses s r v hb hr hv⟩,
    ringDisable_disables s, fun l hlive hen => ?_, fun r d => moderationTimer_sends s r, msixVectorUnmask_sends s⟩
  exact ⟨snoopInvalidation_reads s l hlive hen, doorbellPoll_reads s l hlive, fun b => doorbellRead_leads s l hlive hen,
    doorbellRead_fails s l hlive hen⟩

end Sys2Proof.Machine
